-- ==== Sys2Proof/Word.lean ====
section
/-! DEFINITION. The words the switch works on: bytes, 32-bit registers, 64-bit pairs, 48-bit epochs. -/

namespace Sys2Proof

/-- One byte (R17). -/
abbrev Byte := BitVec 8
/-- One register: 32 bits wide (R7). -/
abbrev Word := BitVec 32
/-- A _LO/_HI pair (R8). -/
abbrev DWord := BitVec 64
/-- An epoch: 48-bit, counted modulo 2^48 (R278, R279). -/
abbrev Epoch := BitVec 48

end Sys2Proof
end

