-- ==== Sys2Proof/Syntax.lean ====
section
/-! DEFINITION. The commands the block takes: one constructor of `Instr` for each row of the operation table, and the
plain data their operands carry. Operands that are indices (port, lane, host, slot ...) are `Nat`; `WellFormed` gives
their ranges. A row's operands are what arrives from outside the switch with that event, and the readings the
block's own analog parts or its external memories deliver. -/

namespace Sys2Proof

/-- A Nozan frame's header fields and payload (R139). -/
structure Frame where
  typ     : BitVec 4 := 0
  vc      : BitVec 2 := 0
  tc      : BitVec 3 := 0
  poison  : Bool := false
  cm      : Bool := false
  colour  : BitVec 2 := 0
  prot    : Bool := false
  first   : Bool := false
  length  : BitVec 11 := 0
  lseq    : BitVec 16 := 0
  prev    : BitVec 16 := 0
  dstSw   : BitVec 12 := 0
  dstPort : BitVec 7 := 0
  srcSw   : BitVec 12 := 0
  srcPort : BitVec 7 := 0
  epoch   : BitVec 16 := 0
  tspec0  : BitVec 16 := 0
  tspec1  : BitVec 64 := 0
  tspec2  : BitVec 16 := 0
  payload : List Word := []
  deriving DecidableEq, Repr, Inhabited

/-- What link training found and set on a PCI Express lane (R109, R122): polarity corrected, transmitter taps, receiver codes. -/
structure LaneEq where
  lane     : Nat
  inverted : Bool := false
  tx       : Word := 0
  rx       : Word := 0
  deriving DecidableEq, Repr, Inhabited

/-- What the lower layers of a PCI Express link counted since the last such report, in the order of R206 (RX_ERR, BAD_TLP, BAD_DLLP, REPLAY,
REPLAY_ROLL, FEC_CORR, FEC_UNCORR), and the retimers found in training. -/
structure LinkLow where
  retimers : Nat := 0
  counts   : List Nat := []
  deriving DecidableEq, Repr, Inhabited

/-- A margining command of a PCI Express link to a lane's receiver (R129): a capability asked for, the error limit, back to normal settings,
the error log cleared, a step left or right in time, down or up in voltage. -/
inductive MarginCmd where
  | capability (k : Nat) | errorLimit (n : Nat) | normal | clearLog
  | timing (right : Bool) (steps : Nat) | voltage (up : Bool) (steps : Nat)
  deriving DecidableEq, Repr, Inhabited

/-- What the lanes of a Nozan port received, for each position its 10-bit groups in order; bit 9 of a group came first (R113). -/
abbrev LaneGroups := List (List (BitVec 10))

/-- What kind of access a memory request is (R419). -/
inductive AccKind where
  | read | write | atomic | prot
  deriving DecidableEq, Repr, Inhabited

/-- A PCI Express TLP at a port's ingress (R209, R210): the kind of request, address, length in bytes, requester, tag,
byte enables, traffic class, attributes, PASID prefix (PASID, then its Execute and Privileged Mode bits), poison. -/
structure Tlp where
  kind     : AccKind := .read
  addr     : BitVec 64 := 0
  len      : Nat := 4
  reqId    : BitVec 16 := 0
  tag      : BitVec 10 := 0
  firstBe  : BitVec 4 := 0xF
  lastBe   : BitVec 4 := 0
  tcField  : BitVec 3 := 0
  ro       : Bool := false
  ido      : Bool := false
  ns       : Bool := false
  at_      : BitVec 2 := 0
  pasid    : Option (BitVec 22) := none
  ep       : Bool := false
  op       : BitVec 3 := 0
  data     : List Word := []
  deriving DecidableEq, Repr, Inhabited

/-- What a PCI Express ingress received (R178, R443): a memory request, an I/O request, a locked read, or a message that is a PTM Request or of
an unsupported kind, with the words of its header. Configuration requests have a command of their own. -/
inductive TlpIn where
  | mem (t : Tlp)
  | io (t : Tlp)
  | mrdLk (t : Tlp)
  | ptmOrUnknownMsg (hdr : List Word)
  deriving DecidableEq, Repr, Inhabited

/-- A completion as a PCI Express port receives it from a device (R211, R212): tag, status, byte count and lower address, Completer ID,
EP bit, traffic class, attributes, data. -/
structure CplIn where
  tag    : Nat := 0
  status : BitVec 3 := 0
  bc     : BitVec 13 := 0
  low    : BitVec 7 := 0
  cplId  : BitVec 16 := 0
  ep     : Bool := false
  tcl    : BitVec 3 := 0
  ro     : Bool := false
  ido    : Bool := false
  ns     : Bool := false
  data   : List Word := []
  deriving DecidableEq, Repr, Inhabited

/-- A frame or TLP whose header is known before its verdict (R220, R221): a Nozan frame, or a memory request at a PCI Express port. -/
inductive HdrIn where
  | frame (f : Frame)
  | tlp (t : Tlp)
  deriving DecidableEq, Repr, Inhabited

/-- Where a management request came from (R539): host 0-31 and its mailbox slot 0-3, or the board management controller
(`host = 32`) and its MCTP message; TAG of the header word (R537). -/
structure ReqSrc where
  host : Nat
  slot : Nat
  tag  : BitVec 6 := 0
  deriving DecidableEq, Repr, Inhabited

/-- A request of the switch die to the rootstock die over the internal link (R23, R202). -/
inductive RootAct where
  | slotOn (c : Nat)
  | slotOff (c : Nat)
  | indicators (c : Nat) (pwr attn : Bool)
  | heartbeat
  deriving DecidableEq, Repr, Inhabited

/-- How a start step ended: ready, or failed with the port, channel or lane number it names (R85). -/
inductive StepResult where
  | ready
  | failed (n : Nat)
  deriving DecidableEq, Repr, Inhabited

/-- What a shareable device showed as it was taken over (R463, R466): whether it meets R463; of its DVSEC the instances, doorbell pages, page
size as log2, queues and vectors, and the identity that a scion presents; and where its control array, doorbell pages and MSI-X table
stand in the port's address space. -/
structure DevIn where
  dev    : Nat := 0
  meets  : Bool := true
  inst   : Nat := 0
  pages  : Nat := 0
  log2   : Nat := 12
  queues : Nat := 0
  vec    : Nat := 0
  ctrl   : Nat := 0
  db     : Nat := 0
  msix   : Nat := 0
  vendor : BitVec 16 := 0
  device : BitVec 16 := 0
  cls    : BitVec 24 := 0
  ssvid  : BitVec 16 := 0
  ssid   : BitVec 16 := 0
  rev    : BitVec 8 := 0
  deriving DecidableEq, Repr, Inhabited

/-- What the environment reads at the step that just ended, as the step needs it: the bank check's channel, cell and NTC
readings of step 1, the two channels at the end of the isolation test's draw (R85, R363), the straps (R341); the link session drawn
for each Nozan port (R161); what each shareable device showed (R466); each flush target's record block and its largest run of 4 KiB blocks (R90, R330);
the channels, lanes or targets that failed, and the lanes that failed calibration or the targets that are unusable (R85, R91, R325). -/
structure StepReadings where
  bankA    : Nat := 0
  bankB    : Nat := 0
  cells    : List Nat := []
  ntcA     : Int := 250
  ntcB     : Int := 250
  isoA     : Nat := 0
  isoB     : Nat := 0
  straps   : BitVec 16 := 0
  session  : List (Nat × BitVec 16) := []
  devices  : List DevIn := []
  records  : List (Nat × List Byte) := []
  mdts     : List (Nat × Nat) := []
  unready  : List Nat := []
  unusable : List Nat := []
  badItems : List Nat := []
  deriving DecidableEq, Repr, Inhabited

/-- A remote-memory packet as it reaches an engine (R381, R382). -/
structure RmePkt where
  srcSw   : BitVec 12 := 0
  prot    : Bool := false
  cl      : Bool := false
  cm      : Bool := false
  poison  : Bool := false
  epoch   : BitVec 16 := 0
  age     : Nat := 0
  dstConn : BitVec 20 := 0
  srcConn : BitVec 20 := 0
  psn     : BitVec 24 := 0
  last    : Bool := false
  msn     : BitVec 32 := 0
  key     : BitVec 32 := 0
  offset  : BitVec 64 := 0
  pktIdx  : Nat := 0
  lastIdx : Nat := 0
  readLen : Nat := 0
  data    : List Word := []
  deriving DecidableEq, Repr, Inhabited

/-- A work entry of a send queue as the engine fetched it (R376). -/
structure Wqe where
  op        : BitVec 8 := 0
  flags     : BitVec 8 := 0
  conn      : BitVec 32 := 0
  wrId      : BitVec 64 := 0
  localKey  : BitVec 32 := 0
  remoteKey : BitVec 32 := 0
  localOff  : BitVec 64 := 0
  remoteOff : BitVec 64 := 0
  len       : BitVec 32 := 0
  target    : BitVec 16 := 0
  resv      : Bool := false
  ep        : Bool := false
  deriving DecidableEq, Repr, Inhabited

/-- One entry of a hedge rule request (R427, R539). -/
structure HedgeEntry where
  slot  : Nat
  base  : BitVec 64
  limit : BitVec 64
  perm  : BitVec 4
  deriving DecidableEq, Repr, Inhabited

/-- A bridge request's operation (R445). -/
inductive BrgOp where
  | cfgRd | cfgWr | memRd | memWr | ioRd | ioWr | memRdLk | unlock
  deriving DecidableEq, Repr, Inhabited

/-- A bridge request as it stands in a frame (R445); at the near bridge also the host's tag, the vDSP it was made to, `plain`, false
for an AtomicOp or a request with a PASID prefix (R444), and `farUp`, whether the far port is up as the near switch knows it (R176). -/
structure BrgReq where
  op      : BrgOp := .cfgRd
  tag     : BitVec 10 := 0
  be      : BitVec 8 := 0xF
  vdsp    : Nat := 0
  plain   : Bool := true
  reqId   : BitVec 16 := 0
  addr    : BitVec 64 := 0
  locked  : Bool := false
  btag    : Nat := 0
  dwCount : Nat := 1
  farUp   : Bool := true
  host    : Nat := 0
  farSw   : BitVec 12 := 0
  farPort : Nat := 0
  data    : List Word := []
  deriving DecidableEq, Repr, Inhabited

/-- A bridge response's status (R447): a device completion's own status, or one the far bridge made (CPL_ID 0xFFFF). -/
structure BrgResp where
  btag   : Nat := 0
  status : BitVec 3 := 0
  cplId  : BitVec 16 := 0
  final  : Bool := true
  ep     : Bool := false
  data   : List Word := []
  deriving DecidableEq, Repr, Inhabited

/-- A configuration request (R93, R179): of Type 1 or Type 0, with bus, device and function number; the register, named by the structure that
holds it and the offset of its word there, since the spec does not say where a capability stands (`cap` is 0 for the header, the ID of a
capability, or the ID of an extended capability plus 0x100); byte enables; the word of a write; Requester ID and tag. -/
structure CfgIn where
  type1 : Bool := true
  bus   : Nat := 0
  dev   : Nat := 0
  fn    : Nat := 0
  cap   : Nat := 0
  off   : Nat := 0
  be    : BitVec 4 := 0xF
  wr    : Option Word := none
  reqId : BitVec 16 := 0
  tag   : BitVec 10 := 0
  deriving DecidableEq, Repr, Inhabited

/-- Why DPC of a port may trigger (R198): an uncorrectable error detected, by its bit in the AER status register and with the header of the
TLP it was found in; an ERR_FATAL or ERR_NONFATAL message from below; Surprise Down; software. -/
inductive DpcCause where
  | detected (bit : Nat) (hdr : List Word)
  | message (fatal : Bool)
  | surpriseDown
  | software
  deriving DecidableEq, Repr, Inhabited

/-- A fault source, as FAULT_ARRIVAL names it (R512 to R514): unit number, code, class (1 C, 2 U, 3 F), zone kind, zone
ID and address; of a scion's zone, the host that held the scion when the fault occurred (R513). -/
structure FaultSrc where
  unit  : Nat
  code  : BitVec 8
  cls   : BitVec 2
  zone  : BitVec 3
  zid   : BitVec 20
  addr  : BitVec 64
  holder : Option (BitVec 5) := none
  deriving DecidableEq, Repr, Inhabited

/-- Every command of the switch: one constructor for each row of spec/opcode_table.json, in the table's order. -/
inductive Instr where
  -- registers (R6 to R14)
  | bar0MalformedAccess (host req off len : Nat)
  | pairLoRead (host req off : Nat)
  | pairHiRead (host req off : Nat)
  | pairLoWrite (host req off : Nat) (v : Word)
  | pairHiWrite (host req off : Nat) (v : Word)
  | pairWideAccess (host req off : Nat) (wr : Option DWord)
  | rcFieldRead (host req off : Nat) (wide : Bool)
  | registerWrite (host off : Nat) (v collide : Word)
  -- the rootstock die and starts (R23, R78 to R105)
  | internalLinkSilent
  | rootstockActionRequest (act : RootAct)
  | vauxRise
  | vauxFall
  | sysRstAssert (lowNs : Nat) (selfRefresh : BitVec 4)
  | retentionWindowExpiry
  | warmReset (q : ReqSrc)
  | warmQuiesceDone (selfRefresh : BitVec 4)
  | watchdogExpiry (selfRefresh : BitVec 4)
  | watchdogKick
  | warmStartDeadline
  | startStepReady (r : StepResult) (rd : StepReadings)
  | regulatorRetryWaitExpiry
  | seedBurstDone (flashAddr : Nat)
  | seedBurstTimeout (flashAddr : Nat)
  | flushTargetWaitExpiry (t : Nat)
  | recordConsume (q : ReqSrc)
  | targetAck (q : ReqSrc) (t : Nat)
  | snapshotTake
  | snapshotComplete
  | viewAgeSnapshot
  -- seed update (R71)
  | seedBegin (q : ReqSrc) (copy : Nat)
  | seedEraseDone (ok : Bool)
  | seedWrite (q : ReqSrc) (off : Nat) (data : List Word)
  | seedEnd (q : ReqSrc)
  | seedProgramDone (ok : Bool)
  -- lanes (R106 to R135)
  | pgRefEdgeLoss (k : Nat)
  | pgRefWindow (k : Nat) (offset : BitVec 16) (spread : BitVec 16)
  | pgRefRestored (k : Nat)
  | alnTransmit (p : Nat)
  | alnReceive (p : Nat) (g : LaneGroups) (inFrame : Bool) (drift : List Int) (at_ : List Nat)
  | elasticBufferSlip (lane : Nat)
  | laneTestStart (lane : Nat) (v : Word)
  | laneTestStop (lane : Nat) (v : Word)
  | prbsCheckerLock (lane : Nat) (bits : List Bool)
  | prbsLockLoss (lane : Nat) (bits : List Bool)
  | injectShot (lane : Nat)
  | injectRateTick (lane : Nat)
  | marginStart (lane : Nat) (v : Word)
  | marginDone (lane : Nat) (errs : Nat) (blocks : Nat)
  | linkMarginCommand (lane : Nat) (c : MarginCmd) (eyes : List Nat)
  -- Nozan link layer (R136 to R173)
  | dataFrameReceive (p : Nat) (g : LaneGroups)
  | lcfReceive (p : Nat) (g : LaneGroups)
  | lcfAckDelayExpiry (p : Nat)
  | lcfPeriodExpiry (p : Nat)
  | nakRepeatExpiry (p : Nat)
  | replayTimerExpiry (p : Nat)
  | dataFrameTransmit (p : Nat)
  | laneLockLossTimeout (lane : Nat)
  | downIdleExpiry (p : Nat)
  | sequenceHoldExpiry (p : Nat) (session : BitVec 16)
  | signalPresent (p : Nat)
  | trainingStepDone (p : Nat) (lanesUp inverted : List Nat) (skew : Nat)
  | trainingStepTimeout (p : Nat) (skew : Nat)
  | trainingRetryExpiry (p : Nat)
  | laneSetReceive (p : Nat) (g : LaneGroups)
  | peerSwReceive (p : Nat) (g : LaneGroups)
  | peerPortReceive (p : Nat) (g : LaneGroups)
  | sessionReceive (p : Nat) (g : LaneGroups)
  | presetReqReceive (p : Nat) (g : LaneGroups)
  | presetAckReceive (p : Nat) (g : LaneGroups)
  | presetAdaptExpiry (p : Nat) (eye : Nat)
  | readyReceive (p : Nat) (g : LaneGroups) (newSession : BitVec 16)
  | nzlResetGo (p : Nat) (v : Word)
  | bringupResetBegin (p : Nat)
  | lrsReceive (p : Nat) (g : LaneGroups)
  | lrsAckTimeout (p : Nat)
  | sleepReqReceive (p : Nat) (g : LaneGroups)
  | sleepAckReceive (p : Nat) (g : LaneGroups)
  | sleepNakReceive (p : Nat) (g : LaneGroups)
  | wakeReceive (p : Nat)
  | wakeSendEnd (p : Nat)
  -- PCI Express ports and the MEF (R174 to R208)
  | configRequest (p : Nat) (c : CfgIn)
  | mefMemoryRequest (host : Nat) (posted : Bool) (bar off : Nat) (prot : Bool) (reqId : BitVec 16) (tag : BitVec 10) (v : Word)
  | msixSend (host v : Nat)
  | pmeSignal (host : Nat)
  | pmeTurnOff (host : Nat)
  | d3hotToD0 (host : Nat)
  | bmeClear (host : Nat)
  | bmeSet (host : Nat)
  | mefCompletionReceive (host : Nat) (tag : Nat) (ok poison : Bool) (data : List Word)
  | mefCompletionTimeout (host : Nat) (tag : Nat)
  | functionLevelReset (host : Nat)
  | flrDrainExpiry (host : Nat)
  | upstreamLinkDown (host : Nat)
  | hotReset (host : Nat)
  | vdspRetrainLink (host j : Nat)
  | vdspLinkDisable (host j : Nat)
  | pcieLinkRetrain (p : Nat) (v : Word)
  | dpcTrigger (p : Nat) (c : DpcCause)
  | dpcRelease (p : Nat)
  | powerControllerOff (host j : Nat)
  | powerControllerOn (host j : Nat)
  -- forwarding (R209 to R245)
  | tlpReceive (p : Nat) (t : TlpIn)
  | frameHeaderKnown (p : Nat) (h : Option HdrIn) (checksAgree : Bool) (fc : BitVec 3) (parity : Nat)
  | ingressVerdict (p : Nat) (good : Bool) (flip : BitVec 268) (addrFlip : BitVec 20) (wordIdx parity : Nat) (late : Bool)
  | egressFrameBoundary (p : Nat) (flip : BitVec 268) (addrFlip : BitVec 20) (wordIdx : Nat) (parity : Nat) (fc : BitVec 3)
  | nonpostedIssue (p : Nat) (reqId : BitVec 16) (tag : BitVec 10) (srcSw : BitVec 12) (srcPort : BitVec 7)
  | deviceCompletionReceive (p : Nat) (c : CplIn)
  | linkStateReceive (p : Nat) (origin : BitVec 12) (start seq : Word) (adj : List (BitVec 12 × BitVec 7))
  | discoveryQuietExpiry
  | discoveryPartialExpiry
  | adjacencyDownExpiry (p : Nat)
  -- scheduling, meters, shapers, the ledger (R246 to R267)
  | meterTokenTick
  | shaperRefill
  | shaper (q : ReqSrc) (p t : Nat) (rate : BitVec 21) (size : BitVec 18) (fill : Bool)
  | bankVoltageSample (a b : Nat) (validA validB : Bool)
  | ledgerSample
  | admitReceive (region originHost : Nat) (openB held deficit : Bool) (block : BitVec 3) (allow : Nat)
  | admitHoldoffExpiry (region : Nat)
  | admitRepeatExpiry
  -- landing and epochs (R268 to R310)
  | protectedWriteIngress (p host : Nat) (reqId : BitVec 16) (off len : Nat) (beOk : Bool) (release : Bool) (data : List (BitVec 256)) (poison : Bool) (tc : BitVec 3)
  | vc1InputArrive (p : Nat) (flip : BitVec 268) (addrFlip : BitVec 20) (wordIdx : Nat) (parity : Nat)
  | writeLanded
  | epochTimerExpiry
  | markerReceive (p : Nat) (e : Epoch) (catchup : Bool)
  | markerSend (p : Nat)
  | lossReceive (e : Epoch) (reqId : BitVec 16) (srcPort : BitVec 7) (kind : BitVec 3) (home : BitVec 12) (n : Nat)
  | reportReceive (child : Nat) (e : Epoch) (sent landed lost : Nat) (bitmap : DWord) (maxSe : Epoch) (term : BitVec 16) (update : Bool)
  | unattrWaitExpiry (e : Epoch)
  | clusterSealPeriodExpiry
  | clusterSealReceive (e : Epoch) (set : DWord) (term : BitVec 16) (unattr : Bool) (leader : BitVec 12)
  | failoverTimeout
  | claimReceive (sw : BitVec 12) (se : Epoch) (term : BitVec 16)
  | memberRemovalExpiry (m : Nat)
  | rejoinReceive (sw : BitVec 12) (se eOpen : Epoch) (kept : Bool)
  | includeReceive (eJoin : Epoch) (set : DWord) (term : BitVec 16) (clusterSe : Epoch)
  | regionLostReceive (se : Epoch) (region host : Nat)
  | durabilityFence (host : Nat) (reqId : BitVec 16) (wide : Bool)
  | fenceTimeout (host : Nat)
  | connFenceRead (host : Nat) (reqId : BitVec 16) (i : Nat) (wide : Bool)
  | bar2Read (host : Nat) (reqId : BitVec 16) (tag : BitVec 10) (off len : Nat)
  | bar2ReadAbort (host : Nat)
  | landRelease (host : Nat) (req : Nat) (hi : Word)
  | patrolRead (w : Nat) (flip : BitVec 288) (addrFlip : BitVec 26)
  | landDiagGo (v : Word) (flip : BitVec 288)
  | dramChannelFail (c : Nat)
  -- brace, cut and flush (R311 to R337)
  | inputDip (mv : Nat)
  | braceQualified
  | braceReceive (sender : BitVec 12) (fromLeader : Bool) (id : BitVec 16) (term : BitVec 16) (own : Bool) (se : Epoch)
  | pendDrained
  | highReceive (child : Nat) (h : Epoch) (id term : BitVec 16) (bitmap : DWord)
  | cutDeadlineExpiry
  | localCutExpiry
  | cutReceive (c : Epoch) (id term : BitVec 16) (partial_ : Bool) (leader : BitVec 12) (bitmap : DWord)
  | inputRise (mv : Nat)
  | standDownQualified
  | recoveredReceive (sender : BitVec 12) (id : BitVec 16)
  | standDownReceive (c : Epoch) (id term : BitVec 16)
  | switchoverLevel
  | braceLimitExpiry
  | commitReceive (c : Epoch) (id term : BitVec 16) (sender : BitVec 12) (cause : Bool)
  | flushCommandComplete (t i : Nat) (ok : Bool)
  | flushTargetStall (t : Nat)
  | inputGoodHoldExpiry
  | bankAtVmin
  | flushTargetLinkDown (t : Nat)
  | pfailReadGo (v : Word)
  | pfailReadDone (ok : Bool) (data : List Word)
  | imageCopy (q : ReqSrc) (t lba cnt : Nat) (addr : BitVec 64) (pasid : Option (BitVec 20))
  -- slots and the bank (R338 to R369)
  | prsntAssert (c : Nat)
  | prsntDeassert (c : Nat)
  | seatingComplete (c : Nat)
  | preTurnOnCheckDone (c : Nat)
  | preTurnOnCheckTimeout (c : Nat)
  | gateThresholdExpiry (c : Nat)
  | outputReachesPgLevel (c : Nat)
  | pgWindowComplete (c : Nat)
  | noRampExpiry (c : Nat)
  | perstReleaseExpiry (c : Nat)
  | limitEntry (c : Nat)
  | limitExit (c : Nat) (countedUs : Nat)
  | outOfLimitReset (c : Nat)
  | faultTimerExpiry (c : Nat)
  | fastComparatorTrip (c : Nat)
  | monitorAdcReading (c ma vout : Nat)
  | cooldownExpiry (c : Nat)
  | attentionButtonPress (c : Nat)
  | prsntAbsentExpiry (c : Nat)
  | gateRemovalExpiry (c : Nat)
  | offStateDrainExpiry (c : Nat) (below : Bool)
  | offStateOutputHigh (c : Nat)
  | slotPower (q : ReqSrc) (c : Nat) (on : Bool)
  | cellReading (mv : List Int)
  | ntcReading (a b : Int)
  | chargerCurrentLow
  | cellOvervoltageTrip (i : Nat)
  | bankOvervoltageTrip
  | bankRiseChargerOff
  | reverseCurrentTrip
  | dischargeOvercurrentTrip
  | protectionAutoClear (code : BitVec 4)
  | bankClear (q : ReqSrc)
  | rcClockFault (dev : BitVec 16)
  | xtalLoss
  -- remote memory engines (R370 to R414)
  | sqTailWrite (host sq : Nat) (v : Word)
  | cqHeadWrite (host cq : Nat) (v : Word)
  | cqArmWrite (host cq : Nat) (v : Word)
  | wqeFetchDone (host sq : Nat) (w : Wqe)
  | cqeWrite (host cq : Nat)
  | rmePacketSend (eng conn : Nat)
  | rmeWriteReceive (eng : Nat) (k : RmePkt)
  | readReqReceive (eng : Nat) (k : RmePkt)
  | readRespReceive (eng : Nat) (k : RmePkt)
  | ctrlReceive (eng : Nat) (k : RmePkt)
  | rmeAckReceive (conn : Nat) (cum : BitVec 24) (status : BitVec 8) (errPsn : BitVec 24) (marked covered : Nat) (bitmap : BitVec 511) (srcSw : BitVec 12) (poison : Bool)
  | nakListReceive (conn : Nat) (cum : BitVec 24) (status : BitVec 8) (psns : List (BitVec 24 × Nat)) (poison : Bool)
  | landedReceive (conn : Nat) (status : BitVec 8) (entries : List (BitVec 24 × Nat)) (poison : Bool)
  | clAckReceive (eng : Nat) (srcSw : BitVec 12) (msgId : BitVec 32) (received : BitVec 16) (status : BitVec 8) (result : Word) (poison : Bool)
  | rmeAckDelayExpiry (conn : Nat)
  | nakListExpiry (conn : Nat) (psn : BitVec 24)
  | rtoExpiry (conn : Nat)
  | rateIncreaseExpiry (conn : Nat)
  | landedReportExpiry (srcSw conn : Nat)
  | clResendExpiry (eng : Nat) (msgId : BitVec 32)
  | clAckDelayExpiry (eng : Nat) (key : Nat)
  | clEntryExpiry (eng : Nat) (key : Nat)
  | contextFillDone (conn : Nat) (slot : List Word) (readOk ep : Bool)
  | contextSpillDone (conn : Nat)
  | compostAdd (q : ReqSrc) (pos : Nat) (base : BitVec 64) (log2 : Nat) (pasid : Option (BitVec 20))
  | compostRemove (q : ReqSrc) (pos : Nat)
  | sqCreate (q : ReqSrc) (base : BitVec 64) (log2 cq tc : Nat) (pasid : BitVec 20)
  | cqCreate (q : ReqSrc) (base : BitVec 64) (log2 vec : Nat) (pasid : BitVec 20)
  | queueDestroy (q : ReqSrc) (isCq : Bool) (n : Nat)
  | connCreate (q : ReqSrc) (prot : Bool)
  | connConnect (q : ReqSrc) (conn : Nat) (peerSw : BitVec 12) (peerConn : BitVec 20)
  | connClose (q : ReqSrc) (conn : Nat)
  | regRegion (q : ReqSrc) (landing : Bool) (base len : Nat) (pasid : Option (BitVec 20)) (perm peers : Nat) (peerSw : BitVec 12)
  | revokeRegion (q : ReqSrc) (key : BitVec 32)
  | regionOutstandingZero (idx : Nat)
  | regionQueryExpiry (key : BitVec 32)
  | connCloseExpiry (host : Nat)
  -- hedge units and peer windows (R415 to R442)
  | hedgeRule (q : ReqSrc) (unit : Nat) (es : List HedgeEntry)
  | hedgeInflightDrained (unit : Nat)
  | hedgeHoldExpiry (unit : Nat)
  | hedgeRetryExpiry (unit : Nat)
  | pwSet (q : ReqSrc) (w : Nat) (valid : Bool) (srcBase srcLimit tgtBase : BitVec 64) (target : Nat)
  | pwCommit (q : ReqSrc)
  -- the cross-fabric bridge (R443 to R462)
  | bridgeRequest (r : BrgReq)
  | bridgeFrameReceive (srcSw : BitVec 12) (r : BrgReq)
  | bridgeFarIssue (p : Nat)
  | bridgeResponseReceive (r : BrgResp)
  | bridgeTimeout (btag : Nat)
  | bridgeBusyRetryExpiry (btag : Nat)
  | bridgeResponseStall (btag : Nat)
  | legacyMrdlk (r : BrgReq)
  | memRdLkReceive (srcSw : BitVec 12) (r : BrgReq)
  | legacyUnlock
  | unlockReceive (srcSw : BitVec 12) (r : BrgReq)
  | lockBackoffExpiry
  | lockIdleExpiry
  -- scions (R463 to R487)
  | scionCreate (q : ReqSrc) (dev vdsp dbCount vecCount queues cells : Nat) (rate : BitVec 21) (size : BitVec 18) (evVec : Nat)
  | scionReset (q : ReqSrc) (sc : Nat)
  | scionRemove (q : ReqSrc) (sc : Nat)
  | scionShape (q : ReqSrc) (sc : Nat) (rate : BitVec 21) (size : BitVec 18) (fill : Bool)
  | dirtyStart (q : ReqSrc) (sc : Nat) (base : BitVec 64) (log2 : Nat) (bufA bufB : BitVec 64) (pasid : Option (BitVec 20))
  | dirtyStop (q : ReqSrc) (sc : Nat)
  | dirtySync (q : ReqSrc) (sc : Nat)
  | dirtyWordFill (sc : Nat) (wordIdx : Nat) (data : BitVec 64)
  | scionQuiesced (sc : Nat)
  | scionQuiesceTimeout (sc : Nat)
  | scionTagHoldExpiry (sc tag : Nat)
  | scionHostRequest (sc : Nat) (off : Nat) (t : Tlp)
  | scionDeviceRequest (p : Nat) (t : Tlp)
  | scionDeviceMsix (p : Nat) (v : Nat)
  | scionQueueWaitExpiry (sc : Nat)
  | sharedPortTrigger (p : Nat)
  | sharedPortRetrainExpiry (p : Nat) (ok : Bool)
  -- power states and clocks (R488 to R510)
  | p1IdleExpiry
  | p1Exit
  | pwrCtrlGoP2 (p1En : Bool)
  | pwrCtrlGoP3 (p1En : Bool) (selfRefresh : BitVec 4)
  | pwrCtrlGoP4 (p1En : Bool)
  | powerState (q : ReqSrc) (target : Nat) (selfRefresh : BitVec 4)
  | stateEntryComplete (waiting : Option (Nat × Nat))
  | wakeEvent (code n : Nat) (lastCycles : Bool)
  | avsEvaluationExpiry (osc : BitVec 10)
  | avsStepExpiry
  | pmbusChangeAck (rail : Nat) (mv : BitVec 16) (status : BitVec 16)
  | pmbusAckTimeout (rail : Nat)
  | clockCheckTick (xtalOk : Bool)
  | pllLockLoss (n : Nat)
  | thermalReading (degs : List Int)
  | thermalBraceExpiry
  | thermalCoolExpiry
  -- faults, counters, harvest (R511 to R533)
  | faultArrival (f : FaultSrc)
  | errNPulseEnd
  | errNClear
  | faultRecordClear (unit : Nat)
  | counterOvfClear (g j : Nat) (wraps : Bool)
  | xoffReceive
  | xonReceive
  | harvestFlowLostExpiry
  | harvestRecordEnd
  | harvestDropExpiry
  | harvestSnapshotExpiry
  -- management (R534 to R550)
  | mbRing (host slot : Nat)
  | mbAck (host slot : Nat)
  | mctpRequest (slot : Nat) (words : List Word)
  | getStatus (q : ReqSrc)
  | view (q : ReqSrc) (kind first : Nat)
  | provision (q : ReqSrc) (h0 h1 : BitVec 256) (secret : BitVec 256)
  | counterRead (q : ReqSrc) (g : Nat)
  | counterMap (q : ReqSrc) (g : Nat)
  | counterUnmap (q : ReqSrc) (g : Nat)
  | attest (q : ReqSrc) (nonce : BitVec 256)
  | attestLeafConfirm
  | attestLeafTimeout
  -- late rows of the table
  | pcieDlUp (p : Nat) (rate : BitVec 3) (width : BitVec 2) (flit : Bool) (lanes : List LaneEq) (low : LinkLow)
  | pcieL1Entry (p : Nat) (sub : Bool)
  | p2L1WaitExpiry (p : Nat)
  | rcClockRestored
  | setEndpointId (eid : Byte)
  | bringupMemberDownExpiry (p : Nat)
  | upWakePulseExpiry (host : Nat)
  deriving DecidableEq, Repr, Inhabited

end Sys2Proof
end

