-- ==== Sys2Proof/Decode.lean ====
section
/-! DEFINITION. Reading a command from a word of the operation table. -/

namespace Sys2Proof

/-- The command that a word of `nbits` bits spells. The rows of spec/opcode_table.json give no bits (a command arrives as an
event, not as a word), so no word spells one. -/
def decodeTableWord (_nbits _w : Nat) : Option Instr := none

end Sys2Proof
end

