-- ==== Sys2Proof/Machine/Bits.lean ====
section
/-! DEFINITION. Bit fields of a register, saturating counts, and the halves of a pair (R7, R8, R17). -/

namespace Sys2Proof.Machine

/-- Bits [hi:lo] of a register (R17). -/
def getF (v : Word) (hi lo : Nat) : Nat := v.toNat / 2 ^ lo % 2 ^ (hi + 1 - lo)

/-- A register with bits [hi:lo] replaced by the low bits of `n`. -/
def setF (v : Word) (hi lo n : Nat) : Word :=
  BitVec.ofNat 32 (v.toNat - getF v hi lo * 2 ^ lo + n % 2 ^ (hi + 1 - lo) * 2 ^ lo)

/-- Bit i of a register. -/
def getB (v : Word) (i : Nat) : Bool := getF v i i == 1

/-- A register with bit i replaced. -/
def setB (v : Word) (i : Nat) (b : Bool) : Word := setF v i i b.toNat

/-- A word from a natural number, modulo 2^32. -/
def w32 (n : Nat) : Word := BitVec.ofNat 32 n

/-- The low half of a 64-bit value (R8). -/
def lo32 (n : Nat) : Word := BitVec.ofNat 32 n
/-- The high half of a 64-bit value (R8). -/
def hi32 (n : Nat) : Word := BitVec.ofNat 32 (n / 2 ^ 32)

/-- The bits of `old` outside `mask`, with those of `new` inside it. -/
def mergeW (old new mask : Word) : Word := (old &&& ~~~mask) ||| (new &&& mask)

/-- Bit `i` of a natural number. -/
def bitN (n i : Nat) : Bool := n / 2 ^ i % 2 == 1

/-- A natural number with bit `i` set or cleared. -/
def setBitN (n i : Nat) (b : Bool) : Nat := n - (n / 2 ^ i % 2) * 2 ^ i + b.toNat * 2 ^ i

/-- The bits set in the low `w` bits of a number. -/
def popN : Nat → Nat → Nat
  | 0, _ => 0
  | w + 1, n => n % 2 + popN w (n / 2)

/-- The indices below `w` of the bits set in a number. -/
def bitsOf (w n : Nat) : List Nat := (List.range w).filter (bitN n)

/-- The first number from `i` on that satisfies `p`, among `fuel` numbers. -/
def searchUp (p : Nat → Bool) : Nat → Nat → Option Nat
  | 0, _ => none
  | fuel + 1, i => if p i then some i else searchUp p fuel (i + 1)

/-- Two's complement of an integer in `w` bits. -/
def twos (w : Nat) (i : Int) : Nat := (i % (2 ^ w : Nat)).toNat

/-- The integer a `w`-bit two's complement number stands for. -/
def ofTwos (w n : Nat) : Int := if n % 2 ^ w < 2 ^ (w - 1) then (n % 2 ^ w : Nat) else (n % 2 ^ w : Nat) - (2 ^ w : Nat)

/-- A sum that stops at `cap`. -/
def satAdd (cap a n : Nat) : Nat := if a + n ≤ cap then a + n else cap

/-! ### CRC-32 (R142) -/

/-- One bit of CRC-32 of IEEE 802.3, least significant bit first. -/
def crc32Bit (c : Nat) (b : Bool) : Nat :=
  let low := c % 2 == 1
  if low ≠ b then c / 2 ^^^ 0xEDB88320 else c / 2

/-- CRC-32 over one byte. -/
def crc32Byte (c : Nat) (b : Byte) : Nat :=
  [0, 1, 2, 3, 4, 5, 6, 7].foldl (fun c i => crc32Bit c (bitN b.toNat i)) c

/-- CRC-32 of R142 over bytes: initial value 0xFFFF_FFFF, complemented. -/
def crc32 (bs : List Byte) : Nat := bs.foldl crc32Byte 0xFFFFFFFF ^^^ 0xFFFFFFFF

end Sys2Proof.Machine
end

