-- ==== Sys2Proof/Config.lean ====
section
/-! DEFINITION. What the seed image fixes for a start, what the spec leaves to the implementation, and the values it leaves
open. Every constant here is opaque: no proof can see its value, and a statement that holds of the model holds whatever
it is. -/

namespace Sys2Proof.Config

/-- What stands behind a virtual downstream port (R176): `kind` 0 nothing, 1 a host-assigned port of this switch, 2 a device
on another switch (its port, and the remote hedge slot 80-111 that names it), 3 a scion position. -/
structure VdspBind where
  kind : Nat := 0
  port : Nat := 0
  sw   : Nat := 0
  slot : Nat := 0
  deriving DecidableEq, Repr, Inhabited

/-- A host partition and its envelopes (R65, R66). Ranges of peer windows are (target slot, base, limit); `kinds` are the bits R, W, P and L
of PERM that a registration may have (R402). -/
structure HostPol where
  present    : Bool := false
  upPort     : Nat := 0
  vdsps      : List VdspBind := []
  quota      : Nat := 0
  homeSw     : Nat := 0
  region     : Nat := 0
  basePage   : Nat := 0
  maxRegions : Nat := 0
  maxBytes   : Nat := 0
  kinds      : Nat := 0
  maxAreas   : Nat := 0
  pwRanges   : List (Nat × Nat × Nat) := []
  bridge     : List (Nat × Nat) := []
  deriving DecidableEq, Repr, Inhabited

/-- A host's share of a shareable device (R65): scions, doorbell pages, vectors, queues, the shaper ceiling, cells. -/
structure DevEnv where
  scions : Nat := 0
  db     : Nat := 0
  vec    : Nat := 0
  queues : Nat := 0
  rate   : Nat := 0
  cells  : Nat := 0
  deriving DecidableEq, Repr, Inhabited

/-- A shareable device of the DEVICES section (R467): its port, its pool of scions, doorbell pages, queues, vectors and cells, the highest
shaper rate of a scion, and each host's envelope. -/
structure DevPol where
  present : Bool := false
  port    : Nat := 0
  scions  : Nat := 0
  db      : Nat := 0
  queues  : Nat := 0
  vec     : Nat := 0
  cells   : Nat := 0
  rateMax : Nat := 0
  hosts   : List (Nat × DevEnv) := []
  deriving DecidableEq, Repr, Inhabited

/-- The policy of a copy that passed its checks: the value of every register marked "loaded", and the items no register
shows. `shBounds` gives, per queue 8 port + class, the largest R and S a shaper request may set (R256). -/
structure Policy where
  regs       : List (Nat × Word) := []
  switchId   : Nat := 0
  leaders    : List Nat := []
  manager    : Nat := 0
  hosts      : List (Nat × HostPol) := []
  neighbours : List (Nat × Nat) := []
  permitted  : List Nat := []
  rights     : List (Nat × Nat × Nat) := []
  devs       : List (Nat × DevPol) := []
  nzPorts    : List Nat := []
  pciePorts  : List Nat := []
  shBounds   : List (Nat × Nat × Nat) := []
  targets    : Nat := 0
  members    : Nat := 0
  regions    : Nat := 0
  firmware   : BitVec 256 := 0
  allowUpdate : Bool := false
  consistent : Bool := true
  deriving DecidableEq, Repr, Inhabited

/-- The policy that the sections of a copy (type, bytes) spell, where their contents can be decoded. The byte layouts of the
sections are the builder's, but for those that the spec gives; `consistent` is the verdict on the length and the encodings of the
others (R64). -/
opaque decodePolicy : List (Nat × List (BitVec 8)) → Option Policy
/-- Where the hedge part begins in the bytes of an ENVELOPES section (R426). -/
opaque hedgePart : List (BitVec 8) → Nat

/-- A fresh undefined value: the model's free-value counter picks it. -/
opaque freeValue : Nat → BitVec 256

/-- What the spec leaves to the implementation in a configuration register, by function, structure and offset: where capabilities stand and
their versions, subsystem and port numbers. -/
opaque cfgOpen : Nat → Nat → Nat → BitVec 32
/-- The stepping in GLB_ID (R101), fixed by the die. -/
opaque stepping : BitVec 4
/-- GLB_UID, the die's unique identifier fuses (R101). -/
opaque uid : BitVec 64

/-- SHAKE256 with 256-bit output over a byte string (R51, R53, R69). -/
opaque shake256 : List (BitVec 8) → BitVec 256
/-- XMSS signature verification per RFC 8391: PUBKEY, SIGNATURE, the signed region (R54 step 5). -/
opaque xmssVerify : List (BitVec 8) → List (BitVec 8) → List (BitVec 8) → Bool
/-- The 64 bytes of root and public seed of the attestation key that a secret fixes (R544). -/
opaque attestKey : BitVec 256 → BitVec 512
/-- The XMSS signature with a secret, a leaf index and a message, 2,820 bytes (R545). -/
opaque xmssSign : BitVec 256 → Nat → List (BitVec 8) → BitVec 22560
/-- TAG of a compost slot: the first 128 bits of SHAKE256 over the secret and the slot's bytes (R388), over the
slot's words 0 to 59. -/
opaque slotTag : BitVec 256 → List (BitVec 32) → BitVec 128

end Sys2Proof.Config
end

