-- ==== Sys2Proof/Machine/Coding.lean ====
section
/-! DEFINITION. The line coding of Nozan lanes: the 8b/10b code of IEEE 802.3 Clause 36 with the control symbols of R114, its running
disparity (R113), the check of received groups (R116), and the patterns of the lane tests (R124). -/

namespace Sys2Proof.Machine

open Sys2Proof

/-- A 10-bit group: bit 9 is bit a, which the lane transmits first, and bit 0 is bit j (R113). -/
abbrev Group := BitVec 10

/-- What a group delivers: a data byte Dx.y, a control symbol by its byte, or an error marker (R113, R114, R116). -/
inductive Sym where
  | data (b : Byte) | k (b : Byte) | err
  deriving DecidableEq, Repr, Inhabited

/-- The control symbols of R114, by byte, each with its group at negative running disparity. -/
def kCodes : List (Byte × Group) :=
  [ (0xBC, 0b0011111010), (0xFB, 0b1101101000), (0xFD, 0b1011101000), (0xFE, 0b0111101000), (0x1C, 0b0011110100),
    (0x3C, 0b0011111001), (0x7C, 0b0011110011), (0xF7, 0b1110101000) ]

/-- Comma, start of frame, end of good and of stomped frame, filler, starts of LCS and LRS, wake element (R114). -/
def kALN : Sym := .k 0xBC
def kSOF : Sym := .k 0xFB
def kEOF : Sym := .k 0xFD
def kEOS : Sym := .k 0xFE
def kFIL : Sym := .k 0x1C
def kLCS : Sym := .k 0x3C
def kLRS : Sym := .k 0x7C
def kWAKE : Sym := .k 0xF7

/-- abcdei of D0.y to D31.y at negative running disparity (PRESUMED, log entry 96: the table of IEEE 802.3 Clause 36). -/
def sixCodes : List Nat :=
  [ 0b100111, 0b011101, 0b101101, 0b110001, 0b110101, 0b101001, 0b011001, 0b111000, 0b111001, 0b100101, 0b010101, 0b110100,
    0b001101, 0b101100, 0b011100, 0b010111, 0b011011, 0b100011, 0b010011, 0b110010, 0b001011, 0b101010, 0b011010, 0b111010,
    0b110011, 0b100110, 0b010110, 0b110110, 0b001110, 0b101110, 0b011110, 0b101011 ]

/-- fghj of Dx.0 to Dx.7 at negative running disparity, with the primary code of y = 7. -/
def fourCodes : List Nat := [0b1011, 0b1001, 0b0101, 0b1100, 0b1101, 0b1010, 0b0110, 0b1110]

/-- The bits set in a sub-block. -/
def onesIn (width n : Nat) : Nat := ((List.range width).map fun i => n / 2 ^ i % 2).sum

/-- Running disparity after a sub-block of `width` bits, true for positive: by the larger count of its bits, and for the balanced blocks
000111 and 0011, 111000 and 1100 by their form (Clause 36). -/
def rdBlock (rd : Bool) (width n : Nat) : Bool :=
  if width < 2 * onesIn width n || n = 2 ^ (width / 2) - 1 then true
  else if 2 * onesIn width n < width || n = 2 ^ width - 2 ^ (width / 2) then false
  else rd

/-- Running disparity after a group. -/
def rdAfter (rd : Bool) (g : Group) : Bool := rdBlock (rdBlock rd 6 (g.toNat / 16)) 4 (g.toNat % 16)

/-- abcdei of Dx.y at a running disparity: the complement of a code that is not balanced, and of D7's. -/
def sixOf (rd : Bool) (x : Nat) : Nat :=
  let c := sixCodes.getD x 0
  if rd && (decide (onesIn 6 c ≠ 3) || decide (x = 7)) then 63 - c else c

/-- fghj of Dx.y at the running disparity after abcdei: y = 7 takes its alternate code where x needs it. -/
def fourOf (rd : Bool) (x y : Nat) : Nat :=
  if y = 7 && (if rd then [11, 13, 14].contains x else [17, 18, 20].contains x) then (if rd then 0b1000 else 0b0111)
  else
    let c := fourCodes.getD y 0
    if rd && (decide (onesIn 4 c ≠ 2) || decide (y = 3)) then 15 - c else c

/-- The group of a data byte at a running disparity: x is its low 5 bits, y its high 3. -/
def dataCode (rd : Bool) (b : Byte) : Group :=
  let six := sixOf rd (b.toNat % 32)
  BitVec.ofNat 10 (six * 16 + fourOf (rdBlock rd 6 six) (b.toNat % 32) (b.toNat / 32))

/-- The group of a control symbol: at positive running disparity the complement of its RD- group (R114). -/
def kCode (rd : Bool) (b : Byte) : Group :=
  let c := ((kCodes.find? fun e => e.1 == b).map Prod.snd).getD 0
  if rd then ~~~c else c

/-- The group a transmitter sends for a symbol; an error marker never stands at a transmitter. -/
def symCode (rd : Bool) : Sym → Group
  | .data b => dataCode rd b
  | .k b => kCode rd b
  | .err => 0

/-- The symbol a group has in one column of the code. -/
def inColumn (rd : Bool) (g : Group) : Option Sym :=
  match kCodes.find? fun e => kCode rd e.1 == g with
  | some e => some (.k e.1)
  | none =>
    match (List.range 32).find? fun x => sixOf rd x == g.toNat / 16 with
    | none => none
    | some x =>
      let r := rdBlock rd 6 (g.toNat / 16)
      ((List.range 8).find? fun y => fourOf r x y == g.toNat % 16).map fun y => .data (BitVec.ofNat 8 (x + 32 * y))

/-- What the check of a group finds (R116). -/
inductive GroupCheck where
  | good (x : Sym) | disparity | violation
  deriving DecidableEq, Repr, Inhabited

/-- A group checked at a running disparity: its symbol; a disparity error when only the other column has it; else a code violation
(R116). A K symbol outside R114 is in neither column (R114). -/
def checkGroup (rd : Bool) (g : Group) : GroupCheck :=
  match inColumn rd g with
  | some x => .good x
  | none => if (inColumn (!rd) g).isSome then .disparity else .violation

/-- The symbol a check hands on: an errored group never becomes a data byte (R116). -/
def GroupCheck.sym : GroupCheck → Sym
  | .good x => x
  | _ => .err

/-- A lane's symbols as the groups it sends, with the running disparity after them. -/
def sendStream (rd : Bool) : List Sym → List Group × Bool
  | [] => ([], rd)
  | x :: xs =>
    let g := symCode rd x
    let r := sendStream (rdAfter rd g) xs
    (g :: r.1, r.2)

/-- The groups a lane received, checked in order, with the running disparity after them. On an error the receiver goes on with the
disparity that the group itself implies (R116). -/
def checkStream (rd : Bool) : List Group → List GroupCheck × Bool
  | [] => ([], rd)
  | g :: gs =>
    let r := checkStream (rdAfter rd g) gs
    (checkGroup rd g :: r.1, r.2)

/-! ### Placement on the lanes (R136, R137) -/

/-- A list cut into runs of `w`, with `n` runs at most. -/
def runsOf {α : Type} (w : Nat) : Nat → List α → List (List α)
  | 0, _ => []
  | _, [] => []
  | n + 1, l => l.take w :: runsOf w n (l.drop w)

/-- The columns of a frame on `w` lanes: SOF on lane position 0, its bytes in order over the positions, the end symbol next, and FIL to the
end of that column (R137). -/
def frameColumns (w : Nat) (bytes : List Byte) (eos : Bool) : List (List Sym) :=
  let l := kSOF :: bytes.map Sym.data ++ [if eos then kEOS else kEOF]
  runsOf w l.length (l ++ List.replicate ((w - l.length % w) % w) kFIL)

/-- Columns as streams, one for each of `w` lanes. -/
def laneStreams (w : Nat) (cols : List (List Sym)) : List (List Sym) := (List.range w).map fun i => cols.map fun c => c.getD i kFIL

/-- Streams of equal length as columns. -/
def columnsOf (lanes : List (List Sym)) : List (List Sym) :=
  (List.range (lanes.headD []).length).map fun i => lanes.map fun l => l.getD i .err

/-- The columns without ALN: K28.5 on every lane, and the K28.0 that follow it (R119). `n` counts the K28.0 still to be taken. -/
def dropAln : Nat → List (List Sym) → List (List Sym)
  | _, [] => []
  | n, c :: cs =>
    if c.all fun x => x == kALN then dropAln 4 cs
    else if 0 < n && c.all fun x => x == kFIL then dropAln (n - 1) cs
    else c :: dropAln 0 cs

/-- The symbols of a frame after its SOF, in the order of the lanes: from the first column whose position 0 holds SOF (R137). -/
def afterSof : List (List Sym) → Option (List Sym)
  | [] => none
  | c :: cs => if c.head? = some kSOF then some (c.tail ++ cs.flatten) else afterSof cs

/-- Symbols up to the first end symbol, and that symbol. -/
def toEnd : List Sym → List Sym × Option Sym
  | [] => ([], none)
  | x :: xs => if x = kEOF || x = kEOS then ([], some x) else let r := toEnd xs; (x :: r.1, r.2)

/-- The byte of a symbol, 0 where it is none. -/
def Sym.byte : Sym → Byte
  | .data b => b
  | _ => 0

/-- Is a symbol a control symbol? -/
def Sym.isK : Sym → Bool
  | .k _ => true
  | _ => false

/-! ### Lane test patterns (R124, R125) -/

/-- Degree and second tap of a pattern's polynomial (R124). -/
def prbsTaps (pattern : Nat) : Nat × Nat :=
  match pattern with
  | 0 => (7, 6)
  | 1 => (15, 14)
  | 2 => (23, 18)
  | _ => (31, 28)

/-- The next bit of a pattern from the bits before it, latest first: the sum of the two taps. -/
def prbsNext (pattern : Nat) (before : List Bool) : Bool :=
  (before.getD ((prbsTaps pattern).1 - 1) true) != (before.getD ((prbsTaps pattern).2 - 1) true)

/-- The first `n` bits of a pattern after the state `before`, in the order of sending. -/
def prbsRun (pattern : Nat) : Nat → List Bool → List Bool
  | 0, _ => []
  | n + 1, before =>
    let b := prbsNext pattern before
    b :: prbsRun pattern n (b :: before.take 30)

/-- The generator starts from the all-ones state (R124). -/
def prbsStart (pattern n : Nat) : List Bool := prbsRun pattern n (List.replicate 31 true)

/-- A pair of bits, the first the most significant, as a PAM4 level 0 to 3 in Gray code (R124). -/
def pam4 (first second : Bool) : Nat := if first then (if second then 2 else 3) else (if second then 1 else 0)

/-- The bits of a window that differ from the pattern continued from the bits before it (R125). -/
def prbsErrors (pattern : Nat) (before bits : List Bool) : Nat :=
  ((prbsRun pattern bits.length before).zip bits).countP fun x => x.1 != x.2

end Sys2Proof.Machine
end

