-- ==== Sys2Proof/Machine/RegMap.lean ====
section
/-! DEFINITION. The register map: the address of every register in the manager's BAR0 map (R5), and the access row of
every register (its access code R12, what a warm start keeps R15, whether it is half of a pair R8). Addresses are those of
the register tables named in each docstring; the parameters are the table's indices (lane, port, queue, host ...), in
the order of the strides. -/

namespace Sys2Proof.Machine

/-- One row of a register table. `dims` gives the strides and counts of an array of registers. `rw`, `w1c`, `wo` and
`rc` are the bits with that access code (R12); a bit in none of them is RO or reserved. `kept` is the bits a warm start
keeps (R15). `hold` is 1 where a start keeps the register unless the rootstock die's own supply was lost ("held",
R366), 2 where no start resets it ("live", R366, or a fuse value). `pair` is 1 for a _LO half, 2 for a _HI half (R8). -/
structure RegRow where
  base : Nat
  dims : List (Nat × Nat) := []
  rw   : Nat := 0
  w1c  : Nat := 0
  wo   : Nat := 0
  rc   : Nat := 0
  kept : Nat := 0
  hold : Nat := 0
  pair : Nat := 0
  deriving DecidableEq, Repr, Inhabited

namespace Reg

/-- R75 RO: `SEED_STATUS`. -/
def SEED_STATUS : Nat := 0x100000
/-- R75 RO: `SEED_ACTIVE`. -/
def SEED_ACTIVE : Nat := 0x100004
/-- R75 RO: `SEED_VERSION`. -/
def SEED_VERSION : Nat := 0x100008
/-- R75 RO: `SEED_FLOOR`. -/
def SEED_FLOOR : Nat := 0x10000C
/-- R75 RO: `SEED_COUNTER`. -/
def SEED_COUNTER : Nat := 0x100010
/-- R75 RO: `SEED_FAIL_A`. -/
def SEED_FAIL_A : Nat := 0x100014
/-- R75 RO: `SEED_FAIL_B`. -/
def SEED_FAIL_B : Nat := 0x100018
/-- R75 RO: `SEED_BUILD_ID_LO`. -/
def SEED_BUILD_ID_LO : Nat := 0x100020
/-- R75 RO: `SEED_BUILD_ID_HI`. -/
def SEED_BUILD_ID_HI : Nat := 0x100024
/-- R75 RO: `SEED_HEAD_DIGEST0–7`. -/
def SEED_HEAD_DIGEST (a : Nat) : Nat := 0x100040 + 0x4 * a
/-- R75 RO: `SEED_FUSE_STATE`. -/
def SEED_FUSE_STATE : Nat := 0x100060
/-- R75 RO-ST: `SEED_UPDATE_STATUS`. -/
def SEED_UPDATE_STATUS : Nat := 0x100064
/-- R75 RC-ST: `SEED_FLASH_ERR`. -/
def SEED_FLASH_ERR : Nat := 0x100068
/-- R101 RO: `GLB_ID`. -/
def GLB_ID : Nat := 0x0
/-- R101 RO: `GLB_SWITCH_ID`. -/
def GLB_SWITCH_ID : Nat := 0x4
/-- R101 RO: `GLB_UID_LO`. -/
def GLB_UID_LO : Nat := 0x8
/-- R101 RO: `GLB_UID_HI`. -/
def GLB_UID_HI : Nat := 0xC
/-- R101 RO: `GLB_START_STATUS`. -/
def GLB_START_STATUS : Nat := 0x10
/-- R101 RO: `GLB_START_FAIL`. -/
def GLB_START_FAIL : Nat := 0x14
/-- R101 RO: `GLB_RESET_CAUSE`. -/
def GLB_RESET_CAUSE : Nat := 0x18
/-- R101 RO: `GLB_WARM_FAILS`. -/
def GLB_WARM_FAILS : Nat := 0x1C
/-- R101 RO: `GLB_T_SEED`. -/
def GLB_T_SEED : Nat := 0x20
/-- R101 RO: `GLB_T_LINKS`. -/
def GLB_T_LINKS : Nat := 0x24
/-- R101 RO: `GLB_T_SERVICE`. -/
def GLB_T_SERVICE : Nat := 0x28
/-- R101 RO: `GLB_T_FULL`. -/
def GLB_T_FULL : Nat := 0x2C
/-- R101 WO: `GLB_SNAP_CTRL`. -/
def GLB_SNAP_CTRL : Nat := 0x40
/-- R101 RO-ST: `GLB_SNAP_SEQ`. -/
def GLB_SNAP_SEQ : Nat := 0x44
/-- R101 RO: `GLB_SNAP_STATUS`. -/
def GLB_SNAP_STATUS : Nat := 0x48
/-- R132 RO: `LANE_STATUS`. -/
def LANE_STATUS (a : Nat) : Nat := 0x200000 + 0x1000 * a
/-- R132 RO: `LANE_CFG`. -/
def LANE_CFG (a : Nat) : Nat := 0x200004 + 0x1000 * a
/-- R132 RO: `LANE_RATE`. -/
def LANE_RATE (a : Nat) : Nat := 0x200008 + 0x1000 * a
/-- R132 RO: `LANE_TXEQ`. -/
def LANE_TXEQ (a : Nat) : Nat := 0x20000C + 0x1000 * a
/-- R132 RO: `LANE_RXEQ`. -/
def LANE_RXEQ (a : Nat) : Nat := 0x200010 + 0x1000 * a
/-- R132 RC: `LANE_CODE_ERR`. -/
def LANE_CODE_ERR (a : Nat) : Nat := 0x200014 + 0x1000 * a
/-- R132 RC: `LANE_DISP_ERR`. -/
def LANE_DISP_ERR (a : Nat) : Nat := 0x200018 + 0x1000 * a
/-- R132 RC: `LANE_REALIGN`. -/
def LANE_REALIGN (a : Nat) : Nat := 0x20001C + 0x1000 * a
/-- R132 RC: `LANE_EB_ADJ`. -/
def LANE_EB_ADJ (a : Nat) : Nat := 0x200020 + 0x1000 * a
/-- R132 RW: `LANE_TEST_CTRL`. -/
def LANE_TEST_CTRL (a : Nat) : Nat := 0x200100 + 0x1000 * a
/-- R132 RW: `LANE_INJ_CTRL`. -/
def LANE_INJ_CTRL (a : Nat) : Nat := 0x200104 + 0x1000 * a
/-- R132 RO: `LANE_TEST_STATUS`. -/
def LANE_TEST_STATUS (a : Nat) : Nat := 0x200108 + 0x1000 * a
/-- R132 RO: `LANE_PRBS_BITS_LO`. -/
def LANE_PRBS_BITS_LO (a : Nat) : Nat := 0x200110 + 0x1000 * a
/-- R132 RO: `LANE_PRBS_BITS_HI`. -/
def LANE_PRBS_BITS_HI (a : Nat) : Nat := 0x200114 + 0x1000 * a
/-- R132 RO: `LANE_PRBS_ERRS_LO`. -/
def LANE_PRBS_ERRS_LO (a : Nat) : Nat := 0x200118 + 0x1000 * a
/-- R132 RO: `LANE_PRBS_ERRS_HI`. -/
def LANE_PRBS_ERRS_HI (a : Nat) : Nat := 0x20011C + 0x1000 * a
/-- R132 RW: `LANE_MARGIN_CTRL`. -/
def LANE_MARGIN_CTRL (a : Nat) : Nat := 0x200200 + 0x1000 * a
/-- R132 RO: `LANE_MARGIN_STATUS`. -/
def LANE_MARGIN_STATUS (a : Nat) : Nat := 0x200204 + 0x1000 * a
/-- R132 RO: `LANE_MARGIN_COUNT`. -/
def LANE_MARGIN_COUNT (a : Nat) : Nat := 0x200208 + 0x1000 * a
/-- R135 RO: `PG_STATUS`. -/
def PG_STATUS (a : Nat) : Nat := 0x2A0000 + 0x1000 * a
/-- R135 RO: `PG_REF_PPM`. -/
def PG_REF_PPM (a : Nat) : Nat := 0x2A0004 + 0x1000 * a
/-- R135 RO: `PG_REF_SPREAD`. -/
def PG_REF_SPREAD (a : Nat) : Nat := 0x2A0008 + 0x1000 * a
/-- R135 RC-ST: `PG_REF_LOSS`. -/
def PG_REF_LOSS (a : Nat) : Nat := 0x2A000C + 0x1000 * a
/-- R171 RO: `NZL_STATUS`. -/
def NZL_STATUS (a : Nat) : Nat := 0x400000 + 0x4000 * a
/-- R171 RO: `NZL_CFG`. -/
def NZL_CFG (a : Nat) : Nat := 0x400004 + 0x4000 * a
/-- R171 RO: `NZL_PEER`. -/
def NZL_PEER (a : Nat) : Nat := 0x400008 + 0x4000 * a
/-- R171 RO: `NZL_SESSION`. -/
def NZL_SESSION (a : Nat) : Nat := 0x40000C + 0x4000 * a
/-- R171 RW: `NZL_RESET_CTRL`. -/
def NZL_RESET_CTRL (a : Nat) : Nat := 0x400010 + 0x4000 * a
/-- R171 RO: `NZL_TX_SEQ`. -/
def NZL_TX_SEQ (a : Nat) : Nat := 0x400014 + 0x4000 * a
/-- R171 RO: `NZL_RX_SEQ`. -/
def NZL_RX_SEQ (a : Nat) : Nat := 0x400018 + 0x4000 * a
/-- R171 RO: `NZL_REPLAY_FILL`. -/
def NZL_REPLAY_FILL (a : Nat) : Nat := 0x40001C + 0x4000 * a
/-- R171 RC: `NZL_REPLAY`. -/
def NZL_REPLAY (a : Nat) : Nat := 0x400020 + 0x4000 * a
/-- R171 RC: `NZL_NAK_TX`. -/
def NZL_NAK_TX (a : Nat) : Nat := 0x400024 + 0x4000 * a
/-- R171 RC: `NZL_NAK_RX`. -/
def NZL_NAK_RX (a : Nat) : Nat := 0x400028 + 0x4000 * a
/-- R171 RC: `NZL_CRC_ERR`. -/
def NZL_CRC_ERR (a : Nat) : Nat := 0x40002C + 0x4000 * a
/-- R171 RC: `NZL_STOMP_RX`. -/
def NZL_STOMP_RX (a : Nat) : Nat := 0x400030 + 0x4000 * a
/-- R171 RC: `NZL_DUP_RX`. -/
def NZL_DUP_RX (a : Nat) : Nat := 0x400034 + 0x4000 * a
/-- R171 RC: `NZL_REORDER_DROP`. -/
def NZL_REORDER_DROP (a : Nat) : Nat := 0x400038 + 0x4000 * a
/-- R171 RC: `NZL_MALFORMED`. -/
def NZL_MALFORMED (a : Nat) : Nat := 0x40003C + 0x4000 * a
/-- R171 RC: `NZL_LCS_ERR`. -/
def NZL_LCS_ERR (a : Nat) : Nat := 0x400040 + 0x4000 * a
/-- R171 RC: `NZL_TRAIN_FAIL`. -/
def NZL_TRAIN_FAIL (a : Nat) : Nat := 0x400044 + 0x4000 * a
/-- R171 RC-ST: `NZL_DOWN`. -/
def NZL_DOWN (a : Nat) : Nat := 0x400048 + 0x4000 * a
/-- R171 RC-ST: `NZL_REROUTE`. -/
def NZL_REROUTE (a : Nat) : Nat := 0x40004C + 0x4000 * a
/-- R171 RC-ST: `NZL_SEQ_DISCARD`. -/
def NZL_SEQ_DISCARD (a : Nat) : Nat := 0x400050 + 0x4000 * a
/-- R171 RO: `NZL_LIMIT_VC0–3`. -/
def NZL_LIMIT_VC (a b : Nat) : Nat := 0x400060 + 0x4000 * a + 0x4 * b
/-- R171 RO: `NZL_USED_VC0–3`. -/
def NZL_USED_VC (a b : Nat) : Nat := 0x400070 + 0x4000 * a + 0x4 * b
/-- R171 RO: `NZL_GRANT_VC0–3`. -/
def NZL_GRANT_VC (a b : Nat) : Nat := 0x400080 + 0x4000 * a + 0x4 * b
/-- R206 RO: `PCIE_STATUS`. -/
def PCIE_STATUS (a : Nat) : Nat := 0x600000 + 0x4000 * a
/-- R206 RO: `PCIE_CFG`. -/
def PCIE_CFG (a : Nat) : Nat := 0x600004 + 0x4000 * a
/-- R206 RW: `PCIE_LINK_CTRL`. -/
def PCIE_LINK_CTRL (a : Nat) : Nat := 0x600008 + 0x4000 * a
/-- R206 RO: `PCIE_RETIMERS`. -/
def PCIE_RETIMERS (a : Nat) : Nat := 0x60000C + 0x4000 * a
/-- R206 RC: `PCIE_RX_ERR`. -/
def PCIE_RX_ERR (a : Nat) : Nat := 0x600010 + 0x4000 * a
/-- R206 RC: `PCIE_BAD_TLP`. -/
def PCIE_BAD_TLP (a : Nat) : Nat := 0x600014 + 0x4000 * a
/-- R206 RC: `PCIE_BAD_DLLP`. -/
def PCIE_BAD_DLLP (a : Nat) : Nat := 0x600018 + 0x4000 * a
/-- R206 RC: `PCIE_REPLAY`. -/
def PCIE_REPLAY (a : Nat) : Nat := 0x60001C + 0x4000 * a
/-- R206 RC: `PCIE_REPLAY_ROLL`. -/
def PCIE_REPLAY_ROLL (a : Nat) : Nat := 0x600020 + 0x4000 * a
/-- R206 RC: `PCIE_FEC_CORR`. -/
def PCIE_FEC_CORR (a : Nat) : Nat := 0x600024 + 0x4000 * a
/-- R206 RC: `PCIE_FEC_UNCORR`. -/
def PCIE_FEC_UNCORR (a : Nat) : Nat := 0x600028 + 0x4000 * a
/-- R206 RC: `PCIE_NULLIFIED_TX`. -/
def PCIE_NULLIFIED_TX (a : Nat) : Nat := 0x60002C + 0x4000 * a
/-- R206 RC: `PCIE_UR_TX`. -/
def PCIE_UR_TX (a : Nat) : Nat := 0x600030 + 0x4000 * a
/-- R206 RC-ST: `PCIE_DOWN`. -/
def PCIE_DOWN (a : Nat) : Nat := 0x600034 + 0x4000 * a
/-- R206 RC-ST: `PCIE_DPC_EVENTS`. -/
def PCIE_DPC_EVENTS (a : Nat) : Nat := 0x600038 + 0x4000 * a
/-- R206 RO: `PCIE_MEF_STATE`. -/
def PCIE_MEF_STATE (a : Nat) : Nat := 0x600040 + 0x4000 * a
/-- R206 RC: `PCIE_MEF_BME_DISCARD`. -/
def PCIE_MEF_BME_DISCARD (a : Nat) : Nat := 0x600044 + 0x4000 * a
/-- R206 RC: `PCIE_LATE_CPL`. -/
def PCIE_LATE_CPL (a : Nat) : Nat := 0x600048 + 0x4000 * a
/-- R206 RC: `PCIE_MEF_CTO`. -/
def PCIE_MEF_CTO (a : Nat) : Nat := 0x60004C + 0x4000 * a
/-- R206 RC-ST: `PCIE_MEF_RESETS`. -/
def PCIE_MEF_RESETS (a : Nat) : Nat := 0x600050 + 0x4000 * a
/-- R243 RO: `FWD_STATUS`. -/
def FWD_STATUS : Nat := 0x800000
/-- R243 RO: `FWD_DISC_TIME`. -/
def FWD_DISC_TIME : Nat := 0x800004
/-- R243 RO: `FWD_DISC_CFG`. -/
def FWD_DISC_CFG : Nat := 0x800008
/-- R243 RO: `FWD_START_NO`. -/
def FWD_START_NO : Nat := 0x80000C
/-- R243 RC: `FWD_LS_RX`. -/
def FWD_LS_RX : Nat := 0x800010
/-- R243 RC: `FWD_LS_TX`. -/
def FWD_LS_TX : Nat := 0x800014
/-- R243 RC-ST: `FWD_ROUTE_CHANGES`. -/
def FWD_ROUTE_CHANGES : Nat := 0x800018
/-- R243 RC-ST: `FWD_NEIGH_MISMATCH`. -/
def FWD_NEIGH_MISMATCH : Nat := 0x80001C
/-- R243 RC: `FWD_UNREACH_DROP`. -/
def FWD_UNREACH_DROP : Nat := 0x800020
/-- R243 RO: `FWD_WRED_WEIGHT`. -/
def FWD_WRED_WEIGHT : Nat := 0x800040
/-- R243 RO: `FWD_WRED_GREEN`. -/
def FWD_WRED_GREEN : Nat := 0x800044
/-- R243 RO: `FWD_WRED_YELLOW`. -/
def FWD_WRED_YELLOW : Nat := 0x800048
/-- R243 RO: `FWD_WRED_RED`. -/
def FWD_WRED_RED : Nat := 0x80004C
/-- R243 RO: `FWD_TRELLIS_LO[s]`. -/
def FWD_TRELLIS_LO (a : Nat) : Nat := 0x810000 + 0x8 * a
/-- R243 RO: `FWD_TRELLIS_HI[s]`. -/
def FWD_TRELLIS_HI (a : Nat) : Nat := 0x810004 + 0x8 * a
/-- R243 RO: `FWD_PORT_CFG`. -/
def FWD_PORT_CFG (a : Nat) : Nat := 0x820000 + 0x20 * a
/-- R243 RO: `FWD_PORT_FLAGS`. -/
def FWD_PORT_FLAGS (a : Nat) : Nat := 0x820004 + 0x20 * a
/-- R243 RC: `FWD_PORT_STOMP_TX`. -/
def FWD_PORT_STOMP_TX (a : Nat) : Nat := 0x820008 + 0x20 * a
/-- R243 RC: `FWD_PORT_MARKED`. -/
def FWD_PORT_MARKED (a : Nat) : Nat := 0x82000C + 0x20 * a
/-- R243 RC: `FWD_PORT_COLOUR_DROP`. -/
def FWD_PORT_COLOUR_DROP (a : Nat) : Nat := 0x820010 + 0x20 * a
/-- R243 RC: `FWD_PORT_SAMPLE_DROP`. -/
def FWD_PORT_SAMPLE_DROP (a : Nat) : Nat := 0x820014 + 0x20 * a
/-- R243 RC: `FWD_PORT_UNEXP_CPL`. -/
def FWD_PORT_UNEXP_CPL (a : Nat) : Nat := 0x820018 + 0x20 * a
/-- R243 RO: `FWD_Q_DEPTH`. -/
def FWD_Q_DEPTH (a b : Nat) : Nat := 0x830000 + 0x40 * a + 0x8 * b
/-- R243 RO: `FWD_Q_CFG`. -/
def FWD_Q_CFG (a b : Nat) : Nat := 0x830004 + 0x40 * a + 0x8 * b
/-- R245 RO: `BUF_STATUS`. -/
def BUF_STATUS : Nat := 0xA00000
/-- R245 RO: `BUF_FREE`. -/
def BUF_FREE : Nat := 0xA00004
/-- R245 RC: `BUF_FREE_LOW`. -/
def BUF_FREE_LOW : Nat := 0xA00008
/-- R245 RO: `BUF_SHARED`. -/
def BUF_SHARED : Nat := 0xA0000C
/-- R245 RO: `BUF_SHARED_FREE`. -/
def BUF_SHARED_FREE : Nat := 0xA00010
/-- R245 RC: `BUF_ECC_CORR`. -/
def BUF_ECC_CORR : Nat := 0xA00014
/-- R245 RC-ST: `BUF_ECC_UNCORR`. -/
def BUF_ECC_UNCORR : Nat := 0xA00018
/-- R245 RC-ST: `BUF_ADDR_ERR`. -/
def BUF_ADDR_ERR : Nat := 0xA0001C
/-- R245 RO: `BUF_ERR_ADDR`. -/
def BUF_ERR_ADDR : Nat := 0xA00020
/-- R245 RO: `BUF_ERR_SYNDROME`. -/
def BUF_ERR_SYNDROME : Nat := 0xA00024
/-- R245 RC: `BUF_PARITY_REPLAY`. -/
def BUF_PARITY_REPLAY : Nat := 0xA00028
/-- R245 RC-ST: `BUF_PARITY_FAIL`. -/
def BUF_PARITY_FAIL : Nat := 0xA0002C
/-- R245 RC: `BUF_POISON_OUT`. -/
def BUF_POISON_OUT : Nat := 0xA00030
/-- R245 RC-ST: `BUF_HDR_DISCARD`. -/
def BUF_HDR_DISCARD : Nat := 0xA00034
/-- R245 RC-ST: `BUF_LINK_ERR`. -/
def BUF_LINK_ERR : Nat := 0xA00038
/-- R266 RO: `QOS_TC_VC`. -/
def QOS_TC_VC : Nat := 0xB00000
/-- R266 RO: `QOS_LEDGER_STATUS`. -/
def QOS_LEDGER_STATUS : Nat := 0xB00010
/-- R266 RO: `QOS_BANK_V`. -/
def QOS_BANK_V : Nat := 0xB00014
/-- R266 RO: `QOS_E_USE`. -/
def QOS_E_USE : Nat := 0xB00018
/-- R266 RO: `QOS_ALLOW`. -/
def QOS_ALLOW : Nat := 0xB0001C
/-- R266 RO: `QOS_LEDGER_PARAM0`. -/
def QOS_LEDGER_PARAM0 : Nat := 0xB00020
/-- R266 RO: `QOS_LEDGER_PARAM1`. -/
def QOS_LEDGER_PARAM1 : Nat := 0xB00024
/-- R266 RC: `QOS_LEDGER_WAIT`. -/
def QOS_LEDGER_WAIT : Nat := 0xB00028
/-- R266 RO: `QOS_HOST_ALLOW[h]`. -/
def QOS_HOST_ALLOW (a : Nat) : Nat := 0xB01000 + 0x10 * a
/-- R266 RO: `QOS_HOST_USED[h]`. -/
def QOS_HOST_USED (a : Nat) : Nat := 0xB01004 + 0x10 * a
/-- R266 RO: `QOS_HOST_PEND[h]`. -/
def QOS_HOST_PEND (a : Nat) : Nat := 0xB01008 + 0x10 * a
/-- R266 RO: `QOS_MAP_VC0–3`. -/
def QOS_MAP_VC (a b : Nat) : Nat := 0xB10000 + 0x200 * a + 0x4 * b
/-- R266 RO: `QOS_M_MODE`. -/
def QOS_M_MODE (a b : Nat) : Nat := 0xB10040 + 0x200 * a + 0x30 * b
/-- R266 RO: `QOS_M_CIR`. -/
def QOS_M_CIR (a b : Nat) : Nat := 0xB10044 + 0x200 * a + 0x30 * b
/-- R266 RO: `QOS_M_PIR`. -/
def QOS_M_PIR (a b : Nat) : Nat := 0xB10048 + 0x200 * a + 0x30 * b
/-- R266 RO: `QOS_M_CBS`. -/
def QOS_M_CBS (a b : Nat) : Nat := 0xB1004C + 0x200 * a + 0x30 * b
/-- R266 RO: `QOS_M_PBS`. -/
def QOS_M_PBS (a b : Nat) : Nat := 0xB10050 + 0x200 * a + 0x30 * b
/-- R266 RC: `QOS_M_GREEN`. -/
def QOS_M_GREEN (a b : Nat) : Nat := 0xB10054 + 0x200 * a + 0x30 * b
/-- R266 RC: `QOS_M_YELLOW`. -/
def QOS_M_YELLOW (a b : Nat) : Nat := 0xB10058 + 0x200 * a + 0x30 * b
/-- R266 RC: `QOS_M_RED`. -/
def QOS_M_RED (a b : Nat) : Nat := 0xB1005C + 0x200 * a + 0x30 * b
/-- R266 RO: `QOS_M_HELD`. -/
def QOS_M_HELD (a b : Nat) : Nat := 0xB10060 + 0x200 * a + 0x30 * b
/-- R266 RO: `QOS_SH_RATE`. -/
def QOS_SH_RATE (a b : Nat) : Nat := 0xB20000 + 0x80 * a + 0x10 * b
/-- R266 RO: `QOS_SH_SIZE`. -/
def QOS_SH_SIZE (a b : Nat) : Nat := 0xB20004 + 0x80 * a + 0x10 * b
/-- R266 RO: `QOS_SH_TOKENS`. -/
def QOS_SH_TOKENS (a b : Nat) : Nat := 0xB20008 + 0x80 * a + 0x10 * b
/-- R266 RC: `QOS_SH_CHANGES`. -/
def QOS_SH_CHANGES (a b : Nat) : Nat := 0xB2000C + 0x80 * a + 0x10 * b
/-- R308 RO: `LAND_STATUS`. -/
def LAND_STATUS : Nat := 0xC00000
/-- R308 RO: `LAND_CFG`. -/
def LAND_CFG : Nat := 0xC00004
/-- R308 RO: `LAND_SEALED_EPOCH_LO`. -/
def LAND_SEALED_EPOCH_LO : Nat := 0xC00008
/-- R308 RO: `LAND_SEALED_EPOCH_HI`. -/
def LAND_SEALED_EPOCH_HI : Nat := 0xC0000C
/-- R308 RO: `LAND_OPEN_EPOCH_LO`. -/
def LAND_OPEN_EPOCH_LO : Nat := 0xC00010
/-- R308 RO: `LAND_OPEN_EPOCH_HI`. -/
def LAND_OPEN_EPOCH_HI : Nat := 0xC00014
/-- R308 RO: `LAND_LEADER`. -/
def LAND_LEADER : Nat := 0xC00018
/-- R308 RO: `LAND_SET_LO`. -/
def LAND_SET_LO : Nat := 0xC0001C
/-- R308 RO: `LAND_SET_HI`. -/
def LAND_SET_HI : Nat := 0xC00020
/-- R308 RO-ST: `LAND_RET_SE_LO`. -/
def LAND_RET_SE_LO : Nat := 0xC00024
/-- R308 RO-ST: `LAND_RET_SE_HI`. -/
def LAND_RET_SE_HI : Nat := 0xC00028
/-- R308 RO-ST: `LAND_RET_HIGH_LO`. -/
def LAND_RET_HIGH_LO : Nat := 0xC0002C
/-- R308 RO-ST: `LAND_RET_HIGH_HI`. -/
def LAND_RET_HIGH_HI : Nat := 0xC00030
/-- R308 RO: `LAND_PAGES`. -/
def LAND_PAGES : Nat := 0xC00034
/-- R308 RO: `LAND_REQ_FREE`. -/
def LAND_REQ_FREE : Nat := 0xC00038
/-- R308 RC: `LAND_ECC_CORR`. -/
def LAND_ECC_CORR : Nat := 0xC00040
/-- R308 RC-ST: `LAND_ECC_UNCORR`. -/
def LAND_ECC_UNCORR : Nat := 0xC00044
/-- R308 RC-ST: `LAND_ADDR_ERR`. -/
def LAND_ADDR_ERR : Nat := 0xC00048
/-- R308 RO: `LAND_ERR_ADDR`. -/
def LAND_ERR_ADDR : Nat := 0xC0004C
/-- R308 RC: `LAND_REFUSED`. -/
def LAND_REFUSED : Nat := 0xC00050
/-- R308 RC-ST: `LAND_LOSS_TX`. -/
def LAND_LOSS_TX : Nat := 0xC00054
/-- R308 RC-ST: `LAND_LOSS_RX`. -/
def LAND_LOSS_RX : Nat := 0xC00058
/-- R308 RC-ST: `LAND_UNATTR`. -/
def LAND_UNATTR : Nat := 0xC0005C
/-- R308 RC-ST: `LAND_FAILOVERS`. -/
def LAND_FAILOVERS : Nat := 0xC00060
/-- R308 RC: `LAND_FENCE_NOTYET`. -/
def LAND_FENCE_NOTYET : Nat := 0xC00064
/-- R308 RC: `LAND_READ_ABORT`. -/
def LAND_READ_ABORT : Nat := 0xC00068
/-- R308 RW: `LAND_DIAG_CTRL`. -/
def LAND_DIAG_CTRL : Nat := 0xC00070
/-- R308 RO: `LAND_DIAG_META`. -/
def LAND_DIAG_META : Nat := 0xC00074
/-- R308 RO: `LAND_REGION_CFG`. -/
def LAND_REGION_CFG (a : Nat) : Nat := 0xC01000 + 0x10 * a
/-- R308 RO: `LAND_REGION_BASE`. -/
def LAND_REGION_BASE (a : Nat) : Nat := 0xC01004 + 0x10 * a
/-- R310 RO: `LAND_FENCE_LO`. -/
def LAND_FENCE_LO (a : Nat) : Nat := 0xC40000 + 0x1000 * a
/-- R310 RO: `LAND_FENCE_HI`. -/
def LAND_FENCE_HI (a : Nat) : Nat := 0xC40004 + 0x1000 * a
/-- R310 WO: `LAND_RELEASE_LO`. -/
def LAND_RELEASE_LO (a : Nat) : Nat := 0xC40008 + 0x1000 * a
/-- R310 WO: `LAND_RELEASE_HI`. -/
def LAND_RELEASE_HI (a : Nat) : Nat := 0xC4000C + 0x1000 * a
/-- R310 RO: `LAND_WIN_STATUS`. -/
def LAND_WIN_STATUS (a : Nat) : Nat := 0xC40010 + 0x1000 * a
/-- R336 RO: `PFAIL_STATUS`. -/
def PFAIL_STATUS : Nat := 0xD00000
/-- R336 RO: `PFAIL_INPUT`. -/
def PFAIL_INPUT : Nat := 0xD00004
/-- R336 RC: `PFAIL_INPUT_MIN`. -/
def PFAIL_INPUT_MIN : Nat := 0xD00008
/-- R336 RO: `PFAIL_BRACE_ID`. -/
def PFAIL_BRACE_ID : Nat := 0xD0000C
/-- R336 RO: `PFAIL_CUT_LO`. -/
def PFAIL_CUT_LO : Nat := 0xD00010
/-- R336 RO: `PFAIL_CUT_HI`. -/
def PFAIL_CUT_HI : Nat := 0xD00014
/-- R336 RO: `PFAIL_SE_BRACE_LO`. -/
def PFAIL_SE_BRACE_LO : Nat := 0xD00018
/-- R336 RO: `PFAIL_SE_BRACE_HI`. -/
def PFAIL_SE_BRACE_HI : Nat := 0xD0001C
/-- R336 RC: `PFAIL_GLITCH`. -/
def PFAIL_GLITCH : Nat := 0xD00020
/-- R336 RC-ST: `PFAIL_BRACES`. -/
def PFAIL_BRACES : Nat := 0xD00024
/-- R336 RC-ST: `PFAIL_STANDDOWNS`. -/
def PFAIL_STANDDOWNS : Nat := 0xD00028
/-- R336 RO: `PFAIL_FLUSH_COUNT`. -/
def PFAIL_FLUSH_COUNT : Nat := 0xD0002C
/-- R336 RO-ST: `PFAIL_SD_DURATION`. -/
def PFAIL_SD_DURATION : Nat := 0xD00030
/-- R336 RO-ST: `PFAIL_SD_MIN`. -/
def PFAIL_SD_MIN : Nat := 0xD00034
/-- R336 RO-ST: `PFAIL_SD_CUT_LO`. -/
def PFAIL_SD_CUT_LO : Nat := 0xD00038
/-- R336 RO-ST: `PFAIL_SD_CUT_HI`. -/
def PFAIL_SD_CUT_HI : Nat := 0xD0003C
/-- R336 RO: `PFAIL_TARGETS`. -/
def PFAIL_TARGETS : Nat := 0xD00040
/-- R336 RO: `PFAIL_TGT_CFG[t]`. -/
def PFAIL_TGT_CFG (a : Nat) : Nat := 0xD00100 + 0x10 * a
/-- R336 RO: `PFAIL_TGT_NSID[t]`. -/
def PFAIL_TGT_NSID (a : Nat) : Nat := 0xD00104 + 0x10 * a
/-- R336 RO: `PFAIL_TGT_BASE_LO[t]`. -/
def PFAIL_TGT_BASE_LO (a : Nat) : Nat := 0xD00108 + 0x10 * a
/-- R336 RO: `PFAIL_TGT_BASE_HI[t]`. -/
def PFAIL_TGT_BASE_HI (a : Nat) : Nat := 0xD0010C + 0x10 * a
/-- R336 RO: `PFAIL_REC_STATE[t]`. -/
def PFAIL_REC_STATE (a : Nat) : Nat := 0xD00200 + 0x20 * a
/-- R336 RO: `PFAIL_REC_FLUSH_ID[t]`. -/
def PFAIL_REC_FLUSH_ID (a : Nat) : Nat := 0xD00204 + 0x20 * a
/-- R336 RO: `PFAIL_REC_CUT_LO[t]`. -/
def PFAIL_REC_CUT_LO (a : Nat) : Nat := 0xD00208 + 0x20 * a
/-- R336 RO: `PFAIL_REC_CUT_HI[t]`. -/
def PFAIL_REC_CUT_HI (a : Nat) : Nat := 0xD0020C + 0x20 * a
/-- R336 RW: `PFAIL_READ_CTRL`. -/
def PFAIL_READ_CTRL : Nat := 0xD00400
/-- R336 RO: `PFAIL_READ_STATUS`. -/
def PFAIL_READ_STATUS : Nat := 0xD00404
/-- R336 RO: `PFAIL_READ_BUF`. -/
def PFAIL_READ_BUF (a : Nat) : Nat := 0xD01000 + 0x4 * a
/-- R366 RO: `ROOT_SLOT_SUMMARY`. -/
def ROOT_SLOT_SUMMARY : Nat := 0xE00000
/-- R366 RO: `ROOT_CLK`. -/
def ROOT_CLK : Nat := 0xE00004
/-- R366 RC-ST: `ROOT_LINK_LOSS`. -/
def ROOT_LINK_LOSS : Nat := 0xE00008
/-- R366 RO: `ROOT_BANK_STATUS`. -/
def ROOT_BANK_STATUS : Nat := 0xE00010
/-- R366 RO: `ROOT_BANK_V`. -/
def ROOT_BANK_V : Nat := 0xE00014
/-- R366 RO: `ROOT_BANK_I`. -/
def ROOT_BANK_I : Nat := 0xE00018
/-- R366 RO: `ROOT_CELL_SUM`. -/
def ROOT_CELL_SUM : Nat := 0xE0001C
/-- R366 RO: `ROOT_NTC`. -/
def ROOT_NTC : Nat := 0xE00020
/-- R366 RO: `ROOT_BANK_CFG0`. -/
def ROOT_BANK_CFG0 : Nat := 0xE00024
/-- R366 RO: `ROOT_BANK_CFG1`. -/
def ROOT_BANK_CFG1 : Nat := 0xE00028
/-- R366 RC-ST: `ROOT_BANK_FAULTS`. -/
def ROOT_BANK_FAULTS : Nat := 0xE0002C
/-- R366 RO-ST: `ROOT_BANK_LAST`. -/
def ROOT_BANK_LAST : Nat := 0xE00030
/-- R366 RO: `ROOT_ISO_TEST`. -/
def ROOT_ISO_TEST : Nat := 0xE00034
/-- R366 RO: `ROOT_CELL_V[i]`. -/
def ROOT_CELL_V (a : Nat) : Nat := 0xE00100 + 0x4 * a
/-- R366 RO: `ROOT_CH_STATUS`. -/
def ROOT_CH_STATUS (a : Nat) : Nat := 0xE01000 + 0x40 * a
/-- R366 RO: `ROOT_CH_CFG`. -/
def ROOT_CH_CFG (a : Nat) : Nat := 0xE01004 + 0x40 * a
/-- R366 RO: `ROOT_CH_I`. -/
def ROOT_CH_I (a : Nat) : Nat := 0xE01008 + 0x40 * a
/-- R366 RO: `ROOT_CH_VOUT`. -/
def ROOT_CH_VOUT (a : Nat) : Nat := 0xE0100C + 0x40 * a
/-- R366 RC-ST: `ROOT_CH_TRIPS`. -/
def ROOT_CH_TRIPS (a : Nat) : Nat := 0xE01010 + 0x40 * a
/-- R366 RC: `ROOT_CH_LIMITS`. -/
def ROOT_CH_LIMITS (a : Nat) : Nat := 0xE01014 + 0x40 * a
/-- R366 RO-ST: `ROOT_CH_LAST_TRIP`. -/
def ROOT_CH_LAST_TRIP (a : Nat) : Nat := 0xE01018 + 0x40 * a
/-- R366 RO-ST: `ROOT_CH_T_PG`. -/
def ROOT_CH_T_PG (a : Nat) : Nat := 0xE0101C + 0x40 * a
/-- R413 RO: `RME_STATUS`. -/
def RME_STATUS : Nat := 0x1000000
/-- R413 RO: `RME_CACHE_USED`. -/
def RME_CACHE_USED : Nat := 0x1000004
/-- R413 RO: `RME_CACHE_PINNED`. -/
def RME_CACHE_PINNED : Nat := 0x1000008
/-- R413 RC: `RME_FILLS`. -/
def RME_FILLS : Nat := 0x1000010
/-- R413 RC: `RME_SPILLS`. -/
def RME_SPILLS : Nat := 0x1000014
/-- R413 RC-ST: `RME_TAG_FAIL`. -/
def RME_TAG_FAIL : Nat := 0x1000018
/-- R413 RC: `RME_MISSQ_DROP`. -/
def RME_MISSQ_DROP : Nat := 0x100001C
/-- R413 RO: `RME_REGIONS`. -/
def RME_REGIONS : Nat := 0x1000020
/-- R413 RO: `RME_RETIRED`. -/
def RME_RETIRED : Nat := 0x1000024
/-- R413 RO: `RME_CONNS`. -/
def RME_CONNS : Nat := 0x1000028
/-- R413 RW: `RME_CONN_SEL`. -/
def RME_CONN_SEL : Nat := 0x1000030
/-- R413 RO: `RME_CONN_VIEW_STATUS`. -/
def RME_CONN_VIEW_STATUS : Nat := 0x1000034
/-- R413 RO: `RME_CONN_VIEW[0–47]`. -/
def RME_CONN_VIEW (a : Nat) : Nat := 0x1000100 + 0x4 * a
/-- R413 RC: `RME_E_TX_PKTS`. -/
def RME_E_TX_PKTS (a : Nat) : Nat := 0x1001000 + 0x100 * a
/-- R413 RC: `RME_E_RX_PKTS`. -/
def RME_E_RX_PKTS (a : Nat) : Nat := 0x1001004 + 0x100 * a
/-- R413 RC: `RME_E_RETX`. -/
def RME_E_RETX (a : Nat) : Nat := 0x1001008 + 0x100 * a
/-- R413 RC: `RME_E_NAK_TX`. -/
def RME_E_NAK_TX (a : Nat) : Nat := 0x100100C + 0x100 * a
/-- R413 RC: `RME_E_NAK_RX`. -/
def RME_E_NAK_RX (a : Nat) : Nat := 0x1001010 + 0x100 * a
/-- R413 RC: `RME_E_DUP_RX`. -/
def RME_E_DUP_RX (a : Nat) : Nat := 0x1001014 + 0x100 * a
/-- R413 RC: `RME_E_WINDOW_DROP`. -/
def RME_E_WINDOW_DROP (a : Nat) : Nat := 0x1001018 + 0x100 * a
/-- R413 RC: `RME_E_RATE_CUTS`. -/
def RME_E_RATE_CUTS (a : Nat) : Nat := 0x100101C + 0x100 * a
/-- R413 RC-ST: `RME_E_TIMEOUTS`. -/
def RME_E_TIMEOUTS (a : Nat) : Nat := 0x1001020 + 0x100 * a
/-- R413 RO: `RME_E_TRACKER`. -/
def RME_E_TRACKER (a : Nat) : Nat := 0x1001024 + 0x100 * a
/-- R413 RO: `RME_E_CL_TABLE`. -/
def RME_E_CL_TABLE (a : Nat) : Nat := 0x1001028 + 0x100 * a
/-- R413 RC: `RME_E_CL_BUSY`. -/
def RME_E_CL_BUSY (a : Nat) : Nat := 0x100102C + 0x100 * a
/-- R413 RC: `RME_E_CL_AGED`. -/
def RME_E_CL_AGED (a : Nat) : Nat := 0x1001030 + 0x100 * a
/-- R413 RC: `RME_E_CL_TIMEOUT`. -/
def RME_E_CL_TIMEOUT (a : Nat) : Nat := 0x1001034 + 0x100 * a
/-- R413 RO: `RME_E_RESP_CELLS`. -/
def RME_E_RESP_CELLS (a : Nat) : Nat := 0x1001038 + 0x100 * a
/-- R413 RO: `RME_H_STATUS`. -/
def RME_H_STATUS (a : Nat) : Nat := 0x1002000 + 0x40 * a
/-- R413 RO: `RME_H_AREAS`. -/
def RME_H_AREAS (a : Nat) : Nat := 0x1002004 + 0x40 * a
/-- R413 RO: `RME_H_SLOTS`. -/
def RME_H_SLOTS (a : Nat) : Nat := 0x1002008 + 0x40 * a
/-- R413 RO: `RME_H_CONNS`. -/
def RME_H_CONNS (a : Nat) : Nat := 0x100200C + 0x40 * a
/-- R413 RO: `RME_H_QUEUES`. -/
def RME_H_QUEUES (a : Nat) : Nat := 0x1002010 + 0x40 * a
/-- R413 RO: `RME_H_REGIONS`. -/
def RME_H_REGIONS (a : Nat) : Nat := 0x1002014 + 0x40 * a
/-- R413 RC: `RME_H_BME_DISCARD`. -/
def RME_H_BME_DISCARD (a : Nat) : Nat := 0x1002018 + 0x40 * a
/-- R439 RO: `HEDGE_STATUS`. -/
def HEDGE_STATUS : Nat := 0x1500000
/-- R439 RC: `HEDGE_REFUSED`. -/
def HEDGE_REFUSED : Nat := 0x1500004
/-- R439 RC-ST: `HEDGE_UPDATES`. -/
def HEDGE_UPDATES : Nat := 0x1500008
/-- R439 RC-ST: `HEDGE_ABORTS`. -/
def HEDGE_ABORTS : Nat := 0x150000C
/-- R439 RC-ST: `HEDGE_GEN_MISMATCH`. -/
def HEDGE_GEN_MISMATCH : Nat := 0x1500010
/-- R439 RC-ST: `HEDGE_DISAGREE`. -/
def HEDGE_DISAGREE : Nat := 0x1500014
/-- R439 RC-ST: `HEDGE_SLOT_ECC`. -/
def HEDGE_SLOT_ECC : Nat := 0x1500018
/-- R439 RO: `HEDGE_S_BASE_LO`. -/
def HEDGE_S_BASE_LO (a b : Nat) : Nat := 0x1400000 + 0x1000 * a + 0x20 * b
/-- R439 RO: `HEDGE_S_BASE_HI`. -/
def HEDGE_S_BASE_HI (a b : Nat) : Nat := 0x1400004 + 0x1000 * a + 0x20 * b
/-- R439 RO: `HEDGE_S_LIMIT_LO`. -/
def HEDGE_S_LIMIT_LO (a b : Nat) : Nat := 0x1400008 + 0x1000 * a + 0x20 * b
/-- R439 RO: `HEDGE_S_LIMIT_HI`. -/
def HEDGE_S_LIMIT_HI (a b : Nat) : Nat := 0x140000C + 0x1000 * a + 0x20 * b
/-- R439 RO: `HEDGE_S_CTRL`. -/
def HEDGE_S_CTRL (a b : Nat) : Nat := 0x1400010 + 0x1000 * a + 0x20 * b
/-- R439 RO: `HEDGE_S_REMOTE`. -/
def HEDGE_S_REMOTE (a b : Nat) : Nat := 0x1400014 + 0x1000 * a + 0x20 * b
/-- R439 RO: `HEDGE_S_INFLIGHT`. -/
def HEDGE_S_INFLIGHT (a b : Nat) : Nat := 0x1400018 + 0x1000 * a + 0x20 * b
/-- R439 RO: `HEDGE_E_BASE_LO`. -/
def HEDGE_E_BASE_LO (a b : Nat) : Nat := 0x1480000 + 0x1000 * a + 0x20 * b
/-- R439 RO: `HEDGE_E_BASE_HI`. -/
def HEDGE_E_BASE_HI (a b : Nat) : Nat := 0x1480004 + 0x1000 * a + 0x20 * b
/-- R439 RO: `HEDGE_E_LIMIT_LO`. -/
def HEDGE_E_LIMIT_LO (a b : Nat) : Nat := 0x1480008 + 0x1000 * a + 0x20 * b
/-- R439 RO: `HEDGE_E_LIMIT_HI`. -/
def HEDGE_E_LIMIT_HI (a b : Nat) : Nat := 0x148000C + 0x1000 * a + 0x20 * b
/-- R439 RO: `HEDGE_E_PERM`. -/
def HEDGE_E_PERM (a b : Nat) : Nat := 0x1480010 + 0x1000 * a + 0x20 * b
/-- R439 RO: `HEDGE_U_STATUS`. -/
def HEDGE_U_STATUS (a : Nat) : Nat := 0x1501000 + 0x40 * a
/-- R439 RC: `HEDGE_U_REFUSED`. -/
def HEDGE_U_REFUSED (a : Nat) : Nat := 0x1501004 + 0x40 * a
/-- R439 RO: `HEDGE_U_FAULT_ADDR_LO`. -/
def HEDGE_U_FAULT_ADDR_LO (a : Nat) : Nat := 0x1501008 + 0x40 * a
/-- R439 RO: `HEDGE_U_FAULT_ADDR_HI`. -/
def HEDGE_U_FAULT_ADDR_HI (a : Nat) : Nat := 0x150100C + 0x40 * a
/-- R439 RO: `HEDGE_U_FAULT_INFO`. -/
def HEDGE_U_FAULT_INFO (a : Nat) : Nat := 0x1501010 + 0x40 * a
/-- R439 RO: `HEDGE_U_FAULT_TIME`. -/
def HEDGE_U_FAULT_TIME (a : Nat) : Nat := 0x1501014 + 0x40 * a
/-- R439 WO: `HEDGE_U_FAULT_CLR`. -/
def HEDGE_U_FAULT_CLR (a : Nat) : Nat := 0x1501018 + 0x40 * a
/-- R439 RC: `HEDGE_U_HOLD_MAX`. -/
def HEDGE_U_HOLD_MAX (a : Nat) : Nat := 0x150101C + 0x40 * a
/-- R439 RO: `HEDGE_PW_STATUS[k]`. -/
def HEDGE_PW_STATUS (a : Nat) : Nat := 0x1590000 + 0x10 * a
/-- R439 RC: `HEDGE_PW_REFUSED[k]`. -/
def HEDGE_PW_REFUSED (a : Nat) : Nat := 0x1590004 + 0x10 * a
/-- R442 RO: `HEDGE_PW_SRC_BASE_LO`. -/
def HEDGE_PW_SRC_BASE_LO (a b c : Nat) : Nat := 0x1580000 + 0x800 * a + 0x400 * b + 0x20 * c
/-- R442 RO: `HEDGE_PW_SRC_BASE_HI`. -/
def HEDGE_PW_SRC_BASE_HI (a b c : Nat) : Nat := 0x1580004 + 0x800 * a + 0x400 * b + 0x20 * c
/-- R442 RO: `HEDGE_PW_SRC_LIMIT_LO`. -/
def HEDGE_PW_SRC_LIMIT_LO (a b c : Nat) : Nat := 0x1580008 + 0x800 * a + 0x400 * b + 0x20 * c
/-- R442 RO: `HEDGE_PW_SRC_LIMIT_HI`. -/
def HEDGE_PW_SRC_LIMIT_HI (a b c : Nat) : Nat := 0x158000C + 0x800 * a + 0x400 * b + 0x20 * c
/-- R442 RO: `HEDGE_PW_TGT_BASE_LO`. -/
def HEDGE_PW_TGT_BASE_LO (a b c : Nat) : Nat := 0x1580010 + 0x800 * a + 0x400 * b + 0x20 * c
/-- R442 RO: `HEDGE_PW_TGT_BASE_HI`. -/
def HEDGE_PW_TGT_BASE_HI (a b c : Nat) : Nat := 0x1580014 + 0x800 * a + 0x400 * b + 0x20 * c
/-- R442 RO: `HEDGE_PW_CTRL`. -/
def HEDGE_PW_CTRL (a b c : Nat) : Nat := 0x1580018 + 0x800 * a + 0x400 * b + 0x20 * c
/-- R461 RO: `BRG_STATUS`. -/
def BRG_STATUS : Nat := 0x1600000
/-- R461 RO: `BRG_LOCK`. -/
def BRG_LOCK : Nat := 0x1600004
/-- R461 RO: `BRG_LEGACY`. -/
def BRG_LEGACY : Nat := 0x1600008
/-- R461 RO: `BRG_STORE`. -/
def BRG_STORE : Nat := 0x160000C
/-- R461 RC: `BRG_REQ_TX`. -/
def BRG_REQ_TX : Nat := 0x1600010
/-- R461 RC: `BRG_REQ_RX`. -/
def BRG_REQ_RX : Nat := 0x1600014
/-- R461 RC: `BRG_BUSY_TX`. -/
def BRG_BUSY_TX : Nat := 0x1600018
/-- R461 RC: `BRG_BUSY_RX`. -/
def BRG_BUSY_RX : Nat := 0x160001C
/-- R461 RC: `BRG_REFUSED`. -/
def BRG_REFUSED : Nat := 0x1600020
/-- R461 RC-ST: `BRG_TIMEOUT`. -/
def BRG_TIMEOUT : Nat := 0x1600024
/-- R461 RC-ST: `BRG_ADVISORY`. -/
def BRG_ADVISORY : Nat := 0x1600028
/-- R461 RC: `BRG_UNCOLLECTED`. -/
def BRG_UNCOLLECTED : Nat := 0x160002C
/-- R461 RC: `BRG_LOCK_BACKOFF`. -/
def BRG_LOCK_BACKOFF : Nat := 0x1600030
/-- R461 RC-ST: `BRG_LOCK_FORCED`. -/
def BRG_LOCK_FORCED : Nat := 0x1600034
/-- R461 RO: `BRG_T_SRC[i]`. -/
def BRG_T_SRC (a : Nat) : Nat := 0x1601000 + 0x8 * a
/-- R461 RO: `BRG_T_PERM[i]`. -/
def BRG_T_PERM (a : Nat) : Nat := 0x1601004 + 0x8 * a
/-- R486 RO: `SCION_STATUS`. -/
def SCION_STATUS : Nat := 0x1800000
/-- R486 RC: `SCION_CACHE_MISS`. -/
def SCION_CACHE_MISS : Nat := 0x1800004
/-- R486 RO: `SCION_D_CFG`. -/
def SCION_D_CFG (a : Nat) : Nat := 0x1801000 + 0x40 * a
/-- R486 RO: `SCION_D_STATE`. -/
def SCION_D_STATE (a : Nat) : Nat := 0x1801004 + 0x40 * a
/-- R486 RO: `SCION_D_FREE_DB`. -/
def SCION_D_FREE_DB (a : Nat) : Nat := 0x1801008 + 0x40 * a
/-- R486 RO: `SCION_D_FREE_VQ`. -/
def SCION_D_FREE_VQ (a : Nat) : Nat := 0x180100C + 0x40 * a
/-- R486 RO: `SCION_D_FREE_CELLS`. -/
def SCION_D_FREE_CELLS (a : Nat) : Nat := 0x1801010 + 0x40 * a
/-- R486 RC: `SCION_D_NO_SCION`. -/
def SCION_D_NO_SCION (a : Nat) : Nat := 0x1801014 + 0x40 * a
/-- R486 RO: `SCION_S_STATUS`. -/
def SCION_S_STATUS (a : Nat) : Nat := 0x1810000 + 0x40 * a
/-- R486 RO: `SCION_S_BIND`. -/
def SCION_S_BIND (a : Nat) : Nat := 0x1810004 + 0x40 * a
/-- R486 RO: `SCION_S_PASID`. -/
def SCION_S_PASID (a : Nat) : Nat := 0x1810008 + 0x40 * a
/-- R486 RO: `SCION_S_DB`. -/
def SCION_S_DB (a : Nat) : Nat := 0x181000C + 0x40 * a
/-- R486 RO: `SCION_S_VEC`. -/
def SCION_S_VEC (a : Nat) : Nat := 0x1810010 + 0x40 * a
/-- R486 RO: `SCION_S_QUOTA`. -/
def SCION_S_QUOTA (a : Nat) : Nat := 0x1810014 + 0x40 * a
/-- R486 RC: `SCION_S_DISCARD`. -/
def SCION_S_DISCARD (a : Nat) : Nat := 0x1810018 + 0x40 * a
/-- R486 RC: `SCION_S_LATE_CPL`. -/
def SCION_S_LATE_CPL (a : Nat) : Nat := 0x181001C + 0x40 * a
/-- R486 RC: `SCION_S_DIRTY_OUT`. -/
def SCION_S_DIRTY_OUT (a : Nat) : Nat := 0x1810020 + 0x40 * a
/-- R486 RC: `SCION_S_RESETS`. -/
def SCION_S_RESETS (a : Nat) : Nat := 0x1810024 + 0x40 * a
/-- R508 RO: `PWR_STATE`. -/
def PWR_STATE : Nat := 0x1C00000
/-- R508 RW: `PWR_CTRL`. -/
def PWR_CTRL : Nat := 0x1C00004
/-- R508 RW-ST: `PWR_WAKE_CFG`. -/
def PWR_WAKE_CFG : Nat := 0x1C00008
/-- R508 RO-ST: `PWR_LAST_WAKE`. -/
def PWR_LAST_WAKE : Nat := 0x1C0000C
/-- R508 RC: `PWR_P1_ENTRIES`. -/
def PWR_P1_ENTRIES : Nat := 0x1C00010
/-- R508 RC: `PWR_P1_TIME`. -/
def PWR_P1_TIME : Nat := 0x1C00014
/-- R508 RC-ST: `PWR_SLEEP_ENTRIES`. -/
def PWR_SLEEP_ENTRIES : Nat := 0x1C00018
/-- R508 RO: `PWR_AVS`. -/
def PWR_AVS : Nat := 0x1C0001C
/-- R508 RC-ST: `PWR_PMBUS_ERR`. -/
def PWR_PMBUS_ERR : Nat := 0x1C00020
/-- R508 RO: `PWR_CLK_STATUS`. -/
def PWR_CLK_STATUS : Nat := 0x1C00024
/-- R508 RC-ST: `PWR_CLK_FAULT`. -/
def PWR_CLK_FAULT : Nat := 0x1C00028
/-- R508 RO: `PWR_RAIL_SET`. -/
def PWR_RAIL_SET (a : Nat) : Nat := 0x1C00100 + 0x10 * a
/-- R508 RO: `PWR_RAIL_V`. -/
def PWR_RAIL_V (a : Nat) : Nat := 0x1C00104 + 0x10 * a
/-- R508 RO: `PWR_RAIL_I`. -/
def PWR_RAIL_I (a : Nat) : Nat := 0x1C00108 + 0x10 * a
/-- R508 RO: `PWR_RAIL_STATUS`. -/
def PWR_RAIL_STATUS (a : Nat) : Nat := 0x1C0010C + 0x10 * a
/-- R531 RO: `FLT_STATUS`. -/
def FLT_STATUS : Nat := 0x1D00000
/-- R531 RW: `FLT_ERRN_CTRL`. -/
def FLT_ERRN_CTRL : Nat := 0x1D00004
/-- R531 RW-ST: `FLT_CMASK`. -/
def FLT_CMASK : Nat := 0x1D00008
/-- R531 RC-ST: `FLT_COUNT_C`. -/
def FLT_COUNT_C : Nat := 0x1D0000C
/-- R531 RC-ST: `FLT_COUNT_U`. -/
def FLT_COUNT_U : Nat := 0x1D00010
/-- R531 RC-ST: `FLT_COUNT_F`. -/
def FLT_COUNT_F : Nat := 0x1D00014
/-- R531 RO: `FLT_NOW_LO`. -/
def FLT_NOW_LO : Nat := 0x1D00020
/-- R531 RO: `FLT_NOW_HI`. -/
def FLT_NOW_HI : Nat := 0x1D00024
/-- R531 RO-ST: `FLT_REC_INFO`. -/
def FLT_REC_INFO (a : Nat) : Nat := 0x1D00100 + 0x20 * a
/-- R531 RO-ST: `FLT_REC_ZONE`. -/
def FLT_REC_ZONE (a : Nat) : Nat := 0x1D00104 + 0x20 * a
/-- R531 RO-ST: `FLT_REC_ADDR_LO`. -/
def FLT_REC_ADDR_LO (a : Nat) : Nat := 0x1D00108 + 0x20 * a
/-- R531 RO-ST: `FLT_REC_ADDR_HI`. -/
def FLT_REC_ADDR_HI (a : Nat) : Nat := 0x1D0010C + 0x20 * a
/-- R531 RO-ST: `FLT_REC_TIME_LO`. -/
def FLT_REC_TIME_LO (a : Nat) : Nat := 0x1D00110 + 0x20 * a
/-- R531 RO-ST: `FLT_REC_TIME_HI`. -/
def FLT_REC_TIME_HI (a : Nat) : Nat := 0x1D00114 + 0x20 * a
/-- R531 WO: `FLT_REC_CLR`. -/
def FLT_REC_CLR (a : Nat) : Nat := 0x1D00118 + 0x20 * a
/-- R531 RO: `FLT_HOST_INFO`. -/
def FLT_HOST_INFO (a : Nat) : Nat := 0x1D01000 + 0x20 * a
/-- R531 RO: `FLT_HOST_ZONE`. -/
def FLT_HOST_ZONE (a : Nat) : Nat := 0x1D01004 + 0x20 * a
/-- R531 RO: `FLT_HOST_TIME_LO`. -/
def FLT_HOST_TIME_LO (a : Nat) : Nat := 0x1D01008 + 0x20 * a
/-- R531 RO: `FLT_HOST_TIME_HI`. -/
def FLT_HOST_TIME_HI (a : Nat) : Nat := 0x1D0100C + 0x20 * a
/-- R531 RC: `FLT_HOST_COUNT`. -/
def FLT_HOST_COUNT (a : Nat) : Nat := 0x1D01010 + 0x20 * a
/-- R532 RO: `CNT_LIVE_LO[j]`. -/
def CNT_LIVE_LO (a b : Nat) : Nat := 0x1E00000 + 0x1000 * a + 0x10 * b
/-- R532 RO, bit 31 W1C: `CNT_LIVE_HI[j]`. -/
def CNT_LIVE_HI (a b : Nat) : Nat := 0x1E00004 + 0x1000 * a + 0x10 * b
/-- R532 RO: `CNT_SHADOW_LO[j]`. -/
def CNT_SHADOW_LO (a b : Nat) : Nat := 0x1E00008 + 0x1000 * a + 0x10 * b
/-- R532 RO: `CNT_SHADOW_HI[j]`. -/
def CNT_SHADOW_HI (a b : Nat) : Nat := 0x1E0000C + 0x1000 * a + 0x10 * b
/-- R532 RO: `CNT_PAGE_SEQ`. -/
def CNT_PAGE_SEQ (a : Nat) : Nat := 0x1E00200 + 0x1000 * a
/-- R533 RO: `HVST_STATUS`. -/
def HVST_STATUS : Nat := 0x1F00000
/-- R533 RO: `HVST_CFG`. -/
def HVST_CFG : Nat := 0x1F00004
/-- R533 RO: `HVST_CNT_GROUPS0–3`. -/
def HVST_CNT_GROUPS (a : Nat) : Nat := 0x1F00008 + 0x4 * a
/-- R533 RO: `HVST_SEQ`. -/
def HVST_SEQ : Nat := 0x1F00018
/-- R533 RO: `HVST_FILL`. -/
def HVST_FILL : Nat := 0x1F0001C
/-- R533 RC: `HVST_SENT`. -/
def HVST_SENT : Nat := 0x1F00020
/-- R533 RC: `HVST_BYTES`. -/
def HVST_BYTES : Nat := 0x1F00024
/-- R533 RC: `HVST_DROP_T1–T6`. -/
def HVST_DROP_T (a : Nat) : Nat := 0x1F00030 + 0x4 * a
/-- R533 RC: `HVST_XOFF`. -/
def HVST_XOFF : Nat := 0x1F00048
/-- R533 RC: `HVST_SNAP_SKIP`. -/
def HVST_SNAP_SKIP : Nat := 0x1F0004C
/-- R533 RC-ST: `HVST_LOST`. -/
def HVST_LOST : Nat := 0x1F00050
/-- R549 RO: `MGMT_STATUS`. -/
def MGMT_STATUS : Nat := 0x2100000
/-- R549 RC: `MGMT_REQS`. -/
def MGMT_REQS : Nat := 0x2100004
/-- R549 RC: `MGMT_REFUSED`. -/
def MGMT_REFUSED : Nat := 0x2100008
/-- R549 RC: `MGMT_OVERRUN`. -/
def MGMT_OVERRUN : Nat := 0x210000C
/-- R549 RC-ST: `MGMT_BAD_ACCESS`. -/
def MGMT_BAD_ACCESS : Nat := 0x2100010
/-- R549 RC-ST: `MGMT_VIEW_STALE`. -/
def MGMT_VIEW_STALE : Nat := 0x2100014
/-- R549 RO: `MGMT_ATTEST_LEAF`. -/
def MGMT_ATTEST_LEAF : Nat := 0x2100018
/-- R549 RO: `MGMT_ATTEST_COUNT`. -/
def MGMT_ATTEST_COUNT : Nat := 0x210001C
/-- R549 RW: `MGMT_WDOG`. -/
def MGMT_WDOG : Nat := 0x2100020
/-- R550 WO: `MB_CTRL`. -/
def MB_CTRL (a b : Nat) : Nat := 0x2000000 + 0x8000 * a + 0x2000 * b
/-- R550 RO: `MB_STATUS`. -/
def MB_STATUS (a b : Nat) : Nat := 0x2000004 + 0x8000 * a + 0x2000 * b
/-- R550 RO: `VIEW_ID`. -/
def VIEW_ID (a : Nat) : Nat := 0x3000000 + 0x40000 * a
/-- R550 RO: `VIEW_GLB_ID`. -/
def VIEW_GLB_ID (a : Nat) : Nat := 0x3000004 + 0x40000 * a
/-- R550 RO: `VIEW_SNAP_SEQ`. -/
def VIEW_SNAP_SEQ (a : Nat) : Nat := 0x3000008 + 0x40000 * a
/-- R550 RO: `VIEW_SLOTS_LO`. -/
def VIEW_SLOTS_LO (a : Nat) : Nat := 0x300000C + 0x40000 * a
/-- R550 RO: `VIEW_SLOTS_HI`. -/
def VIEW_SLOTS_HI (a : Nat) : Nat := 0x3000010 + 0x40000 * a
/-- R535 RW: `request buffer word`. -/
def MB_REQ_BUF (a b c : Nat) : Nat := 0x2000100 + 0x8000 * a + 0x2000 * b + 0x4 * c
/-- R535 RO: `reply buffer word`. -/
def MB_REPLY_BUF (a b c : Nat) : Nat := 0x2001000 + 0x8000 * a + 0x2000 * b + 0x4 * c
/-- R524 RO: `CNT image word`. -/
def CNT_IMAGE (a : Nat) : Nat := 0x1E80000 + 0x4 * a

end Reg

/-- The register rows of the GLB unit. -/
def regRowsGlb : List RegRow := [
  { base := 0x0 },
  { base := 0x4 },
  { base := 0x8, kept := 0xFFFFFFFF, hold := 2, pair := 1 },
  { base := 0xC, kept := 0xFFFFFFFF, hold := 2, pair := 2 },
  { base := 0x10 },
  { base := 0x14 },
  { base := 0x18 },
  { base := 0x1C },
  { base := 0x20 },
  { base := 0x24 },
  { base := 0x28 },
  { base := 0x2C },
  { base := 0x40, wo := 0x1 },
  { base := 0x44, kept := 0xFFFFFFFF },
  { base := 0x48 } ]

/-- The register rows of the SEED unit. -/
def regRowsSeed : List RegRow := [
  { base := 0x100000 },
  { base := 0x100004 },
  { base := 0x100008 },
  { base := 0x10000C },
  { base := 0x100010 },
  { base := 0x100014 },
  { base := 0x100018 },
  { base := 0x100020, pair := 1 },
  { base := 0x100024, pair := 2 },
  { base := 0x100040, dims := [(0x4, 8)] },
  { base := 0x100060 },
  { base := 0x100064, kept := 0xFFFFFFFF },
  { base := 0x100068, rc := 0xFFFFFFFF, kept := 0xFFFFFFFF } ]

/-- The register rows of the LANE unit. -/
def regRowsLane : List RegRow := [
  { base := 0x200000, w1c := 0x20, dims := [(0x1000, 160)] },
  { base := 0x200004, dims := [(0x1000, 160)] },
  { base := 0x200008, dims := [(0x1000, 160)] },
  { base := 0x20000C, kept := 0xFFFFFFFF, dims := [(0x1000, 160)] },
  { base := 0x200010, kept := 0xFFFFFFFF, dims := [(0x1000, 160)] },
  { base := 0x200014, rc := 0xFFFFFFFF, dims := [(0x1000, 160)] },
  { base := 0x200018, rc := 0xFFFFFFFF, dims := [(0x1000, 160)] },
  { base := 0x20001C, rc := 0xFFFFFFFF, dims := [(0x1000, 160)] },
  { base := 0x200020, rc := 0xFFFFFFFF, dims := [(0x1000, 160)] },
  { base := 0x200100, rw := 0x1FF, dims := [(0x1000, 160)] },
  { base := 0x200104, rw := 0x3F02, wo := 0x1, dims := [(0x1000, 160)] },
  { base := 0x200108, dims := [(0x1000, 160)] },
  { base := 0x200110, pair := 1, dims := [(0x1000, 160)] },
  { base := 0x200114, pair := 2, dims := [(0x1000, 160)] },
  { base := 0x200118, pair := 1, dims := [(0x1000, 160)] },
  { base := 0x20011C, pair := 2, dims := [(0x1000, 160)] },
  { base := 0x200200, rw := 0xFFFE, wo := 0x1, dims := [(0x1000, 160)] },
  { base := 0x200204, dims := [(0x1000, 160)] },
  { base := 0x200208, dims := [(0x1000, 160)] },
  { base := 0x2A0000, dims := [(0x1000, 20)] },
  { base := 0x2A0004, dims := [(0x1000, 20)] },
  { base := 0x2A0008, dims := [(0x1000, 20)] },
  { base := 0x2A000C, rc := 0xFFFFFFFF, kept := 0xFFFFFFFF, dims := [(0x1000, 20)] } ]

/-- The register rows of the NZL unit. -/
def regRowsNzl : List RegRow := [
  { base := 0x400000, dims := [(0x4000, 80)] },
  { base := 0x400004, dims := [(0x4000, 80)] },
  { base := 0x400008, dims := [(0x4000, 80)] },
  { base := 0x40000C, dims := [(0x4000, 80)] },
  { base := 0x400010, rw := 0xE, wo := 0x1, dims := [(0x4000, 80)] },
  { base := 0x400014, dims := [(0x4000, 80)] },
  { base := 0x400018, dims := [(0x4000, 80)] },
  { base := 0x40001C, dims := [(0x4000, 80)] },
  { base := 0x400020, rc := 0xFFFFFFFF, dims := [(0x4000, 80)] },
  { base := 0x400024, rc := 0xFFFFFFFF, dims := [(0x4000, 80)] },
  { base := 0x400028, rc := 0xFFFFFFFF, dims := [(0x4000, 80)] },
  { base := 0x40002C, rc := 0xFFFFFFFF, dims := [(0x4000, 80)] },
  { base := 0x400030, rc := 0xFFFFFFFF, dims := [(0x4000, 80)] },
  { base := 0x400034, rc := 0xFFFFFFFF, dims := [(0x4000, 80)] },
  { base := 0x400038, rc := 0xFFFFFFFF, dims := [(0x4000, 80)] },
  { base := 0x40003C, rc := 0xFFFFFFFF, dims := [(0x4000, 80)] },
  { base := 0x400040, rc := 0xFFFFFFFF, dims := [(0x4000, 80)] },
  { base := 0x400044, rc := 0xFFFFFFFF, dims := [(0x4000, 80)] },
  { base := 0x400048, rc := 0xFFFFFFFF, kept := 0xFFFFFFFF, dims := [(0x4000, 80)] },
  { base := 0x40004C, rc := 0xFFFFFFFF, kept := 0xFFFFFFFF, dims := [(0x4000, 80)] },
  { base := 0x400050, rc := 0xFFFFFFFF, kept := 0xFFFFFFFF, dims := [(0x4000, 80)] },
  { base := 0x400060, dims := [(0x4000, 80), (0x4, 4)] },
  { base := 0x400070, dims := [(0x4000, 80), (0x4, 4)] },
  { base := 0x400080, dims := [(0x4000, 80), (0x4, 4)] } ]

/-- The register rows of the PCIE unit. -/
def regRowsPcie : List RegRow := [
  { base := 0x600000, dims := [(0x4000, 80)] },
  { base := 0x600004, dims := [(0x4000, 80)] },
  { base := 0x600008, rw := 0xE, wo := 0x1, dims := [(0x4000, 80)] },
  { base := 0x60000C, dims := [(0x4000, 80)] },
  { base := 0x600010, rc := 0xFFFFFFFF, dims := [(0x4000, 80)] },
  { base := 0x600014, rc := 0xFFFFFFFF, dims := [(0x4000, 80)] },
  { base := 0x600018, rc := 0xFFFFFFFF, dims := [(0x4000, 80)] },
  { base := 0x60001C, rc := 0xFFFFFFFF, dims := [(0x4000, 80)] },
  { base := 0x600020, rc := 0xFFFFFFFF, dims := [(0x4000, 80)] },
  { base := 0x600024, rc := 0xFFFFFFFF, dims := [(0x4000, 80)] },
  { base := 0x600028, rc := 0xFFFFFFFF, dims := [(0x4000, 80)] },
  { base := 0x60002C, rc := 0xFFFFFFFF, dims := [(0x4000, 80)] },
  { base := 0x600030, rc := 0xFFFFFFFF, dims := [(0x4000, 80)] },
  { base := 0x600034, rc := 0xFFFFFFFF, kept := 0xFFFFFFFF, dims := [(0x4000, 80)] },
  { base := 0x600038, rc := 0xFFFFFFFF, kept := 0xFFFFFFFF, dims := [(0x4000, 80)] },
  { base := 0x600040, dims := [(0x4000, 80)] },
  { base := 0x600044, rc := 0xFFFFFFFF, dims := [(0x4000, 80)] },
  { base := 0x600048, rc := 0xFFFFFFFF, dims := [(0x4000, 80)] },
  { base := 0x60004C, rc := 0xFFFFFFFF, dims := [(0x4000, 80)] },
  { base := 0x600050, rc := 0xFFFFFFFF, kept := 0xFFFFFFFF, dims := [(0x4000, 80)] } ]

/-- The register rows of the FWD unit. -/
def regRowsFwd : List RegRow := [
  { base := 0x800000 },
  { base := 0x800004 },
  { base := 0x800008 },
  { base := 0x80000C },
  { base := 0x800010, rc := 0xFFFFFFFF },
  { base := 0x800014, rc := 0xFFFFFFFF },
  { base := 0x800018, rc := 0xFFFFFFFF, kept := 0xFFFFFFFF },
  { base := 0x80001C, rc := 0xFFFFFFFF, kept := 0xFFFFFFFF },
  { base := 0x800020, rc := 0xFFFFFFFF },
  { base := 0x800040 },
  { base := 0x800044 },
  { base := 0x800048 },
  { base := 0x80004C },
  { base := 0x810000, pair := 1, dims := [(0x8, 4096)] },
  { base := 0x810004, pair := 2, dims := [(0x8, 4096)] },
  { base := 0x820000, dims := [(0x20, 80)] },
  { base := 0x820004, dims := [(0x20, 80)] },
  { base := 0x820008, rc := 0xFFFFFFFF, dims := [(0x20, 80)] },
  { base := 0x82000C, rc := 0xFFFFFFFF, dims := [(0x20, 80)] },
  { base := 0x820010, rc := 0xFFFFFFFF, dims := [(0x20, 80)] },
  { base := 0x820014, rc := 0xFFFFFFFF, dims := [(0x20, 80)] },
  { base := 0x820018, rc := 0xFFFFFFFF, dims := [(0x20, 80)] },
  { base := 0x830000, dims := [(0x40, 80), (0x8, 8)] },
  { base := 0x830004, dims := [(0x40, 80), (0x8, 8)] } ]

/-- The register rows of the BUF unit. -/
def regRowsBuf : List RegRow := [
  { base := 0xA00000 },
  { base := 0xA00004 },
  { base := 0xA00008, rc := 0xFFFFFFFF },
  { base := 0xA0000C },
  { base := 0xA00010 },
  { base := 0xA00014, rc := 0xFFFFFFFF },
  { base := 0xA00018, rc := 0xFFFFFFFF, kept := 0xFFFFFFFF },
  { base := 0xA0001C, rc := 0xFFFFFFFF, kept := 0xFFFFFFFF },
  { base := 0xA00020, w1c := 0x80000000 },
  { base := 0xA00024 },
  { base := 0xA00028, rc := 0xFFFFFFFF },
  { base := 0xA0002C, rc := 0xFFFFFFFF, kept := 0xFFFFFFFF },
  { base := 0xA00030, rc := 0xFFFFFFFF },
  { base := 0xA00034, rc := 0xFFFFFFFF, kept := 0xFFFFFFFF },
  { base := 0xA00038, rc := 0xFFFFFFFF, kept := 0xFFFFFFFF } ]

/-- The register rows of the QOS unit. -/
def regRowsQos : List RegRow := [
  { base := 0xB00000 },
  { base := 0xB00010 },
  { base := 0xB00014 },
  { base := 0xB00018 },
  { base := 0xB0001C },
  { base := 0xB00020 },
  { base := 0xB00024 },
  { base := 0xB00028, rc := 0xFFFFFFFF },
  { base := 0xB01000, dims := [(0x10, 32)] },
  { base := 0xB01004, dims := [(0x10, 32)] },
  { base := 0xB01008, dims := [(0x10, 32)] },
  { base := 0xB10000, dims := [(0x200, 80), (0x4, 4)] },
  { base := 0xB10040, dims := [(0x200, 80), (0x30, 8)] },
  { base := 0xB10044, dims := [(0x200, 80), (0x30, 8)] },
  { base := 0xB10048, dims := [(0x200, 80), (0x30, 8)] },
  { base := 0xB1004C, dims := [(0x200, 80), (0x30, 8)] },
  { base := 0xB10050, dims := [(0x200, 80), (0x30, 8)] },
  { base := 0xB10054, rc := 0xFFFFFFFF, dims := [(0x200, 80), (0x30, 8)] },
  { base := 0xB10058, rc := 0xFFFFFFFF, dims := [(0x200, 80), (0x30, 8)] },
  { base := 0xB1005C, rc := 0xFFFFFFFF, dims := [(0x200, 80), (0x30, 8)] },
  { base := 0xB10060, dims := [(0x200, 80), (0x30, 8)] },
  { base := 0xB20000, dims := [(0x80, 80), (0x10, 8)] },
  { base := 0xB20004, dims := [(0x80, 80), (0x10, 8)] },
  { base := 0xB20008, dims := [(0x80, 80), (0x10, 8)] },
  { base := 0xB2000C, rc := 0xFFFFFFFF, dims := [(0x80, 80), (0x10, 8)] } ]

/-- The register rows of the LAND unit. -/
def regRowsLand : List RegRow := [
  { base := 0xC00000 },
  { base := 0xC00004 },
  { base := 0xC00008, pair := 1 },
  { base := 0xC0000C, pair := 2 },
  { base := 0xC00010, pair := 1 },
  { base := 0xC00014, pair := 2 },
  { base := 0xC00018 },
  { base := 0xC0001C, pair := 1 },
  { base := 0xC00020, pair := 2 },
  { base := 0xC00024, kept := 0xFFFFFFFF, pair := 1 },
  { base := 0xC00028, kept := 0xFFFFFFFF, pair := 2 },
  { base := 0xC0002C, kept := 0xFFFFFFFF, pair := 1 },
  { base := 0xC00030, kept := 0xFFFFFFFF, pair := 2 },
  { base := 0xC00034 },
  { base := 0xC00038 },
  { base := 0xC00040, rc := 0xFFFFFFFF },
  { base := 0xC00044, rc := 0xFFFFFFFF, kept := 0xFFFFFFFF },
  { base := 0xC00048, rc := 0xFFFFFFFF, kept := 0xFFFFFFFF },
  { base := 0xC0004C, w1c := 0x80000000 },
  { base := 0xC00050, rc := 0xFFFFFFFF },
  { base := 0xC00054, rc := 0xFFFFFFFF, kept := 0xFFFFFFFF },
  { base := 0xC00058, rc := 0xFFFFFFFF, kept := 0xFFFFFFFF },
  { base := 0xC0005C, rc := 0xFFFFFFFF, kept := 0xFFFFFFFF },
  { base := 0xC00060, rc := 0xFFFFFFFF, kept := 0xFFFFFFFF },
  { base := 0xC00064, rc := 0xFFFFFFFF },
  { base := 0xC00068, rc := 0xFFFFFFFF },
  { base := 0xC00070, rw := 0x3FFFFFF, wo := 0x80000000 },
  { base := 0xC00074 },
  { base := 0xC01000, dims := [(0x10, 32)] },
  { base := 0xC01004, dims := [(0x10, 32)] },
  { base := 0xC40000, pair := 1, dims := [(0x1000, 32)] },
  { base := 0xC40004, pair := 2, dims := [(0x1000, 32)] },
  { base := 0xC40008, wo := 0xFFFFFFFF, pair := 1, dims := [(0x1000, 32)] },
  { base := 0xC4000C, wo := 0xFFFFFFFF, pair := 2, dims := [(0x1000, 32)] },
  { base := 0xC40010, w1c := 0x8, dims := [(0x1000, 32)] } ]

/-- The register rows of the PFAIL unit. -/
def regRowsPfail : List RegRow := [
  { base := 0xD00000 },
  { base := 0xD00004 },
  { base := 0xD00008, rc := 0xFFFFFFFF },
  { base := 0xD0000C },
  { base := 0xD00010, pair := 1 },
  { base := 0xD00014, pair := 2 },
  { base := 0xD00018, pair := 1 },
  { base := 0xD0001C, pair := 2 },
  { base := 0xD00020, rc := 0xFFFFFFFF },
  { base := 0xD00024, rc := 0xFFFFFFFF, kept := 0xFFFFFFFF },
  { base := 0xD00028, rc := 0xFFFFFFFF, kept := 0xFFFFFFFF },
  { base := 0xD0002C },
  { base := 0xD00030, kept := 0xFFFFFFFF },
  { base := 0xD00034, kept := 0xFFFFFFFF },
  { base := 0xD00038, kept := 0xFFFFFFFF, pair := 1 },
  { base := 0xD0003C, kept := 0xFFFFFFFF, pair := 2 },
  { base := 0xD00040 },
  { base := 0xD00100, dims := [(0x10, 8)] },
  { base := 0xD00104, dims := [(0x10, 8)] },
  { base := 0xD00108, pair := 1, dims := [(0x10, 8)] },
  { base := 0xD0010C, pair := 2, dims := [(0x10, 8)] },
  { base := 0xD00200, dims := [(0x20, 8)] },
  { base := 0xD00204, dims := [(0x20, 8)] },
  { base := 0xD00208, pair := 1, dims := [(0x20, 8)] },
  { base := 0xD0020C, pair := 2, dims := [(0x20, 8)] },
  { base := 0xD00400, rw := 0x7FFFFF, wo := 0x80000000 },
  { base := 0xD00404 },
  { base := 0xD01000, dims := [(0x4, 1024)] } ]

/-- The register rows of the ROOT unit. -/
def regRowsRoot : List RegRow := [
  { base := 0xE00000, kept := 0xFFFFFFFF, hold := 2 },
  { base := 0xE00004, kept := 0xFFFFFFFF, hold := 2 },
  { base := 0xE00008, rc := 0xFFFFFFFF, kept := 0xFFFFFFFF, hold := 1 },
  { base := 0xE00010, kept := 0xFFFFFFFF, hold := 2 },
  { base := 0xE00014, kept := 0xFFFFFFFF, hold := 2 },
  { base := 0xE00018, kept := 0xFFFFFFFF, hold := 2 },
  { base := 0xE0001C, kept := 0xFFFFFFFF, hold := 2 },
  { base := 0xE00020, kept := 0xFFFFFFFF, hold := 2 },
  { base := 0xE00024, kept := 0xFFFFFFFF },
  { base := 0xE00028, kept := 0xFFFFFFFF },
  { base := 0xE0002C, rc := 0xFFFFFFFF, kept := 0xFFFFFFFF, hold := 1 },
  { base := 0xE00030, kept := 0xFFFFFFFF, hold := 1 },
  { base := 0xE00034, kept := 0xFFFFFFFF, hold := 2 },
  { base := 0xE00100, kept := 0xFFFFFFFF, hold := 2, dims := [(0x4, 16)] },
  { base := 0xE01000, kept := 0xFFFFFFFF, hold := 2, dims := [(0x40, 16)] },
  { base := 0xE01004, kept := 0xFFFFFFFF, dims := [(0x40, 16)] },
  { base := 0xE01008, kept := 0xFFFFFFFF, hold := 2, dims := [(0x40, 16)] },
  { base := 0xE0100C, kept := 0xFFFFFFFF, hold := 2, dims := [(0x40, 16)] },
  { base := 0xE01010, rc := 0xFFFFFFFF, kept := 0xFFFFFFFF, hold := 1, dims := [(0x40, 16)] },
  { base := 0xE01014, rc := 0xFFFFFFFF, dims := [(0x40, 16)] },
  { base := 0xE01018, kept := 0xFFFFFFFF, hold := 1, dims := [(0x40, 16)] },
  { base := 0xE0101C, kept := 0xFFFFFFFF, hold := 1, dims := [(0x40, 16)] } ]

/-- The register rows of the RME unit. -/
def regRowsRme : List RegRow := [
  { base := 0x1000000 },
  { base := 0x1000004 },
  { base := 0x1000008 },
  { base := 0x1000010, rc := 0xFFFFFFFF },
  { base := 0x1000014, rc := 0xFFFFFFFF },
  { base := 0x1000018, rc := 0xFFFFFFFF, kept := 0xFFFFFFFF },
  { base := 0x100001C, rc := 0xFFFFFFFF },
  { base := 0x1000020 },
  { base := 0x1000024 },
  { base := 0x1000028 },
  { base := 0x1000030, rw := 0xFFFFF, wo := 0x80000000 },
  { base := 0x1000034 },
  { base := 0x1000100, dims := [(0x4, 48)] },
  { base := 0x1001000, rc := 0xFFFFFFFF, dims := [(0x100, 8)] },
  { base := 0x1001004, rc := 0xFFFFFFFF, dims := [(0x100, 8)] },
  { base := 0x1001008, rc := 0xFFFFFFFF, dims := [(0x100, 8)] },
  { base := 0x100100C, rc := 0xFFFFFFFF, dims := [(0x100, 8)] },
  { base := 0x1001010, rc := 0xFFFFFFFF, dims := [(0x100, 8)] },
  { base := 0x1001014, rc := 0xFFFFFFFF, dims := [(0x100, 8)] },
  { base := 0x1001018, rc := 0xFFFFFFFF, dims := [(0x100, 8)] },
  { base := 0x100101C, rc := 0xFFFFFFFF, dims := [(0x100, 8)] },
  { base := 0x1001020, rc := 0xFFFFFFFF, kept := 0xFFFFFFFF, dims := [(0x100, 8)] },
  { base := 0x1001024, dims := [(0x100, 8)] },
  { base := 0x1001028, dims := [(0x100, 8)] },
  { base := 0x100102C, rc := 0xFFFFFFFF, dims := [(0x100, 8)] },
  { base := 0x1001030, rc := 0xFFFFFFFF, dims := [(0x100, 8)] },
  { base := 0x1001034, rc := 0xFFFFFFFF, dims := [(0x100, 8)] },
  { base := 0x1001038, dims := [(0x100, 8)] },
  { base := 0x1002000, dims := [(0x40, 32)] },
  { base := 0x1002004, dims := [(0x40, 32)] },
  { base := 0x1002008, dims := [(0x40, 32)] },
  { base := 0x100200C, dims := [(0x40, 32)] },
  { base := 0x1002010, dims := [(0x40, 32)] },
  { base := 0x1002014, dims := [(0x40, 32)] },
  { base := 0x1002018, rc := 0xFFFFFFFF, dims := [(0x40, 32)] } ]

/-- The register rows of the HEDGE unit. -/
def regRowsHedge : List RegRow := [
  { base := 0x1500000 },
  { base := 0x1500004, rc := 0xFFFFFFFF },
  { base := 0x1500008, rc := 0xFFFFFFFF, kept := 0xFFFFFFFF },
  { base := 0x150000C, rc := 0xFFFFFFFF, kept := 0xFFFFFFFF },
  { base := 0x1500010, rc := 0xFFFFFFFF, kept := 0xFFFFFFFF },
  { base := 0x1500014, rc := 0xFFFFFFFF, kept := 0xFFFFFFFF },
  { base := 0x1500018, rc := 0xFFFFFFFF, kept := 0xFFFFFFFF },
  { base := 0x1400000, pair := 1, dims := [(0x1000, 97), (0x20, 114)] },
  { base := 0x1400004, pair := 2, dims := [(0x1000, 97), (0x20, 114)] },
  { base := 0x1400008, pair := 1, dims := [(0x1000, 97), (0x20, 114)] },
  { base := 0x140000C, pair := 2, dims := [(0x1000, 97), (0x20, 114)] },
  { base := 0x1400010, dims := [(0x1000, 97), (0x20, 114)] },
  { base := 0x1400014, dims := [(0x1000, 97), (0x20, 114)] },
  { base := 0x1400018, dims := [(0x1000, 97), (0x20, 114)] },
  { base := 0x1480000, pair := 1, dims := [(0x1000, 97), (0x20, 114)] },
  { base := 0x1480004, pair := 2, dims := [(0x1000, 97), (0x20, 114)] },
  { base := 0x1480008, pair := 1, dims := [(0x1000, 97), (0x20, 114)] },
  { base := 0x148000C, pair := 2, dims := [(0x1000, 97), (0x20, 114)] },
  { base := 0x1480010, dims := [(0x1000, 97), (0x20, 114)] },
  { base := 0x1501000, dims := [(0x40, 97)] },
  { base := 0x1501004, rc := 0xFFFFFFFF, dims := [(0x40, 97)] },
  { base := 0x1501008, pair := 1, dims := [(0x40, 97)] },
  { base := 0x150100C, pair := 2, dims := [(0x40, 97)] },
  { base := 0x1501010, dims := [(0x40, 97)] },
  { base := 0x1501014, dims := [(0x40, 97)] },
  { base := 0x1501018, wo := 0x1, dims := [(0x40, 97)] },
  { base := 0x150101C, rc := 0xFFFFFFFF, dims := [(0x40, 97)] },
  { base := 0x1590000, dims := [(0x10, 32)] },
  { base := 0x1590004, rc := 0xFFFFFFFF, dims := [(0x10, 32)] },
  { base := 0x1580000, pair := 1, dims := [(0x800, 32), (0x400, 2), (0x20, 32)] },
  { base := 0x1580004, pair := 2, dims := [(0x800, 32), (0x400, 2), (0x20, 32)] },
  { base := 0x1580008, pair := 1, dims := [(0x800, 32), (0x400, 2), (0x20, 32)] },
  { base := 0x158000C, pair := 2, dims := [(0x800, 32), (0x400, 2), (0x20, 32)] },
  { base := 0x1580010, pair := 1, dims := [(0x800, 32), (0x400, 2), (0x20, 32)] },
  { base := 0x1580014, pair := 2, dims := [(0x800, 32), (0x400, 2), (0x20, 32)] },
  { base := 0x1580018, dims := [(0x800, 32), (0x400, 2), (0x20, 32)] } ]

/-- The register rows of the BRG unit. -/
def regRowsBrg : List RegRow := [
  { base := 0x1600000 },
  { base := 0x1600004 },
  { base := 0x1600008 },
  { base := 0x160000C },
  { base := 0x1600010, rc := 0xFFFFFFFF },
  { base := 0x1600014, rc := 0xFFFFFFFF },
  { base := 0x1600018, rc := 0xFFFFFFFF },
  { base := 0x160001C, rc := 0xFFFFFFFF },
  { base := 0x1600020, rc := 0xFFFFFFFF },
  { base := 0x1600024, rc := 0xFFFFFFFF, kept := 0xFFFFFFFF },
  { base := 0x1600028, rc := 0xFFFFFFFF, kept := 0xFFFFFFFF },
  { base := 0x160002C, rc := 0xFFFFFFFF },
  { base := 0x1600030, rc := 0xFFFFFFFF },
  { base := 0x1600034, rc := 0xFFFFFFFF, kept := 0xFFFFFFFF },
  { base := 0x1601000, dims := [(0x8, 256)] },
  { base := 0x1601004, dims := [(0x8, 256)] } ]

/-- The register rows of the SCION unit. -/
def regRowsScion : List RegRow := [
  { base := 0x1800000 },
  { base := 0x1800004, rc := 0xFFFFFFFF },
  { base := 0x1801000, dims := [(0x40, 64)] },
  { base := 0x1801004, dims := [(0x40, 64)] },
  { base := 0x1801008, dims := [(0x40, 64)] },
  { base := 0x180100C, dims := [(0x40, 64)] },
  { base := 0x1801010, dims := [(0x40, 64)] },
  { base := 0x1801014, rc := 0xFFFFFFFF, dims := [(0x40, 64)] },
  { base := 0x1810000, dims := [(0x40, 2048)] },
  { base := 0x1810004, dims := [(0x40, 2048)] },
  { base := 0x1810008, dims := [(0x40, 2048)] },
  { base := 0x181000C, dims := [(0x40, 2048)] },
  { base := 0x1810010, dims := [(0x40, 2048)] },
  { base := 0x1810014, dims := [(0x40, 2048)] },
  { base := 0x1810018, rc := 0xFFFFFFFF, dims := [(0x40, 2048)] },
  { base := 0x181001C, rc := 0xFFFFFFFF, dims := [(0x40, 2048)] },
  { base := 0x1810020, rc := 0xFFFFFFFF, dims := [(0x40, 2048)] },
  { base := 0x1810024, rc := 0xFFFFFFFF, dims := [(0x40, 2048)] } ]

/-- The register rows of the PWR unit. -/
def regRowsPwr : List RegRow := [
  { base := 0x1C00000, kept := 0x1C0 },
  { base := 0x1C00004, rw := 0x1E, wo := 0x1 },
  { base := 0x1C00008, rw := 0x7, kept := 0xFFFFFFFF },
  { base := 0x1C0000C, kept := 0xFFFFFFFF },
  { base := 0x1C00010, rc := 0xFFFFFFFF },
  { base := 0x1C00014, rc := 0xFFFFFFFF },
  { base := 0x1C00018, rc := 0xFFFFFFFF, kept := 0xFFFFFFFF },
  { base := 0x1C0001C },
  { base := 0x1C00020, rc := 0xFFFFFFFF, kept := 0xFFFFFFFF },
  { base := 0x1C00024, kept := 0xFFFFFFFF, hold := 2 },
  { base := 0x1C00028, rc := 0xFFFFFFFF, kept := 0xFFFFFFFF },
  { base := 0x1C00100, kept := 0xFFFFFFFF, hold := 2, dims := [(0x10, 6)] },
  { base := 0x1C00104, kept := 0xFFFFFFFF, hold := 2, dims := [(0x10, 6)] },
  { base := 0x1C00108, kept := 0xFFFFFFFF, hold := 2, dims := [(0x10, 6)] },
  { base := 0x1C0010C, kept := 0xFFFFFFFF, hold := 2, dims := [(0x10, 6)] } ]

/-- The register rows of the FLT unit. -/
def regRowsFlt : List RegRow := [
  { base := 0x1D00000 },
  { base := 0x1D00004, rw := 0x1, wo := 0x2 },
  { base := 0x1D00008, rw := 0x7FFFF, kept := 0xFFFFFFFF },
  { base := 0x1D0000C, rc := 0xFFFFFFFF, kept := 0xFFFFFFFF },
  { base := 0x1D00010, rc := 0xFFFFFFFF, kept := 0xFFFFFFFF },
  { base := 0x1D00014, rc := 0xFFFFFFFF, kept := 0xFFFFFFFF },
  { base := 0x1D00020, pair := 1 },
  { base := 0x1D00024, pair := 2 },
  { base := 0x1D00100, kept := 0xFFFFFFFF, dims := [(0x20, 19)] },
  { base := 0x1D00104, kept := 0xFFFFFFFF, dims := [(0x20, 19)] },
  { base := 0x1D00108, kept := 0xFFFFFFFF, pair := 1, dims := [(0x20, 19)] },
  { base := 0x1D0010C, kept := 0xFFFFFFFF, pair := 2, dims := [(0x20, 19)] },
  { base := 0x1D00110, kept := 0xFFFFFFFF, pair := 1, dims := [(0x20, 19)] },
  { base := 0x1D00114, kept := 0xFFFFFFFF, pair := 2, dims := [(0x20, 19)] },
  { base := 0x1D00118, wo := 0x1, dims := [(0x20, 19)] },
  { base := 0x1D01000, dims := [(0x20, 32)] },
  { base := 0x1D01004, dims := [(0x20, 32)] },
  { base := 0x1D01008, pair := 1, dims := [(0x20, 32)] },
  { base := 0x1D0100C, pair := 2, dims := [(0x20, 32)] },
  { base := 0x1D01010, rc := 0xFFFFFFFF, dims := [(0x20, 32)] } ]

/-- The register rows of the CNT unit. -/
def regRowsCnt : List RegRow := [
  { base := 0x1E00000, pair := 1, dims := [(0x1000, 128), (0x10, 32)] },
  { base := 0x1E00004, w1c := 0x80000000, pair := 2, dims := [(0x1000, 128), (0x10, 32)] },
  { base := 0x1E00008, pair := 1, dims := [(0x1000, 128), (0x10, 32)] },
  { base := 0x1E0000C, pair := 2, dims := [(0x1000, 128), (0x10, 32)] },
  { base := 0x1E00200, dims := [(0x1000, 128)] },
  { base := 0x1E80000, dims := [(0x4, 131072)] } ]

/-- The register rows of the HVST unit. -/
def regRowsHvst : List RegRow := [
  { base := 0x1F00000 },
  { base := 0x1F00004 },
  { base := 0x1F00008, dims := [(0x4, 4)] },
  { base := 0x1F00018 },
  { base := 0x1F0001C },
  { base := 0x1F00020, rc := 0xFFFFFFFF },
  { base := 0x1F00024, rc := 0xFFFFFFFF },
  { base := 0x1F00030, rc := 0xFFFFFFFF, dims := [(0x4, 6)] },
  { base := 0x1F00048, rc := 0xFFFFFFFF },
  { base := 0x1F0004C, rc := 0xFFFFFFFF },
  { base := 0x1F00050, rc := 0xFFFFFFFF, kept := 0xFFFFFFFF } ]

/-- The register rows of the MGMT unit. -/
def regRowsMgmt : List RegRow := [
  { base := 0x2100000 },
  { base := 0x2100004, rc := 0xFFFFFFFF },
  { base := 0x2100008, rc := 0xFFFFFFFF },
  { base := 0x210000C, rc := 0xFFFFFFFF },
  { base := 0x2100010, rc := 0xFFFFFFFF, kept := 0xFFFFFFFF },
  { base := 0x2100014, rc := 0xFFFFFFFF, kept := 0xFFFFFFFF },
  { base := 0x2100018, kept := 0xFFFFFFFF, hold := 2 },
  { base := 0x210001C },
  { base := 0x2100020, wo := 0x1, kept := 0x2 },
  { base := 0x2000000, wo := 0x3, dims := [(0x8000, 32), (0x2000, 4)] },
  { base := 0x2000004, w1c := 0x4, dims := [(0x8000, 32), (0x2000, 4)] },
  { base := 0x3000000, dims := [(0x40000, 32)] },
  { base := 0x3000004, dims := [(0x40000, 32)] },
  { base := 0x3000008, dims := [(0x40000, 32)] },
  { base := 0x300000C, pair := 1, dims := [(0x40000, 32)] },
  { base := 0x3000010, pair := 2, dims := [(0x40000, 32)] },
  { base := 0x2000100, rw := 0xFFFFFFFF, dims := [(0x8000, 32), (0x2000, 4), (0x4, 256)] },
  { base := 0x2001000, dims := [(0x8000, 32), (0x2000, 4), (0x4, 1024)] } ]

/-- The bases of R5, each unit's rows with the address where its span ends. -/
def regUnits : List (Nat × List RegRow) := [
  (0x100000, regRowsGlb),
  (0x200000, regRowsSeed),
  (0x400000, regRowsLane),
  (0x600000, regRowsNzl),
  (0x800000, regRowsPcie),
  (0xA00000, regRowsFwd),
  (0xB00000, regRowsBuf),
  (0xC00000, regRowsQos),
  (0xD00000, regRowsLand),
  (0xE00000, regRowsPfail),
  (0x1000000, regRowsRoot),
  (0x1400000, regRowsRme),
  (0x1600000, regRowsHedge),
  (0x1800000, regRowsBrg),
  (0x1C00000, regRowsScion),
  (0x1D00000, regRowsPwr),
  (0x1E00000, regRowsFlt),
  (0x1F00000, regRowsCnt),
  (0x2000000, regRowsHvst),
  (0x4000000, regRowsMgmt) ]

end Sys2Proof.Machine
end

