-- ==== Sys2Proof/Machine/Tab.lean ====
section
/-! DEFINITION. Sparse tables: a list of (index, value) pairs in one canonical form (indices strictly rising, no entry equal
to the default), so that equal tables are equal data. Registers, landing words and every indexed collection are held
in this form. -/

namespace Sys2Proof.Machine

/-- A table indexed by Nat; an index it does not list holds the default value of its type. -/
structure Tab (α : Type) where
  cells : List (Nat × α)
  deriving DecidableEq, Repr

namespace Tab

/-- The table that lists nothing. -/
def empty {α : Type} : Tab α := ⟨[]⟩

/-- The first entry with index `k`. -/
def find {α : Type} : List (Nat × α) → Nat → Option α
  | [], _ => none
  | (j, v) :: rest, k => if j = k then some v else find rest k

/-- The entries but those with index `k`. -/
def drop {α : Type} : List (Nat × α) → Nat → List (Nat × α)
  | [], _ => []
  | (j, v) :: rest, k => if j = k then drop rest k else (j, v) :: drop rest k

/-- `(k, v)` put before the first larger index. -/
def ins {α : Type} : List (Nat × α) → Nat → α → List (Nat × α)
  | [], k, v => [(k, v)]
  | (j, u) :: rest, k, v => if k < j then (k, v) :: (j, u) :: rest else (j, u) :: ins rest k v

variable {α : Type} [Inhabited α] [DecidableEq α]

/-- The value at index `k`. -/
def get {α : Type} [Inhabited α] (t : Tab α) (k : Nat) : α := (find t.cells k).getD default

/-- The table with `v` at index `k`, in canonical form. -/
def set (t : Tab α) (k : Nat) (v : α) : Tab α :=
  if v = default then ⟨drop t.cells k⟩ else ⟨ins (drop t.cells k) k v⟩

/-- The table with the value at `k` changed by `f`. -/
def upd (t : Tab α) (k : Nat) (f : α → α) : Tab α := t.set k (f (t.get k))

/-- The entries whose index and value satisfy `f` only. -/
def keep {α : Type} (t : Tab α) (f : Nat → α → Bool) : Tab α := ⟨t.cells.filter fun c => f c.1 c.2⟩

/-- Every listed value changed by `f`, entries that became the default dropped. -/
def mapVals (t : Tab α) (f : Nat → α → α) : Tab α :=
  ⟨(t.cells.map fun c => (c.1, f c.1 c.2)).filter fun c => decide (c.2 ≠ default)⟩

/-- The indices listed. -/
def keys {α : Type} (t : Tab α) : List Nat := t.cells.map Prod.fst

/-- Indices strictly rising. -/
def rising {α : Type} : List (Nat × α) → Bool
  | [] => true
  | (j, _) :: rest => (match rest with | [] => true | (k, _) :: _ => decide (j < k)) && rising rest

/-- The canonical form: indices strictly rising, no entry equal to the default. -/
def wf (t : Tab α) : Bool := rising t.cells && t.cells.all fun c => decide (c.2 ≠ default)

end Tab

end Sys2Proof.Machine
end

