-- ==== Sys2Proof/Machine/State.lean ====
section
/-! DEFINITION. The state of the switch as plain data: the registers (one sparse table keyed by BAR0 address), and for each
unit the state its chapter gives it that no register holds. Times are core cycles of 0.625 ns (R511). -/

namespace Sys2Proof.Machine

open Sys2Proof

/-- An output pin of the package that a rule drives (R18). -/
inductive Pin where
  | errN | pwrWarn (c : Nat) | perst (c : Nat) | upWake (host : Nat) | thermN | bankDisEn | bankIso | gate (c : Nat)
  | chgEn | seedReset
  deriving DecidableEq, Repr, Inhabited

/-- What a completion carries beside its status and data (R211): Completer ID, byte count, lower address, traffic class, attributes. -/
structure CplHdr where
  cplId : BitVec 16 := 0
  bc    : BitVec 13 := 0
  low   : BitVec 7 := 0
  tcl   : BitVec 3 := 0
  ro    : Bool := false
  ido   : Bool := false
  ns    : Bool := false
  deriving DecidableEq, Repr, Inhabited

/-- The place of a landing word: channel, device, bank, row and column burst (R272). -/
structure DramPlace where
  channel : Nat
  device  : Nat
  bank    : Nat
  row     : Nat
  column  : Nat
  deriving DecidableEq, Repr, Inhabited

/-- What leaves the switch, in the order it leaves. Nothing reads it back: it is the record of the block's outputs. -/
inductive Out where
  /-- The words a register read returns to a requester (R8). -/
  | regData (host req off : Nat) (words : List Word)
  /-- A completion on a PCI Express port: status 0 success, 1 UR, 2 CRS, 4 CA; its EP bit; its data; of one that came in a frame, the other
  fields of R211. -/
  | cpl (port reqId tag status : Nat) (ep : Bool) (data : List Word) (h : CplHdr := {})
  /-- A TLP sent on a PCI Express port. -/
  | tlp (port : Nat) (t : Tlp)
  /-- A request of the far bridge on a far port, of its kind (R446). -/
  | bridged (port : Nat) (op : BrgOp) (t : Tlp)
  /-- A PCI Express message: PM_PME, PME_TO_Ack, ERR_NONFATAL ... by name. -/
  | pcieMsg (port : Nat) (name : String)
  /-- A data frame sent on a Nozan member, stomped or not (R136, R143). -/
  | frame (port : Nat) (f : Frame) (stomped : Bool)
  /-- A link control frame: ACK_SEQ, NAK and member, LIMIT of VC0-VC3 (R147). -/
  | lcf (port ack : Nat) (nak : Option Nat) (limits : List Nat)
  /-- Ordered sets on every lane of a port: the K code, three data symbols, and how many in a row (R115, R162, R166). -/
  | ordered (port k d1 d2 d3 : Nat) (sets : Nat := 1)
  /-- LANE sets: each lane its position, all the width offered (R161). -/
  | laneSets (port width sets : Nat)
  /-- The 10-bit groups of the unit recorded before it, for each lane its number and its groups in order; bit 9 of a group goes first
  (R113, R136, R137). -/
  | groups (port : Nat) (lanes : List (Nat × List Group))
  /-- A VC2 message to a switch: code, epoch, words (R289). -/
  | msg (dst code epoch : Nat) (words : List Nat)
  /-- An MSI-X message of a host's MEF, with the address and data of its table entry (R186). -/
  | msix (host vector addr : Nat) (data : Word)
  /-- An MSI-X message of a scion (R474). -/
  | scionMsix (scion vector addr : Nat) (data : Word)
  /-- A configuration request sent to a device; `type1` false when the device's own bus is meant (R443). -/
  | cfg (port : Nat) (c : CfgIn)
  /-- A write of a MEF to host memory, or a read it issues with a tag (R192), each with its PASID prefix when it has one. -/
  | hostWrite (host addr : Nat) (words : List Word) (pasid : Option (BitVec 22))
  | hostRead (host tag addr len : Nat) (pasid : Option (BitVec 20))
  /-- A reply to the board management controller over MCTP (R541). -/
  | mctp (slot : Nat) (words : List Word)
  | pin (p : Pin) (high : Bool)
  /-- A command on the internal link to the rootstock die (R23). -/
  | root (what : String) (n : Nat)
  /-- A regulator setting over PMBus: rail, millivolts, 0 for off (R500). -/
  | pmbus (rail mv : Nat)
  /-- A command to a flush target: opcode, first LBA, LBAs, and the words a write carries (R330). -/
  | nvme (target : Nat) (what : String) (lba count : Nat) (data : List Word)
  /-- A harvest record starts on the harvest port (R525). -/
  | harvest (bytes : List Byte)
  /-- The groups of that record on lanes HVST_TX[0] to HVST_TX[3] (R525). -/
  | harvestLanes (g : List (List Group))
  /-- One transmitted bit of a lane is inverted (R126). -/
  | inject (lane : Nat)
  /-- A lane sends a test pattern, unencoded: its first symbols, bits or PAM4 levels; to its own receiver inside the serdes (`near`), or on
  its pins (R124, R127). -/
  | pattern (lane : Nat) (near : Bool) (first : List Nat)
  /-- What a lane in the far-end retimed loop sends again (R127). -/
  | loopBits (lane : Nat) (bits : List Bool)
  /-- The transmitter of a lane goes to electrical idle (R107, R123, R128). -/
  | laneIdle (lane : Nat)
  /-- The answer of a lane to a margining command of its link (R129). -/
  | marginReply (lane value : Nat)
  /-- A landing word written to its DRAM device in 16 beats, and the VALID = 0 that the other words of its page get in the same pass
  (R272, R273, R276). -/
  | dram (at_ : DramPlace) (beats : List (BitVec 18))
  | dramClear (page but : Nat)
  /-- A flash command: read, erase or program at a flash address (R48, R71). -/
  | flash (what : String) (addr : Nat)
  deriving DecidableEq, Repr, Inhabited

/-- The read latch and the write holding of a requester (R8 to R10): the pair's _LO address and the half kept. -/
structure AccessSt where
  latch : Tab (Option (Nat × Word)) := .empty
  hold  : Tab (Option (Nat × Word)) := .empty
  deriving DecidableEq, Repr

/-- What the rootstock die holds in its always-on domain, its fuses and its monotonic counter block (R53, R59, R69,
R82, R544, R546), and the state of the paths that need no switch die (R23). -/
structure RootRec where
  powered       : Bool := true
  dieDead       : Bool := false
  railsOn       : Bool := false
  keyHash0      : BitVec 256 := 0
  keyHash1      : BitVec 256 := 0
  revoked0      : Bool := false
  revoked1      : Bool := false
  provisioned   : Bool := false
  attSecret     : BitVec 256 := 0
  seedCounter   : Nat := 0
  attLeaf       : Nat := 0
  flushCounter  : Nat := 0
  startCounter  : Nat := 0
  retCopy       : Nat := 0
  retDigest     : BitVec 256 := 0
  retCounter    : Nat := 0
  retSE         : Option Nat := none
  flushFlag     : Bool := false
  flushId       : Nat := 0
  flushCut      : Nat := 0
  reachedService  : Bool := false
  seedFailedSince : Bool := false
  flushedSince    : Bool := false
  warmFails     : List Nat := []
  heldCause     : Option Nat := none
  retries       : Nat := 0
  errHold       : Option Nat := none
  deriving DecidableEq, Repr

/-- The retention SRAMs of the switch die (R82): which items pass their check. `taps` are the lanes whose block holds the taps of a
preset exchange (R162 step 6, R165). -/
structure RetSram where
  lanes    : List Nat := []
  taps     : List Nat := []
  drams    : List Nat := []
  firmware : Option (BitVec 256) := none
  land     : Option (Nat × Nat × Bool) := none
  bitmapOk : Bool := false
  deriving DecidableEq, Repr

/-- Where a start stands (R78, R84, R87). -/
inductive Phase where
  /-- VAUX is down: nothing runs. -/
  | off
  /-- A start step runs. -/
  | steps
  /-- The retention window of R83 runs before a reset. -/
  | retain
  /-- Every rail is off for 1 s after a failed step 2 or 3 (R85). -/
  | railWait
  /-- Three tries failed: the rails stay off (R85). -/
  | railsFailed
  /-- The seed-failed state (R63), or stopped unprovisioned (R53). -/
  | seedStopped
  /-- Service and after (R84 step 10). -/
  | service
  /-- A flush runs in the cloche (R323), or the switch die is off after it. -/
  | cloche
  /-- P2, P3 or P4 (R488). -/
  | asleep
  deriving DecidableEq, Repr, Inhabited

/-- The start in progress: the reset cause whose retention window runs (16 more when a brace held it), the quiesce of a warm reset
asked for and when it began (R86), whether this warm start has counted as failed (R81), whether the retained landing record holds (R87 step 3), what step 1 and step 4 found wrong. -/
structure StartSt where
  phase     : Phase := .steps
  por       : Bool := true
  warm      : Bool := false
  quiesce   : Option Nat := none
  retCause  : Option Nat := none
  failed    : Bool := false
  keeps     : Bool := false
  badDram   : Bool := false
  bankBad   : Bool := false
  deriving DecidableEq, Repr

/-- The seed flash and the seed update (R46 to R73). Flash bytes are kept complemented, so that an erased byte (0xFF) is one the table
does not list. `repeated` are the bursts being repeated and `readErr` the flash addresses of those whose repeat failed (R48); `updCopy` is the copy being
written, `updPending` the request that waits for the flash, `held` the head block's pages held in management SRAM, `headOp` the
head-block operation now running, `programming` the page now being programmed (R71). -/
structure SeedSt where
  flash     : Tab Byte := .empty
  policy    : Config.Policy := {}
  loaded    : Bool := false
  repeated  : List Nat := []
  readErr   : List Nat := []
  updCopy   : Nat := 0
  updPending : Option ReqSrc := none
  held      : List (Nat × List Byte) := []
  headOp    : Option Nat := none
  programming : Option (Nat × List Byte) := none
  deriving DecidableEq, Repr

/-- What a lane holds beside its registers: the running disparity of its transmitter and receiver, true for positive (R113, R116); its
symbol alignment, the sets seen there while it has no lock, and another bit position with the sets seen there (R117); the fill of its
elastic buffer (R120), and that a slip turned a symbol into an error marker (R121); when the last single injection was (R126); since when compared bits of a locked checker are not yet in
LANE_PRBS_BITS (R125); whether a link command holds the sampler, and the error limit and steps it set (R129, R131). -/
structure LaneSt where
  txPos     : Bool := false
  rxPos     : Bool := false
  alnPos    : Nat := 0
  alnSeen   : Nat := 0
  alnOther  : Option (Nat × Nat) := none
  fill      : Nat := 4
  slipped   : Bool := false
  cmpAt     : Option Nat := none
  linkLimit : Nat := 4
  linkStep  : Option (Bool × Bool × Nat) := none
  lastShot  : Option Nat := none
  linkHolds : Bool := false
  deriving DecidableEq, Repr, Inhabited

/-- What a port group holds beside its registers: the condition of R112 holds its lanes down. -/
structure PgSt where
  refDown : Bool := false
  deriving DecidableEq, Repr, Inhabited

/-- A frame in a replay buffer (R145): the member it was last sent on, whether it waits to be resent, whether that sending is
charged to USED (R152), whether it takes FIRST and PREV anew (R149), and whether it is stomped. -/
structure Held where
  f      : Frame
  member : Nat := 0
  resend : Bool := false
  charge : Bool := false
  fresh  : Bool := false
  stomped : Bool := false
  deriving DecidableEq, Repr, Inhabited

/-- A frame held out of order (R148, R157): its header words as received, the frame, whether it is stomped. -/
structure Early where
  hdr     : List Word
  f       : Frame
  stomped : Bool := false
  deriving DecidableEq, Repr, Inhabited

/-- The state a Nozan pair shares (R145, R148, R152, R157); a single port is a pair with one member. Keyed by the lower
port. `heldCred` is the receive space held, in credits by VC, `limit0` the first LIMIT received since link-up, `firstLcf` that the first
LCF after a link-up that kept the sequence is awaited (R163), `owed` the VC1 credits withheld by a quiesce (R86), `cutSeq` the LSEQ of a
frame cut through whose end has not come (R157, R222). -/
structure PairSt where
  replay   : List Held := []
  reorder  : List Early := []
  accepted : Nat := 0
  ackWait  : Bool := false
  vcKnown  : Nat := 0
  grown    : List Nat := [0, 0, 0, 0]
  heldCred : List Nat := [0, 0, 0, 0]
  limit0   : List Nat := [0, 0, 0, 0]
  downSince : Option Nat := none
  firstLcf : Bool := false
  owed     : Nat := 0
  cutSeq   : Option Nat := none
  deriving DecidableEq, Repr, Inhabited

/-- The state of one Nozan member link (R149 to R151, R158 to R168): LAST, the sending history, the NAK outstanding, the replays of
one oldest frame; the training step's findings; the preset exchange; the target width and rate, the full reset in progress and who
asked for it; `bringup` the reduced mode of R94; sleep and wake; when the wait before its next training began, and when it went down;
the identity last seen (R163). -/
structure MemberSt where
  last      : Option Nat := none
  firstSent : Bool := false
  lastSent  : Nat := 0
  nakOut    : Bool := false
  replays   : Nat := 0
  oldest    : Option Nat := none
  left      : Bool := false
  fails     : Nat := 0
  retryWait : Bool := false
  signal    : Bool := false
  lanesUp   : List Nat := []
  offered   : Nat := 0
  peerSw    : Option Nat := none
  peerPort  : Option (Nat × Nat) := none
  peerSess  : Option Nat := none
  readyRx   : Nat := 0
  readyTx   : Nat := 0
  preset    : Nat := 0
  eyes      : List (Nat × Nat) := []
  partnerPreset : Nat := 0
  tapsOk    : Bool := false
  target    : Nat × Nat := (0, 0)
  ownReq    : Option (Nat × Nat) := none
  resetId   : Nat := 0
  seenId    : Option Nat := none
  resetting : Bool := false
  manager   : Bool := false
  bringup   : Bool := false
  sleepReq  : Bool := false
  wakeWait  : Bool := false
  downAt    : Option Nat := none
  wentDown  : Option Nat := none
  refDown   : Bool := false
  lastSeen  : Option (Nat × Nat × Nat × Nat) := none
  resetDone : Bool := false
  deriving DecidableEq, Repr, Inhabited

/-- Who issued an upstream read or write of a MEF (R192): a fetch of an SQ's entries, the source data of a connection's next
packet (or of a connectionless engine's), a slot fill or spill, a completion entry of a CQ, the data of a READ, a region
a WRITE packet writes, an image copy, a scion's log. -/
inductive MefOwner where
  | wqe (sq : Nat) | src (key : Nat) | fill (c : Nat) | spill (c : Nat) | cqe (cq : Nat) | readData (msg : Nat)
  | region (idx : Nat) | image | scion (sc : Nat) | part
  deriving DecidableEq, Repr, Inhabited

/-- What a vDSP reports of its slot and of DPC (R198, R202): DPC Trigger Status and why, the slot's event bits, presence. -/
structure VdspSt where
  dpcTrig   : Bool := false
  dpcReason : Nat := 0
  cmdDone   : Bool := false
  pwrFault  : Bool := false
  attnPress : Bool := false
  presence  : Bool := false
  presChg   : Bool := false
  dllChg    : Bool := false
  deriving DecidableEq, Repr, Inhabited

/-- A write of a MEF that was discarded and is to be made again (R408). -/
structure MefWrite where
  own   : MefOwner
  addr  : Nat
  words : List Word
  pasid : Option (BitVec 20)
  deriving DecidableEq, Repr

/-- A read of a MEF outstanding: tag, generation, owner, when it was issued (R193), and the response cells reserved for it, of the internal
masters' reservation and of the shared pool (R31, R228); one that its hedge unit refused. -/
structure MefRd where
  tag    : Nat
  gen    : Nat
  own    : MefOwner
  at_    : Nat := 0
  cells  : Nat := 0
  shared : Nat := 0
  refused : Bool := false
  deriving DecidableEq, Repr, Inhabited

/-- A read that waits for a tag or for response cells (R31), with the tag of the hedge check that allowed it; one refused there ends with
Completer Abort status (R422). -/
structure MefAsk where
  own   : MefOwner
  addr  : Nat
  len   : Nat
  pasid : Option (BitVec 20) := none
  tag   : Option (Nat × Nat × Nat) := none
  refused : Bool := false
  deriving DecidableEq, Repr, Inhabited

/-- A host's MEF beside PCIE_MEF_STATE and its configuration registers (R183 to R195): the MSI-X table by word, the vectors its table does
not mask, and those pending; the reads outstanding and those waiting to be issued; what is read or written again once Bus Master
Enable returns (R408); when PME_Turn_Off came (R188); BARs stopped by a reset (R195). -/
structure MefSt where
  pmeWait  : Bool := false
  wakeOn   : Bool := false
  table    : Tab Word := .empty
  unmask   : Nat := 0
  msixPend : Nat := 0
  reads    : List MefRd := []
  readWait : List MefAsk := []
  turnOff  : Option Nat := none
  readAgain : List MefOwner := []
  wrAgain  : List MefWrite := []
  barStop  : Bool := false
  deriving DecidableEq, Repr, Inhabited

/-- A configuration or I/O request of a host that waits at a device's port for its issue (R212): the upstream port it came by, its
Requester ID and tag, and what is sent. -/
inductive NpKind where
  | cfg (c : CfgIn)
  | io (t : Tlp)
  deriving DecidableEq, Repr, Inhabited

/-- A waiting request of that kind with whom its completion goes to (R212). -/
structure NpReq where
  up    : Nat
  reqId : BitVec 16
  tag   : BitVec 10
  kind  : NpKind
  deriving DecidableEq, Repr, Inhabited

/-- The PCI Express unit: MEFs by host, vDSPs by 64 k + j, ports held in Disabled by their host, the target rate plus 1 of a port
being retrained (R182, R206), the ports that have been up since the start (R94), the words hosts have written to their copies of
configuration registers (R181), and configuration and I/O requests waiting at a device's port (R212). -/
structure PcieSt where
  mef      : Tab MefSt := .empty
  vdsp     : Tab VdspSt := .empty
  dis      : List Nat := []
  target   : Tab Nat := .empty
  beenUp   : List Nat := []
  cfg      : Tab Word := .empty
  npWait   : Tab (List NpReq) := .empty
  deriving DecidableEq, Repr

/-- The fault collection beside its registers: a CLEAR written during a pulse (R517), and when each unit's record was filled (R515). -/
structure FltSt where
  clearDue : Bool := false
  pulseAt  : Nat := 0
  filledAt : Tab (Option Nat) := .empty
  deriving DecidableEq, Repr

/-- A harvest record queued: its class, its type, its bytes with head (R527, R528). -/
structure HvRec where
  prio  : Nat
  typ   : Nat
  bytes : List Byte
  deriving DecidableEq, Repr, Inhabited

/-- The harvest port beside its registers (R525 to R529): records queued, the record now leaving, drops since the last
DROP record and when that was queued, when the last flow-control set came, the bytes sent beyond whole units of 64, the running disparity
of each transmit lane, when a harvest snapshot last came due, the harvest shadow bank's snapshot number and the groups still to queue. -/
structure HvstSt where
  running  : Bool := false
  queue    : List HvRec := []
  sending  : Option HvRec := none
  drops    : List Nat := [0, 0, 0, 0, 0, 0]
  dropAt   : Option Nat := none
  setAt    : Nat := 0
  rem      : Nat := 0
  txPos    : List Bool := [false, false, false, false]
  snapAt   : Nat := 0
  snapNo   : Nat := 0
  toQueue  : List Nat := []
  shadow   : Tab Word := .empty
  deriving DecidableEq, Repr

/-- A request in the management queue (R67, R536): who sent it, its words as read when it entered, whether its reply is discarded (R548),
and whether it has been checked and is being carried out. -/
structure MgmtReq where
  src     : ReqSrc
  words   : List Word
  discard : Bool := false
  begun   : Bool := false
  deriving DecidableEq, Repr, Inhabited

/-- One entry of a view (R542): its kind, its owner, the object it names, its words. -/
structure ViewEntry where
  kind  : Nat
  owner : Nat
  id    : Nat
  words : List Word
  deriving DecidableEq, Repr, Inhabited

/-- The management core (R534 to R548). Counter slots by 64 host + slot hold the mapped group plus 1. -/
structure MgmtSt where
  queue    : List MgmtReq := []
  views    : List ViewEntry := []
  viewSeq  : Nat := 0
  viewAt   : Nat := 0
  kicked   : Nat := 0
  attWait  : Option (ReqSrc × BitVec 256) := none
  attAt    : Nat := 0
  eid      : Byte := 0
  slots    : Tab Nat := .empty
  deriving DecidableEq, Repr

/-- A frame in the shared buffer (R224, R227): its ingress (80 for an internal master), its reservation class, its cells, how
many of them came from the shared pool, the hedge tag (unit, slot, GEN) of R421, whether its ingress verdict is known
good, whether a word of it was found uncorrectable, for an upstream write of a MEF its host and owner, whether it
leaves stomped (R143, R222), for a host's request to a scion the scion and its GEN (R472), and at a link pair the member in whose
transmit queue it stands (R156), and the scion whose request it is (R478). -/
structure QEntry where
  f      : Frame := {}
  inPort : Nat := 0
  cls    : Nat := 0
  cells  : List Nat := []
  shared : Nat := 0
  tag    : Option (Nat × Nat × Nat) := none
  known  : Bool := true
  bad    : Bool := false
  own    : Option (Nat × MefOwner) := none
  stomp  : Bool := false
  scion  : Option (Nat × Nat) := none
  member : Nat := 0
  at_    : Nat := 0
  mapper : Option Nat := none
  deriving DecidableEq, Repr, Inhabited

/-- A frame at an ingress before its header is handled: the frame, and for a PCI Express ingress the hedge target slot that
resolution gave (R416, R417), the scion whose request it is, and that it is a later part of a request split at its slots' edges. -/
structure Arrival where
  f      : Frame := {}
  slot   : Option Nat := none
  scion  : Option Nat := none
  part   : Bool := false
  deriving DecidableEq, Repr, Inhabited

/-- A completion map entry of an egress port (R212), for a completion that the switch makes itself (R198) the bytes asked for, the low
address bits and the traffic class, and for a host's request to a scion the scion and its GEN (R472). -/
structure CmapEntry where
  tag     : Nat
  srcSw   : Nat
  srcPort : Nat
  reqId   : Nat
  origTag : Nat
  bytes   : Nat := 4
  low     : Nat := 0
  tcl     : Nat := 0
  scion   : Option (Nat × Nat) := none
  deriving DecidableEq, Repr, Inhabited

/-- A stored link-state frame (R216). -/
structure LsEntry where
  origin : Nat
  start  : Nat
  seq    : Nat
  adj    : List (Nat × Nat)
  deriving DecidableEq, Repr, Inhabited

/-- The forwarding core beside its registers (R209 to R241). `queue` and `metHold` are keyed by 8 port + class, `resUsed` by
4 port + class of credit, `sampleCnt` by 2 port + direction; `avg` is the average depth as numerator over a power of
two, `staged` a frame in cut-through whose verdict is awaited (R222) and `cutTo` its egress, `tx` what a port has begun to
send, `samples` the queue of R241 as creation time and body. -/
structure FwdSt where
  passed   : Tab (List Arrival) := .empty
  staged   : Tab (Option QEntry) := .empty
  cutTo    : Tab (Option Nat) := .empty
  queue    : Tab (List QEntry) := .empty
  tx       : Tab (List QEntry) := .empty
  metHold  : Tab (List QEntry) := .empty
  toLand   : List QEntry := []
  freed    : Tab (List Nat) := .empty
  never    : Tab Nat := .empty
  lastGrp  : Tab (Option Nat) := .empty
  resUsed  : Tab Nat := .empty
  cmap     : Tab (List CmapEntry) := .empty
  avg      : Tab (Nat × Nat) := .empty
  sampleCnt : Tab Nat := .empty
  samples  : List (Nat × List Byte) := []
  ls       : List LsEntry := []
  adjs     : List Nat := []
  adjDown  : List (Nat × Nat) := []
  ownSeq   : Nat := 0
  firstAdj : Option Nat := none
  lsChange : Nat := 0
  deriving DecidableEq, Repr

/-- The state an ADMIT carries (R264). -/
structure AdmitSt where
  opened  : Bool := false
  held    : Bool := false
  deficit : Bool := false
  block   : Nat := 0
  allow   : Nat := 0
  deriving DecidableEq, Repr, Inhabited

/-- Meters, shapers and ledger beside their registers (R249 to R264). Meter buckets are kept as what is missing from full,
in 1/800 byte, keyed by 8 port + class; shaper fractions in 1/200 byte; `shPend` the privileged changes not yet
applied, each with the time it committed; `resume` holds admission after a stand-down until the next sample. -/
structure QosSt where
  lackC    : Tab Nat := .empty
  lackP    : Tab Nat := .empty
  frac     : Tab Nat := .empty
  shPend   : Tab (List (Nat × Nat × Nat)) := .empty
  lastPair : Option (Nat × Nat × Bool × Bool × Nat) := none
  deficit  : List Nat := []
  sent     : Tab (Option AdmitSt) := .empty
  sentAt   : Tab (Option Nat) := .empty
  applied  : Tab (Option AdmitSt) := .empty
  heldSince : Option Nat := none
  heldRem  : Nat := 0
  resume   : Bool := false
  deriving DecidableEq, Repr

/-- A word of landing DRAM (R273): 256 data bits, ETAG, POISON, VALID; the check bits are those of the code
(R274), and `err` is the difference of the 288 stored bits from what was written. -/
structure LandWord where
  data   : BitVec 256 := 0
  etag   : BitVec 14 := 0
  poison : Bool := false
  valid  : Bool := false
  err    : BitVec 288 := 0
  deriving DecidableEq, Repr, Inhabited

/-- A VC1 frame at the landing input, or an admitted write that has not landed (R260): its rebuilt epoch, region, source,
landing address, words, pages touched, page count of a release, poison, and of a remote-memory write its connection and
MSN and the region entry that admitted it, the tag of its hedge check (R421), and
the buffer entry that holds its cells. -/
structure LandIn where
  ep      : Nat := 0
  region  : Nat := 0
  srcSw   : Nat := 0
  srcPort : Nat := 0
  reqId   : Nat := 0
  addr    : Nat := 0
  words   : List (BitVec 256) := []
  pages   : Nat := 0
  release : Option Nat := none
  poison  : Bool := false
  conn    : Option (Nat × Nat) := none
  key     : Option Nat := none
  tag     : Option (Nat × Nat × Nat) := none
  ent     : Option QEntry := none
  deriving DecidableEq, Repr, Inhabited

/-- A requester's record (R282): the ingress port of its writes (0x7F for a connection), the earliest fault not reported with its
kind, and the earliest poison not reported. -/
structure ReqRec where
  port   : Nat := 0x7F
  last   : Nat := 0
  fault  : Option (Nat × Nat) := none
  poison : Option Nat := none
  deriving DecidableEq, Repr, Inhabited

/-- The markers of a cluster adjacency (R278, R284 to R286): the latest received, the latest sent, and the one due. -/
structure AdjMark where
  inSet : Bool := false
  rcv   : Option Nat := none
  sent  : Option Nat := none
  due   : Option Nat := none
  dueAt : Nat := 0
  deriving DecidableEq, Repr, Inhabited

/-- A REPORT held or used (R290). -/
structure Report where
  child  : Nat
  ep     : Nat
  sent   : Nat
  landed : Nat
  lost   : Nat
  bitmap : Nat
  maxSe  : Nat
  term   : Nat
  deriving DecidableEq, Repr, Inhabited

/-- A fence the MEF holds (R299): the key of its record, target, width, arrival, whether no leader was known since then,
the requester and offset its data goes to, and whether an earlier write of its requester still waits untagged, so that its target is open. -/
structure FenceSt where
  reqId  : Nat
  target : Nat
  wide   : Bool := false
  at_    : Nat := 0
  noLead : Bool := false
  req    : Nat := 0
  off    : Nat := 0
  conn   : Option Nat := none
  open_  : Bool := false
  noWin  : Bool := false
  deriving DecidableEq, Repr, Inhabited

/-- A held read of BAR2 (R302), with whether its target is open as of a fence. -/
structure Bar2Rd where
  open_  : Bool := false
  reqId  : Nat
  tag    : Nat := 0
  target : Nat
  addr   : Nat
  len    : Nat
  at_    : Nat := 0
  deriving DecidableEq, Repr, Inhabited

/-- A protected write that waits at its ingress untagged (R281, R282, R297). -/
structure WaitWr where
  port    : Nat
  host    : Nat
  reqId   : Nat
  off     : Nat
  len     : Nat
  release : Bool
  data    : List (BitVec 256)
  poison  : Bool
  tc      : Nat := 0
  deriving DecidableEq, Repr, Inhabited

/-- The landing controller and the seal tree beside their registers (R268 to R305). Counts are keyed by epoch, records by
requester, words by W, pages by P. -/
structure LandSt where
  input    : List LandIn := []
  admitted : List LandIn := []
  word     : Tab LandWord := .empty
  page     : Tab Bool := .empty
  relPend  : Tab (Option Nat) := .empty
  recs     : Tab (Option ReqRec) := .empty
  sent     : Tab Nat := .empty
  landed   : Tab Nat := .empty
  lost     : Tab Nat := .empty
  adj      : Tab AdjMark := .empty
  sealedL  : List Nat := []
  sentRep  : List Nat := []
  reports  : List Report := []
  sumHigh  : List (Nat × Nat) := []
  term     : Nat := 0
  highTerm : Nat := 0
  claim    : Option (Nat × Nat) := none
  noLeader : Bool := true
  lastSeal : Nat := 0
  highest  : Option Nat := none
  fences   : Tab (List FenceSt) := .empty
  fenceQ   : Tab (List FenceSt) := .empty
  bar2     : Tab (List Bar2Rd) := .empty
  waiting  : List WaitWr := []
  retSE    : Option Nat := none
  removed  : List Nat := []
  timerDue : Bool := false
  openedAt : Nat := 0
  haveRoot : Bool := false
  gap      : List Nat := []
  joins    : List (Nat × Nat) := []
  kept     : Bool := false
  deriving DecidableEq, Repr

/-- One packet an engine has to send (R381, R382): its message, its kind (1 WRITE, 2 READ_REQ, 3 READ_RESP, 4 CTRL), its
fields, whether its source data has been asked for and is at hand, and the data. -/
structure TxItem where
  msg     : Nat := 0
  kind    : Nat := 1
  idx     : Nat := 0
  off     : Nat := 0
  bytes   : Nat := 0
  last    : Bool := false
  readLen : Nat := 0
  lastIdx : Nat := 0
  asked   : Bool := false
  ready   : Bool := false
  data    : List Word := []
  poison  : Bool := false
  deriving DecidableEq, Repr, Inhabited

/-- A packet sent and not yet acknowledged (R390 to R393): its PSN, when it was last sent, whether it was ever resent and
whether it is to be resent. -/
structure Flight where
  psn    : Nat
  item   : TxItem
  at_    : Nat
  again  : Bool := false
  resend : Bool := false
  deriving DecidableEq, Repr, Inhabited

/-- One end of a connection: the context of R385, where it is (R386), and what its engine holds for it. -/
structure Ctx where
  st       : Nat := 0
  prot     : Bool := false
  host     : Nat := 0
  err      : Nat := 0
  peerSw   : Nat := 0
  peerConn : Nat := 0
  txNext   : Nat := 0
  txUna    : Nat := 0
  rxCum    : Nat := 0
  txMsn    : Nat := 0
  rate     : Nat := 0
  rto      : Nat := 0
  srtt     : Nat := 0
  rttvar   : Nat := 0
  expiries : Nat := 0
  lastCut  : Nat := 0
  incAt    : Nat := 0
  protFly  : Nat := 0
  txSack   : Nat := 0
  rxMap    : Nat := 0
  spills   : Nat := 0
  cached   : Bool := false
  dirty    : Bool := false
  used     : Nat := 0
  filling  : Bool := false
  spilling : Bool := false
  sendQ    : List TxItem := []
  flight   : List Flight := []
  lack     : Nat := 0
  lackAt   : Nat := 0
  accepted : Nat := 0
  marked   : Nat := 0
  covered  : Nat := 0
  lastDup  : Option Nat := none
  naks     : List (Nat × Nat) := []
  rxLast   : List (Nat × Nat) := []
  deriving DecidableEq, Repr, Inhabited

/-- A message of an engine (R371): from a work entry (`sq` names its queue), a READ's responses at the target, or a CTRL. -/
structure RMsg where
  id      : Nat
  kind    : Nat := 1
  host    : Nat := 0
  sq      : Nat := 0
  sqHead  : Nat := 0
  w       : Wqe := {}
  conn    : Nat := 0
  dst     : Nat := 0
  msn     : Nat := 0
  npk     : Nat := 0
  sentPk  : Nat := 0
  acked   : Nat := 0
  bytes   : Nat := 0
  epLow   : Option Nat := none
  epoch   : Option Nat := none
  landed  : Nat := 0
  status  : Option Nat := none
  poison  : Bool := false
  got     : Nat := 0
  expect  : Option Nat := none
  clId    : Nat := 0
  clFirst : Option Nat := none
  onceSent : Nat := 0
  items   : List TxItem := []
  started : Bool := false
  done    : Bool := false
  cells   : Nat := 0
  region  : Nat := 0
  action  : Nat := 0
  q       : Option ReqSrc := none
  deriving DecidableEq, Repr, Inhabited

/-- A send queue (R374 to R376, R389). `order` lists its messages as posted. -/
structure Sq where
  st      : Nat := 0
  base    : Nat := 0
  log2    : Nat := 0
  cq      : Nat := 0
  tc      : Nat := 0
  pasid   : Nat := 0
  head    : Nat := 0
  tail    : Nat := 0
  fetching : Nat := 0
  order   : List Nat := []
  closing : Option ReqSrc := none
  deriving DecidableEq, Repr, Inhabited

/-- A completion queue (R375, R378). `written` counts the entries written since its creation. -/
structure Cq where
  valid   : Bool := false
  base    : Nat := 0
  log2    : Nat := 0
  vec     : Nat := 0
  pasid   : Nat := 0
  head    : Nat := 0
  written : Nat := 0
  armed   : Bool := false
  deriving DecidableEq, Repr, Inhabited

/-- A compost area (R387). -/
structure Area where
  base  : Nat := 0
  log2  : Nat := 0
  pasid : Option (BitVec 20) := none
  deriving DecidableEq, Repr, Inhabited

/-- An entry of the region table (R402): STATE 0 FREE, 1 ACTIVE, 2 DRAINING, 3 REVOKED; its starting TAG of this start. -/
structure Region where
  st       : Nat := 0
  landing  : Bool := false
  owner    : Nat := 0
  origin   : Nat := 0
  perm     : Nat := 0
  peers    : Nat := 0
  peerSw   : Nat := 0
  pasid    : Option (BitVec 20) := none
  base     : Nat := 0
  len      : Nat := 0
  tag      : Nat := 0
  startTag : Option Nat := none
  retired  : Bool := false
  outst    : Nat := 0
  q        : Option ReqSrc := none
  deriving DecidableEq, Repr, Inhabited

/-- A landing key this switch holds as origin (R404, R406). -/
structure LandKey where
  key      : Nat
  host     : Nat
  home     : Nat
  len      : Nat
  draining : Bool := false
  q        : Option ReqSrc := none
  deriving DecidableEq, Repr, Inhabited

/-- An entry of an engine's connectionless receiver table (R400). -/
structure ClEnt where
  eng     : Nat
  srcSw   : Nat
  start   : Nat
  msgId   : Nat
  expect  : Option Nat := none
  got     : Nat := 0
  created : Nat := 0
  unacked : Bool := false
  result  : Nat := 0
  status  : Nat := 0
  deriving DecidableEq, Repr, Inhabited

/-- The LANDED entries a home has not sent yet (R395): source switch, connection, (MSN, packets). -/
structure LandedRep where
  srcSw   : Nat
  conn    : Nat
  entries : List (Nat × Nat) := []
  deriving DecidableEq, Repr, Inhabited

/-- The remote memory engines beside their registers (R370 to R412). Contexts by connection number, queues by 1,024 host + number,
areas by 16 host + position, regions by index. -/
structure RmeSt where
  secret   : BitVec 256 := 0
  ctx      : Tab Ctx := .empty
  sq       : Tab Sq := .empty
  cq       : Tab Cq := .empty
  msgs     : List RMsg := []
  nextMsg  : Nat := 0
  areas    : Tab (Option Area) := .empty
  regions  : Tab Region := .empty
  landKeys : List LandKey := []
  clCount  : Tab Nat := .empty
  cl       : List ClEnt := []
  missq    : List (Nat × RmePkt × Bool) := []
  landRep  : List LandedRep := []
  closing  : List (Nat × ReqSrc) := []
  flr      : List Nat := []
  deriving DecidableEq, Repr

/-- A hedge rule change waiting on a unit (R427, R428): its request, or the scion operation that asked for it. -/
structure HedgeReq where
  q     : Option ReqSrc := none
  scion : Option (Nat × Bool) := none
  es    : List HedgeEntry := []
  deriving DecidableEq, Repr, Inhabited

/-- An engine's own access to host memory at its hedge unit (R415): a write when it has words, else a read of `len` bytes. `id` is the
connection, noConn for a queue's. -/
structure OwnAccess where
  id    : Nat
  host  : Nat
  own   : MefOwner
  addr  : Nat
  len   : Nat := 0
  words : List Word := []
  poison : Bool := false
  pasid : Option (BitVec 20) := none
  deriving DecidableEq, Repr, Inhabited

/-- What a holding engine unit keeps in arrival order (R428): a packet, `isRead` a READ_REQ, or an access of the engine's own. -/
inductive EngHeld where
  | pkt (k : RmePkt) (isRead : Bool)
  | own (a : OwnAccess)
  deriving DecidableEq, Repr, Inhabited

/-- The hedge units beside their registers (R415 to R438). Requests and held accesses are keyed by unit; `bad` lists the slots
(128 unit + slot) that refuse everything, with the reason. -/
structure HedgeSt where
  reqs    : Tab (List HedgeReq) := .empty
  holdAt  : Tab (Option Nat) := .empty
  retryAt : Tab Nat := .empty
  held    : Tab (List Arrival) := .empty
  heldPkt : List (Nat × EngHeld) := []
  heldWr  : List (Nat × WaitWr) := []
  bad     : List (Nat × Nat) := []
  deriving DecidableEq, Repr

/-- A slot channel beside ROOT_CH_STATUS (R343 to R354): gate drive, the off-state monitor armed, the last monitor reading
high, the fault timer's count in µs, the peak current monitored, when its turn-on was triggered, when it was turned off
or tripped, that its power-good window completed, that PERST_N or gate drive is due to be released or removed, since when
PRSNT is absent, that a turn-on waits, whose vDSPs (64 host + vDSP) wait for Command Completed, a new entry to apply once off. -/
structure ChanSt where
  gate     : Bool := false
  armed    : Bool := false
  monHigh  : Bool := false
  timerUs  : Nat := 0
  limAt    : Nat := 0
  peak     : Nat := 0
  trigAt   : Option Nat := none
  offAt    : Option Nat := none
  tripAt   : Option Nat := none
  qualOk   : Bool := false
  perstDue : Bool := false
  gateDue  : Bool := false
  absentAt : Option Nat := none
  want     : Bool := false
  waiters  : List Nat := []
  newCfg   : Option Word := none
  ind      : Bool × Bool := (false, false)
  deriving DecidableEq, Repr, Inhabited

/-- The hold-up bank beside its registers (R355 to R363): the latched protections that no status bit shows, when readings were
last bad, the charger stopped at the end of charge, a deferred isolation test in progress, a bank that stays out of use. -/
structure BankSt where
  disagree : Bool := false
  disAt    : Nat := 0
  tapHold  : Bool := false
  tapAt    : Nat := 0
  ntcHold  : Bool := false
  ntcAt    : Nat := 0
  warmAt   : Nat := 0
  ntc      : Int × Int := (250, 250)
  rise     : Bool := false
  reverse  : Bool := false
  dischCut : Bool := false
  sumAt    : Option Nat := none
  sumRaised : Bool := false
  full     : Bool := false
  isoRun   : Option Nat := none
  isoFail  : Bool := false
  deriving DecidableEq, Repr

/-- The voltage change the rootstock die waits on, and those behind it (R501): rail, millivolts; `again` once it is repeated (R503); when it
was last written. -/
structure RailSt where
  busy  : Option (Nat × Nat) := none
  again : Bool := false
  at_   : Nat := 0
  queue : List (Nat × Nat) := []
  deriving DecidableEq, Repr

/-- The thermal diodes (R565, R566): each switch-die reading at or above 120 °C with the time it began, since when all are below 110 °C and
below 90 °C, THERM_N asserted, a thermal brace in progress, a flush that such a brace committed by the limit. -/
structure ThermSt where
  hot     : List (Nat × Nat) := []
  below   : Option Nat := none
  cool    : Option Nat := none
  asserted : Bool := false
  brace   : Bool := false
  flush   : Bool := false
  deriving DecidableEq, Repr

/-- The rootstock die's slots, bank, regulators and thermal diodes. -/
structure RootSt where
  chan  : Tab ChanSt := .empty
  bank  : BankSt := {}
  rails : RailSt := {}
  therm : ThermSt := {}
  deriving DecidableEq, Repr

/-- A command a flush mover has outstanding (R330): 1 record, 2 pages, 3 page table or loss list, 4 flush; its first LBA offset, its
LBAs, its pages, whether it is the repetition. -/
structure FlushCmd where
  kind  : Nat
  lba   : Nat
  n     : Nat := 0
  pages : List Nat := []
  again : Bool := false
  deriving DecidableEq, Repr, Inhabited

/-- A flush mover (R330): its step 0 idle, 1 to 6, 7 finished; the runs of pages to write; its commands outstanding; stopped. -/
structure Mover where
  step    : Nat := 0
  runs    : List (List Nat) := []
  todo    : List FlushCmd := []
  out     : List FlushCmd := []
  stopped : Bool := false
  deriving DecidableEq, Repr, Inhabited

/-- An entry of the loss list (R328). -/
structure LossEnt where
  reqId  : Nat
  port   : Nat
  kind   : Nat
  origin : Nat
  count  : Nat
  ep     : Nat
  deriving DecidableEq, Repr, Inhabited

/-- What a commit fixed (R320, R329): when, C_m, SE, whose CUT with what TERM, LOCAL and PARTIAL, its cause, the bank voltage,
the time from brace to commit in µs, and whether the switchover to the bank is still due (R320). -/
structure CommitSt where
  at_      : Nat
  flushId  : Nat
  cut      : Nat
  seFinal  : Nat
  isLocal  : Bool := false
  isPart   : Bool := false
  byLimit  : Bool := false
  remote   : Bool := false
  tCommit  : Nat := 0
  mv       : Nat := 0
  bankDue  : Bool := true
  doneAt   : Option Nat := none
  endMv    : Nat := 0
  deriving DecidableEq, Repr, Inhabited

/-- An image copy in progress (R539): the target, the next LBA and how many are left, where in host memory. -/
structure CopySt where
  q     : ReqSrc
  t     : Nat
  lba   : Nat
  left  : Nat
  addr  : Nat
  pasid : Option (BitVec 20) := none
  deriving DecidableEq, Repr, Inhabited

/-- A brace or cut message (R313): TSPEC0, TSPEC1, and its payload. `flag` is OWN_INPUT of BRACE, PARTIAL of CUT, CAUSE of COMMIT;
`sender` is the sender's switch ID, or the child's member number of a HIGH; `down` says that a BRACE comes down the tree. -/
structure BraceMsg where
  kind   : Nat
  ep     : Nat := 0
  id     : Nat
  term   : Nat
  flag   : Bool := false
  sender : Nat := 0
  bitmap : Nat := 0
  down   : Bool := false
  deriving DecidableEq, Repr, Inhabited

/-- Brace, cut and flush beside PFAIL's registers (R311 to R335). `bracedBy` and `recovered` are the leader's lists of
switches, `highs` the HIGH of each child as (child, H, bitmap), `acked` the targets whose hold on the windows was released (R91), `early` the messages of a TERM not yet adopted (R294), `starting` that the
brace began before the landing resume step had ended (R97), `recs` the record blocks read at that step (R90). -/
structure PfailSt where
  dipAt     : Option Nat := none
  riseAt    : Option Nat := none
  goodAt    : Option Nat := none
  braceAt   : Option Nat := none
  id        : Option Nat := none
  nextId    : Nat := 0
  bracedBy  : List Nat := []
  recovered : List Nat := []
  ownH      : Option Nat := none
  highs     : List (Nat × Nat × Nat) := []
  highSent  : Bool := false
  cut       : Option Nat := none
  cutLeader : Nat := 0xFFFF
  cutTerm   : Nat := 0
  gotCommit : Bool := false
  stoodDown : Option Nat := none
  minMv     : Nat := 0xFFFF
  seBrace   : Nat := 0
  commit    : Option CommitSt := none
  movers    : Tab Mover := .empty
  loss      : List LossEnt := []
  lossOver  : Bool := false
  pageTab   : Tab Nat := .empty
  failedT   : Nat := 0
  uncorr    : Nat := 0
  mdts      : List (Nat × Nat) := []
  readReq   : Option (Nat × Nat) := none
  copy      : Option CopySt := none
  acked     : List Nat := []
  early     : List BraceMsg := []
  starting  : Bool := false
  recs      : List (Nat × List Byte) := []
  deriving DecidableEq, Repr

/-- An open transaction of the near bridge (R448 to R451): the cells reserved for its response, how often it was answered BUSY, that it
waits to be sent again, and that its hierarchy was reset (R456 of its close, R460). -/
structure BrgTxn where
  req    : BrgReq
  cells  : Nat := 0
  busies : Nat := 0
  again  : Bool := false
  orphan : Bool := false
  yielded : Bool := false
  at_    : Nat := 0
  busyAt : Nat := 0
  deriving DecidableEq, Repr, Inhabited

/-- A response that waits for its upstream port (R452). -/
structure BrgHeld where
  resp : BrgResp
  req  : BrgReq
  at_  : Nat := 0
  deriving DecidableEq, Repr, Inhabited

/-- The bridge beside its registers (R443 to R458): requests waiting at their ingress, open transactions, responses held, the far store
with each request's source switch, the legacy host's MRdLks that wait for the engine, whether the first is an acquisition abandoned (R456),
the MRdLk that opened the own sequence, when the sequence last had a request, and since when the engine is IDLE or was answered BUSY. -/
structure BrgSt where
  waiting : List BrgReq := []
  txns    : List BrgTxn := []
  held    : List BrgHeld := []
  store   : List (Nat × BrgReq) := []
  lockReq : List BrgReq := []
  lockAgain : Bool := false
  lockBy  : Option BrgReq := none
  lockAt  : Nat := 0
  idleAt  : Nat := 0
  deriving DecidableEq, Repr

/-- A dirty-page log (R482 to R484): its range, buffers and PASID; the words cached for the active buffer and those whose bits wait for
their read; the syncs asked for, each with whether it ends the log, and that the log ends after them, its scion reset (R485). -/
structure DirtySt where
  base  : Nat
  log2  : Nat
  bufA  : Nat
  bufB  : Nat
  pasid : Option (BitVec 20) := none
  cache : List (Nat × Nat) := []
  want  : List (Nat × Nat) := []
  syncs : List (ReqSrc × Bool) := []
  ending : Bool := false
  deriving DecidableEq, Repr, Inhabited

/-- An open read or other non-posted request of a scion toward its host or a peer (R473): the scion's tag, GEN, and the device's
requester ID and tag. -/
structure ScionRead where
  tag    : Nat
  gen    : Nat
  devReq : Nat
  devTag : Nat
  deriving DecidableEq, Repr, Inhabited

/-- What the mapper keeps of a scion beside SCION_S registers (R468 to R484): its queues of the device, shaper (tokens in 1/200 byte),
EVENT_VECTOR; Memory Space Enable, MSI-X table, mask and pending bits; the mapper's queue, since when a request waits behind it; open requests, and tags held out of
use with the time they return; the reset in progress: its start, whether it removes, whether it leaves the scion CONTAINED, who waits for it; whether it is
being created; the log. -/
structure ScionRec where
  live    : Bool := false
  making  : Option ReqSrc := none
  qFirst  : Nat := 0
  qCount  : Nat := 0
  rate    : Nat := 0
  size    : Nat := 0
  tokens  : Int := 0
  ev      : Nat := 0
  mse     : Bool := false
  table   : Tab Word := .empty
  mask    : Nat := 0
  pend    : Nat := 0
  queue   : List Tlp := []
  reads   : List ScionRead := []
  heldTags : List (Nat × Nat) := []
  fullAt  : Nat := 0
  resetAt : Option Nat := none
  removes : Bool := false
  again   : Bool := false
  contain : Bool := false
  byDpc   : Bool := false
  waiters : List (ReqSrc × Nat) := []
  dirty   : Option DirtySt := none
  deriving DecidableEq, Repr, Inhabited

/-- The scion mapper (R463 to R484): scions, devices, requests waiting at a shareable port behind a full queue, and instances kept
out of their pool after a forced reset, as (scion, device, instance); since when a shareable port is Disabled (R481). -/
structure ScionSt where
  recs  : Tab ScionRec := .empty
  devs  : Tab DevIn := .empty
  wait  : Tab (List (Nat × Tlp)) := .empty
  stuck : List (Nat × Nat × Nat) := []
  downAt : Tab Nat := .empty
  deriving DecidableEq, Repr

/-- Power states (R488 to R503): the state requested and how far its entry is (1 the quiesce, 2 the ports or rails, 3 completing in the
always-on domain), since when, who asked over MCTP, which DRAM channels confirm self-refresh; the state the switch is asleep in; a
wake that the rootstock die has seen (source, number); when P1 began and the part of a microsecond left over; the VDD_CORE value the
ring oscillators ask for, when the last step was made, when they were last read since the start (R502), and AVS held until the next start
(R503); a brace in P3 (R499): 1 braced,
2 at the switchover level. -/
structure PwrSt where
  req     : Nat := 0
  phase   : Nat := 0
  reqAt   : Nat := 0
  q       : Option ReqSrc := none
  sr      : Nat := 0
  asleep  : Nat := 0
  wakeDue : Option (Nat × Nat) := none
  p1At    : Nat := 0
  p1Rem   : Nat := 0
  avs     : Nat := 750
  avsAt   : Nat := 0
  evalAt  : Option Nat := none
  avsFixed : Bool := false
  p3Brace : Nat := 0
  deriving DecidableEq, Repr

/-- Why the block stops. No rule of the spec ends a run of the switch, so no meaning raises it; it is raised by none. -/
inductive Fault where
  /-- Raised by no command: kept so that the type names the case of an event the package itself cannot survive. Safe. -/
  | halted
  deriving DecidableEq, Repr

/-- Why a command has no meaning. -/
inductive Refusal where
  /-- The command has no meaning in this model: raised by its arm of `exec` alone. Safe: nothing is claimed of it. -/
  | notModelled (mnemonic : String)
  deriving DecidableEq, Repr

/-- The state of the switch. -/
structure State where
  regs    : Tab Word := .empty
  pending : List Instr := []
  out     : List Out := []
  now     : Nat := 0
  t0      : Nat := 0
  free    : Nat := 0
  access  : AccessSt := {}
  root    : RootRec := {}
  ret     : RetSram := {}
  start   : StartSt := {}
  seed    : SeedSt := {}
  lane    : Tab LaneSt := .empty
  pg      : Tab PgSt := .empty
  pair    : Tab PairSt := .empty
  member  : Tab MemberSt := .empty
  pcie    : PcieSt := {}
  flt     : FltSt := {}
  hvst    : HvstSt := {}
  mgmt    : MgmtSt := {}
  fwd     : FwdSt := {}
  qos     : QosSt := {}
  land    : LandSt := {}
  rme     : RmeSt := {}
  hedge   : HedgeSt := {}
  rootSt  : RootSt := {}
  pfail   : PfailSt := {}
  brg     : BrgSt := {}
  scion   : ScionSt := {}
  pwr     : PwrSt := {}
  deriving DecidableEq, Repr

/-- The registers whose cold value is not zero (R101 to R103, R245, R308, R337, R510, R531), in address order. -/
def resetRegs : Tab Word :=
  ⟨[ (Reg.GLB_START_STATUS, 0x00000001), (Reg.GLB_RESET_CAUSE, 0x00000001), (Reg.BUF_FREE, 0x00020000),
     (Reg.BUF_FREE_LOW, 0x00020000), (Reg.LAND_REQ_FREE, 0x00001000), (Reg.PFAIL_INPUT_MIN, 0x0000FFFF),
     (Reg.PWR_CTRL, 0x00000010), (Reg.PWR_AVS, 0x000002EE), (Reg.FLT_CMASK, 0x0007FFFF) ]⟩

/-- The switch at t0 of the first cold start after power-on reset: step 1 runs, the cause is POWER_ON, every register is at
its cold value, and no command waits (R78, R84, R102, R103). -/
def State.reset : State := { regs := resetRegs }

end Sys2Proof.Machine
end

