-- ==== Sys2Proof/Machine/CfgOps.lean ====
section
/-! DEFINITION. The functions of a host's virtual hierarchy and what the host has written to their configuration registers (R179, R181):
one word for each host, function, structure and offset. Layouts inside a structure are those of PCI Express 6.0, which R177 names. -/

namespace Sys2Proof.Machine

open Sys2Proof

/-- A function of a host's virtual hierarchy (R179, R471): the upstream port, the MEF, a branch port, the upstream port of a branch's
virtual switch, a vDSP, or a scion behind its vDSP. -/
inductive VFn where
  | usp
  | mef
  | branch (b : Nat)
  | branchUp (b : Nat)
  | vdsp (j : Nat)
  | scion (sc : Nat)
  deriving DecidableEq, Repr, Inhabited

/-- A number for each function of a host. -/
def fnCode : VFn → Nat
  | .usp => 0
  | .mef => 1
  | .branch b => 2 + b % 2
  | .branchUp b => 4 + b % 2
  | .vdsp j => 64 + j % 64
  | .scion sc => 2048 + sc % 2048

/-- Structures of a configuration space, as `CfgIn.cap` names them: the header, Power Management, PCI Express, MSI-X; and of the extended
space AER, Device Serial Number, ACS, DPC and L1 PM Substates. -/
def capHdr : Nat := 0
def capPm : Nat := 0x01
def capPcie : Nat := 0x10
def capMsix : Nat := 0x11
def capAer : Nat := 0x101
def capDsn : Nat := 0x103
def capAcs : Nat := 0x10D
def capDpc : Nat := 0x11D
def capL1ss : Nat := 0x11E

/-- Where a word of a host's copy is kept (R181). -/
def cfgKey (k : Nat) (f : VFn) (cap off : Nat) : Nat := ((k * 4096 + fnCode f) * 1024 + cap % 1024) * 256 + off / 4 % 256

/-- The reset value of what a host may write, where it is not 0, by PCI Express 6.0 (PRESUMED, log entry 101): AER masks and severities,
Device Control, both indicators off, and the highest target speed. -/
def cfgReset (cap off : Nat) : Word :=
  if cap = capAer then
    if off = 0x08 then 0x04400000 else if off = 0x0C then 0x00462030 else if off = 0x14 then 0x0000E000 else 0
  else if cap = capPcie then
    if off = 0x08 then 0x00002810 else if off = 0x18 then 0x000003C0 else if off = 0x30 then 0x00000006 else 0
  else 0

/-- A word as a host's writes have left it, and a word set: what is kept is the difference from the reset value. -/
def cfgV (s : State) (k : Nat) (f : VFn) (cap off : Nat) : Word := s.pcie.cfg.get (cfgKey k f cap off) ^^^ cfgReset cap off
def cfgSet (s : State) (k : Nat) (f : VFn) (cap off : Nat) (v : Word) : State :=
  { s with pcie := { s.pcie with cfg := s.pcie.cfg.set (cfgKey k f cap off) (v ^^^ cfgReset cap off) } }

/-- Every register of a function at its reset value. -/
def cfgClear (s : State) (k : Nat) (f : VFn) : State :=
  { s with pcie := { s.pcie with cfg := s.pcie.cfg.keep fun a _ => decide (a / 262144 ≠ k * 4096 + fnCode f) } }

/-- Every register of a host's hierarchy at its reset value (R196, R197). -/
def cfgClearHost (s : State) (k : Nat) : State :=
  { s with pcie := { s.pcie with cfg := s.pcie.cfg.keep fun a _ => decide (a / 262144 / 4096 ≠ k) } }

/-! ### What rules read of them -/

/-- Secondary and subordinate bus number of a bridge function. -/
def secBus (s : State) (k : Nat) (f : VFn) : Nat := getF (cfgV s k f capHdr 0x18) 15 8
def subBus (s : State) (k : Nat) (f : VFn) : Nat := getF (cfgV s k f capHdr 0x18) 23 16

/-- Memory Space Enable of a function, and I/O Space Enable. -/
def memEn (s : State) (k : Nat) (f : VFn) : Bool := getB (cfgV s k f capHdr 4) 1
def ioEn (s : State) (k : Nat) (f : VFn) : Bool := getB (cfgV s k f capHdr 4) 0

/-- The memory and the prefetchable window of a bridge function hold an address (R416). -/
def inWindow (s : State) (k : Nat) (f : VFn) (a : Nat) : Bool :=
  let m := cfgV s k f capHdr 0x20
  let p := cfgV s k f capHdr 0x24
  let up (o : Nat) : Nat := (cfgV s k f capHdr o).toNat * 2 ^ 32
  let mem := decide (getF m 15 4 ≤ a / 2 ^ 20) && decide (a / 2 ^ 20 ≤ getF m 31 20)
  let pre := decide (up 0x28 + getF p 15 4 * 2 ^ 20 ≤ a) && decide (a < up 0x2C + (getF p 31 20 + 1) * 2 ^ 20)
  memEn s k f && (mem || pre)

/-- The I/O window of a bridge function holds an address. -/
def inIoWindow (s : State) (k : Nat) (f : VFn) (a : Nat) : Bool :=
  let w := cfgV s k f capHdr 0x1C
  let u := cfgV s k f capHdr 0x30
  ioEn s k f && decide (getF u 15 0 * 2 ^ 16 + getF w 7 4 * 2 ^ 12 ≤ a) && decide (a < getF u 31 16 * 2 ^ 16 + (getF w 15 12 + 1) * 2 ^ 12)

/-- DPC Trigger Enable and DPC Completion Control of a vDSP (R198). -/
def dpcEnable (s : State) (k j : Nat) : Nat := getF (cfgV s k (.vdsp j) capDpc 4) 17 16
def dpcCplCtl (s : State) (k j : Nat) : Bool := getB (cfgV s k (.vdsp j) capDpc 4) 18

/-- Power Controller Control (1 is off), Link Disable and the ASPM control of a vDSP (R182, R202). -/
def pwrOff (s : State) (k j : Nat) : Bool := getB (cfgV s k (.vdsp j) capPcie 0x18) 10
def linkDis (s : State) (k j : Nat) : Bool := getB (cfgV s k (.vdsp j) capPcie 0x10) 4

/-- The rate code of Target Link Speed (R182): 0 for 2.5 GT/s, coded 1. -/
def targetRate (s : State) (k : Nat) (f : VFn) : Nat := getF (cfgV s k f capPcie 0x30) 3 0 - 1

/-- Of a MEF: Memory Space Enable, PME_En, Completion Timeout Value, Function Mask of MSI-X (R184, R186, R188, R193). -/
def mefMse (s : State) (k : Nat) : Bool := memEn s k .mef
def pmeEn (s : State) (k : Nat) : Bool := getB (cfgV s k .mef capPm 4) 8
def mefCto (s : State) (k : Nat) : Nat := getF (cfgV s k .mef capPcie 0x28) 3 0
def fnMask (s : State) (k : Nat) (f : VFn) : Bool := getB (cfgV s k f capMsix 0) 30

/-- A field of a function's register set. -/
def cfgF (s : State) (k : Nat) (f : VFn) (cap off hi lo n : Nat) : State := cfgSet s k f cap off (setF (cfgV s k f cap off) hi lo n)

end Sys2Proof.Machine
end

