-- ==== Sys2Proof/Machine/Ops.lean ====
section
/-! DEFINITION. The named operations every chapter shares: reading and writing registers, counting (R519), outputs, MSI-X
(R186), harvest records (R527, R528), recording a fault (R515 to R517), and answering a request (R536, R537, R541). -/

namespace Sys2Proof.Machine

open Sys2Proof

/-- The outcome of a command. -/
abbrev Res := Host.Outcome State Fault Refusal

/-! ### Registers -/

/-- The register at a BAR0 address. -/
def rd (s : State) (a : Nat) : Word := s.regs.get a

/-- A register set. -/
def wr (s : State) (a : Nat) (v : Word) : State := { s with regs := s.regs.set a v }

/-- Bits [hi:lo] of a register. -/
def rdF (s : State) (a hi lo : Nat) : Nat := getF (rd s a) hi lo

/-- Bits [hi:lo] of a register set. -/
def wrF (s : State) (a hi lo n : Nat) : State := wr s a (setF (rd s a) hi lo n)

/-- One bit of a register. -/
def rdB (s : State) (a i : Nat) : Bool := getB (rd s a) i

/-- One bit of a register set. -/
def wrB (s : State) (a i : Nat) (b : Bool) : State := wrF s a i i b.toNat

/-- A whole register as a number. -/
def rdN (s : State) (a : Nat) : Nat := (rd s a).toNat

/-- A whole register set from a number. -/
def wrN (s : State) (a n : Nat) : State := wr s a (w32 n)

/-- A _LO/_HI pair as one number, `a` the address of its _LO (R8). -/
def rd64 (s : State) (a : Nat) : Nat := (rd s a).toNat + (rd s (a + 4)).toNat * 2 ^ 32

/-- A _LO/_HI pair set. -/
def wr64 (s : State) (a n : Nat) : State := wr (wr s a (lo32 n)) (a + 4) (hi32 n)

/-- A 32-bit counter raised, saturating at 0xFFFF_FFFF. -/
def bumpBy (s : State) (a n : Nat) : State := wrN s a (satAdd 0xFFFFFFFF (rdN s a) n)

/-- A 32-bit counter raised by one. -/
def bump (s : State) (a : Nat) : State := bumpBy s a 1

/-- A field counter raised, saturating at its own width. -/
def bumpF (s : State) (a hi lo n : Nat) : State := wrF s a hi lo (satAdd (2 ^ (hi + 1 - lo) - 1) (rdF s a hi lo) n)

/-! ### The counter bank -/

/-- Counter j of group g raised by n; a wrap past 2^48 - 1 sets OVF (R519). -/
def countBy (s : State) (g j n : Nat) : State :=
  let lo := Reg.CNT_LIVE_LO g j
  let hi := Reg.CNT_LIVE_HI g j
  let v := rdN s lo + rdF s hi 15 0 * 2 ^ 32 + n
  let s1 := wr s lo (lo32 v)
  let s2 := wrF s1 hi 15 0 (v / 2 ^ 32)
  if v < 2 ^ 48 then s2 else wrB s2 hi 31 true

/-- Counter j of group g raised by one. -/
def count (s : State) (g j : Nat) : State := countBy s g j 1

/-! ### Outputs and time -/

/-- One output leaves. -/
def emit (s : State) (o : Out) : State := { s with out := s.out ++ [o] }

/-- The core timestamp: core cycles from t0 of the start (R511). -/
def tstamp (s : State) : Nat := s.now - s.t0

/-- The end of a wait that a row says is over: the time is at least `t` (DESIGN CHOICE, log entry 3). -/
def timeTo (s : State) (t : Nat) : State := { s with now := max s.now t }

/-- The next multiple of `n` cycles: a row that comes every `n` cycles. -/
def nextTick (s : State) (n : Nat) : State := { s with now := (s.now / n + 1) * n }

/-- Microseconds from t0 of the start. -/
def tUs (s : State) : Nat := tstamp s / 1600

/-- A fresh free value of `w` bits: nothing constrains it, and the counter it is drawn with advances. -/
def freshBits (s : State) (w : Nat) : BitVec w × State :=
  ((Config.freeValue s.free).setWidth w, { s with free := s.free + 1 })

/-! ### Policy -/

/-- The partition of host k. -/
def hostPol (s : State) (k : Nat) : Config.HostPol :=
  ((s.seed.policy.hosts.find? fun h => h.1 == k).map Prod.snd).getD {}

/-- The manager host. -/
def mgr (s : State) : Nat := s.seed.policy.manager

/-- The upstream port of host k. -/
def upPort (s : State) (k : Nat) : Nat := (hostPol s k).upPort

/-- The hosts the seed defines. -/
def hostsOf (s : State) : List Nat := s.seed.policy.hosts.map Prod.fst

/-- Whether a port is a PCI Express port of the seed. -/
def isPcie (s : State) (p : Nat) : Bool := s.seed.policy.pciePorts.contains p

/-- Whether a port is a Nozan port of the seed. -/
def isNoz (s : State) (p : Nat) : Bool := s.seed.policy.nzPorts.contains p

/-- The role of a PCI Express port: 0 upstream, 1 host-assigned, 2 shareable, 3 flush target, 4 unassigned (R174). -/
def portRole (s : State) (p : Nat) : Nat := rdF s (Reg.PCIE_CFG p) 2 0

/-- The host of a PCI Express port. -/
def portHost (s : State) (p : Nat) : Nat := rdF s (Reg.PCIE_CFG p) 7 3

/-- This switch's ID. -/
def swId (s : State) : Nat := rdF s Reg.GLB_SWITCH_ID 11 0

/-! ### Epochs -/

/-- SE (R278). -/
def seOf (s : State) : Nat := rd64 s Reg.LAND_SEALED_EPOCH_LO % 2 ^ 48

/-- E_open. -/
def eOpen (s : State) : Nat := rd64 s Reg.LAND_OPEN_EPOCH_LO % 2 ^ 48

/-- Epochs compared modulo 2^48: a is after b (R279). -/
def epAfter (a b : Nat) : Bool := decide ((a + 2 ^ 48 - b % 2 ^ 48) % 2 ^ 48 < 2 ^ 47) && decide (a % 2 ^ 48 ≠ b % 2 ^ 48)

/-- a is at most b, modulo 2^48 (R279). -/
def epLe (a b : Nat) : Bool := !epAfter a b

/-- The later of two epochs. -/
def epMax (a b : Nat) : Nat := if epAfter a b then a else b

/-- An epoch advanced by n modulo 2^48. -/
def epAdd (a n : Nat) : Nat := (a + n) % 2 ^ 48

/-! ### Brace and start state -/

/-- The switch is in service (R84 step 10). -/
def inService (s : State) : Bool := decide (s.start.phase = .service)

/-- A brace is in progress: PFAIL_STATUS.STATE is not normal (R337). -/
def braced (s : State) : Bool := decide (rdF s Reg.PFAIL_STATUS 2 0 ≠ 0)

/-- The switch is in the cloche or beyond (R323). -/
def inCloche (s : State) : Bool := decide (s.start.phase = .cloche)

/-! ### MSI-X (R185, R186) -/

/-- Bus Master Enable of host k's MEF (R208). -/
def mefBme (s : State) (k : Nat) : Bool := rdB s (Reg.PCIE_MEF_STATE (upPort s k)) 2

/-- Whether MSI-X vector v of host k is unmasked: neither its entry nor the function masks it. -/
def msixOpen (s : State) (k v : Nat) : Bool := bitN (s.pcie.mef.get k).unmask v && !(fnMask s k .mef)

/-- The message of an MSI-X table entry: its address and its data. -/
def msixAddr (t : Tab Word) (v : Nat) : Nat := (t.get (4 * v)).toNat + (t.get (4 * v + 1)).toNat * 2 ^ 32
def msixMsg (s : State) (k v : Nat) : Out :=
  let t := (s.pcie.mef.get k).table
  .msix k v (msixAddr t v) (t.get (4 * v + 2))

/-- Host k's MEF signals PME while PME_En is set (R188): UP_WAKE_N while the link is in L2, with the PM_PME to follow, else a PM_PME
message. PME_Status is set. -/
def mefPme (s : State) (k : Nat) : State :=
  if !(pmeEn s k) then s
  else
    let s := cfgF s k .mef capPm 4 15 15 1
    if rdF s (Reg.PCIE_STATUS (upPort s k)) 3 0 = 6 then
      emit { s with pcie := { s.pcie with mef := s.pcie.mef.upd k fun m => { m with pmeWait := true, wakeOn := true } } } (.pin (.upWake k) false)
    else emit s (.pcieMsg (upPort s k) "PM_PME")

/-- A source signals vector v of host k: the message leaves while Bus Master Enable is 1 and the vector is unmasked,
otherwise its pending bit is set (R186). A source of vectors 0 to 3 also signals PME (R188). -/
def msix (s : State) (k v : Nat) : State :=
  let s := if v < 4 then mefPme s k else s
  if mefBme s k && msixOpen s k v then
    count (emit s (msixMsg s k v)) (80 + k) 17
  else
    { s with pcie := { s.pcie with mef := s.pcie.mef.upd k fun m => { m with msixPend := setBitN m.msixPend v true } } }

/-! ### Accesses of a MEF's BARs (R184) -/

/-- The MEF answers a memory request: Memory Space Enable is 1, it is in D0, and no Function Level Reset stopped its BARs
(R184, R195). -/
def mefAnswers (s : State) (k : Nat) : Bool :=
  mefMse s k && decide (rdF s (Reg.PCIE_MEF_STATE (upPort s k)) 1 0 = 0) && !(s.pcie.mef.get k).barStop

/-- A write of host k's BARs: it has its effect while the MEF answers, and is discarded otherwise. -/
def mefWritten (s : State) (k : Nat) (f : State → State) : State := if mefAnswers s k then f s else s

/-- A read of host k's BARs by a requester: answered while the MEF answers, with UR status otherwise. -/
def mefAnswered (s : State) (k req : Nat) (f : State → State) : State :=
  if mefAnswers s k then f s else emit s (.cpl (upPort s k) req 0 1 false [])

/-! ### Harvest records (R527, R528) -/

/-- `n` as `w` bytes, little-endian (R528). -/
def leBytes : Nat → Nat → List Byte
  | 0, _ => []
  | w + 1, n => BitVec.ofNat 8 n :: leBytes w (n / 256)

/-- The room the class of a record leaves free: 0 for P0, 8 KiB for P1, 16 KiB for P2 (R527). -/
def hvNeed (prio : Nat) : Nat := if prio = 0 then 0 else if prio = 1 then 8192 else 16384

/-- The first of the queued records of the highest class (R527). -/
def hvNext (q : List HvRec) : Option HvRec := [0, 1, 2].findSome? fun p => q.find? fun r => r.prio == p

/-- A record on the four harvest lanes (R525): K27.7 on lane position 0, its bytes and their CRC-32 striped over the lanes, K29.7 and FIL to
the end of the column, each lane's groups with its running disparity. -/
def hvColumns (s : State) (bytes : List Byte) : State :=
  let z := s.hvst.txPos.zip (laneStreams 4 (frameColumns 4 (bytes ++ leBytes 4 (crc32 bytes)) false))
  emit { s with hvst := { s.hvst with txPos := z.map fun x => (sendStream x.1 x.2).2 } } (.harvestLanes (z.map fun x => (sendStream x.1 x.2).1))

/-- The next record starts, once the port is idle and the collector accepts (R526, R527). -/
def hvGo (s : State) : State :=
  if !s.hvst.running || s.hvst.sending.isSome || decide (rdF s Reg.HVST_STATUS 1 0 ≠ 2) then s
  else match hvNext s.hvst.queue with
    | none => s
    | some r =>
      let s := { s with hvst := { s.hvst with queue := s.hvst.queue.erase r, sending := some r } }
      hvColumns (emit (wrB s Reg.HVST_STATUS 3 true) (.harvest r.bytes)) r.bytes

/-- A record of `typ` with its creation time offered to the harvest port: queued, or dropped and counted when it would leave too
little room; its SEQ is consumed either way (R527). -/
def hvOfferAt (s : State) (time prio typ : Nat) (body : List Byte) : State :=
  if !(rdB s Reg.HVST_CFG 0 && s.hvst.running) then s else
  let seq := rdN s Reg.HVST_SEQ
  let bytes := leBytes 1 typ ++ leBytes 1 0 ++ leBytes 2 (16 + body.length) ++ leBytes 4 seq ++ leBytes 6 time
    ++ leBytes 2 (swId s) ++ body
  let s := wrN s Reg.HVST_SEQ (seq + 1)
  let fill := rdF s Reg.HVST_FILL 16 0
  if fill + bytes.length + hvNeed prio ≤ 65536 then
    let s := wrF s Reg.HVST_FILL 16 0 (fill + bytes.length)
    hvGo { s with hvst := { s.hvst with queue := s.hvst.queue ++ [{ prio := prio, typ := typ, bytes := bytes }] } }
  else
    let s := bump s (Reg.HVST_DROP_T (typ - 1))
    let s := count s 126 (1 + typ)
    { s with hvst := { s.hvst with drops := s.hvst.drops.modify (typ - 1) (· + 1) } }

/-- A record created now. -/
def hvOffer (s : State) (prio typ : Nat) (body : List Byte) : State := hvOfferAt s (tstamp s) prio typ body

/-- PME_TO_Ack of host k's MEF leaves, and the upstream link enters L2 (R188). -/
def pmeAck (s : State) (k : Nat) : State :=
  let p := upPort s k
  let s := { s with pcie := { s.pcie with mef := s.pcie.mef.upd k fun m => { m with turnOff := none } } }
  wrB (wrF (emit s (.pcieMsg p "PME_TO_Ack")) (Reg.PCIE_STATUS p) 3 0 6) (Reg.PCIE_STATUS p) 10 false

/-- PME_TO_Ack leaves no later than 1 ms after PME_Turn_Off (R188). -/
def pmeLate (s : State) : State :=
  (hostsOf s).foldl (fun s k => match (s.pcie.mef.get k).turnOff with
    | some t => if t + 1600000 ≤ s.now then pmeAck s k else s
    | none => s) s

/-- The oldest sample of the forwarding core's queue reaches the harvest port (R241). -/
def sampleOut (s : State) : State :=
  match s.fwd.samples with
  | [] => s
  | x :: rest => hvOfferAt { s with fwd := { s.fwd with samples := rest } } x.1 2 1 x.2

/-- A COUNTERS record's body: the harvest snapshot's number, the group, its 32 counters (R529). -/
def cntBody (s : State) (g : Nat) : List Byte :=
  leBytes 4 s.hvst.snapNo ++ leBytes 2 g ++ leBytes 2 0 ++ (List.range 32).flatMap fun j =>
    leBytes 4 (s.hvst.shadow.get (Reg.CNT_LIVE_LO g j)).toNat ++ leBytes 4 (s.hvst.shadow.get (Reg.CNT_LIVE_HI g j)).toNat

/-- The next COUNTERS record of a harvest snapshot is queued or dropped (R529). -/
def cntOut (s : State) : State :=
  match s.hvst.toQueue with
  | [] => s
  | g :: rest => hvOffer { s with hvst := { s.hvst with toQueue := rest } } 1 2 (cntBody s g)

/-! ### Faults (R512 to R517) -/

/-- The host that holds a scion (R513). -/
def scionHolder (s : State) (sc : Nat) : Option (BitVec 5) :=
  if rdF s (Reg.SCION_S_STATUS sc) 2 0 ≠ 0 then some (BitVec.ofNat 5 (rdF s (Reg.SCION_S_BIND sc) 4 0)) else none

/-- The owning host of a fault's containment zone (R513). -/
def zoneOwner (s : State) (f : FaultSrc) : Nat :=
  if f.zone = 1 then
    if isPcie s f.zid.toNat && decide (portRole s f.zid.toNat ≤ 1) then portHost s f.zid.toNat else mgr s
  else if f.zone = 2 then (f.holder.map BitVec.toNat).getD (mgr s)
  else if f.zone = 3 then f.zid.toNat % 32
  else mgr s

/-- ANY_F and ANY_U of FLT_STATUS, from the records that are VALID (R531). -/
def fltStatus (s : State) : State :=
  let any (c : Nat) := (List.range 19).any fun u =>
    rdB s (Reg.FLT_REC_INFO u) 0 && decide (rdF s (Reg.FLT_REC_INFO u) 3 2 = c)
  wrB (wrB s Reg.FLT_STATUS 0 (any 3)) Reg.FLT_STATUS 1 (any 2)

/-- A fault fills its unit's record (R515). -/
def fltFill (s : State) (f : FaultSrc) : State :=
  let s := wrF s (Reg.FLT_REC_INFO f.unit) 3 2 f.cls.toNat
  let s := wrF s (Reg.FLT_REC_INFO f.unit) 11 4 f.code.toNat
  let s := wrF s (Reg.FLT_REC_INFO f.unit) 14 12 f.zone.toNat
  let s := wrB s (Reg.FLT_REC_INFO f.unit) 0 true
  let s := wrN s (Reg.FLT_REC_ZONE f.unit) f.zid.toNat
  let s := wr64 s (Reg.FLT_REC_ADDR_LO f.unit) f.addr.toNat
  let s := { s with flt := { s.flt with filledAt := s.flt.filledAt.set f.unit (some s.now) } }
  wr64 s (Reg.FLT_REC_TIME_LO f.unit) (tstamp s)

/-- OVERFLOW of a unit's record set; its change from 0 to 1 counts in group 125 (R515, R520). -/
def fltOverflow (s : State) (u : Nat) : State :=
  if rdB s (Reg.FLT_REC_INFO u) 1 then s else count (wrB s (Reg.FLT_REC_INFO u) 1 true) 125 4

/-- The first fault after a clear fills the record; a later one sets OVERFLOW only, but of two faults of one core cycle the
one of higher class, then of lower code, fills it (R515). -/
def fltRecord (s : State) (f : FaultSrc) : State :=
  let info := Reg.FLT_REC_INFO f.unit
  if rdB s info 0 = false then fltFill s f
  else
    let sameCycle := decide (s.flt.filledAt.get f.unit = some s.now)
    let better := decide (rdF s info 3 2 < f.cls.toNat) ||
      (decide (rdF s info 3 2 = f.cls.toNat) && decide (f.code.toNat < rdF s info 11 4))
    let s := if sameCycle && better then fltFill s f else s
    fltOverflow s f.unit

/-- ERR_N: the first qualifying fault from IDLE starts the pulse (R517). -/
def errNQualify (s : State) (f : FaultSrc) : State :=
  let qual := decide (2 ≤ f.cls.toNat) || !(rdB s Reg.FLT_CMASK f.unit)
  if qual && decide (rdF s Reg.FLT_STATUS 3 2 = 0) then
    let s := wrF { s with flt := { s.flt with pulseAt := s.now } } Reg.FLT_STATUS 3 2 1
    count (emit s (.pin .errN false)) 125 3
  else s

/-- The FLT_HOST record of a host takes a U or F fault in one of its zones (R516, R531). -/
def fltHost (s : State) (f : FaultSrc) (k : Nat) : State :=
  let s := wrF s (Reg.FLT_HOST_INFO k) 3 2 f.cls.toNat
  let s := wrF s (Reg.FLT_HOST_INFO k) 11 4 f.code.toNat
  let s := wrF s (Reg.FLT_HOST_INFO k) 14 12 f.zone.toNat
  let s := wrF s (Reg.FLT_HOST_INFO k) 20 16 f.unit
  let s := wrB s (Reg.FLT_HOST_INFO k) 0 true
  let s := wrN s (Reg.FLT_HOST_ZONE k) f.zid.toNat
  let s := wr64 s (Reg.FLT_HOST_TIME_LO k) (tstamp s)
  bump s (Reg.FLT_HOST_COUNT k)

/-- MSI-X vector 1 of a fault: none for C; the manager and the zone's owner for U; the manager and every host for F (R512). -/
def fltNotify (s : State) (f : FaultSrc) (owner : Nat) : State :=
  if f.cls = 2 then
    let s := msix s (mgr s) 1
    if owner = mgr s then s else msix s owner 1
  else if f.cls = 3 then (hostsOf s).foldl (fun s k => msix s k 1) s
  else s

/-- The FAULT record body of R529. -/
def fltBody (s : State) (f : FaultSrc) : List Byte :=
  leBytes 1 f.unit ++ leBytes 1 (f.cls.toNat + f.zone.toNat * 4) ++ leBytes 1 f.code.toNat ++ leBytes 1 0
    ++ leBytes 4 f.zid.toNat ++ leBytes 8 f.addr.toNat ++ leBytes 8 (tstamp s) ++ leBytes 8 0

/-- A fault reaches the collection: recorded, counted, notified, offered to the harvest port, and shown on ERR_N (R515 to
R517). While the switch die counts as dead nothing records (R530). -/
def recordFault (s : State) (f : FaultSrc) : State :=
  if s.root.dieDead then s else
  let owner := zoneOwner s f
  let s := fltRecord s f
  let s := fltStatus s
  let s := if f.cls = 1 then bump s Reg.FLT_COUNT_C else if f.cls = 2 then bump s Reg.FLT_COUNT_U else bump s Reg.FLT_COUNT_F
  let s := count s 125 (f.cls.toNat - 1)
  let s := if 2 ≤ f.cls.toNat then fltHost s f owner else s
  let s := fltNotify s f owner
  let s := if decide (2 ≤ f.cls.toNat) || rdB s Reg.HVST_CFG 1 then hvOffer s 0 3 (fltBody s f) else s
  errNQualify s f

/-- A fault raised by a unit: unit, code, class, zone kind, zone ID, address (R513, R514). -/
def fault (s : State) (unit code cls zone zid addr : Nat) : State :=
  recordFault s { unit := unit, code := BitVec.ofNat 8 code, cls := BitVec.ofNat 2 cls, zone := BitVec.ofNat 3 zone,
                  zid := BitVec.ofNat 20 zid, addr := BitVec.ofNat 64 addr, holder := scionHolder s zid }

/-- A fault in a unit's own zone. -/
def faultU (s : State) (unit code cls addr : Nat) : State := fault s unit code cls 5 unit addr

/-- A fault in a port's zone. -/
def faultP (s : State) (unit code cls port addr : Nat) : State := fault s unit code cls 1 port addr

/-! ### Management requests (R535 to R541) -/

/-- The number of an issuer over MCTP in a request source: the board management controller. -/
def bmc : Nat := 32

/-- The requests queued, in MGMT_STATUS (R549). -/
def mgmtCount (s : State) : State := wrF s Reg.MGMT_STATUS 10 2 s.mgmt.queue.length

/-- Words written from an address upward. -/
def wrWords (s : State) (a : Nat) : List Word → State
  | [] => s
  | w :: ws => wrWords (wr s a w) (a + 4) ws

/-- The oldest queued request of a source. -/
def queuedReq (s : State) (q : ReqSrc) : Option MgmtReq :=
  s.mgmt.queue.find? fun r => decide (r.src.host = q.host ∧ r.src.slot = q.slot)

/-- The oldest queued request of a source leaves the queue. -/
def popReq (s : State) (q : ReqSrc) : State :=
  match queuedReq s q with
  | some r => mgmtCount { s with mgmt := { s.mgmt with queue := s.mgmt.queue.erase r } }
  | none => s

/-- Whether the reply to a source is discarded: its host was reset after the request was queued (R548). -/
def replyDropped (s : State) (q : ReqSrc) : Bool := ((queuedReq s q).map MgmtReq.discard).getD false

/-- The two header words of a reply and its words (R537). -/
def replyWords (s : State) (q : ReqSrc) (code status : Nat) (ws : List Word) : List Word :=
  w32 (code + (ws.length + 1) % 1024 * 2 ^ 16 + q.tag.toNat * 2 ^ 26)
    :: w32 (status + rdN s Reg.GLB_SNAP_SEQ % 2 ^ 24 * 256) :: ws

/-- A request is answered: the reply is written, BUSY clears, READY sets and vector 0 is signalled, or the reply leaves
over MCTP (R536, R541); MGMT_REQS and MGMT_REFUSED count (R549). -/
def reply (s : State) (q : ReqSrc) (code status : Nat) (ws : List Word) : State :=
  let dropped := replyDropped s q
  let s := popReq s q
  let s := bump s Reg.MGMT_REQS
  let s := if status = 0 then s else bump s Reg.MGMT_REFUSED
  let words := replyWords s q code status ws
  if q.host = bmc then
    emit s (.mctp q.slot words)
  else
    let s := if status = 0 then s else count s (80 + q.host) 21
    if dropped then s
    else
      let s := wrWords s (Reg.MB_REPLY_BUF q.host q.slot 0) words
      let s := wrB s (Reg.MB_STATUS q.host q.slot) 0 false
      let s := wrB s (Reg.MB_STATUS q.host q.slot) 1 true
      msix s q.host 0

/-- NOT_FOUND about an object of a kind of view: a view that still lists it for the issuer disagrees with the data path, and that counts
(R543). -/
def notFound (s : State) (q : ReqSrc) (code kind id : Nat) : State :=
  let stale := s.mgmt.views.any fun v => v.kind == kind && v.id == id && (v.owner == q.host || decide (q.host = mgr s))
  reply (if stale then bump s Reg.MGMT_VIEW_STALE else s) q code 0x08 []

/-- Who may issue a request (R539): the manager M, any host H, the board management controller B. -/
structure Issuers where
  m : Bool := false
  h : Bool := false
  b : Bool := false
  deriving DecidableEq, Repr

/-- Whether a source may issue a request of these issuers. -/
def mayIssue (s : State) (q : ReqSrc) (i : Issuers) : Bool :=
  if q.host = bmc then i.b else i.h || (i.m && q.host == mgr s)

/-- The codes served during a brace (R548). -/
def braceCode (c : Nat) : Bool := c == 0x0001 || c == 0x0002 || c == 0x0401 || c == 0x0701

/-- The code of a queued request. -/
def reqCode (r : MgmtReq) : Nat := getF (r.words.getD 0 0) 15 0

/-- A queued request is still to be checked, so that none behind it may be (R67); during a brace the requests that it puts off stand in no
other's way (R548). -/
def awaitsTurn (s : State) (r : MgmtReq) : Bool := !r.begun && (!(braced s) || braceCode (reqCode r))

/-- The management core checks requests one at a time, in the order of its queue (R67): every request before that of a source has been
checked. -/
def turnOf (s : State) (q : ReqSrc) : Bool :=
  (s.mgmt.queue.takeWhile fun r => !(decide (r.src.host = q.host ∧ r.src.slot = q.slot))).all fun r => !(awaitsTurn s r)

/-- The queued request of a source is checked now: those behind it may be next. -/
def beginReq (s : State) (q : ReqSrc) : State :=
  match queuedReq s q with
  | some r => { s with mgmt := { s.mgmt with queue := s.mgmt.queue.map fun x => if x = r then { x with begun := true } else x } }
  | none => s

/-- Requests whose service begins with service itself: scions, peer windows, registrations (R94). -/
def serviceCode (c : Nat) : Bool := decide (0x0601 ≤ c ∧ c ≤ 0x0607) || c == 0x0302 || c == 0x0303 || c == 0x0509 || c == 0x050A

/-- A request of the table of R539 is served at its turn (R67): refused NOT_PERMITTED for another issuer, STATE where the management core
does not serve it now or its service has not begun (R94); kept in the queue during a brace (R548); otherwise `f`. `rom` says the boot ROM
serves it (R541), `brace` that it is served during a brace. -/
def serve (s : State) (q : ReqSrc) (code : Nat) (i : Issuers) (rom brace : Bool) (f : State → State) : State :=
  if (braced s && !brace) || !(turnOf s q) then s
  else if !(mayIssue s q i) then reply s q code 0x02 []
  else if (!(rdB s Reg.MGMT_STATUS 1) && !rom) || (serviceCode code && !(inService s)) then reply s q code 0x07 []
  else f (beginReq s q)

end Sys2Proof.Machine
end

