-- ==== Sys2Proof/Machine/Operands.lean ====
section
/-! DEFINITION. The forms a frame takes: its words on the wire and its checks (R139, R142), the sizes it is charged by (R152,
R224, R249), its type-specific fields (R210, R211), the messages of R293, and the check codes of the buffer and of landing
DRAM (R229, R274). -/

namespace Sys2Proof.Machine

open Sys2Proof

/-! ### Frame form -/

/-- DW0 to DW6 and the low half of DW7 of a data-frame header (R139). -/
def headerWords (f : Frame) : List Word :=
  [ w32 (f.typ.toNat + f.vc.toNat * 2 ^ 4 + f.tc.toNat * 2 ^ 6 + f.poison.toNat * 2 ^ 9 + f.cm.toNat * 2 ^ 10
      + f.colour.toNat * 2 ^ 11 + f.prot.toNat * 2 ^ 13 + f.first.toNat * 2 ^ 14 + f.length.toNat * 2 ^ 16),
    w32 (f.lseq.toNat + f.prev.toNat * 2 ^ 16),
    w32 (f.dstSw.toNat + f.dstPort.toNat * 2 ^ 12),
    w32 (f.srcSw.toNat + f.srcPort.toNat * 2 ^ 12),
    w32 (f.epoch.toNat + f.tspec0.toNat * 2 ^ 16),
    lo32 f.tspec1.toNat,
    hi32 f.tspec1.toNat,
    w32 f.tspec2.toNat ]

/-- A word as four bytes, least significant first (R139). -/
def wordBytes (w : Word) : List Byte := leBytes 4 w.toNat

/-- One bit of CRC-16 with polynomial x^16 + x^12 + x^5 + 1, most significant bit first (R142). -/
def crc16Bit (c : Nat) (b : Bool) : Nat :=
  let top := c / 2 ^ 15 % 2 == 1
  let sh := c * 2 % 2 ^ 16
  if top ≠ b then sh ^^^ 0x1021 else sh

/-- CRC-16 over one byte. -/
def crc16Byte (c : Nat) (b : Byte) : Nat :=
  [7, 6, 5, 4, 3, 2, 1, 0].foldl (fun c i => crc16Bit c (bitN b.toNat i)) c

/-- CRC-16 of R142 over bytes, initial value 0xFFFF. -/
def crc16 (bs : List Byte) : Nat := bs.foldl crc16Byte 0xFFFF

/-- HCRC of header words: CRC-16 over header bytes 0 to 29 (R142). -/
def hcrcOf (hdr : List Word) : Nat := crc16 ((hdr.flatMap wordBytes).take 30)

/-- The frame that eight header words and a payload spell (R139). -/
def frameOfWords (h : List Word) (payload : List Word) : Frame :=
  let w (i : Nat) : Word := h.getD i 0
  { typ := BitVec.ofNat 4 (getF (w 0) 3 0), vc := BitVec.ofNat 2 (getF (w 0) 5 4), tc := BitVec.ofNat 3 (getF (w 0) 8 6),
    poison := getB (w 0) 9, cm := getB (w 0) 10, colour := BitVec.ofNat 2 (getF (w 0) 12 11), prot := getB (w 0) 13,
    first := getB (w 0) 14, length := BitVec.ofNat 11 (getF (w 0) 26 16), lseq := BitVec.ofNat 16 (getF (w 1) 15 0),
    prev := BitVec.ofNat 16 (getF (w 1) 31 16), dstSw := BitVec.ofNat 12 (getF (w 2) 11 0),
    dstPort := BitVec.ofNat 7 (getF (w 2) 18 12), srcSw := BitVec.ofNat 12 (getF (w 3) 11 0),
    srcPort := BitVec.ofNat 7 (getF (w 3) 18 12), epoch := BitVec.ofNat 16 (getF (w 4) 15 0),
    tspec0 := BitVec.ofNat 16 (getF (w 4) 31 16),
    tspec1 := BitVec.ofNat 64 ((w 5).toNat + (w 6).toNat * 2 ^ 32), tspec2 := BitVec.ofNat 16 (getF (w 7) 15 0),
    payload := payload }

/-- A reserved header bit is 1: DW0 bit 15 and [31:27], DW2 and DW3 [31:19] (R139, R141). -/
def reservedSet (h : List Word) : Bool :=
  let w (i : Nat) : Word := h.getD i 0
  getB (w 0) 15 || decide (getF (w 0) 31 27 ≠ 0) || decide (getF (w 2) 31 19 ≠ 0) || decide (getF (w 3) 31 19 ≠ 0)

/-- Header and payload bytes of a frame in its frame form: 32 + 4 × LENGTH (R224, R249). -/
def frameB (f : Frame) : Nat := 32 + 4 * f.length.toNat

/-- The frame-form size B of a PCI Express memory request: a PASID prefix and the request word of a non-posted one take a payload word
each (R210, R249). -/
def tlpB (t : Tlp) : Nat := 32 + 4 * ((if t.kind = .write then 0 else 1) + t.pasid.isSome.toNat + t.data.length)

/-- A frame, or a TLP in its frame form, of `b` bytes received good on a VC of a port, counted (R520). -/
def countIn (s : State) (p vc b : Nat) : State := count (countBy (count s p 0) p 1 b) p (4 + vc)

/-- The credits a frame costs: ceil((32 + 4 × LENGTH) / 64) (R152). -/
def frameCredits (f : Frame) : Nat := (frameB f + 63) / 64

/-- The cells a frame occupies: ceil(B / 256) (R224). -/
def frameCells (f : Frame) : Nat := (frameB f + 255) / 256

/-- TSPEC1 of a completion: tag, status, bytes remaining, lower address, Completer ID, RO, IDO and NS (R211). -/
def cplSpec (tag status bytes low : Nat) (cplId : BitVec 16) (ro ido ns : Bool) : BitVec 64 :=
  BitVec.ofNat 64 (tag % 2 ^ 10 + status % 8 * 2 ^ 10 + bytes % 4096 * 2 ^ 13 + low % 128 * 2 ^ 26 + cplId.toNat * 2 ^ 33
    + ro.toNat * 2 ^ 49 + ido.toNat * 2 ^ 50 + ns.toNat * 2 ^ 51)

/-- What a TYPE 0x2 frame carries for the requester beside status and data (R211). -/
def cplHdr (f : Frame) : CplHdr :=
  let t := f.tspec1.toNat
  { cplId := BitVec.ofNat 16 (t / 2 ^ 33), bc := BitVec.ofNat 13 (if t / 2 ^ 13 % 4096 = 0 then 4096 else t / 2 ^ 13 % 4096)
    low := BitVec.ofNat 7 (t / 2 ^ 26), tcl := f.tc, ro := bitN t 49, ido := bitN t 50, ns := bitN t 51 }

/-- The VC that R140 gives a type; TYPE 0x0 and 0x3 take VC1 when PROT = 1. -/
def typeVc (f : Frame) : Option Nat :=
  match f.typ.toNat with
  | 0 => some (if f.prot then 1 else 0)
  | 1 => some 0
  | 2 => some 3
  | 3 => some (if f.prot then 1 else 0)
  | 4 => some 3
  | 5 => some 1
  | 6 => some 2
  | 7 => some 2
  | 8 => some 2
  | _ => none

/-- Type-specific zeros: TSPEC2 [15:10] of TYPE 0x0 and 0x1 (R210), TSPEC2 and TSPEC1 [63:52] of TYPE 0x2 (R211). -/
def tspecZeroBroken (f : Frame) : Bool :=
  match f.typ.toNat with
  | 0 => decide (f.tspec2.toNat / 2 ^ 10 ≠ 0)
  | 1 => decide (f.tspec2.toNat / 2 ^ 10 ≠ 0)
  | 2 => decide (f.tspec2.toNat ≠ 0) || decide (f.tspec1.toNat / 2 ^ 52 ≠ 0)
  | _ => false

/-- A TYPE 0x6 kind that R293 or the brace and cut messages define. -/
def msgKindOk (k : Nat) : Bool := decide (1 ≤ k ∧ k ≤ 8) || decide (0x10 ≤ k ∧ k ≤ 0x15)

/-- The class bound to a VC that internal masters use: the highest of its classes (R246, R247). -/
def classOf (s : State) (vc : Nat) : Nat :=
  ((List.range 8).filter fun t => decide (rdF s Reg.QOS_TC_VC (2 * t + 1) (2 * t) = vc)).getLastD 0

/-- The VC a class is bound to (R246). -/
def vcOfClass (s : State) (t : Nat) : Nat := rdF s Reg.QOS_TC_VC (2 * t + 1) (2 * t)

/-- A link-good frame is malformed (R141, R210, R211, R247, R293, R445). -/
def malformed (s : State) (h : List Word) (f : Frame) : Bool :=
  decide (typeVc f ≠ some f.vc.toNat) || reservedSet h || decide (f.colour = 3)
    || (decide (80 ≤ f.dstPort.toNat) && decide (f.dstPort.toNat ≤ 126)) || tspecZeroBroken f
    || decide (vcOfClass s f.tc.toNat ≠ f.vc.toNat)
    || (decide (f.typ = 6) && !msgKindOk f.tspec0.toNat)
    || (decide (f.typ = 7) && (decide (f.tspec2.toNat / 256 % 16 = 0) || decide (8 < f.tspec2.toNat / 256 % 16)))

/-- A 64-bit payload word as two words, least significant half first (R293). -/
def words64 (ws : List Nat) : List Word := ws.flatMap fun w => [lo32 w, hi32 w]

/-- A TYPE 0x6 message frame of R293: kind, epoch, 64-bit payload words. -/
def msgFrame (s : State) (dst kind ep : Nat) (ws : List Nat) : Frame :=
  { typ := 6, vc := 2, tc := BitVec.ofNat 3 (classOf s 2), length := BitVec.ofNat 11 (2 * ws.length),
    dstSw := BitVec.ofNat 12 dst, dstPort := 0x7F, srcSw := BitVec.ofNat 12 (swId s), srcPort := 0x7F,
    tspec0 := BitVec.ofNat 16 kind, tspec1 := BitVec.ofNat 64 ep, payload := words64 ws }

/-- An epoch marker: TYPE 0x5 on VC1, LENGTH 0, TSPEC1 the closed epoch, TSPEC0 bit 0 CATCHUP (R284). -/
def markerFrame (s : State) (dst ep : Nat) (catchup : Bool) : Frame :=
  { typ := 5, vc := 1, tc := BitVec.ofNat 3 (classOf s 1), dstSw := BitVec.ofNat 12 dst, dstPort := 0x7F,
    srcSw := BitVec.ofNat 12 (swId s), srcPort := 0x7F, epoch := BitVec.ofNat 16 ep,
    tspec0 := BitVec.ofNat 16 catchup.toNat, tspec1 := BitVec.ofNat 64 ep }

/-! ### Check codes (R229, R274) -/

/-- The number of bits set in the low 16 bits. -/
def weight (n : Nat) : Nat := popN 16 n

/-- The first `k` values of weight `w` below `2^width`, ascending. -/
def weightVals (width w k : Nat) : List Nat := (((List.range (2 ^ width)).filter fun n => weight n == w)).take k

/-- The columns of the buffer's data bits d0 to d255 (R229). -/
def bufDataCols : List Nat := weightVals 10 3 120 ++ weightVals 10 5 136

/-- The column of address bit ai of the buffer code (R229). -/
def bufAddrCol (i : Nat) : Nat :=
  (i % 3 + 1) * 2 ^ 10 + (if i < 10 then 2 ^ i + 2 ^ ((i + 1) % 10) else 2 ^ (i - 10) + 2 ^ ((i - 7) % 10))

/-- The columns of the landing code's stored bits d0 to d255, m0 to m15 (R274). -/
def landDataCols : List Nat := weightVals 14 3 272

/-- The column of address bit ai of the landing code (R274). -/
def landAddrCol (i : Nat) : Nat :=
  (i % 3 + 1) * 2 ^ 14 + (if i < 14 then 2 ^ i + 2 ^ ((i + 1) % 14) else 2 ^ (i - 14) + 2 ^ ((i - 11) % 14))

/-- The XOR of the columns of the bits set, lowest bit first. -/
def xorCols : List Nat → Nat → Nat
  | [], _ => 0
  | c :: cs, n => (if n % 2 = 1 then c else 0) ^^^ xorCols cs (n / 2)

/-- The syndrome of a buffer read whose stored word differs from what was written by `flip` (256 data bits, then 12 check
bits) and whose address differs by `addrFlip` (20 bits): the code is linear, so only the differences count (R230). -/
def bufSyndrome (flip addrFlip : Nat) : Nat :=
  xorCols bufDataCols flip ^^^ (flip / 2 ^ 256 % 2 ^ 12) ^^^ xorCols ((List.range 20).map bufAddrCol) addrFlip

/-- The syndrome of a landing read (256 data bits, 16 meta bits, 16 check bits; 26 address bits) (R275). -/
def landSyndrome (flip addrFlip : Nat) : Nat :=
  xorCols landDataCols flip ^^^ (flip / 2 ^ 272 % 2 ^ 16) ^^^ xorCols ((List.range 26).map landAddrCol) addrFlip

/-- What a read's syndrome says (R230, R275). -/
inductive EccVerdict where
  | good | corrected | uncorrectable
  deriving DecidableEq, Repr, Inhabited

/-- The verdict of the buffer code (R230). -/
def bufVerdict (syn : Nat) : EccVerdict :=
  if syn = 0 then .good
  else if syn / 2 ^ 10 = 0 && (bufDataCols.contains syn || weight syn == 1) then .corrected
  else if syn = 2 ^ 10 || syn = 2 ^ 11 then .corrected
  else .uncorrectable

/-- The verdict of the landing code (R275). -/
def landVerdict (syn : Nat) : EccVerdict :=
  if syn = 0 then .good
  else if syn / 2 ^ 14 = 0 && (landDataCols.contains syn || weight syn == 1) then .corrected
  else if syn = 2 ^ 14 || syn = 2 ^ 15 then .corrected
  else .uncorrectable

/-- The check bits c0 to c15 that a landing word stores at address W: the XOR of the columns of its set data, meta and
address bits (R274). -/
def landCheck (w : Nat) (data : BitVec 256) (meta16 : Nat) : Nat :=
  xorCols landDataCols (data.toNat + meta16 * 2 ^ 256) ^^^ xorCols ((List.range 26).map landAddrCol) w

end Sys2Proof.Machine
end

