-- ==== Sys2Proof/Machine/Wire.lean ====
section
/-! DEFINITION. Units on the lanes of a Nozan port: the symbols a port sends as groups with running disparity (R113, R136, R137), the check
of the groups its lanes receive (R116), and the frames and ordered sets they spell (R115, R138, R161). -/

namespace Sys2Proof.Machine

open Sys2Proof

/-- A lane's state changed. -/
def updLane (s : State) (n : Nat) (f : LaneSt → LaneSt) : State := { s with lane := s.lane.upd n f }

/-- The lanes a Nozan width code means. -/
def widthLanes (w : Nat) : Nat := 4 * 2 ^ w

/-- The lanes a port has by the seed: a Nozan port 4 to 16, a PCI Express port 2 to 16. -/
def portLanes (s : State) (p : Nat) : Nat :=
  if isNoz s p then widthLanes (rdF s (Reg.NZL_CFG p) 1 0) else if isPcie s p then 2 * 2 ^ rdF s (Reg.PCIE_CFG p) 9 8 else 0

/-- The lanes of a port, by position: from lane 2p on (R25, R132). -/
def lanesOf (s : State) (p : Nat) : List Nat :=
  ((List.range (portLanes s p)).map fun i => 2 * p + i).filter fun n =>
    decide (rdF s (Reg.LANE_CFG n) 1 0 ≠ 0) && decide (rdF s (Reg.LANE_CFG n) 8 2 = p)

/-- The lanes that belong to a port (R107). -/
def portedLanes (s : State) : List Nat := (s.seed.policy.nzPorts ++ s.seed.policy.pciePorts).flatMap (lanesOf s)

/-- NZL_STATUS.STATE of a port: 0 idle, 1 training, 2 up, 3 reset, 4 sleep, 5 down (R172). -/
def nzState (s : State) (p : Nat) : Nat := rdF s (Reg.NZL_STATUS p) 2 0

/-- The lanes a Nozan port sends on: its target width while it trains, else its present width (R164, R172). -/
def sendWidth (s : State) (p : Nat) : Nat :=
  widthLanes (if nzState s p = 1 then (s.member.get p).target.1 else rdF s (Reg.NZL_STATUS p) 4 3)

/-- The lane that receives each position: from the other end when the partner's order is reversed (R162 step 3). -/
def receiveLanes (s : State) (p : Nat) : List Nat := if rdB s (Reg.NZL_STATUS p) 7 then (lanesOf s p).reverse else lanesOf s p

/-- Both directions of a port's lanes at negative running disparity, as every link training begins (R113), no alignment, buffers at their
target fill (R117, R120). -/
def startLanes (s : State) (p : Nat) : State :=
  (lanesOf s p).foldl (fun s n => updLane s n fun l => { l with txPos := false, rxPos := false, alnSeen := 0, alnOther := none, fill := 4 }) s

/-! ### Sending -/

/-- Columns sent on the lanes of a port: the groups leave, and each lane's running disparity follows (R113). -/
def sendColumns (s : State) (p : Nat) (cols : List (List Sym)) : State :=
  let z := ((lanesOf s p).take (sendWidth s p)).zip (laneStreams (sendWidth s p) cols)
  let out := z.map fun x => (x.1, (sendStream (s.lane.get x.1).txPos x.2).1)
  emit (z.foldl (fun s x => updLane s x.1 fun l => { l with txPos := (sendStream l.txPos x.2).2 }) s) (.groups p out)

/-- Columns that are the same on every lane. -/
def evenColumns (w : Nat) (l : List Sym) : List (List Sym) := l.map fun x => List.replicate w x

/-- Ordered sets on every lane of a port (R115): K and three data symbols, `n` sets in a row. -/
def sendSets (s : State) (p k d1 d2 d3 n : Nat) : State :=
  let b (i : Nat) : Byte := BitVec.ofNat 8 i
  let l := [Sym.k (b k), .data (b d1), .data (b d2), .data (b d3)]
  sendColumns (emit s (.ordered p k d1 d2 d3 n)) p (List.replicate n (evenColumns (sendWidth s p) l)).flatten

/-- An LCS of a code (R115, R161), `n` sets in a row. -/
def lcsSend (s : State) (p d1 d2 d3 n : Nat) : State := sendSets s p 0x3C d1 d2 d3 n

/-- LANE sets: each lane carries its own position, and the width offered (R161). -/
def laneSetsSend (s : State) (p width n : Nat) : State :=
  let col (f : Nat → Sym) : List Sym := (List.range (sendWidth s p)).map f
  let set := [col fun _ => kLCS, col fun _ => .data 1, col fun i => .data (BitVec.ofNat 8 i), col fun _ => .data (BitVec.ofNat 8 width)]
  sendColumns (emit s (.laneSets p width n)) p (List.replicate n set).flatten

/-- A set of K symbols alone on every lane: ALN, WAKE (R115). -/
def kSetSend (s : State) (p : Nat) (k : List Byte) (n : Nat) : State :=
  let d (i : Nat) : Nat := (k.getD i 0).toNat
  sendColumns (emit s (.ordered p (d 0) (d 1) (d 2) (d 3) n)) p (List.replicate n (evenColumns (sendWidth s p) (k.map Sym.k))).flatten

/-- ALN as sent: K28.5 and three K28.0 (R115, R119). -/
def alnSend (s : State) (p : Nat) : State := kSetSend s p [0xBC, 0x1C, 0x1C, 0x1C] 1

/-- A column of FIL, when no unit is ready (R136). -/
def filSend (s : State) (p : Nat) : State := sendColumns s p (evenColumns (sendWidth s p) [kFIL])

/-- A frame on the wire (R136 to R139): eight header words, the payload words, the CRC-32 word, the end symbol (`eos` for EOS, else EOF),
and of a received one what its symbols showed: an error marker, a K symbol inside, the end symbol at the place LENGTH gives. -/
structure WireFrame where
  hdr     : List Word
  payload : List Word
  crc     : Word
  eos     : Bool := false
  marker  : Bool := false
  innerK  : Bool := false
  endOk   : Bool := true
  deriving DecidableEq, Repr, Inhabited

/-- Header words with HCRC in the high half of DW7 (R139, R142). -/
def checkedHeader (h : List Word) : List Word := h.take 7 ++ [setF (h.getD 7 0) 31 16 (hcrcOf h)]

/-- Header and payload with their checks: CRC-32, or its complement and EOS for a stomped frame (R142, R143). -/
def wireOf (h payload : List Word) (stomped : Bool) : WireFrame :=
  let hdr := checkedHeader h
  let c := w32 (crc32 ((hdr ++ payload).flatMap wordBytes))
  { hdr := hdr, payload := payload, crc := if stomped then ~~~c else c, eos := stomped }

/-- The bytes of a frame in the order of sending (R136, R139, R142). -/
def wireBytes (w : WireFrame) : List Byte := (w.hdr ++ w.payload ++ [w.crc]).flatMap wordBytes

/-- A unit with its checks placed on the lanes of a port (R137). -/
def sendWire (s : State) (p : Nat) (w : WireFrame) : State := sendColumns s p (frameColumns (sendWidth s p) (wireBytes w) w.eos)

/-- A data frame leaves a member, stomped or not (R136, R143). -/
def frameSend (s : State) (p : Nat) (f : Frame) (stomped : Bool) : State :=
  sendWire (emit s (.frame p f stomped)) p (wireOf (headerWords f) f.payload stomped)

/-- The header words of an LCF without HCRC: ACK_SEQ, NAK and MEMBER, the limits (R147). -/
def lcfWords (ack : Nat) (nak : Option Nat) (limits : List Nat) : List Word :=
  [0xF, w32 (ack + (match nak with | some m => 2 ^ 16 + m * 2 ^ 17 | none => 0))] ++ (List.range 4).map (fun v => w32 (limits.getD v 0))
    ++ [0, 0]

/-- An LCF leaves a member (R136, R147). -/
def lcfSend (s : State) (p ack : Nat) (nak : Option Nat) (limits : List Nat) : State :=
  sendWire (emit s (.lcf p ack nak limits)) p (wireOf (lcfWords ack nak limits) [] false)

/-! ### Receiving -/

/-- The groups the lanes of a port received, by position, checked: the symbols of each lane, an error marker first where the lane's buffer
slipped (R121), and the state with the errors counted and the running disparities moved on (R116). -/
def receiveGroups (s : State) (p : Nat) (g : List (List Group)) : List (List Sym) × State :=
  let z := (receiveLanes s p).zip g
  (z.map fun x =>
    let l := (checkStream (s.lane.get x.1).rxPos x.2).1.map GroupCheck.sym
    if (s.lane.get x.1).slipped && !l.isEmpty then .err :: l.tail else l,
   z.foldl (fun s x =>
     let c := checkStream (s.lane.get x.1).rxPos x.2
     let s := updLane s x.1 fun l => { l with rxPos := c.2, slipped := l.slipped && x.2.isEmpty }
     bumpBy (bumpBy s (Reg.LANE_CODE_ERR x.1) (c.1.countP fun y => y == .violation)) (Reg.LANE_DISP_ERR x.1)
       (c.1.countP fun y => y == .disparity)) s)

/-- Bytes as words, least significant byte first; `n` words at most. -/
def bytesWords : Nat → List Byte → List Word
  | 0, _ => []
  | n + 1, b => if b = [] then [] else
      w32 ((b.getD 0 0).toNat + (b.getD 1 0).toNat * 2 ^ 8 + (b.getD 2 0).toNat * 2 ^ 16 + (b.getD 3 0).toNat * 2 ^ 24) :: bytesWords n (b.drop 4)

/-- The frame that the symbols after SOF spell (R137 to R139). -/
def frameOfSyms (l : List Sym) : WireFrame :=
  let r := toEnd l
  let b := r.1.map Sym.byte
  let h := bytesWords 8 (b.take 32)
  let rest := b.drop 32
  let n := rest.length - 4
  { hdr := h, payload := bytesWords n (rest.take n), crc := (bytesWords 1 (rest.drop n)).headD 0, eos := r.2 == some kEOS
    marker := r.1.any fun x => x == .err, innerK := r.1.any Sym.isK
    endOk := r.2.isSome && decide (b.length = 36 + 4 * getF (h.headD 0) 26 16) }

/-- The frame in the symbols of a port's lanes, ALN removed (R119, R137). -/
def frameIn (lanes : List (List Sym)) : Option WireFrame := (afterSof (dropAln 0 (columnsOf lanes))).map frameOfSyms

/-- The three data symbols of a set on one lane that begins with a control symbol. -/
def setData (k : Sym) : List Sym → Option (Nat × Nat × Nat)
  | [x, .data a, .data b, .data c] => if x = k then some (a.toNat, b.toNat, c.toNat) else none
  | _ => none

/-- The set that every lane carries alike, without an error marker (R161). -/
def evenSet (k : Sym) (lanes : List (List Sym)) : Option (Nat × Nat × Nat) :=
  match lanes with
  | [] => none
  | l :: ls => if ls.all fun x => x == l then setData k l else none

end Sys2Proof.Machine
end

