-- ==== Sys2Proof/Machine/LaneOps.lean ====
section
/-! DEFINITION. What other units do to lane tests and margins: counting what a checker compared, and ending both at a cloche entry or a reset
(R125, R128, R131). -/

namespace Sys2Proof.Machine

open Sys2Proof

/-- Bits per core cycle of 0.625 ns at a rate code, in sixteenths (R108, R134). -/
def rateBits (code : Nat) : Nat := [25, 50, 80, 160, 320, 640, 100, 400].getD code 0

/-- What a locked checker has compared up to now is counted (R125): every bit since it was counted last, at the test's rate; `known` of them
are in error, and of the others, unless the lane hears itself, an open number. Both counters saturate at 48 bits. -/
def prbsCatch (s : State) (n known : Nat) : State :=
  match (s.lane.get n).cmpAt with
  | none => s
  | some t =>
    let bits := (s.now - t) * rateBits (rdF s (Reg.LANE_TEST_CTRL n) 5 3) / 16
    let v := freshBits s 48
    let more := if rdF s (Reg.LANE_TEST_CTRL n) 7 6 = 1 then 0 else v.1.toNat % (bits - known + 1)
    let s := updLane v.2 n fun l => { l with cmpAt := some s.now }
    let b := satAdd (2 ^ 48 - 1) (rd64 s (Reg.LANE_PRBS_BITS_LO n)) bits
    let e := satAdd (2 ^ 48 - 1) (rd64 s (Reg.LANE_PRBS_ERRS_LO n)) (known + more)
    wr64 (wr64 s (Reg.LANE_PRBS_BITS_LO n) b) (Reg.LANE_PRBS_ERRS_LO n) e

/-- The checker compares no more. -/
def prbsEnd (s : State) (n known : Nat) : State := updLane (prbsCatch s n known) n fun l => { l with cmpAt := none }

/-- A checker loses lock: what it compared is counted, and the loss (R125, R128). -/
def prbsUnlock (s : State) (n known : Nat) : State :=
  if rdB s (Reg.LANE_TEST_STATUS n) 1 then
    bumpF (wrB (prbsEnd s n known) (Reg.LANE_TEST_STATUS n) 1 false) (Reg.LANE_TEST_STATUS n) 15 8 1
  else s

/-- A test or a loop of a lane ends ABORTED: nothing holds the lane any more (R128). -/
def testAbort (s : State) (n : Nat) : State :=
  let t := Reg.LANE_TEST_STATUS n
  if !(rdB s t 0) && !(rdB s (Reg.LANE_STATUS n) 7) then s
  else
    let s := wrB (wrF (prbsEnd s n 0) t 1 0 0) t 3 true
    let s := wrF (wrB s (Reg.LANE_TEST_CTRL n) 0 false) (Reg.LANE_TEST_CTRL n) 7 6 0
    wrB s (Reg.LANE_STATUS n) 7 false

/-- A margin in progress ends ABORTED (R131). -/
def marginAbort (s : State) (n : Nat) : State :=
  if rdF s (Reg.LANE_MARGIN_STATUS n) 2 0 = 1 then wrF s (Reg.LANE_MARGIN_STATUS n) 2 0 5 else s

/-- Every test and margin ends at t0 of a reset cause (R128, R131). -/
def stopTests (s : State) : State := (List.range 160).foldl (fun s n => marginAbort (testAbort s n) n) s

end Sys2Proof.Machine
end

