-- ==== Sys2Proof/Machine/ForwardOps.lean ====
section
/-! DEFINITION. The steps of the forwarding core that other chapters use: trellis lookup (R213, R214), cells and reservations
(R224 to R228), credits given back (R154), putting a frame in an output queue, and the messages the switch's own units
send (R293). -/

namespace Sys2Proof.Machine

open Sys2Proof

/-! ### Pairs -/

/-- The key of a Nozan port's pair: the lower-numbered member, or the port itself when it is single or has left its pair
(R155, R213). -/
def pairKey (s : State) (p : Nat) : Nat :=
  let q := rdF s (Reg.NZL_CFG p) 10 4
  if rdB s (Reg.NZL_CFG p) 3 && !(s.member.get p).left && !(s.member.get q).left then min p q else p

/-- The other member of a port's pair. -/
def partnerOf (s : State) (p : Nat) : Option Nat :=
  let q := rdF s (Reg.NZL_CFG p) 10 4
  if rdB s (Reg.NZL_CFG p) 3 && !(s.member.get p).left && !(s.member.get q).left then some q else none

/-- The members of the pair a port belongs to. -/
def membersOf (s : State) (p : Nat) : List Nat :=
  match partnerOf s p with
  | some q => if p < q then [p, q] else [q, p]
  | none => [p]

/-- A Nozan member is up. -/
def nzUp (s : State) (p : Nat) : Bool := decide (nzState s p = 2)

/-- Some member of the pair is up. -/
def pairUp (s : State) (p : Nat) : Bool := (membersOf s p).any (nzUp s)

/-! ### The trellis table -/

/-- The entry of a switch ID (R213). -/
def trEntry (s : State) (sw : Nat) : Nat := rd64 s (Reg.FWD_TRELLIS_LO sw)

/-- The valid paths of an entry, in path order (R213). -/
def trPaths (e : Nat) : List Nat :=
  ([0, 1, 2, 3].filter fun i => bitN e (8 * i + 7)).map fun i => e / 2 ^ (8 * i) % 128

/-- HOPS of an entry. -/
def trHops (e : Nat) : Nat := e / 2 ^ 32 % 16

/-- The entry was computed at this start and leads somewhere. -/
def trReach (e : Nat) : Bool := bitN e 37 && decide (trHops e < 15) && decide (trPaths e ≠ [])

/-- A switch can be reached by the table. -/
def reachable (s : State) (sw : Nat) : Bool := decide (sw = swId s) || trReach (trEntry s sw)

/-- Path 0 of a destination (R289). -/
def path0 (s : State) (sw : Nat) : Option Nat :=
  if trReach (trEntry s sw) then (trPaths (trEntry s sw)).head? else none

/-- The bytes over which R214 computes h: SRC_SWITCH, SRC_PORT, TSPEC0 and DST_SWITCH, each in the fewest whole bytes. -/
def hashBytes (f : Frame) : List Byte :=
  leBytes 2 f.srcSw.toNat ++ leBytes 1 f.srcPort.toNat ++ leBytes 2 f.tspec0.toNat ++ leBytes 2 f.dstSw.toNat

/-- The cells an output queue holds (R243). -/
def qDepth (s : State) (p t : Nat) : Nat := rdF s (Reg.FWD_Q_DEPTH p t) 17 0

/-- The path of fewest cells, the lower index on a tie (R214). -/
def leastQueue (s : State) (t : Nat) : List Nat → Option Nat
  | [] => none
  | p :: ps =>
    match leastQueue s t ps with
    | none => some p
    | some q => if qDepth s q t < qDepth s p t then some q else some p

/-- The egress port of a frame for another switch (R214). -/
def pickPath (s : State) (f : Frame) : Option Nat :=
  let e := trEntry s f.dstSw.toNat
  if !(trReach e) then none
  else
    let ps := trPaths e
    if decide (f.typ = 4) || (decide (f.typ = 3) && !f.prot) then leastQueue s f.tc.toNat ps
    else ps[crc16 (hashBytes f) % ps.length]?

/-! ### Cells (R223 to R228) -/

/-- The number of an internal master as an ingress. -/
def internalMaster : Nat := 80

/-- The bank group an ingress takes its next cell from: after the group of its last cell, and first from port mod 8, or 0 for
an internal master (R226). -/
def nextGroup (s : State) (p : Nat) : Nat :=
  match s.fwd.lastGrp.get p with
  | some g => (g + 1) % 8
  | none => if p < 80 then p % 8 else 0

/-- One cell from group g: from the freed list, else 8 × counter + g (R226). -/
def cellFrom (s : State) (g : Nat) : Option (Nat × State) :=
  match s.fwd.freed.get g with
  | c :: cs => some (c, { s with fwd := { s.fwd with freed := s.fwd.freed.set g cs } })
  | [] =>
    let n := s.fwd.never.get g
    if n < 16384 then some (8 * n + g, { s with fwd := { s.fwd with never := s.fwd.never.set g (n + 1) } }) else none

/-- One cell for an ingress, trying the groups in rotation. -/
def cellTry (s : State) (p : Nat) : Nat → Nat → Option (Nat × State)
  | 0, _ => none
  | k + 1, g =>
    match cellFrom s g with
    | some (c, s') => some (c, { s' with fwd := { s'.fwd with lastGrp := s'.fwd.lastGrp.set p (some g) } })
    | none => cellTry s p k ((g + 1) % 8)

/-- `n` cells for an ingress. -/
def takeCells (s : State) (p : Nat) : Nat → List Nat × State
  | 0 => ([], s)
  | n + 1 =>
    match cellTry s p 8 (nextGroup s p) with
    | some (c, s') => let r := takeCells s' p n; (c :: r.1, r.2)
    | none => ([], s)

/-- The space of one VC of a Nozan port of a width code, in credits (R153). -/
def vcSpace (width vc : Nat) : Nat :=
  if vc = 2 then (if width = 2 then 128 else 64)
  else if width = 0 then 256 else if width = 1 then 512 else 1024

/-- The cells a PCI Express port reserves for posted, non-posted and completion traffic, by width code 0 x2 to 3 x16: header
credits plus the data bytes over 256 (R227). -/
def pcieReserve (width cls : Nat) : Nat :=
  let m := 2 ^ width
  if cls = 0 then 16 * m + 128 * m * 16 / 256 else if cls = 1 then 16 * m + 16 * m * 16 / 256 else 32 * m + 256 * m * 16 / 256

/-- The reservation of an ingress and class of credit: a Nozan VC, a PCI Express class, or the internal masters' 4,096 cells
(R227, R228). -/
def reserveOf (s : State) (p cls : Nat) : Nat :=
  if p ≥ 80 then 4096
  else if isNoz s p then vcSpace (rdF s (Reg.NZL_CFG p) 1 0) cls
  else pcieReserve (rdF s (Reg.PCIE_CFG p) 9 8) cls

/-- The free cells and their low mark after `n` were taken (R245). -/
def noteFree (s : State) : State :=
  if rdF s Reg.BUF_FREE 17 0 < rdF s Reg.BUF_FREE_LOW 17 0 then
    wrF s Reg.BUF_FREE_LOW 17 0 (rdF s Reg.BUF_FREE 17 0) else s

/-- The class of credit a frame holds at its ingress: its VC on Nozan; posted, non-posted or completion on PCI Express. -/
def creditClass (s : State) (p : Nat) (f : Frame) : Nat :=
  if p < 80 && !(isNoz s p) then (if f.typ = 0 then 0 else if f.typ = 1 then 1 else 2) else if p < 80 then f.vc.toNat else 0

/-- Cells for a frame: counted against the ingress reservation, beyond it against the shared pool (R227, R228). -/
def allocFrame (s : State) (p : Nat) (f : Frame) (tag : Option (Nat × Nat × Nat)) (known : Bool) : QEntry × State :=
  let cls := creditClass s p f
  let n := frameCells f
  let used := s.fwd.resUsed.get (4 * p + cls)
  let fromRes := min n (reserveOf s p cls - used)
  let r := takeCells s p n
  let s := r.2
  let s := { s with fwd := { s.fwd with resUsed := s.fwd.resUsed.set (4 * p + cls) (used + fromRes) } }
  let s := wrF s Reg.BUF_FREE 17 0 (rdF s Reg.BUF_FREE 17 0 - r.1.length)
  let s := noteFree s
  let s := wrF s Reg.BUF_SHARED_FREE 17 0 (rdF s Reg.BUF_SHARED_FREE 17 0 - (n - fromRes))
  let s := countBy s 112 0 r.1.length
  ({ f := f, inPort := p, cls := cls, cells := r.1, shared := n - fromRes, tag := tag, known := known }, s)

/-- NEXT_RX of a pair. -/
def nextRx (s : State) (p : Nat) : Nat := rdF s (Reg.NZL_RX_SEQ p) 15 0

/-- A member of a pair that is up, `p` itself when it is. -/
def upMember (s : State) (p : Nat) : Option Nat := if nzUp s p then some p else (membersOf s p).find? (nzUp s)

/-- An LCF of a pair (R147, R150): ACK_SEQ, the NAK it carries, and the cumulative limits; it restarts every reason to send one. -/
def sendLcf (s : State) (p : Nat) (nak : Option Nat) : State :=
  match upMember s p with
  | none => s
  | some q =>
    let limits := (List.range 4).map fun v => rdF s (Reg.NZL_GRANT_VC q v) 23 0
    let s := lcfSend s q ((nextRx s q + 65535) % 65536) nak limits
    { s with pair := s.pair.upd (pairKey s q) fun x => { x with accepted := 0, ackWait := false, grown := [0, 0, 0, 0] } }

/-- VC1 credits are withheld: a quiesce before a warm reset, P2 or P3 runs (R86, R491, R492). -/
def vc1Held (s : State) : Bool := s.start.quiesce.isSome || decide (s.pwr.req = 2 ∨ s.pwr.req = 3)

/-- Space of a VC freed at a Nozan ingress raises its LIMIT, NZL_GRANT of every member of the pair (R154); 32 credits grown since the
last LCF send one (R150). -/
def returnCredits (s : State) (p vc n : Nat) : State :=
  if 80 ≤ p || !(isNoz s p) then s
  else
    let k := pairKey s p
    let s := { s with pair := s.pair.upd k fun x => { x with heldCred := x.heldCred.modify vc (· - n) } }
    if !(pairUp s p) then s
    else if vc = 1 && vc1Held s then { s with pair := s.pair.upd k fun x => { x with owed := x.owed + n } }
    else
      let v := (rdF s (Reg.NZL_GRANT_VC k vc) 23 0 + n) % 2 ^ 24
      let s := (membersOf s p).foldl (fun s q => wrF s (Reg.NZL_GRANT_VC q vc) 23 0 v) s
      let s := { s with pair := s.pair.upd k fun x => { x with grown := x.grown.modify vc (· + n) } }
      if (s.pair.get k).grown.any fun g => decide (32 ≤ g) then sendLcf s k none else s

/-- A frame's last cell is freed, when it holds any: cells to their groups' freed lists, reservation and shared pool returned, credits returned
(R226, R227). -/
def freeEntry (s : State) (e : QEntry) : State :=
  if e.cells = [] then s else
  let freed := e.cells.foldl (fun t c => t.upd (c % 8) fun l => l ++ [c]) s.fwd.freed
  let used := s.fwd.resUsed.get (4 * e.inPort + e.cls)
  let rest := s.fwd.resUsed.set (4 * e.inPort + e.cls) (used - (frameCells e.f - e.shared))
  let s := { s with fwd := { s.fwd with freed := freed, resUsed := rest } }
  let s := wrF s Reg.BUF_FREE 17 0 (rdF s Reg.BUF_FREE 17 0 + e.cells.length)
  let s := wrF s Reg.BUF_SHARED_FREE 17 0 (rdF s Reg.BUF_SHARED_FREE 17 0 + e.shared)
  returnCredits s e.inPort e.cls (frameCredits e.f)

/-- A frame put at the end of the output queue of port p for its class (R225). -/
def enqueue (s : State) (p : Nat) (e : QEntry) : State :=
  let t := e.f.tc.toNat
  let s := { s with fwd := { s.fwd with queue := s.fwd.queue.upd (8 * p + t) fun l => l ++ [{ e with at_ := s.now }] } }
  wrF s (Reg.FWD_Q_DEPTH p t) 17 0 (qDepth s p t + frameCells e.f)

/-! ### Colour drop (R238, R239) -/

/-- MIN, MAX and the exponent of PMAX of a colour. -/
def wredOf (s : State) (c : Nat) : Nat × Nat × Nat :=
  let a := if c = 0 then Reg.FWD_WRED_GREEN else if c = 1 then Reg.FWD_WRED_YELLOW else Reg.FWD_WRED_RED
  (rdF s a 13 0, rdF s a 27 14, rdF s a 30 28 + 1)

/-- The average depth after an enqueue at depth `q`, as numerator over a power of two (R239). -/
def wredAvg (a : Nat × Nat) (q w : Nat) : Nat × Nat := (a.1 * (2 ^ w - 1) + q * 2 ^ a.2, a.2 + w)

/-- Whether a considered frame is dropped: the 16-bit draw is a free value (R239). -/
def wredDrop (s : State) (a : Nat × Nat) (m : Nat × Nat × Nat) : Bool × State :=
  if a.1 < m.1 * 2 ^ a.2 then (false, s)
  else if m.2.1 * 2 ^ a.2 ≤ a.1 then (true, s)
  else
    let v := freshBits s 16
    (decide (v.1.toNat < 65536 * (a.1 - m.1 * 2 ^ a.2) / (2 ^ m.2.2 * ((m.2.1 - m.1) * 2 ^ a.2))), v.2)

/-- Whether colour drop lets a frame into an output queue; the average depth follows every enqueue at an enabled port (R238, R239). -/
def wredPass (s : State) (p : Nat) (f : Frame) : Bool × State :=
  if !(rdB s (Reg.FWD_PORT_FLAGS p) 1) then (true, s)
  else
    let k := 8 * p + f.tc.toNat
    let a := wredAvg (s.fwd.avg.get k) (qDepth s p f.tc.toNat) (rdF s Reg.FWD_WRED_WEIGHT 3 0)
    let s := { s with fwd := { s.fwd with avg := s.fwd.avg.set k a } }
    if f.typ = 3 && decide (f.vc = 0) && !f.prot then
      let d := wredDrop s a (wredOf s f.colour.toNat)
      if d.1 then (false, count (bump d.2 (Reg.FWD_PORT_COLOUR_DROP p)) p 17) else (true, d.2)
    else (true, s)

/-- A frame of an internal master on the link its unit names, or that the table gives (R214), unless colour drop takes it (R238). -/
def sendOn (s : State) (p : Nat) (f : Frame) : State :=
  let r := allocFrame s internalMaster f none true
  let d := wredPass r.2 p f
  if d.1 then enqueue d.2 p r.1 else freeEntry d.2 r.1

/-- A message of R293 to a switch, on path 0 of its entry; to an unreachable switch none leaves (R289). -/
def sendMsg (s : State) (dst kind ep : Nat) (ws : List Nat) : State :=
  match path0 s dst with
  | some p => sendOn s p (msgFrame s dst kind ep ws)
  | none => s

/-- A frame handed to the forwarding core by a Nozan pair, in order (R148); one that was cut through has been passed already (R157, R222). -/
def passFrame (s : State) (p : Nat) (f : Frame) : State :=
  if (s.pair.get p).cutSeq = some f.lseq.toNat then { s with pair := s.pair.upd p fun x => { x with cutSeq := none } }
  else { s with fwd := { s.fwd with passed := s.fwd.passed.upd p fun l => l ++ [{ f := f }] } }

/-! ### Adjacencies -/

/-- The expected neighbour of a port, when the DISCOVERY section permits the port (R215). -/
def expectedNeighbour (s : State) (p : Nat) : Option Nat :=
  (s.seed.policy.neighbours.find? fun n => n.1 == p).map Prod.snd

/-- The neighbour switch of an adjacency: what the member that is up last saw of its peer. -/
def neighbourOf (s : State) (p : Nat) : Nat := rdF s (Reg.NZL_PEER ((upMember s p).getD p)) 11 0

/-- A port, or some member of its pair, is an adjacency (R215). -/
def adjacent (s : State) (p : Nat) : Bool := (membersOf s p).any fun q => rdB s (Reg.FWD_PORT_FLAGS q) 0

/-- A neighbour of the own cluster (R284). -/
def sameCluster (s : State) (sw : Nat) : Bool := decide (sw / 64 = swId s / 64)

/-- The cluster adjacencies of the marker set (R285). -/
def markerSet (s : State) : List Nat := (s.land.adj.cells.filter fun c => c.2.inSet).map Prod.fst

end Sys2Proof.Machine
end

