-- ==== Sys2Proof/Machine/HedgeOps.lean ====
section
/-! DEFINITION. The steps of a hedge unit that its masters use: the check of an access part by part (R419 to R423), the tag of
an allowed access and its check at delivery (R421, R424), the refusal record (R423, R441), peer window translation (R433,
R434), and a MEF's own reads and writes (R192). -/

namespace Sys2Proof.Machine

open Sys2Proof

/-- KIND of HEDGE_U_FAULT_INFO (R441). -/
def accCode : AccKind → Nat
  | .read => 0
  | .write => 1
  | .atomic => 2
  | .prot => 3

/-- The bit of HEDGE_S_CTRL an access needs (R419, R440). -/
def accPermBit : AccKind → Nat
  | .read => 1
  | .write => 2
  | .atomic => 3
  | .prot => 4

/-- A part of an access: address, length, the reason of its refusal (R441), 0 when allowed. -/
structure Part where
  addr   : Nat
  len    : Nat
  reason : Nat := 0
  deriving DecidableEq, Repr, Inhabited

/-- BASE of a slot. -/
def slotBase (s : State) (u k : Nat) : Nat := rd64 s (Reg.HEDGE_S_BASE_LO u k)

/-- The first byte past a slot: LIMIT + 64 (R419). -/
def slotEnd (s : State) (u k : Nat) : Nat := rd64 s (Reg.HEDGE_S_LIMIT_LO u k) + 64

/-- GEN of a slot. -/
def slotGen (s : State) (u k : Nat) : Nat := rdF s (Reg.HEDGE_S_CTRL u k) 15 8

/-- Why a slot refuses every access: tables not loaded, a bad copy, not valid (R425, R421, R437); 0 when it does not. -/
def slotShut (s : State) (u k : Nat) : Nat :=
  if rdB s Reg.HEDGE_STATUS 0 = false then 5
  else match s.hedge.bad.find? fun b => b.1 == 128 * u + k with
    | some b => b.2
    | none => if rdB s (Reg.HEDGE_S_CTRL u k) 0 then 0 else 1

/-- The bytes [a, e) as a part, when there are any. -/
def mkPart (a e r : Nat) : List Part := if a < e then [{ addr := a, len := e - a, reason := r }] else []

/-- An access split at the edges of its slot and each part checked (R419, R422). A zero-length read covers 1 byte. -/
def hedgeParts (s : State) (u k : Nat) (kind : AccKind) (addr len : Nat) : List Part :=
  let e := addr + max 1 len
  let shut := slotShut s u k
  if shut ≠ 0 then [{ addr := addr, len := e - addr, reason := shut }]
  else
    let b := slotBase s u k
    let f := slotEnd s u k
    let r := if rdB s (Reg.HEDGE_S_CTRL u k) (accPermBit kind) then 0 else 3
    mkPart addr (min e b) 2 ++ mkPart (max addr b) (min e f) r ++ mkPart (max addr f) e 2

/-- Every part is allowed. -/
def partsOk (ps : List Part) : Bool := ps.all fun p => decide (p.reason = 0)

/-- The parts refused. -/
def partsBad (ps : List Part) : List Part := ps.filter fun p => decide (p.reason ≠ 0)

/-- The containment zone of a unit's master: its port, the engine packet's connection, the flush target's port, the scion
(R423). `id` is the connection, target port or scion. -/
def masterZone (u id : Nat) : Nat × Nat :=
  if u < 80 then (1, u) else if u < 88 then (3, id) else if u < 96 then (1, id) else (2, id)

/-- The refusal latched in a unit's fault registers: the first since the last clear fills them, a later one sets OVERFLOW
(R423, R441). -/
def hedgeLatch (s : State) (u k : Nat) (kind : AccKind) (reason addr reqId : Nat) (split : Bool) : State :=
  if rdB s (Reg.HEDGE_U_STATUS u) 1 then wrB s (Reg.HEDGE_U_STATUS u) 2 true
  else
    let s := wrB s (Reg.HEDGE_U_STATUS u) 1 true
    let s := wr64 s (Reg.HEDGE_U_FAULT_ADDR_LO u) addr
    let s := wrN s (Reg.HEDGE_U_FAULT_INFO u)
      (k % 128 + reason % 8 * 2 ^ 7 + accCode kind * 2 ^ 10 + split.toNat * 2 ^ 12 + reqId % 2 ^ 16 * 2 ^ 16)
    wrN s (Reg.HEDGE_U_FAULT_TIME u) (tUs s)

/-- The counts of `n` refused parts (R439, R520). -/
def hedgeCount (s : State) (u n : Nat) : State :=
  let s := bumpBy s Reg.HEDGE_REFUSED n
  let s := bumpBy s (Reg.HEDGE_U_REFUSED u) n
  let s := countBy s 124 0 n
  if u < 80 then countBy s u 19 n else s

/-- The refused parts of an access recorded: counted, latched and raised as a U fault in the master's zone (R422, R423). -/
def hedgeRefuse (s : State) (u k : Nat) (kind : AccKind) (ps : List Part) (reqId id : Nat) : State :=
  match partsBad ps with
  | [] => s
  | b :: _ =>
    let s := hedgeCount s u (partsBad ps).length
    let s := hedgeLatch s u k kind b.reason b.addr reqId (ps.any fun p => decide (p.reason = 0))
    fault s 13 0x01 2 (masterZone u id).1 (masterZone u id).2 b.addr

/-- An allowed access is tagged with its slot and GEN, and INFLIGHT rises (R421). -/
def hedgeTag (s : State) (u k : Nat) : (Nat × Nat × Nat) × State :=
  ((u, k, slotGen s u k), bumpF s (Reg.HEDGE_S_INFLIGHT u k) 17 0 1)

/-- INFLIGHT of a slot falls at a delivery or a discard (R424). -/
def hedgeDrop (s : State) (t : Nat × Nat × Nat) : State :=
  wrF s (Reg.HEDGE_S_INFLIGHT t.1 t.2.1) 17 0 (rdF s (Reg.HEDGE_S_INFLIGHT t.1 t.2.1) 17 0 - 1)

/-- The GEN of an access still equals its slot's (R424). -/
def hedgeGenOk (s : State) (t : Nat × Nat × Nat) : Bool := decide (slotGen s t.1 t.2.1 = t.2.2)

/-- The check at delivery: INFLIGHT falls; a mismatch is a refusal with reason 4 and an F fault (R424). -/
def hedgeDeliver (s : State) (t : Nat × Nat × Nat) (kind : AccKind) (addr reqId : Nat) : Bool × State :=
  if hedgeGenOk s t then (true, hedgeDrop s t)
  else
    let s := hedgeDrop s t
    let s := count (bump s Reg.HEDGE_GEN_MISMATCH) 124 3
    let s := hedgeCount s t.1 1
    let s := hedgeLatch s t.1 t.2.1 kind 4 addr reqId false
    (false, faultU s 13 0x02 3 t.2.1)

/-- The two check circuits of a unit disagree: the access is refused with reason 6, an F fault is raised, and the slot refuses
everything until it is rewritten (R421). -/
def hedgeDisagree (s : State) (u k : Nat) (kind : AccKind) (addr reqId : Nat) : State :=
  let s := count (bump s Reg.HEDGE_DISAGREE) 124 4
  let s := hedgeCount s u 1
  let s := hedgeLatch s u k kind 6 addr reqId false
  let s := { s with hedge := { s.hedge with bad := s.hedge.bad ++ [(128 * u + k, 6)] } }
  faultU s 13 0x03 3 k

/-- A unit holds its master's accesses (R428). -/
def hedgeHolds (s : State) (u : Nat) : Bool := rdB s (Reg.HEDGE_U_STATUS u) 0

/-! ### Peer windows (R432 to R434) -/

/-- SRC_BASE of active window w of host k. -/
def pwBase (s : State) (k w : Nat) : Nat := rd64 s (Reg.HEDGE_PW_SRC_BASE_LO k 0 w)
/-- The first byte past active window w of host k. -/
def pwEnd (s : State) (k w : Nat) : Nat := rd64 s (Reg.HEDGE_PW_SRC_LIMIT_LO k 0 w) + 4096

/-- The active window of host k that an address matches (R433). -/
def pwMatch (s : State) (k x : Nat) : Option Nat :=
  (List.range 32).find? fun w =>
    rdB s (Reg.HEDGE_PW_CTRL k 0 w) 0 && decide (pwBase s k w ≤ x) && decide (x < pwEnd s k w)

/-- A request of host k's hierarchy resolved part by part: target slot, address, length (R417, R433, R434). -/
def pwResolve (s : State) (k : Nat) : Nat → Nat → Nat → List (Nat × Nat × Nat)
  | 0, a, l => [(upPort s k, a, l)]
  | n + 1, a, l =>
    match pwMatch s k a with
    | none => [(upPort s k, a, l)]
    | some w =>
      let room := pwEnd s k w - a
      let tgt := rd64 s (Reg.HEDGE_PW_TGT_BASE_LO k 0 w) + (a - pwBase s k w)
      let slot := rdF s (Reg.HEDGE_PW_CTRL k 0 w) 7 1
      if l ≤ room then [(slot, tgt, l)] else (slot, tgt, room) :: pwResolve s k n (a + room) (l - room)

/-! ### The MEF as a requester (R192, R193) -/

/-- A host's MEF state changed. -/
def updMef (s : State) (k : Nat) (f : MefSt → MefSt) : State :=
  { s with pcie := { s.pcie with mef := s.pcie.mef.upd k f } }

/-- The function generation in force. -/
def mefGen (s : State) (k : Nat) : Nat := rdF s (Reg.PCIE_MEF_STATE (upPort s k)) 15 8

/-- The lowest tag no read holds. -/
def freeTag (s : State) (k : Nat) : Nat :=
  (searchUp (fun t => !((s.pcie.mef.get k).reads.any fun r => r.tag == t)) ((s.pcie.mef.get k).reads.length + 1) 0).getD 0

/-- The place in the use of reservations where the cells reserved for responses to MEF reads are counted. -/
def readPool : Nat := 4 * internalMaster + 1

/-- The cells of the internal reservation that MEF reads may reserve: 4,096 less the engines' 8 × 272 and the bridge's 512 (R228, R396,
R448; DEDUCED, log entry 91). -/
def readReserve : Nat := 1408

/-- The cells for a response of `n` data bytes: from the internal reservation and from the shared pool, which engines leave at 2,048 free
cells (R31, R224, R228); none when there is no room. -/
def readRoom (s : State) (n : Nat) : Option (Nat × Nat) :=
  let c := (32 + n + 255) / 256
  let own := min c (readReserve - s.fwd.resUsed.get readPool)
  let free := rdF s Reg.BUF_SHARED_FREE 17 0
  if own = c then some (c, 0) else if decide (2048 ≤ free) && decide (c - own ≤ free) then some (own, c - own) else none

/-- A read with its response cells leaves: the generation in force and the tag are recorded (R192), and it is delivered (R424). -/
def mefIssue (s : State) (k : Nat) (a : MefAsk) (c : Nat × Nat) : State :=
  let t := freeTag s k
  let s := match a.tag with
    | some g => (hedgeDeliver s g .read a.addr 0).2
    | none => s
  let s := { s with fwd := { s.fwd with resUsed := s.fwd.resUsed.upd readPool (· + c.1) } }
  let s := if c.2 = 0 then s else wrF s Reg.BUF_SHARED_FREE 17 0 (rdF s Reg.BUF_SHARED_FREE 17 0 - c.2)
  emit (updMef s k fun m => { m with reads := m.reads ++ [{
    tag := t, gen := mefGen s k, own := a.own, at_ := s.now, cells := c.1, shared := c.2 }] }) (.hostRead k t a.addr a.len a.pasid)

/-- A read that its hedge unit refused takes a tag and is not issued: the completion that ends it carries Completer Abort (R422). -/
def mefRefused (s : State) (k : Nat) (a : MefAsk) : State :=
  updMef s k fun m => { m with reads := m.reads ++ [{ tag := freeTag s k, gen := mefGen s k, own := a.own, at_ := s.now, refused := true }] }

/-- A read leaves when one of the 1,024 tags and its response cells are free; none otherwise (R31, R177). -/
def mefTry (s : State) (k : Nat) (a : MefAsk) : Option State :=
  if 1024 ≤ freeTag s k then none
  else if a.refused then some (mefRefused s k a)
  else (readRoom s a.len).map (mefIssue s k a)

/-- The MEF of host k is asked for a read: it leaves, or waits behind earlier ones for a tag and response cells (R31), and for Bus Master
Enable (R192). -/
def mefAsk (s : State) (k : Nat) (a : MefAsk) : State :=
  match if (s.pcie.mef.get k).readWait = [] && mefBme s k then mefTry s k a else none with
  | some s => s
  | none => updMef s k fun m => { m with readWait := m.readWait ++ [a] }

/-- A read of the switch's own for host k, which no hedge unit checks. -/
def mefRead (s : State) (k : Nat) (o : MefOwner) (addr len : Nat) (pasid : Option (BitVec 20)) : State :=
  mefAsk s k { own := o, addr := addr, len := len, pasid := pasid }

/-- Waiting reads of host k leave as far as they may. -/
def readGoOne (s : State) (k : Nat) : Nat → State
  | 0 => s
  | n + 1 =>
    match (s.pcie.mef.get k).readWait with
    | [] => s
    | a :: rest => if !(mefBme s k) then s else match mefTry s k a with
      | some s => readGoOne (updMef s k fun m => { m with readWait := rest }) k n
      | none => s

/-- Waiting reads of every host. -/
def readGo (s : State) : State := (hostsOf s).foldl (fun s k => readGoOne s k (s.pcie.mef.get k).readWait.length) s

/-- The cells reserved for a read's response are free again. -/
def readFree (s : State) (r : MefRd) : State :=
  let s := { s with fwd := { s.fwd with resUsed := s.fwd.resUsed.upd readPool (· - r.cells) } }
  if r.shared = 0 then s else wrF s Reg.BUF_SHARED_FREE 17 0 (rdF s Reg.BUF_SHARED_FREE 17 0 + r.shared)

/-- The MEF of host k queues an upstream write for an owner in the VC0 queue of its upstream port, with its PASID and the tag of the
hedge check that allowed it. -/
def mefWriteTag (s : State) (k : Nat) (o : MefOwner) (addr : Nat) (ws : List Word) (ep : Bool)
    (pasid : Option (BitVec 20)) (tag : Option (Nat × Nat × Nat)) : State :=
  let be := if ws.length = 1 then 0x0F else 0xFF
  let ws := (match pasid with
    | some v => [w32 v.toNat]
    | none => []) ++ ws
  let f : Frame := { typ := 0, vc := 0, tc := BitVec.ofNat 3 (classOf s 0), poison := ep,
                     length := BitVec.ofNat 11 ws.length, dstSw := BitVec.ofNat 12 (swId s),
                     dstPort := BitVec.ofNat 7 (upPort s k), srcSw := BitVec.ofNat 12 (swId s), srcPort := 0x7F,
                     tspec1 := BitVec.ofNat 64 addr, tspec2 := BitVec.ofNat 16 (be + pasid.isSome.toNat * 256), payload := ws }
  let r := allocFrame s internalMaster f tag true
  enqueue r.2 (upPort s k) { r.1 with own := some (k, o) }

/-- A write of the switch's own for host k, which no hedge unit checks. -/
def mefWrite (s : State) (k : Nat) (o : MefOwner) (addr : Nat) (ws : List Word) (ep : Bool) (pasid : Option (BitVec 20)) : State :=
  mefWriteTag s k o addr ws ep pasid none

/-! ### The engines' own accesses (R415) -/

/-- The access of an engine's own checked against the slot of the host's upstream port (R415, R421, R422): a read is tagged, or refused
whole; of a write the allowed part goes on. The answer says whether any of it does. -/
def ownCheck (s : State) (u : Nat) (a : OwnAccess) : Bool × State :=
  let slot := upPort s a.host
  let wr := decide (a.words ≠ [])
  let kind : AccKind := if wr then .write else .read
  let ps := hedgeParts s u slot kind a.addr (if wr then 4 * a.words.length else a.len)
  let s := hedgeRefuse s u slot kind ps a.id a.id
  let ask : MefAsk := { own := a.own, addr := a.addr, len := a.len, pasid := a.pasid }
  if wr then
    match ps.find? fun p => decide (p.reason = 0) with
    | some p =>
      let t := hedgeTag s u slot
      let ws := (a.words.drop ((p.addr - a.addr) / 4)).take (p.len / 4)
      (true, mefWriteTag t.2 a.host a.own p.addr ws a.poison a.pasid (some t.1))
    | none => (false, s)
  else if partsOk ps then
    let t := hedgeTag s u slot
    (true, mefAsk t.2 a.host { ask with tag := some t.1 })
  else (false, mefAsk s a.host { ask with refused := true })

/-- An access of an engine's own: checked, or held by its unit (R415, R428). The answer is false for a write refused whole. -/
def ownAccess (s : State) (e : Nat) (a : OwnAccess) : Bool × State :=
  if hedgeHolds s (80 + e) then (true, { s with hedge := { s.hedge with heldPkt := s.hedge.heldPkt ++ [(e, .own a)] } })
  else ownCheck s (80 + e) a

/-- A read of host memory by engine `e` for an owner. -/
def engRead (s : State) (e id k : Nat) (o : MefOwner) (addr len : Nat) (pasid : Option (BitVec 20)) : State :=
  (ownAccess s e { id := id, host := k, own := o, addr := addr, len := len, pasid := pasid }).2

/-- A write of host memory by engine `e` for an owner. -/
def engWrite (s : State) (e id k : Nat) (o : MefOwner) (addr : Nat) (ws : List Word) (ep : Bool) (pasid : Option (BitVec 20)) :
    Bool × State :=
  ownAccess s e { id := id, host := k, own := o, addr := addr, words := ws, poison := ep, pasid := pasid }

/-- OLD_READS and TP of a MEF follow its reads of an older generation (R192, R208). -/
def mefTp (s : State) (k : Nat) : State :=
  let p := upPort s k
  let old := (s.pcie.mef.get k).reads.filter fun r => decide (r.gen ≠ mefGen s k)
  wrB (wrF s (Reg.PCIE_MEF_STATE p) 25 16 old.length) (Reg.PCIE_MEF_STATE p) 3 (decide (old ≠ []))

end Sys2Proof.Machine
end

