-- ==== Sys2Proof/Machine/LandOps.lean ====
section
/-! DEFINITION. The landing controller's bookkeeping: its state accessors, requester records (R282), regions (R268 to R270), the
admission test of the energy ledger (R260 to R262), ADMIT (R264), and words in landing DRAM (R272 to R276, R303). -/

namespace Sys2Proof.Machine

open Sys2Proof

/-- The landing state changed. -/
def updLand (s : State) (f : LandSt → LandSt) : State := { s with land := f s.land }

/-- The ledger and shaper state changed. -/
def updQos (s : State) (f : QosSt → QosSt) : State := { s with qos := f s.qos }

/-- This switch has joined the sealing set at this start (R298). -/
def joined (s : State) : Bool := rdB s Reg.LAND_STATUS 1

/-- The buffer serves landing (R309). -/
def landServes (s : State) : Bool := rdB s Reg.LAND_STATUS 0

/-! ### Requester records (R282) -/

/-- The key of a host's requester. -/
def reqKey (host reqId : Nat) : Nat := 65536 * host + reqId

/-- The key of a connection's record (R373, R380). -/
def connKey (conn : Nat) : Nat := 2 ^ 22 + conn

/-- The host a record belongs to. -/
def keyHost (k : Nat) : Nat := if k < 2 ^ 22 then k / 65536 else (k - 2 ^ 22) % 32

/-- A record in use: its LAST_EPOCH is after SE, or it holds a fault or poison to report (R282). -/
def recBusy (s : State) (r : ReqRec) : Bool := epAfter r.last (seOf s) || r.fault.isSome || r.poison.isSome

/-- The requesters' records in use. -/
def busyRecs (s : State) : Nat :=
  (s.land.recs.cells.filter fun c => decide (c.1 < 2 ^ 22) && (c.2.map (recBusy s)).getD false).length

/-- LAND_REQ_FREE follows the records (R308). -/
def noteReqFree (s : State) : State := wrF s Reg.LAND_REQ_FREE 12 0 (4096 - busyRecs s)

/-- A record for a requester exists, or one of the 4,096 is free (R282). -/
def recFree (s : State) (k : Nat) : Bool := (s.land.recs.get k).isSome || decide (busyRecs s < 4096)

/-- A requester's record changed, made when it had none. -/
def updRec (s : State) (k : Nat) (f : ReqRec → ReqRec) : State :=
  noteReqFree (updLand s fun l => { l with recs := l.recs.set k (some (f ((l.recs.get k).getD {}))) })

/-- LAST_EPOCH becomes the epoch of the requester's latest tagged or refused write (R282). -/
def recLast (s : State) (k ep : Nat) : State := updRec s k fun r => { r with last := ep }

/-- The earlier of a fault held and a new one (R301). -/
def earlierFault (old : Option (Nat × Nat)) (ep kind : Nat) : Option (Nat × Nat) :=
  match old with
  | some (e, k) => if epAfter e ep then some (ep, kind) else some (e, k)
  | none => some (ep, kind)

/-- A fault recorded for a requester: the earliest epoch stays with its kind (R282, R301); a first fault signals vector 2 of
its host (R185). -/
def recFault (s : State) (k ep kind : Nat) : State :=
  let had := ((s.land.recs.get k).bind fun r => r.fault).isSome
  let s := updRec s k fun r => { r with fault := earlierFault r.fault ep kind }
  if had then s else msix s (keyHost k) 2

/-- The landing of a poisoned write reported: POISON_EPOCH keeps the earliest epoch (R301). -/
def recPoison (s : State) (k ep : Nat) : State :=
  updRec s k fun r => { r with poison := some (match r.poison with
    | some e => if epAfter e ep then ep else e
    | none => ep) }

/-! ### Regions (R268 to R270) -/

/-- The regions of this home's list. -/
def regionList (s : State) : List Nat := (List.range 32).filter fun r => rdB s (Reg.LAND_REGION_CFG r) 31

/-- The size of a region in pages. -/
def regionSize (s : State) (r : Nat) : Nat := 2 ^ rdF s (Reg.LAND_REGION_CFG r) 21 17

/-- The base page of a region. -/
def regionBase (s : State) (r : Nat) : Nat := rdF s (Reg.LAND_REGION_BASE r) 18 0

/-- The origin switch of a region. -/
def regionSw (s : State) (r : Nat) : Nat := rdF s (Reg.LAND_REGION_CFG r) 11 0

/-- The origin host of a region. -/
def regionHost (s : State) (r : Nat) : Nat := rdF s (Reg.LAND_REGION_CFG r) 16 12

/-- The region whose pages hold page P. -/
def regionOf (s : State) (p : Nat) : Option Nat :=
  (regionList s).find? fun r => decide (regionBase s r ≤ p) && decide (p < regionBase s r + regionSize s r)

/-- The landing window of host k in pages (R183, R268). -/
def quota (s : State) (k : Nat) : Nat := (hostPol s k).quota

/-- The base page of host k's window on its home: the LANDING section's own copy (R268, R270). -/
def winBase (s : State) (k : Nat) : Nat := (hostPol s k).basePage

/-! ### The energy ledger (R259 to R264) -/

/-- The condition of R262 now holding, the lowest-numbered when several hold (R267). -/
def ledgerBlock (s : State) : Nat :=
  if s.start.bankBad then 1 else if rdB s Reg.GLB_START_STATUS 10 then 2 else if !(landServes s) then 3
  else if braced s then 4 else 0

/-- allow(h), USED(h) and PEND(h). -/
def allowOf (s : State) (h : Nat) : Nat := rdF s (Reg.QOS_HOST_ALLOW h) 19 0
def usedOf (s : State) (h : Nat) : Nat := rdF s (Reg.QOS_HOST_USED h) 19 0
def pendOf (s : State) (h : Nat) : Nat := rdF s (Reg.QOS_HOST_PEND h) 19 0

/-- A region is in deficit while its allowance lies below USED + PEND (R263). -/
def inDeficit (s : State) (h : Nat) : Bool := decide (allowOf s h < usedOf s h + pendOf s h)

/-- Regions entering or leaving deficit: the entry raises a U fault (R263). -/
def noteDeficit (s : State) : State :=
  let now := (regionList s).filter (inDeficit s)
  let fresh := now.filter fun h => !(s.qos.deficit.contains h)
  let s := fresh.foldl (fun s h => faultU s 8 0x08 2 h) (updQos s fun q => { q with deficit := now })
  wrB s Reg.QOS_LEDGER_STATUS 3 (decide (now ≠ []))

/-- The write or release at the head of the landing input. -/
def headIn (s : State) : Option LandIn := s.land.input.head?

/-- The admission test of the head: a release touches no page, and a region in deficit takes no write (R260 to R263, R298,
R303). -/
def admitOk (s : State) (w : LandIn) : Bool :=
  joined s && decide (ledgerBlock s = 0) && !s.qos.resume &&
    (w.release.isSome ||
      (!(inDeficit s w.region) && decide (usedOf s w.region + pendOf s w.region + w.pages ≤ allowOf s w.region)))

/-- The state an ADMIT of region h carries now (R264). -/
def admitState (s : State) (h : Nat) : AdmitSt :=
  { opened := decide (ledgerBlock s = 0) && !(inDeficit s h) && decide (0 < allowOf s h)
    held := (match headIn s with
      | some w => decide (w.region = h) && !(admitOk s w)
      | none => false)
    deficit := inDeficit s h
    block := ledgerBlock s
    allow := allowOf s h }

/-- LAND_WIN_STATUS of host k from the ADMIT applied last (R310). -/
def winStatus (s : State) (k : Nat) : State :=
  let a := s.qos.applied.get k
  let gone := s.land.removed.contains (hostPol s k).homeSw
  let opened := (a.map AdmitSt.opened).getD false && !gone && decide (quota s k ≠ 0)
  let s := wrB s (Reg.LAND_WIN_STATUS k) 0 opened
  let s := wrB s (Reg.LAND_WIN_STATUS k) 1 ((a.map AdmitSt.held).getD false)
  let s := wrB s (Reg.LAND_WIN_STATUS k) 2 (gone && decide (quota s k ≠ 0))
  wrF s (Reg.LAND_WIN_STATUS k) 27 16 (hostPol s k).homeSw

/-- LAND_WIN_STATUS of host k brought up; a window that opens or closes by it signals vector 2 (R185). -/
def winNote (s : State) (k : Nat) : State :=
  let was := rdB s (Reg.LAND_WIN_STATUS k) 0
  let s := winStatus s k
  if rdB s (Reg.LAND_WIN_STATUS k) 0 = was then s else msix s k 2

/-- An ADMIT differs from the one applied before in OPEN, HELD, DEFICIT or BLOCK, or in whether the allowance covers the
whole quota (R264). -/
def admitDiffers (q : Nat) (a : AdmitSt) (b : Option AdmitSt) : Bool :=
  match b with
  | none => true
  | some b => a.opened != b.opened || a.held != b.held || a.deficit != b.deficit || a.block != b.block
      || (decide (q ≤ a.allow) != decide (q ≤ b.allow))

/-- The origin applies an ADMIT for host k; a change signals vector 2 (R264). -/
def applyAdmit (s : State) (k : Nat) (a : AdmitSt) : State :=
  let differs := admitDiffers (quota s k) a (s.qos.applied.get k)
  let s := winStatus (updQos s fun q => { q with applied := q.applied.set k (some a) }) k
  if differs then msix s k 2 else s

/-- Word 0 of an ADMIT (R293). -/
def admitWord (r k : Nat) (a : AdmitSt) : Nat :=
  r + k * 32 + a.opened.toNat * 2 ^ 16 + a.held.toNat * 2 ^ 17 + a.deficit.toNat * 2 ^ 18 + a.block * 2 ^ 19

/-- An ADMIT sent for a region, with the state at this moment; an own host's region needs no message (R264). -/
def sendAdmit (s : State) (r : Nat) : State :=
  let a := admitState s r
  let s := updQos s fun q => { q with sent := q.sent.set r (some a), sentAt := q.sentAt.set r (some s.now) }
  if regionSw s r = swId s then applyAdmit s (regionHost s r) a
  else sendMsg s (regionSw s r) 8 0 [admitWord r (regionHost s r) a, a.allow]

/-- A change in a region's admission since the last ADMIT (R264). -/
def admitChanged (s : State) (r : Nat) : Bool :=
  admitDiffers (regionSize s r) (admitState s r) (s.qos.sent.get r) ||
    (decide (allowOf s r = 0) != decide ((((s.qos.sent.get r).map AdmitSt.allow).getD 0) = 0))

/-- At most one ADMIT per region per 100 µs (R264). -/
def admitFree (s : State) (r : Nat) : Bool :=
  match s.qos.sentAt.get r with
  | some t => decide (t + 160000 ≤ s.now)
  | none => true

/-- Each region whose admission changed sends its ADMIT unless one went within 100 µs (R264). -/
def noteAdmit (s : State) : State :=
  (regionList s).foldl (fun s r => if admitChanged s r && admitFree s r then sendAdmit s r else s) s

/-- VALID, ADMITTING, HELD and BLOCK of QOS_LEDGER_STATUS, and the wait of the head write, follow (R261, R267). -/
def noteLedger (s : State) : State :=
  let waits := match headIn s with
    | some w => !(admitOk s w)
    | none => false
  let s := wrB s Reg.QOS_LEDGER_STATUS 1 (decide (ledgerBlock s = 0) && decide (0 < rdF s Reg.QOS_ALLOW 19 0))
  let s := wrB s Reg.QOS_LEDGER_STATUS 2 waits
  let s := wrF s Reg.QOS_LEDGER_STATUS 7 5 (ledgerBlock s)
  match s.qos.heldSince, waits with
  | none, true => updQos s fun q => { q with heldSince := some s.now }
  | some t, false =>
    let c := s.qos.heldRem + (s.now - t)
    let s := updQos s fun q => { q with heldSince := none, heldRem := c % 1024 }
    countBy (bumpBy s Reg.QOS_LEDGER_WAIT (c / 1024)) 113 12 (c / 1024)
  | _, _ => s

/-! ### Words and pages (R272 to R276, R303) -/

/-- The page bitmap's bit of page P. -/
def pageSet (s : State) (p : Nat) : Bool := s.land.page.get p

/-- A page's bit and USED of its region changed; LAND_PAGES counts the bits set (R260, R308). -/
def setPage (s : State) (p : Nat) (b : Bool) : State :=
  if pageSet s p = b then s else
  let s := updLand s fun l => { l with page := l.page.set p b }
  let n := rdF s Reg.LAND_PAGES 19 0
  let s := wrF s Reg.LAND_PAGES 19 0 (if b then n + 1 else n - 1)
  match regionOf s p with
  | some r => wrF s (Reg.QOS_HOST_USED r) 19 0 (if b then usedOf s r + 1 else usedOf s r - 1)
  | none => s

/-- Every word of a page gets VALID = 0 (R276). -/
def clearWords (s : State) (p : Nat) : State :=
  updLand s fun l => { l with word := l.word.keep fun w _ => decide (w / 128 ≠ p) }

/-- The meta bits [15:0] of a word: ETAG, POISON, VALID (R273). -/
def metaOf (w : LandWord) : Nat := w.etag.toNat + w.poison.toNat * 2 ^ 14 + w.valid.toNat * 2 ^ 15

/-- Where landing DRAM keeps word W (R272). -/
def dramPlace (w : Nat) : DramPlace :=
  { channel := w % 4, device := w / 4 % 2, bank := w / 8 % 16, column := w / 128 % 32, row := w / 4096 % 2 ^ 14 }

/-- The 16 beats of a word: beat k has data bits [16k+15:16k] on lanes [15:0] and meta bits [2k+1:2k] on lanes [17:16], the check bits being
meta bits [31:16] (R273, R274). -/
def dramBeats (w : Nat) (x : LandWord) : List (BitVec 18) :=
  let m := metaOf x + landCheck w x.data (metaOf x) * 2 ^ 16
  (List.range 16).map fun k => BitVec.ofNat 18 (x.data.toNat / 2 ^ (16 * k) % 2 ^ 16 + m / 2 ^ (2 * k) % 4 * 2 ^ 16)

/-- A word written at index W (R273): an unwritten or release-pending page first loses its other words, and its release mark
(R276, R303). -/
def writeWord (s : State) (w : Nat) (d : BitVec 256) (ep : Nat) (poison : Bool) : State :=
  let p := w / 128
  let pend := (s.land.relPend.get p).isSome
  let word : LandWord := { data := d, etag := BitVec.ofNat 14 ep, poison := poison, valid := true }
  let s := emit s (.dram (dramPlace w) (dramBeats w word))
  let s := if pageSet s p && !pend then s else emit (clearWords s p) (.dramClear p w)
  let s := if pageSet s p then s else count s 113 1
  let s := updLand s fun l => { l with
    word := l.word.set w word
    relPend := l.relPend.set p none }
  count (setPage s p true) 113 0

/-- Consecutive words written from index W. -/
def writeWords (s : State) (w : Nat) (ep : Nat) (poison : Bool) : List (BitVec 256) → State
  | [] => s
  | d :: ds => writeWords (writeWord s w d ep poison) (w + 1) ep poison ds

/-- A release marks the written pages of its range release-pending at its epoch (R303). -/
def markRelease (s : State) (p n ep : Nat) : State :=
  (List.range n).foldl (fun s i => if pageSet s (p + i) then
    updLand s fun l => { l with relPend := l.relPend.set (p + i) (some ep) } else s) s

/-- The release-pending pages of sealed epochs leave the bitmap (R303). -/
def clearReleased (s : State) (se : Nat) : State :=
  let due := s.land.relPend.cells.filter fun c => (c.2.map fun e => epLe e se).getD false
  due.foldl (fun s c => clearWords (setPage (updLand s fun l => { l with relPend := l.relPend.set c.1 none }) c.1 false) c.1) s

/-- The stored bit that a correctable syndrome names, as a mask over data, meta and check bits (R275). -/
def landFix (syn : Nat) : Nat :=
  let i := landDataCols.idxOf syn
  if i < 272 then 2 ^ i else syn * 2 ^ 272

/-- What remains of a stored difference after the read's correction (R275). -/
def landLeft (x : LandWord) (syn : Nat) : Nat :=
  if landVerdict syn = .corrected then x.err.toNat ^^^ landFix syn else x.err.toNat

/-- One read of a landing word whose address differs by `addrFlip` (R275): counted, recorded; what it delivers (data, poisoned)
and its syndrome. A word with VALID = 0 delivers zero. -/
def readWord (s : State) (w : Nat) (addrFlip : Nat) : (BitVec 256 × Bool × Nat) × State :=
  let x := s.land.word.get w
  let syn := landSyndrome x.err.toNat addrFlip
  let left := landLeft x syn
  let data : BitVec 256 := x.data ^^^ BitVec.ofNat 256 left
  let m := metaOf x ^^^ (left / 2 ^ 256 % 2 ^ 16)
  let good : BitVec 256 := if bitN m 15 then data else 0
  match landVerdict syn with
  | .good => ((good, bitN m 14, syn), s)
  | .corrected => ((good, bitN m 14, syn), faultU (count (bump s Reg.LAND_ECC_CORR) 113 9) 8 0x01 1 w)
  | .uncorrectable =>
    let s := count (bump s Reg.LAND_ECC_UNCORR) 113 10
    let s := if syn / 2 ^ 14 ≠ 0 then bump s Reg.LAND_ADDR_ERR else s
    let s := if rdB s Reg.LAND_ERR_ADDR 31 then s else wrN s Reg.LAND_ERR_ADDR (w % 2 ^ 26 + 2 ^ 31)
    ((data, true, syn), faultU s 8 0x02 2 w)

/-- Consecutive words read from index W; a page whose bit is 0 reads zero without a DRAM read (R276). -/
def readWords (s : State) (w : Nat) : Nat → (List (BitVec 256) × Bool) × State
  | 0 => (([], false), s)
  | n + 1 =>
    if pageSet s (w / 128) then
      let r := readWord s w 0
      let q := readWords r.2 (w + 1) n
      ((r.1.1 :: q.1.1, r.1.2.1 || q.1.2), q.2)
    else
      let q := readWords s (w + 1) n
      ((0 :: q.1.1, q.1.2), q.2)

end Sys2Proof.Machine
end

