-- ==== Sys2Proof/Machine/RmeOps.lean ====
section
/-! DEFINITION. The steps of the remote memory engines that several commands share: contexts and their cache (R385 to R388),
packets and acknowledgement frames (R381 to R384), messages, their completion and their connection (R376 to R379, R389,
R395, R407), and the region table (R402, R403, R405, R406). -/

namespace Sys2Proof.Machine

open Sys2Proof

/-- The engines' state changed. -/
def updRme (s : State) (f : RmeSt → RmeSt) : State := { s with rme := f s.rme }

/-- The value that marks connectionless work (R373). -/
def noConn : Nat := 0xFFFFF

/-- The engine of a connection, and its index and host (R370, R373). -/
def connEng (n : Nat) : Nat := n / 32 % 8
def connIdx (n : Nat) : Nat := n / 32
def connHost (n : Nat) : Nat := n % 32

/-- The engine of a message at this end: of a connection by its number, connectionless by the message ID, at the receiver by its low bits
(R370). -/
def msgEng (m : RMsg) : Nat :=
  if m.conn = noConn then (if m.kind = 2 then m.clId % 8 else m.clId / 2 ^ 29) else connEng m.conn

/-- An event of an engine counted in its register and in its counter group (R413, R520). -/
def engCount (s : State) (e reg j n : Nat) : State := countBy (bumpBy s reg n) (115 + e) j n

/-- PSNs are compared modulo 2^24: the distance of p past q (R390). -/
def psnDist (p q : Nat) : Nat := (p + 2 ^ 24 - q % 2 ^ 24) % 2 ^ 24

/-! ### Contexts (R385 to R388) -/

/-- A connection's context. -/
def ctxOf (s : State) (n : Nat) : Ctx := s.rme.ctx.get n

/-- A connection has a message that is not finished. -/
def hasMsg (s : State) (n : Nat) : Bool := s.rme.msgs.any fun m => m.conn == n && !m.done

/-- A context is pinned while it has an unacknowledged packet, an unfinished message or an unsent ACK (R386). -/
def pinned (s : State) (n : Nat) : Bool :=
  let c := ctxOf s n
  decide (c.txUna ≠ c.txNext) || decide (0 < c.accepted) || decide (0 < c.protFly) || decide (c.sendQ ≠ []) || c.filling
    || hasMsg s n

/-- The contexts in the cache, and those pinned. -/
def cachedConns (s : State) : List Nat := (s.rme.ctx.cells.filter fun c => c.2.cached).map Prod.fst
def pinnedConns (s : State) : List Nat := (cachedConns s).filter (pinned s)

/-- The cache, connection and message counts of R413 and R414 follow. -/
def noteRme (s : State) : State :=
  let s := wrF s Reg.RME_CACHE_USED 14 0 (cachedConns s).length
  let s := wrF s Reg.RME_CACHE_PINNED 14 0 (pinnedConns s).length
  let s := wrB s Reg.RME_STATUS 11 (decide (12288 ≤ (pinnedConns s).length))
  let s := wrF s Reg.RME_CONNS 20 0 (s.rme.ctx.cells.filter fun c => decide (c.2.st ≠ 0)).length
  (List.range 8).foldl (fun s e => wrF s (Reg.RME_E_TRACKER e) 12 0
    (s.rme.msgs.filter fun m => !m.done && decide (msgEng m = e)).length) s

/-- A context changed and marked changed. -/
def updCtx (s : State) (n : Nat) (f : Ctx → Ctx) : State :=
  updRme s fun r => { r with ctx := r.ctx.upd n fun c => { f c with dirty := true } }

/-- The words of a number, least significant first. -/
def natWords : Nat → Nat → List Word
  | 0, _ => []
  | k + 1, v => w32 (v % 2 ^ 32) :: natWords k (v / 2 ^ 32)

/-- The number that words spell, least significant first. -/
def wordsNat : List Word → Nat
  | [] => 0
  | w :: ws => w.toNat + 2 ^ 32 * wordsNat ws

/-- The 192 bytes of a context as 48 words (R385). -/
def ctxWords (c : Ctx) : List Word :=
  [ w32 (c.st + c.prot.toNat * 2 ^ 3 + c.host * 2 ^ 4 + c.err * 2 ^ 9), w32 (c.peerSw + c.peerConn * 2 ^ 12),
    w32 c.txNext, w32 c.txUna, w32 c.rxCum, w32 c.txMsn, w32 c.rate, w32 (c.rto + c.srtt * 2 ^ 16),
    w32 (c.rttvar + c.expiries * 2 ^ 16), w32 c.lastCut, w32 c.protFly, 0, 0, 0, 0, 0 ]
  ++ natWords 16 c.txSack ++ natWords 16 c.rxMap

/-- A context with the fields that 48 words spell (R385). -/
def ctxOfWords (c : Ctx) (ws : List Word) : Ctx :=
  let w (i : Nat) : Word := ws.getD i 0
  { c with
    st := getF (w 0) 2 0, prot := getB (w 0) 3, host := getF (w 0) 8 4, err := getF (w 0) 16 9,
    peerSw := getF (w 1) 11 0, peerConn := getF (w 1) 31 12, txNext := getF (w 2) 23 0, txUna := getF (w 3) 23 0,
    rxCum := getF (w 4) 23 0, txMsn := getF (w 5) 23 0, rate := getF (w 6) 20 0, rto := getF (w 7) 15 0,
    srtt := getF (w 7) 31 16, rttvar := getF (w 8) 15 0, expiries := getF (w 8) 23 16, lastCut := (w 9).toNat,
    protFly := getF (w 10) 15 0, txSack := wordsNat ((ws.drop 16).take 16), rxMap := wordsNat ((ws.drop 32).take 16) }

/-- The 60 words of a slot before its TAG (R387). -/
def slotHead (n : Nat) (c : Ctx) : List Word :=
  ctxWords c ++ [w32 n, w32 c.spills] ++ List.replicate 10 0

/-- The 64 words of a slot (R387). -/
def slotWords (s : State) (n : Nat) (c : Ctx) : List Word :=
  slotHead n c ++ natWords 4 (Config.slotTag s.rme.secret (slotHead n c)).toNat

/-- The areas of host k: position and area (R387). -/
def areasOf (s : State) (k : Nat) : List (Nat × Area) :=
  (List.range 16).filterMap fun p => (s.rme.areas.get (16 * k + p)).map fun a => (p, a)

/-- One past the last slot index an area at position p covers (R387). -/
def areaEnd (p : Nat) (a : Area) : Nat := min (2048 * p + 2 ^ a.log2 / 256) 32768

/-- The slot indices of host k that are covered, as position and area of index i. -/
def areaFor (s : State) (k i : Nat) : Option (Nat × Area) :=
  (areasOf s k).find? fun x => decide (2048 * x.1 ≤ i) && decide (i < areaEnd x.1 x.2)

/-- The host address of a connection's slot (R387). -/
def slotAddr (s : State) (n : Nat) : Nat :=
  match areaFor s (connHost n) (connIdx n) with
  | some (p, a) => a.base + 256 * (connIdx n - 2048 * p)
  | none => 0

/-- The PASID of a connection's slot: its area's (R387). -/
def slotPasid (s : State) (n : Nat) : Option (BitVec 20) := (areaFor s (connHost n) (connIdx n)).bind fun x => x.2.pasid

/-- The cache set of a connection number (R386). -/
def cacheSet (n : Nat) : Nat := n % 4096 ^^^ n / 4096 % 256

/-- A spill has left, or was discarded by its hedge unit. -/
def spillEnd (s : State) (n : Nat) : State := updRme s fun r => { r with ctx := r.ctx.upd n fun c => { c with spilling := false } }

/-- A context leaves the cache: spilled when it changed (R386, R388). -/
def evict (s : State) (n : Nat) : State :=
  let c := ctxOf s n
  if c.dirty then
    let s := updRme s fun r => { r with ctx := r.ctx.set n { c with cached := false, dirty := false, spilling := true, spills := c.spills + 1 } }
    let s := engCount s (connEng n) Reg.RME_SPILLS 9 1
    let r := engWrite s (connEng n) n (connHost n) (.spill n) (slotAddr s n) (slotWords s n (ctxOf s n)) false (slotPasid s n)
    if r.1 then r.2 else spillEnd r.2 n
  else updRme s fun r => { r with ctx := r.ctx.set n { c with cached := false } }

/-- The least recently used unpinned context of a set, whose host's Bus Master Enable lets it be spilled (R386, R408). -/
def victim (s : State) (n : Nat) : Option Nat :=
  ((cachedConns s).filter fun m => decide (cacheSet m = cacheSet n) && !(pinned s m) && mefBme s (connHost m)).foldl
    (fun b m => match b with
      | none => some m
      | some x => if (ctxOf s m).used < (ctxOf s x).used then some m else b) none

/-- A place in the cache for a context: a free way of its set, or an evicted one (R386). -/
def makeRoom (s : State) (n : Nat) : State × Bool :=
  if ((cachedConns s).filter fun m => decide (cacheSet m = cacheSet n)).length < 4 then (s, true)
  else match victim s n with
    | some m => (evict s m, true)
    | none => (s, false)

/-- A context not in the cache is fetched from its slot, once a spill of it has left (R386, R388). -/
def fillCtx (s : State) (n : Nat) : State :=
  let c := ctxOf s n
  if c.cached || c.filling then updRme s fun r => { r with ctx := r.ctx.set n { c with used := s.now } }
  else if c.spilling then s
  else
    let r := makeRoom s n
    if r.2 && mefBme s (connHost n) then
      let s := updRme r.1 fun r => { r with ctx := r.ctx.upd n fun c => { c with filling := true } }
      let s := engCount s (connEng n) Reg.RME_FILLS 8 1
      engRead s (connEng n) n (connHost n) (.fill n) (slotAddr s n) 256 (slotPasid s n)
    else r.1

/-! ### Packets (R381 to R384) -/

/-- The lowest class of a VC (R381). -/
def lowClass (s : State) (vc : Nat) : Nat := ((List.range 8).find? fun t => decide (vcOfClass s t = vc)).getD 0

/-- The words of the RME header (R382). -/
def rmeHeader (dstConn srcConn psn : Nat) (last : Bool) (msn key off idx lastIdx : Nat) : List Word :=
  [w32 dstConn, w32 srcConn, w32 (psn + last.toNat * 2 ^ 24), w32 msn, w32 key, lo32 off, hi32 off, w32 (idx + lastIdx * 2 ^ 12)]

/-- A frame of the engines (R381). `typ` is 3 or 4; the payload gives LENGTH. -/
def rmeFrame (s : State) (typ vc tc dst tspec0 tspec1 : Nat) (prot poison : Bool) (ep : Nat) (ws : List Word) : Frame :=
  { typ := BitVec.ofNat 4 typ, vc := BitVec.ofNat 2 vc, tc := BitVec.ofNat 3 tc, poison := poison, prot := prot,
    length := BitVec.ofNat 11 ws.length, dstSw := BitVec.ofNat 12 dst, dstPort := 0x7F, srcSw := BitVec.ofNat 12 (swId s),
    srcPort := 0x7F, epoch := BitVec.ofNat 16 ep, tspec0 := BitVec.ofNat 16 tspec0, tspec1 := BitVec.ofNat 64 tspec1,
    payload := ws }

/-- A frame of an internal master put on its path (R214); one for this switch goes to its own internal units. -/
def routeOut (s : State) (f : Frame) : State :=
  if f.dstSw.toNat = swId s then emit s (.frame 0x7F f false)
  else match pickPath s f with
    | some p => sendOn s p f
    | none => count (bump s Reg.FWD_UNREACH_DROP) 112 7

/-- A TYPE 0x4 frame other than READ_RESP to a switch (R384). -/
def ackFrame (s : State) (dst sub : Nat) (ws : List Word) : State :=
  routeOut s (rmeFrame s 4 3 (classOf s 3) dst sub 0 false false 0 ws)

/-- An ACK of a connection's receiver, with STATUS and ERR_PSN (R384, R392). It clears MARKED and COVERED. -/
def sendAck (s : State) (n status err : Nat) : State :=
  let c := ctxOf s n
  let s := ackFrame s c.peerSw 0 ([w32 c.peerConn, w32 (c.rxCum + status * 2 ^ 24), w32 (err + c.marked * 2 ^ 24), w32 c.covered]
    ++ natWords 16 (c.rxMap / 2))
  updCtx s n fun c => { c with accepted := 0, marked := 0, covered := 0 }

/-- An ACK that names a connection not open with the sender: STATUS CONN_INVALID (R389). -/
def sendInvalid (s : State) (dst conn psn : Nat) : State :=
  ackFrame s dst 0 ([w32 conn, w32 (0x07 * 2 ^ 24), w32 psn, 0] ++ natWords 16 0)

/-- A CL_ACK (R384, R400). -/
def sendClAck (s : State) (e : ClEnt) (status : Nat) : State :=
  ackFrame s e.srcSw 4 [w32 e.msgId, w32 (e.got + status * 2 ^ 16), w32 e.result]

/-! ### The region table (R402 to R406) -/

/-- The low four bits of this switch's START (R403). -/
def startNib (s : State) : Nat := rdN s Reg.FWD_START_NO % 16

/-- The key of an entry (R403). -/
def keyOf (s : State) (idx : Nat) : Nat := idx + (s.rme.regions.get idx).tag * 2 ^ 18 + startNib s * 2 ^ 28

/-- The entry a key matches (R403). -/
def keyEntry (s : State) (key : Nat) : Option Nat :=
  let idx := key % 2 ^ 18
  let g := s.rme.regions.get idx
  if g.st ≠ 0 && decide (key / 2 ^ 18 % 2 ^ 10 = g.tag) && decide (key / 2 ^ 28 % 16 = startNib s) then some idx else none

/-- A region entry changed. -/
def updRegion (s : State) (idx : Nat) (f : Region → Region) : State :=
  updRme s fun r => { r with regions := r.regions.upd idx f }

/-- The region counts of R413 follow. -/
def noteRegions (s : State) (k : Nat) : State :=
  let live := s.rme.regions.cells.filter fun c => decide (c.2.st ≠ 0)
  let s := wrF s Reg.RME_REGIONS 18 0 live.length
  let s := wrF s Reg.RME_RETIRED 18 0 (s.rme.regions.cells.filter fun c => c.2.retired).length
  let own := (live.filter fun c => decide (c.2.owner = k) && decide (c.2.origin = swId s)).length
  wrF s (Reg.RME_H_REGIONS k) 16 0 (own + (s.rme.landKeys.filter fun x => decide (x.host = k)).length)

/-- The checks of R405 but the hedge unit's, in their order: the status of the first failure, 0 when all pass; `need` is the
permission bit (0 R, 1 W, 2 P). -/
def regionCheck (s : State) (srcSw key : Nat) (need off len : Nat) : Nat :=
  match keyEntry s key with
  | none => 0x03
  | some idx =>
    let g := s.rme.regions.get idx
    if g.st = 2 then 0x05
    else if g.st ≠ 1 then 0x03
    else if !(bitN g.perm need) || (decide (need = 2) && !g.landing) then 0x04
    else if (decide (g.peers = 1) && decide (srcSw / 64 ≠ swId s / 64)) || (decide (g.peers = 2) && decide (srcSw ≠ g.peerSw))
      || (decide (need = 2) && decide (srcSw / 64 ≠ swId s / 64)) then 0x04
    else if g.len < off + len then 0x04
    else 0

/-- The hedge slot an engine's access to an entry is checked against: the owner's upstream port, or the landing buffer. -/
def regionSlot (s : State) (g : Region) : Nat := if g.landing then 112 else upPort s g.owner

/-- OUTSTANDING of an entry falls as a packet finishes (R405). -/
def regionDone (s : State) (idx : Nat) : State := updRegion s idx fun g => { g with outst := g.outst - 1 }

/-- The check of a local key by host, permission L and range (R407). -/
def localOk (s : State) (k key off len : Nat) : Bool :=
  match keyEntry s key with
  | none => false
  | some idx =>
    let g := s.rme.regions.get idx
    decide (g.st = 1) && decide (g.owner = k) && !g.landing && bitN g.perm 3 && decide (off + len ≤ g.len)

/-- The host address an offset of a local or target region stands for. -/
def regionAddr (s : State) (key off : Nat) : Nat := (s.rme.regions.get (key % 2 ^ 18)).base + off

/-! ### Messages (R376 to R379, R383) -/

/-- A message changed. -/
def updMsg (s : State) (id : Nat) (f : RMsg → RMsg) : State :=
  updRme s fun r => { r with msgs := r.msgs.map fun m => if m.id = id then f m else m }

/-- A message by its number. -/
def msgOf (s : State) (id : Nat) : Option RMsg := s.rme.msgs.find? fun m => m.id == id

/-- A message that a completion entry reports: every failed one, and a successful one with SIGNAL (R376). -/
def needsCqe (m : RMsg) : Bool :=
  let st := m.status.getD 0
  bitN m.w.flags.toNat 2 || (decide (st ≠ 0) && decide (st ≠ 1))

/-- An SQ changed. -/
def updSq (s : State) (key : Nat) (f : Sq → Sq) : State := updRme s fun r => { r with sq := r.sq.upd key f }

/-- The queue counts of a host follow (R413). -/
def noteQueues (s : State) (k : Nat) : State :=
  let mine (c : Nat) : Bool := decide (c / 1024 = k)
  let s := wrF s (Reg.RME_H_QUEUES k) 10 0 (s.rme.sq.cells.filter fun c => mine c.1 && decide (c.2.st ≠ 0)).length
  wrF s (Reg.RME_H_QUEUES k) 26 16 (s.rme.cq.cells.filter fun c => mine c.1 && c.2.valid).length

/-- A finished message at the head of its SQ that no entry reports leaves it; a NOP there is done (R376, R378). -/
def sqPump (s : State) (key : Nat) : Nat → State
  | 0 => s
  | fuel + 1 =>
    match (s.rme.sq.get key).order with
    | [] => s
    | id :: rest =>
      match msgOf s id with
      | none => sqPump (updSq s key fun q => { q with order := rest }) key fuel
      | some m =>
        if m.w.op = 3 && !m.done then sqPump (updMsg s id fun m => { m with done := true, status := some (m.status.getD 0) }) key fuel
        else if m.done && !(needsCqe m) then
          let s := updSq s key fun q => { q with order := rest }
          sqPump (updRme s fun r => { r with msgs := r.msgs.filter fun x => decide (x.id ≠ id) }) key fuel
        else s

/-! ### Work fetch (R375) -/

/-- A CQ has room for one more entry (R378). -/
def cqRoom (c : Cq) : Bool := decide ((c.written + 1) % 2 ^ c.log2 ≠ c.head % 2 ^ c.log2)

/-- The entries an SQ may fetch now: what host software wrote, at most 8 and to the ring's end, within its 256 unfinished messages and within
4,096 of every engine, the entries under way counted (R375). -/
def fetchCount (s : State) (q : Sq) : Nat :=
  let track := (List.range 8).foldl (fun n e => max n (rdF s (Reg.RME_E_TRACKER e) 12 0)) 0 + (s.rme.sq.cells.map fun c => c.2.fetching).sum
  min (min 8 ((q.tail + 2 ^ q.log2 - q.head) % 2 ^ q.log2)) (min (2 ^ q.log2 - q.head) (min (256 - q.order.length) (4096 - track)))

/-- New entries of an SQ are fetched, up to 8, while its CQ has room and Bus Master Enable is 1 (R375, R408), by the engine of the SQ's number
modulo 8 (DESIGN CHOICE, log entry 118). -/
def sqFetch (s : State) (key : Nat) : State :=
  let q := s.rme.sq.get key
  let k := key / 1024
  let n := fetchCount s q
  if q.st = 0 || q.st = 3 || decide (0 < q.fetching) || n = 0 then s
  else if !(cqRoom (s.rme.cq.get (1024 * k + q.cq))) then updSq s key fun q => { q with st := 2 }
  else if !(mefBme s k) then wrB s (Reg.RME_H_STATUS k) 1 true
  else
    let s := updSq s key fun q => { q with st := 1, fetching := n }
    engRead s (key % 8) noConn k (.wqe (key % 1024)) (q.base + 64 * q.head) (64 * n) (some (BitVec.ofNat 20 q.pasid))

/-- Every SQ with entries not yet read fetches on. -/
def fetchOn (s : State) : State :=
  ((s.rme.sq.cells.filter fun c => decide (c.2.head ≠ c.2.tail)).map Prod.fst).foldl sqFetch s

/-- An SQ to be destroyed is freed once its messages have completed, those of a fetch under way among them (R389). -/
def sqDestroy (s : State) (key : Nat) : State :=
  match (s.rme.sq.get key).closing with
  | some q =>
    if (s.rme.sq.get key).order = [] && (s.rme.sq.get key).fetching = 0 then
      let s := updRme s fun r => { r with sq := r.sq.set key {} }
      reply (noteQueues s (key / 1024)) q 0x0505 0 []
    else s
  | none => s

/-- The cells an engine reserves for responses (R396). -/
def respCells (s : State) (e : Nat) : Nat := rdF s (Reg.RME_E_RESP_CELLS e) 17 0

/-- An engine's reserve for responses changed: what exceeds its 272 cells comes from the shared pool (R396). -/
def setResp (s : State) (e n : Nat) : State :=
  let free := rdF s Reg.BUF_SHARED_FREE 17 0 + (respCells s e - 272) - (n - 272)
  wrF (wrF s Reg.BUF_SHARED_FREE 17 0 free) (Reg.RME_E_RESP_CELLS e) 17 0 n

/-- A message ends with a status (R376, R379); its SQ moves on, and SQs that waited for room among the messages fetch on (R375). -/
def finishMsg (s : State) (id status : Nat) : State :=
  match msgOf s id with
  | none => s
  | some m =>
    if m.done then s
    else
      let status := if m.poison && decide (status ≤ 1) then 0x0A else status
      let s := updMsg s id fun m => { m with done := true, status := some status, items := [] }
      let s := setResp s (msgEng m) (respCells s (msgEng m) - m.cells)
      let s := updMsg s id fun m => { m with cells := 0 }
      let s := if m.kind = 1 then
          let key := 1024 * m.host + m.sq
          sqDestroy (sqPump s key ((s.rme.sq.get key).order.length + 1)) key
        else updRme s fun r => { r with msgs := r.msgs.filter fun x => decide (x.id ≠ id) }
      fetchOn (noteRme s)

/-- The unfinished messages of a connection. -/
def connMsgs (s : State) (n : Nat) : List RMsg := s.rme.msgs.filter fun m => m.conn == n && !m.done

/-- Every unfinished message of a connection ends with a status. -/
def flushMsgs (s : State) (n status : Nat) : State := (connMsgs s n).foldl (fun s m => finishMsg s m.id status) s

/-- A connection moves to ERROR: the message named ends with the status, every other one FLUSHED (R389). One that is closing stays
so: CONN_CLOSE leaves ERROR. -/
def connError (s : State) (n status : Nat) (msg : Option Nat) : State :=
  let s := match msg with
    | some id => finishMsg s id status
    | none => s
  let s := updCtx s n fun c => { c with st := if c.st = 4 then 4 else 3, err := status, sendQ := [], protFly := 0 }
  noteRme (flushMsgs s n 0x0E)

/-- The queue number of a message whose SQ a reset has freed (R409). -/
def closedSq : Nat := 2 ^ 20

/-- A connection becomes FREE. -/
def freeConn (s : State) (n : Nat) : State :=
  let s := updRme s fun r => { r with ctx := r.ctx.set n {}, msgs := r.msgs.filter fun m => !(m.conn == n && m.sq == closedSq) }
  let k := connHost n
  let s := wrF s (Reg.RME_H_CONNS k) 15 0
    (s.rme.ctx.cells.filter fun c => decide (c.1 % 32 = k) && decide (c.2.st ≠ 0)).length
  noteRme s

/-- The host's areas are released once every connection of a reset host is FREE (R409). -/
def flrAreas (s : State) (k : Nat) : State :=
  if s.rme.flr.contains k && !(s.rme.ctx.cells.any fun c => decide (c.1 % 32 = k) && decide (c.2.st ≠ 0)) then
    let s := updRme s fun r => { r with areas := r.areas.keep fun p _ => decide (p / 16 ≠ k), flr := r.flr.filter fun h => decide (h ≠ k) }
    wrN (wrN (wrN s (Reg.RME_H_AREAS k) 0) (Reg.RME_H_SLOTS k) 0) (Reg.RME_H_STATUS k) 0
  else s

/-- A connection becomes FREE, and its CONN_CLOSE is answered (R389). -/
def closeConn (s : State) (n : Nat) : State :=
  let s := freeConn s n
  let due := s.rme.closing.filter fun x => decide (x.1 = n)
  let s := updRme s fun r => { r with closing := r.closing.filter fun x => decide (x.1 ≠ n) }
  flrAreas (due.foldl (fun s x => reply s x.2 0x0508 0 []) s) (connHost n)

/-- A CLOSING connection with nothing outstanding becomes FREE (R389). -/
def closePump (s : State) (n : Nat) : State :=
  let c := ctxOf s n
  if c.st = 4 && decide (c.txUna = c.txNext) && decide (c.protFly = 0) && !(hasMsg s n) then closeConn s n
  else s

/-- The responses of a READ not yet read are dropped once its region drains: the request draws REVOKED (R412). `expect` holds
the PSN of the READ_REQ. -/
def dropResponses (s : State) (n : Nat) (m : RMsg) : State :=
  let s := updCtx s n fun c => { c with sendQ := c.sendQ.filter fun it => decide (it.msg ≠ m.id) }
  let s := updRme s fun r => { r with msgs := r.msgs.filter fun x => decide (x.id ≠ m.id) }
  sendAck (regionDone s (m.region % 2 ^ 18)) n 0x05 (m.expect.getD 0)

/-- Source data is asked for the next packet a connection has to send: the local key is checked as it is read (R407, R408). -/
def askData (s : State) (n : Nat) : State :=
  match (ctxOf s n).sendQ with
  | [] => s
  | it :: rest =>
    if it.asked || it.ready then s
    else if it.kind = 2 then updCtx s n fun c => { c with sendQ := { it with asked := true, ready := true } :: rest }
    else
      let m := (msgOf s it.msg).getD { id := 0 }
      let key := if it.kind = 3 then m.region else m.w.localKey.toNat
      let off := if it.kind = 3 then m.w.remoteOff.toNat + it.off else m.w.localOff.toNat + 4064 * it.idx
      if it.kind = 3 && decide ((s.rme.regions.get (key % 2 ^ 18)).st ≠ 1) then dropResponses s n m
      else if it.kind ≠ 3 && !(localOk s m.host key off it.bytes) then connError s n 0x02 (some it.msg)
      else if !(mefBme s m.host) then s
      else
        let s := updCtx s n fun c => { c with sendQ := { it with asked := true } :: rest }
        engRead s (connEng n) n m.host (.src n) (regionAddr s key off) it.bytes (s.rme.regions.get (key % 2 ^ 18)).pasid

/-- The packets of a message of `len` bytes (R383). -/
def packetCount (len : Nat) : Nat := (len + 4063) / 4064

/-- Packet j of a WRITE of `len` bytes (R383). -/
def writeItem (id len j : Nat) (off : Nat) : TxItem :=
  { msg := id, kind := 1, idx := j, off := off + 4064 * j, bytes := min 4064 (len - 4064 * j), last := decide (j + 1 = packetCount len) }

/-- The READ_REQ packets of a READ: at most 512 response packets each (R396). -/
def readItem (id len j : Nat) (off : Nat) : TxItem :=
  { msg := id, kind := 2, idx := 512 * j, off := off, readLen := len,
    lastIdx := min (512 * j + 511) (packetCount len - 1), last := decide (512 * (j + 1) ≥ packetCount len) }

/-- The packets that a work entry asks for. -/
def wqeItems (id : Nat) (w : Wqe) : List TxItem :=
  let len := w.len.toNat
  if w.op = 1 then (List.range (packetCount len)).map fun j => writeItem id len j w.remoteOff.toNat
  else if w.op = 2 then (List.range ((packetCount len + 511) / 512)).map fun j => readItem id len j w.remoteOff.toNat
  else []

/-- Every earlier message of the connection has completed (R376). -/
def fenceClear (s : State) (m : RMsg) : Bool :=
  !(bitN m.w.flags.toNat 1) || !(s.rme.msgs.any fun x => x.conn == m.conn && decide (x.id < m.id) && x.kind == 1 && !x.done)

/-- A message takes its number on its open connection, and its packets wait to be sent (R386, R389). A connection that is
neither open, in ERROR nor closing gives no status the rules state: a free value. -/
def startMsg (s : State) (id : Nat) : State :=
  match msgOf s id with
  | none => s
  | some m =>
    if m.done || m.started || !(fenceClear s m) then s
    else
      let c := ctxOf s m.conn
      if c.st = 3 || c.st = 4 then finishMsg s id 0x0E
      else if c.st ≠ 2 then
        let v := freshBits s 8
        finishMsg v.2 id v.1.toNat
      else if !c.cached then fillCtx s m.conn
      else if !(pinned s m.conn) && rdB s Reg.RME_STATUS 11 then s
      else
        let its := wqeItems id m.w
        let s := updMsg s id fun m => { m with started := true, msn := c.txMsn, npk := packetCount m.w.len.toNat }
        let s := updCtx s m.conn fun c => { c with txMsn := (c.txMsn + 1) % 2 ^ 24, sendQ := c.sendQ ++ its, used := s.now }
        askData (noteRme s) m.conn

/-- Messages held by FENCE_PREV, a fill or the pin limit start when they may. -/
def startWaiting (s : State) (n : Nat) : State :=
  (connMsgs s n).foldl (fun s m => if m.kind = 1 && !m.started && decide (m.conn ≠ noConn) then startMsg s m.id else s) s

/-- A path to a switch runs over a link still in the reduced mode of bring-up (R94, R398). -/
def reducedTo (s : State) (dst : Nat) : Bool :=
  (trPaths (trEntry s dst)).any fun p => (membersOf s p).any fun q => (s.member.get q).bringup

/-- A packet of a message waits to be sent on a connection. -/
def waitsSend (s : State) (f : Ctx → TxItem → Bool) : Bool :=
  s.rme.ctx.cells.any fun c => (decide (c.2.st = 2) || decide (c.2.st = 4)) && c.2.sendQ.any (f c.2)

/-- A packet of a protected message. -/
def protItem (s : State) (it : TxItem) : Bool :=
  (msgOf s it.msg).any fun m => m.kind == 1 && bitN m.w.flags.toNat 0

/-- What RME_STATUS reads (R414): the engines serve from service on; REDUCED and BRACE_HOLD show packets that wait now. -/
def rmeStatus (s : State) : Word :=
  let up := decide (s.start.phase = .service)
  let v := setF (setB (rd s Reg.RME_STATUS) 0 up) 10 3 (if up then 0xFF else 0)
  setB (setB v 1 (waitsSend s fun c _ => reducedTo s c.peerSw)) 2 (braced s && waitsSend s fun _ it => protItem s it)

/-! ### Protected messages (R395) -/

/-- A protected message not finished whose packets have all been issued. -/
def protOpen (m : RMsg) : Bool := m.kind == 1 && !m.done && bitN m.w.flags.toNat 0 && m.started && m.sentPk == m.npk

/-- The status a protected message gets from its record when SE reaches its highest epoch (R395). -/
def settleStatus (s : State) (m : RMsg) (ep : Nat) : Nat :=
  match ((s.land.recs.get (connKey m.conn)).bind fun r => r.fault) with
  | some (e, k) => if epLe e ep then (if k = 4 then 0x09 else if k = 2 || k = 3 then 0x08 else 0x01) else 0x01
  | none => 0x01

/-- When SE reaches a protected message's highest epoch with packets unreported, it completes from the record (R395). -/
def rmeSettle (s : State) : State :=
  s.rme.msgs.foldl (fun s m => match m.epoch with
    | some ep =>
      if protOpen m && epLe ep (seOf s) then
        let s := updCtx s m.conn fun c => { c with protFly := c.protFly - (m.npk - m.landed) }
        closePump (finishMsg s m.id (settleStatus s m ep)) m.conn
      else s
    | none => s) s

/-- A LOSS names a connection at an epoch in which a message has unreported packets: it completes LOST (R395). -/
def rmeLost (s : State) (n ep : Nat) : State :=
  (connMsgs s n).foldl (fun s m => match m.epLow, m.epoch with
    | some a, some b =>
      if m.kind == 1 && bitN m.w.flags.toNat 0 && epLe a ep && epLe ep b && decide (m.landed < m.sentPk) then
        let s := updCtx s n fun c => { c with protFly := c.protFly - (m.sentPk - m.landed) }
        startWaiting (closePump (finishMsg s m.id 0x08) n) n
      else s
    | _, _ => s) s

/-- A LANDED frame with a status (R384). -/
def sendLanded (s : State) (srcSw conn status : Nat) (es : List (Nat × Nat)) : State :=
  ackFrame s srcSw 3 ([w32 conn, w32 (status * 2 ^ 24), w32 es.length] ++ es.map fun e => w32 (e.1 + (e.2 - 1) * 2 ^ 24))

/-- The LANDED entries of a source's connection leave (R395). -/
def flushLanded (s : State) (srcSw conn : Nat) : State :=
  match s.rme.landRep.find? fun e => e.srcSw == srcSw && e.conn == conn with
  | none => s
  | some e =>
    let s := updRme s fun r => { r with landRep := r.landRep.filter fun e => !(e.srcSw == srcSw && e.conn == conn) }
    sendLanded s srcSw conn 0x01 e.entries

/-- A protected packet landed at its home joins its LANDED entry; 16 packets send the frame (R395). -/
def landedAdd (s : State) (srcSw conn msn : Nat) : State :=
  let old := (s.rme.landRep.find? fun e => e.srcSw == srcSw && e.conn == conn).getD { srcSw := srcSw, conn := conn }
  let ents := if old.entries.any fun e => e.1 == msn then old.entries.map fun e => if e.1 = msn then (e.1, e.2 + 1) else e
    else old.entries ++ [(msn, 1)]
  let s := updRme s fun r => { r with
    landRep := (r.landRep.filter fun e => !(e.srcSw == srcSw && e.conn == conn)) ++ [{ old with entries := ents }] }
  if 16 ≤ (ents.map Prod.snd).sum then flushLanded s srcSw conn else s

end Sys2Proof.Machine
end

