-- ==== Sys2Proof/Machine/SealOps.lean ====
section
/-! DEFINITION. Markers, the local seal, the seal tree and the fences: the shared steps of R280 to R302. -/

namespace Sys2Proof.Machine

open Sys2Proof

/-! ### The sealing set and its tree (R289) -/

/-- The sealing set as a bitmap. -/
def sealSet (s : State) : Nat := rd64 s Reg.LAND_SET_LO

/-- The leader switch, and whether this switch is it, and whether none is known (R308). -/
def leaderSw (s : State) : Nat := rdF s Reg.LAND_LEADER 11 0
def isLeader (s : State) : Bool := rdB s Reg.LAND_LEADER 28
def noLeader (s : State) : Bool := s.land.noLeader

/-- Own member number. -/
def ownMember (s : State) : Nat := rdF s Reg.LAND_CFG 13 8

/-- The switch ID of a member of the own cluster. -/
def memberSw (s : State) (m : Nat) : Nat := swId s / 64 * 64 + m

/-- The relative index of a member, and the member at a relative index (R289). -/
def relIdx (s : State) (m : Nat) : Nat := (m + 64 - leaderSw s % 64) % 64
def memAt (s : State) (k : Nat) : Nat := (k + leaderSw s % 64) % 64

/-- The nearest ancestor in the sealing set, by relative index (R289). -/
def treeUp (s : State) : Nat → Nat → Nat
  | 0, _ => 0
  | f + 1, k => if (k - 1) / 4 = 0 || bitN (sealSet s) (memAt s ((k - 1) / 4)) then (k - 1) / 4 else treeUp s f ((k - 1) / 4)

/-- The parent of a member (R289). -/
def treeParent (s : State) (m : Nat) : Nat := memAt s (treeUp s 4 (relIdx s m))

/-- The children of a member in the sealing set. -/
def treeChildren (s : State) (m : Nat) : List Nat :=
  (bitsOf 64 (sealSet s)).filter fun c => decide (relIdx s c ≠ 0) && decide (treeParent s c = m)

/-- Whether a member lies in the subtree of another. -/
def treeUnder (s : State) (a : Nat) : Nat → Nat → Bool
  | 0, m => decide (m = a)
  | f + 1, m => decide (m = a) || (decide (relIdx s m ≠ 0) && treeUnder s a f (treeParent s m))

/-- The bitmap of the members of a child's present subtree (R290). -/
def subtreeBits (s : State) (a : Nat) : Nat :=
  (bitsOf 64 (sealSet s)).foldl (fun b m => if treeUnder s a 4 m then setBitN b m true else b) 0

/-! ### Sums and REPORTs (R287, R290) -/

/-- What a REPORT carries (R290, R293). -/
structure Sums where
  sent   : Nat := 0
  landed : Nat := 0
  lost   : Nat := 0
  bitmap : Nat := 0
  maxSe  : Nat := 0
  deriving DecidableEq, Repr

/-- The REPORT of a child that may be used: of the present TERM, for the members of its present subtree (R290). -/
def childReport (s : State) (c e : Nat) : Option Report :=
  s.land.reports.find? fun r => r.child == c && r.ep == e && r.term == s.land.term && r.bitmap == subtreeBits s c

/-- The own counts of an epoch (R287). -/
def ownSums (s : State) (e : Nat) : Sums :=
  { sent := s.land.sent.get e, landed := s.land.landed.get e, lost := s.land.lost.get e,
    bitmap := 2 ^ ownMember s, maxSe := seOf s }

/-- The sums with those of a child's REPORT. -/
def addReport (x : Sums) (r : Report) : Sums :=
  { sent := x.sent + r.sent, landed := x.landed + r.landed, lost := x.lost + r.lost,
    bitmap := x.bitmap ||| r.bitmap, maxSe := epMax x.maxSe r.maxSe }

/-- A member whose inclusion counts only from a later epoch: its report for this one is not required (R298). -/
def notYetIn (s : State) (m e : Nat) : Bool := s.land.joins.any fun j => j.1 == m && epAfter j.2 e

/-- The sums a node reports for an epoch, once its own local seal and every child's REPORT are in hand (R290). -/
def nodeSums (s : State) (e : Nat) : Option Sums :=
  if !(s.land.sealedL.contains e) then none
  else (treeChildren s (ownMember s)).foldl (fun x c => match x, childReport s c e with
    | some x, some r => some (addReport x r)
    | some x, none => if notYetIn s c e then some { x with bitmap := x.bitmap ||| 2 ^ c } else none
    | none, _ => none) (some (ownSums s e))

/-- A REPORT for an epoch to the parent, when its sums are in hand (R290). -/
def sendReport (s : State) (e : Nat) (update : Bool) : State :=
  if isLeader s || !s.land.haveRoot then s
  else match nodeSums s e with
    | none => s
    | some x =>
      let s := updLand s fun l => { l with sentRep := if l.sentRep.contains e then l.sentRep else l.sentRep ++ [e] }
      sendMsg s (memberSw s (treeParent s (ownMember s))) 1 e
        [x.sent, x.landed, x.lost, x.bitmap, x.maxSe + s.land.term * 2 ^ 48, update.toNat]

/-- The REPORT of an epoch not reported yet (R290). -/
def reportTry (s : State) (e : Nat) : State := if s.land.sentRep.contains e then s else sendReport s e false

/-- A REPORT already sent goes again with UPDATE = 1 (R290). -/
def reportAgain (s : State) (e : Nat) : State := if s.land.sentRep.contains e then sendReport s e true else s

/-- Every epoch reported and not yet seen sealed is reported again (R290). -/
def reportAll (s : State) : State := s.land.sentRep.foldl (fun s e => if epAfter e (seOf s) then sendReport s e true else s) s

/-! ### LOSS (R288, R300) -/

/-- The record a LOSS names: a connection's when SRC_PORT is 0x7F, else the requester's of the port's host (R373). -/
def lossKey (s : State) (reqId srcPort : Nat) : Nat :=
  if srcPort = 0x7F then connKey reqId else reqKey (portHost s srcPort) reqId

/-- The origin applies a LOSS: the record first, then its own counts; a late one sends the REPORT again (R287, R288, R301, R307). -/
def lossApply (s : State) (e reqId srcPort kind n : Nat) : State :=
  let s := count (bump s Reg.LAND_LOSS_RX) 113 7
  let k := lossKey s reqId srcPort
  if kind = 0 then recPoison s k e
  else
    let s := recFault s k e kind
    let s := updLand s fun l => { l with lost := l.lost.upd e fun x => x + n }
    let s := if srcPort = 0x7F then rmeLost s reqId e else s
    reportAgain s e

/-- A refused or discarded VC1 frame with a trusted header yields a LOSS to its source (R288). -/
def lossSend (s : State) (srcSw srcPort reqId e kind n : Nat) : State :=
  let s := count (bump s Reg.LAND_LOSS_TX) 113 6
  if srcSw = swId s then lossApply s e reqId srcPort kind n
  else sendMsg s srcSw 3 e [reqId + srcPort * 2 ^ 16 + kind * 2 ^ 23 + swId s * 2 ^ 26, n]

/-- REQ_ID of a VC1 frame for a LOSS: the connection of an engine packet stands in its RME header's SRC_CONN (R373, R382). -/
def frameReq (f : Frame) : Nat := if f.typ = 3 then getF (f.payload.getD 1 0) 19 0 else f.tspec0.toNat

/-! ### Fences (R299 to R302) -/

/-- The FAULT_KIND a fence with a target returns, 0 for none (R301). -/
def fenceFault (r : Option ReqRec) (t : Nat) : Nat :=
  match r.bind fun r => r.fault with
  | some (e, k) => if epLe e t then k else 0
  | none => 0

/-- Whether a fence with a target returns POISONED (R301). -/
def fencePoison (r : Option ReqRec) (t : Nat) : Bool :=
  match r.bind fun r => r.poison with
  | some e => epLe e t
  | none => false

/-- LAND_FENCE_LO and LAND_FENCE_HI of a completed fence (R300). -/
def fenceWords (s : State) (host : Nat) (f : FenceSt) (status : Nat) : Word × Word :=
  let r := s.land.recs.get f.reqId
  let k := if status = 0 then fenceFault r f.target else 0
  let p := decide (status = 0) && fencePoison r f.target
  let held := ((s.qos.applied.get host).map AdmitSt.held).getD false
  (w32 (status + (decide (k ≠ 0)).toNat * 2 ^ 4 + k * 2 ^ 5 + p.toNat * 2 ^ 8 + held.toNat * 2 ^ 9 + seOf s % 2 ^ 16 * 2 ^ 16),
   w32 (seOf s / 2 ^ 16))

/-- A fence that reported a fault or poison clears it from the record (R301). -/
def fenceClearRec (s : State) (f : FenceSt) : State :=
  match s.land.recs.get f.reqId with
  | none => s
  | some r =>
    let r' := { r with fault := if fenceFault (some r) f.target ≠ 0 then none else r.fault,
                       poison := if fencePoison (some r) f.target then none else r.poison }
    noteReqFree (updLand s fun l => { l with recs := l.recs.set f.reqId (some r') })

/-- A fence completes with a status: its data leaves, a 4-byte one latches the _HI half, the counts rise (R299 to R301). -/
def finishFence (s : State) (host : Nat) (f : FenceSt) (status : Nat) : State :=
  let w := fenceWords s host f status
  let s := if status = 0 then fenceClearRec s f else s
  let s := if f.wide then s else
    { s with access := { s.access with latch := s.access.latch.set (host * 65536 + f.req) (some (f.off, w.2)) } }
  let s := emit s (.regData host f.req f.off (if f.wide then [w.1, w.2] else [w.1]))
  let s := count s (80 + host) 4
  let s := if status = 0 then count s (80 + host) 5 else s
  let s := if status = 1 || status = 2 then count (bump s Reg.LAND_FENCE_NOTYET) (80 + host) 6 else s
  if getB w.1 4 then count s (80 + host) 7 else s

/-- The host has a window whose home is in the sealing set (R299). -/
def windowOpen (s : State) (host : Nat) : Bool :=
  decide (quota s host ≠ 0) && !(s.land.removed.contains (hostPol s host).homeSw)

/-- A fence has a window to speak of: a connection's fence names an open protected-capable connection too (R299, R380). -/
def fenceWindow (s : State) (host : Nat) (f : FenceSt) : Bool :=
  match f.conn with
  | none => windowOpen s host
  | some i => decide (i < 2048) && decide ((ctxOf s (32 * i + host)).st = 2) && (ctxOf s (32 * i + host)).prot && windowOpen s host

/-- An earlier write of a requester waits untagged at its ingress (R281). -/
def untagged (s : State) (k : Nat) : Bool := s.land.waiting.any fun w => decide (reqKey w.host w.reqId = k)

/-- A fence of a requester is held at the MEF. -/
def fenceAhead (s : State) (host req : Nat) : Bool := (s.land.fences.get host).any fun f => decide (f.reqId = req)

/-- A fence reaches the MEF (R299): NO_WINDOW or DURABLE at once, or held with the record's LAST_EPOCH as its target. Behind a write of
its requester that waits untagged its target stays open, since that write is not durable (R34; DEDUCED, log entry 93). One that draws
NO_WINDOW behind a held fence of its requester waits for that one, since the fences of a requester complete in arrival order. -/
def fenceEnter (s : State) (host : Nat) (f : FenceSt) : State :=
  let hold (f : FenceSt) : State := updLand s fun l => { l with
    fences := l.fences.upd host fun q => q ++ [{ f with at_ := s.now, noLead := noLeader s }] }
  if !(fenceWindow s host f) then
    if fenceAhead s host f.reqId then hold { f with noWin := true } else finishFence s host f 3
  else if untagged s f.reqId then hold { f with open_ := true }
  else match s.land.recs.get f.reqId with
    | none => finishFence s host { f with target := seOf s } 0
    | some r =>
      if epLe r.last (seOf s) then finishFence s host { f with target := r.last } 0
      else hold { f with target := r.last }

/-- Fences waiting in the ingress non-posted queue enter while the MEF holds fewer than 64 (R299). -/
def fenceRefill (s : State) (host : Nat) : Nat → State
  | 0 => s
  | n + 1 =>
    match s.land.fenceQ.get host with
    | [] => s
    | f :: rest =>
      if (s.land.fences.get host).length < 64 then
        fenceRefill (fenceEnter (updLand s fun l => { l with fenceQ := l.fenceQ.set host rest }) host f) host n
      else s

/-- A held fence completes now (R299): SE has reached its target, or it draws NO_WINDOW and no fence of its requester is held that waits
for SE. -/
def fenceDue (s : State) (host : Nat) (f : FenceSt) : Bool :=
  let reached (f : FenceSt) : Bool := !f.open_ && epLe f.target (seOf s)
  if f.noWin then (s.land.fences.get host).all fun g => decide (g.reqId ≠ f.reqId) || g.noWin || reached g else reached f

/-- The fences of a host that are due complete, each requester's in arrival order (R299). -/
def fencePump (s : State) (host : Nat) : State :=
  let fs := s.land.fences.get host
  let due := fs.filter (fenceDue s host)
  let t := updLand s fun l => { l with fences := l.fences.set host (fs.filter fun f => !(fenceDue s host f)) }
  let t := due.foldl (fun t f => finishFence t host f (if f.noWin then 3 else 0)) t
  fenceRefill t host (t.land.fenceQ.get host).length

/-- The bytes of a BAR2 read as words: 32-byte words cut to the offset and length asked (R302). -/
def bar2Words (a len : Nat) (ws : List (BitVec 256)) : List Word :=
  ((ws.flatMap fun d => natWords 8 d.toNat).drop (a % 32 / 4)).take ((len + 3) / 4)

/-- The LAST_EPOCH of a requester's record, or SE where it has none. -/
def lastOf (s : State) (k : Nat) : Nat := ((s.land.recs.get k).map ReqRec.last).getD (seOf s)

/-- The fences and reads of BAR2 whose requester's waiting writes have all been tagged take its LAST_EPOCH as their target (R299, R302). -/
def settleTargets (s : State) : State :=
  updLand s fun l => { l with
    fences := l.fences.mapVals fun _ fs => fs.map fun f =>
      if f.open_ && !(untagged s f.reqId) then { f with open_ := false, target := lastOf s f.reqId } else f
    bar2 := l.bar2.mapVals fun h rs => rs.map fun r =>
      if r.open_ && !(untagged s (reqKey h r.reqId)) then { r with open_ := false, target := lastOf s (reqKey h r.reqId) } else r }

/-- A BAR2 read held long enough is served: from own DRAM, or by a read of the home's (R302). -/
def serveBar2 (s : State) (host : Nat) (r : Bar2Rd) : State :=
  let home := (hostPol s host).homeSw
  if home = swId s then
    let q := readWords s (r.addr / 32) ((r.addr % 32 + r.len + 31) / 32)
    emit q.2 (.cpl (upPort s host) r.reqId r.tag 0 q.1.2 (bar2Words r.addr r.len q.1.1))
  else
    routeOut s { typ := 1, vc := 0, tc := BitVec.ofNat 3 (classOf s 0), length := 1, dstSw := BitVec.ofNat 12 home, dstPort := 0x7F,
                 srcSw := BitVec.ofNat 12 (swId s), srcPort := BitVec.ofNat 7 (upPort s host), tspec0 := BitVec.ofNat 16 r.reqId,
                 tspec1 := BitVec.ofNat 64 r.addr, tspec2 := if r.len ≤ 4 then 0x0F else 0xFF, payload := [w32 (r.tag + (r.len + 3) / 4 * 2 ^ 10)] }

/-- The BAR2 reads of a host whose target SE has reached are served (R302). -/
def bar2Pump (s : State) (host : Nat) : State :=
  let rs := s.land.bar2.get host
  let isDue (r : Bar2Rd) : Bool := !r.open_ && epLe r.target (seOf s)
  let due := rs.filter isDue
  let s := updLand s fun l => { l with bar2 := l.bar2.set host (rs.filter fun r => !(isDue r)) }
  due.foldl (fun s r => serveBar2 s host r) s

/-! ### Epochs (R280, R284 to R287) -/

/-- A switch has passed an epoch: closed it, and received and sent its marker or a later one on every adjacency of the marker
set (R286). -/
def passed (s : State) (e : Nat) : Bool :=
  epAfter (eOpen s) e && s.land.adj.cells.all fun c => !c.2.inSet ||
    ((c.2.rcv.map fun m => epLe e m).getD false && (c.2.sent.map fun m => epLe e m).getD false)

/-- The epoch a VC1 frame's low 16 bits stand for, nearest to a reference (R278). -/
def rebuildEpoch (r low : Nat) : Nat :=
  let d := (low + 2 ^ 16 - r % 2 ^ 16) % 2 ^ 16
  if d ≤ 32768 then epAdd r d else epAdd r (2 ^ 48 + d - 2 ^ 16)

/-- The reference epoch for a frame from an adjacency (R278). -/
def refEpoch (s : State) (adj : Nat) : Nat :=
  if joined s then seOf s else ((s.land.adj.get adj).rcv).getD (seOf s)

/-- The full epoch of a VC1 frame from an ingress (R278). -/
def frameEpoch (s : State) (p : Nat) (f : Frame) : Nat :=
  rebuildEpoch (if p < 80 then refEpoch s (pairKey s p) else seOf s) f.epoch.toNat

/-- The frames on their way to the own landing input: handed to the landing controller, or held at a meter of their ingress
(R252, R260). -/
def towardLand (s : State) : List QEntry :=
  s.fwd.toLand ++ (s.fwd.metHold.cells.flatMap Prod.snd).filter fun e =>
    decide (e.f.typ = 0) && e.f.prot && decide (e.f.dstSw.toNat = swId s) && decide (e.f.dstPort = 0x7F)

/-- Every VC1 frame of an epoch at most e received for the own buffer has landed or been refused (R287). -/
def landQuiet (s : State) (e : Nat) : Bool :=
  (s.land.input ++ s.land.admitted).all (fun w => epAfter w.ep e)
    && (towardLand s).all fun q => epAfter (frameEpoch s q.inPort q.f) e

/-- The unsealed closed epochs, oldest first. -/
def openRange (s : State) : List Nat :=
  (List.range (min 1024 (epAdd (eOpen s) (2 ^ 48 - seOf s) - 1))).map fun i => epAdd (seOf s) (i + 1)

/-- A member that has passed an epoch, with its frames landed or refused, seals it locally, in any order of epochs, and reports
it (R287, R290). -/
def localSeal (s : State) : State :=
  if !(joined s) then s
  else (openRange s).foldl (fun s e =>
    if s.land.sealedL.contains e || !(passed s e) || !(landQuiet s e) then s
    else reportTry (count (updLand s fun l => { l with sealedL := l.sealedL ++ [e] }) 113 3) e) s

/-- CAPPED: E_open is SE + 1,024 on a joined switch (R280, R309). -/
def noteCap (s : State) : State :=
  wrB s Reg.LAND_STATUS 2 (joined s && !(epAfter (epAdd (seOf s) 1024) (eOpen s)))

/-- E_open moves to an epoch: the one before it is closed and its marker due on every adjacency of the set (R280, R284). -/
def openEpoch (s : State) (e : Nat) : State :=
  let n := epAdd e (2 ^ 48 - eOpen s)
  let s := wr64 s Reg.LAND_OPEN_EPOCH_LO e
  let s := countBy s 113 2 n
  let s := updLand s fun l => { l with
    timerDue := false
    openedAt := s.now
    adj := l.adj.mapVals fun _ a => if a.inSet then { a with due := some (epAdd e (2 ^ 48 - 1)), dueAt := s.now } else a }
  localSeal (noteCap s)

/-- The epoch the received markers and the timer call for (R280). -/
def wantedEpoch (s : State) : Option Nat :=
  let byMark := s.land.adj.cells.foldl (fun x c => match x, c.2.rcv with
    | none, some m => some m
    | some x, some m => some (epMax x m)
    | x, none => x) none
  let mark := match byMark with
    | some m => if epLe (eOpen s) m then some (epAdd m 1) else none
    | none => none
  match mark with
  | some e => some e
  | none => if s.land.timerDue then some (epAdd (eOpen s) 1) else none

/-- Every write tagged with E_open has passed or failed its hedge check (R281). -/
def tagsChecked (s : State) : Bool := s.hedge.heldWr.all fun w => decide (w.1 ≠ eOpen s)

/-- E_open advances when a marker or the timer calls for it and the cap lets it; before the join only markers do (R280). -/
def pumpOpen (s : State) : State :=
  match wantedEpoch s with
  | none => noteCap s
  | some e =>
    if !(tagsChecked s) then s
    else if joined s && epAfter e (epAdd (seOf s) 1024) then noteCap s
    else openEpoch s e

/-! ### The seal (R279, R291, R292) -/

/-- An epoch held for later comparison raised to SE − 2^46 when it would lie 2^46 or more before SE (R279). -/
def raiseEp (se e : Nat) : Nat :=
  if epAfter e (epAdd se (2 ^ 48 - 2 ^ 46)) then e else epAdd se (2 ^ 48 - 2 ^ 46)

/-- Every record's epochs raised (R279). -/
def raiseRecs (s : State) : State :=
  let se := seOf s
  updLand s fun l => { l with
    recs := l.recs.mapVals fun _ r => r.map fun r =>
      { r with last := raiseEp se r.last, fault := r.fault.map fun f => (raiseEp se f.1, f.2), poison := r.poison.map (raiseEp se) }
    retSE := l.retSE.map (raiseEp se)
    highest := l.highest.map (raiseEp se) }

/-- A seal with UNATTR = 1 records a fault of kind 4 for every requester whose LAST_EPOCH is at least that epoch (R292). -/
def unattrFaults (s : State) (e : Nat) : State :=
  let hit := s.land.recs.cells.filter fun c => (c.2.map fun r => epLe e r.last).getD false
  let s := hit.foldl (fun s c => recFault s c.1 e 4) s
  fault (count (bump s Reg.LAND_UNATTR) 113 5) 8 0x05 2 4 0 e

/-- SE moves to a newer sealed epoch (R292): UNATTR faults first, counts of sealed epochs freed, releases applied (R303), held
epochs raised (R279), protected messages settled (R395), fences and reads completed (R299, R302). -/
def adoptSe (s : State) (e : Nat) (unattr : Bool) : State :=
  if epLe e (seOf s) then s
  else
    let s := if unattr then unattrFaults s e else s
    let s := wr64 s Reg.LAND_SEALED_EPOCH_LO e
    let s := updLand s fun l => { l with
      sent := l.sent.keep fun k _ => epAfter k e
      landed := l.landed.keep fun k _ => epAfter k e
      lost := l.lost.keep fun k _ => epAfter k e
      sealedL := l.sealedL.filter fun k => epAfter k e
      sentRep := l.sentRep.filter fun k => epAfter k e
      reports := l.reports.filter fun r => epAfter r.ep e
      sumHigh := l.sumHigh.filter fun x => epAfter x.1 e }
    let s := clearReleased s e
    let s := noteReqFree (raiseRecs s)
    let s := rmeSettle s
    let s := (hostsOf s).foldl (fun s k => bar2Pump (fencePump s k) k) s
    noteAdmit (noteLedger (noteDeficit (pumpOpen s)))

/-- The members of the expected bitmap that this switch reaches, itself included (R295). -/
def reachedMembers (s : State) : List Nat :=
  (bitsOf 64 s.seed.policy.members).filter fun m => decide (m = ownMember s) || reachable s (memberSw s m)

/-- More than half of the expected members are reached (R295). -/
def majority (s : State) : Bool :=
  decide ((bitsOf 64 s.seed.policy.members).length < 2 * (reachedMembers s).length)

/-- CLUSTER_SEAL down the tree (R291); a leader that no longer reaches a majority sends none (R295). -/
def sendSeal (s : State) (unattr : Bool) : State :=
  if isLeader s && !(majority s) then s
  else
    let s := updLand s fun l => { l with lastSeal := s.now }
    (treeChildren s (ownMember s)).foldl (fun s c => sendMsg s (memberSw s c) 2 (seOf s)
      [sealSet s, s.land.term + unattr.toNat * 2 ^ 16 + leaderSw s * 2 ^ 20]) s

/-- The sums of an epoch are not found above: the 200 µs of R291 have to start again. -/
def notAbove (s : State) (e : Nat) : State := updLand s fun l => { l with sumHigh := l.sumHigh.filter fun x => x.1 ≠ e }

/-- The sums of an epoch compared (R291): 0 not in hand, 1 equal, 2 ΣSENT exceeds, 3 the others exceed. -/
def sealVerdict (s : State) (e : Nat) : Nat :=
  match nodeSums s e with
  | none => 0
  | some x =>
    if x.bitmap ≠ sealSet s then 0
    else if x.sent = x.landed + x.lost then 1
    else if x.landed + x.lost < x.sent then 2 else 3

/-- The leader seals epoch after epoch while the sums balance (R291). An epoch whose sums lack a removed member's figures is
sealed with UNATTR = 1, in a message of its own (R291, R297). During a brace none is sealed above C or with UNATTR = 1 (R316). -/
def sealRun (s : State) : Nat → State
  | 0 => s
  | n + 1 =>
    let e := epAdd (seOf s) 1
    let v := if s.pfail.cut.elim false fun c => epAfter e c then 0 else sealVerdict s e
    if 2 ≤ v && s.land.gap.contains e && s.pfail.braceAt.isNone then sealRun (sendSeal (adoptSe s e true) true) n
    else match v with
    | 1 => sealRun (adoptSe s e false) n
    | 2 =>
      if s.land.sumHigh.any fun x => x.1 == e then s
      else updLand s fun l => { l with sumHigh := l.sumHigh ++ [(e, s.now)] }
    | 3 => if rdB s Reg.LAND_STATUS 5 then s else faultU (wrB (notAbove s e) Reg.LAND_STATUS 5 true) 8 0x04 3 e
    | _ => notAbove s e

/-- The leader decides the seals that its reports allow, and sends CLUSTER_SEAL when SE moved (R291, R295). -/
def decideSeals (s : State) : State :=
  if !(isLeader s) || rdB s Reg.LAND_STATUS 5 || !(majority s) then s
  else
    let t := sealRun s 1024
    if seOf t = seOf s then t else sendSeal t false

/-- What follows any change in an epoch's sums at this node: the leader decides, another node reports (R290, R291). -/
def sealPump (s : State) : State := decideSeals (localSeal s)

/-! ### The landing input (R260, R261, R270, R276, R303) -/

/-- A write or release lands (R276, R303): DRAM, bitmap, counts, PEND; a poisoned one is reported with kind 0; an engine packet
joins its LANDED entry (R395, R405). -/
def landOne (s : State) (w : LandIn) : State :=
  let s := match w.release with
    | some n => markRelease s (w.addr / 4096) n w.ep
    | none => writeWords s (w.addr / 32) w.ep w.poison w.words
  let s := updLand s fun l => { l with
    landed := l.landed.upd w.ep fun x => x + 1
    highest := some ((l.highest.map fun h => epMax h w.ep).getD w.ep) }
  let s := wrF s (Reg.QOS_HOST_PEND w.region) 19 0 (pendOf s w.region - w.pages)
  let s := match w.conn with
    | some (c, msn) => landedAdd s w.srcSw c msn
    | none => s
  let s := match w.key with
    | some i => regionDone s i
    | none => s
  let s := match w.ent with
    | some e => freeEntry s e
    | none => s
  if w.poison then lossSend s w.srcSw w.srcPort w.reqId w.ep 0 1 else s

/-- Releases at the head of the admitted writes land at once, in order (R303). -/
def landReleases (s : State) : Nat → State
  | 0 => s
  | n + 1 =>
    match s.land.admitted with
    | w :: rest => if w.release.isSome then landReleases (landOne (updLand s fun l => { l with admitted := rest }) w) n else s
    | [] => s

/-- A write waiting in the landing input is refused at the home: its cells, its hedge tag and its region entry are released, an
engine packet draws LANDED with STATUS, and a LOSS of kind 2 is sent (R288, R395). -/
def refuseIn (s : State) (w : LandIn) : State :=
  let s := match w.key with
    | some i => regionDone s i
    | none => s
  let s := match w.ent with
    | some e => freeEntry s e
    | none => s
  let s := match w.conn with
    | some (c, msn) => sendLanded s w.srcSw c 0x04 [(msn, 1)]
    | none => s
  lossSend s w.srcSw w.srcPort w.reqId w.ep 2 1

/-- The head of the input is admitted, and those behind it, until one has to wait (R260, R261). Its tag is checked as it is
admitted (R424); nothing is in the retention window of a reset (R83). -/
def admitRun (s : State) : Nat → State
  | 0 => s
  | n + 1 =>
    match s.land.input with
    | [] => s
    | w :: rest =>
      if !(admitOk s w) || decide (s.start.phase = .retain) then s
      else
        let s := updLand s fun l => { l with input := rest }
        let d := match w.tag with
          | some t => hedgeDeliver s t .prot w.addr w.reqId
          | none => (true, s)
        let s := d.2
        if d.1 then
          let s := wrF s (Reg.QOS_HOST_PEND w.region) 19 0 (pendOf s w.region + w.pages)
          let s := updLand s fun l => { l with admitted := l.admitted ++ [w] }
          admitRun (landReleases s s.land.admitted.length) n
        else admitRun (refuseIn s w) n

/-- The landing input moves on, and what depends on it: deficits, the ledger's status, ADMITs, local seals. -/
def landPump (s : State) : State :=
  let s := admitRun s s.land.input.length
  sealPump (noteAdmit (noteLedger (noteDeficit s)))

end Sys2Proof.Machine
end

