-- ==== Sys2Proof/Machine/MeterOps.lean ====
section
/-! DEFINITION. A frame from its ingress meter onward (R249 to R253): its destination (R214), the colour drop (R238, R239), its output
queue or the unit that takes it, and what a frame discarded at the switch leaves behind (R198, R242);
and what the reads of a frame's words find (R230 to R235). -/

namespace Sys2Proof.Machine

open Sys2Proof

/-- The forwarding state changed. -/
def updFwd (s : State) (f : FwdSt → FwdSt) : State := { s with fwd := f s.fwd }

/-! ### What an access of a frame covers (R210, R422) -/

/-- The words before a frame's data: the prefix word, and the request word of TYPE 0x1. -/
def pfxWords (f : Frame) : Nat := f.tspec2.toNat / 2 ^ 8 % 2

/-- The request word of a TYPE 0x1 frame (R210). -/
def reqWord (f : Frame) : Word := f.payload.getD (pfxWords f) 0

/-- The resolved address of a frame. -/
def frameAddr (f : Frame) : Nat := f.tspec1.toNat / 4 * 4

/-- The kind, address and length in bytes of a TYPE 0x0 or 0x1 frame's access. -/
def accOf (f : Frame) : AccKind × Nat × Nat :=
  if f.typ = 0 then
    let len := 4 * (f.payload.length - pfxWords f)
    if f.prot then
      (.prot, frameAddr f, if f.tspec2.toNat % 16 = 0 then (f.payload.getD 0 0).toNat * 4096 else len)
    else (.write, frameAddr f, len)
  else
    let w := reqWord f
    (if getF w 23 21 = 0 then .read else .atomic, frameAddr f, 4 * getF w 20 10)

/-- A completion frame with no data to the requester of a TYPE 0x1 frame (R211): the bytes it asked for remain, and its attributes come
back. The Completer ID of a completion that the switch makes itself is free (DESIGN CHOICE, log entry 90). -/
def cplFrame (s : State) (f : Frame) (status : Nat) (cplId : BitVec 16) : Frame :=
  { typ := 2, vc := 3, tc := BitVec.ofNat 3 (classOf s 3), dstSw := f.srcSw, dstPort := f.srcPort, srcSw := BitVec.ofNat 12 (swId s),
    srcPort := 0x7F, tspec0 := f.tspec0,
    tspec1 := cplSpec (getF (reqWord f) 9 0) status (accOf f).2.2 (frameAddr f) cplId (bitN f.tspec1.toNat 0) (bitN f.tspec1.toNat 1)
      (bitN f.tspec2.toNat 9) }

/-- A non-posted frame completes with a status to its requester: on its own port of this switch, or over the fabric. -/
def completeTo (s : State) (f : Frame) (status : Nat) : State :=
  if f.typ ≠ 1 then s
  else if f.srcSw.toNat = swId s then emit s (.cpl f.srcPort.toNat f.tspec0.toNat (getF (reqWord f) 9 0) status false [])
  else
    let v := freshBits s 16
    routeOut v.2 (cplFrame s f status v.1)

/-- A VC1 frame discarded with a trusted header: LOSS to its source, with one frame (R288, R302 of markers excepted). -/
def lossOf (s : State) (p : Nat) (f : Frame) (kind : Nat) : State :=
  if f.vc = 1 && decide (f.typ ≠ 5) then sealPump (lossSend s f.srcSw.toNat f.srcPort.toNat (frameReq f) (frameEpoch s p f) kind 1)
  else s

/-- A frame for an unreachable or invalid entry (R242): discarded with a U fault; UR to a PCI Express requester; LOSS of kind 3
for a VC1 frame. -/
def unreachable (s : State) (p : Nat) (f : Frame) : State :=
  let s := count (bump s Reg.FWD_UNREACH_DROP) 112 7
  let s := faultP s 5 0x03 2 p f.dstSw.toNat
  let s := if p < 80 && isPcie s p then completeTo s f 1 else s
  lossOf s p f 3

/-- A queued frame discarded: its tag is delivered nowhere, and its cells are free (R424). -/
def dropEntry (s : State) (e : QEntry) : State :=
  let s := match e.tag with
    | some t => hedgeDrop s t
    | none => s
  freeEntry s e

/-- A frame for this home's buffer checked against its own region list (R269 to R271): the region, or none. -/
def homeRegion (s : State) (srcSw addr bytes : Nat) : Option Nat :=
  match regionOf s (addr / 4096) with
  | some r =>
    if regionSw s r = srcSw && decide (addr + bytes ≤ (regionBase s r + regionSize s r) * 4096) then some r else none
  | none => none

/-! ### Meters (R249 to R253) -/

/-- The colour a meter finds, and its buckets after it (R250, RFC 2698); a red frame takes no tokens. Buckets are kept as what is
missing from full, in 1/800 byte. -/
def meterColour (s : State) (p : Nat) (f : Frame) : Nat × State :=
  let t := f.tc.toNat
  let k := 8 * p + t
  let b := frameB f * 800
  let mode := rdF s (Reg.QOS_M_MODE p t) 1 0
  let pre := if mode = 2 && isNoz s p then f.colour.toNat else 0
  if mode = 0 then (0, s)
  else if pre = 2 || decide (rdF s (Reg.QOS_M_PBS p t) 17 0 * 64 * 800 < s.qos.lackP.get k + b) then (2, s)
  else if pre = 1 || decide (rdF s (Reg.QOS_M_CBS p t) 17 0 * 64 * 800 < s.qos.lackC.get k + b) then
    (1, updQos s fun q => { q with lackP := q.lackP.upd k (· + b) })
  else (0, updQos s fun q => { q with lackP := q.lackP.upd k (· + b), lackC := q.lackC.upd k (· + b) })

/-- A frame's colour counted (R266, R520). -/
def countColour (s : State) (p t c : Nat) : State :=
  if c = 0 then bump s (Reg.QOS_M_GREEN p t)
  else if c = 1 then bump s (Reg.QOS_M_YELLOW p t)
  else count (bump s (Reg.QOS_M_RED p t)) p 18

/-- A frame with a colour written, and CM when it is a red TYPE 0x3 frame (R251, R252). -/
def paint (f : Frame) (c : Nat) : Frame :=
  { f with colour := BitVec.ofNat 2 c, cm := f.cm || (decide (c = 2) && decide (f.typ = 3)) }

/-- A metered frame put in an output queue, unless colour drop takes it (R238, R239). -/
def enqueueDrop (s : State) (p : Nat) (e : QEntry) : State :=
  let d := wredPass s p e.f
  if d.1 then enqueue d.2 p e else dropEntry d.2 e

/-! ### Destinations (R214) -/

/-- The egress of a frame: 0x7F for an internal unit of this switch, a port, or none. Messages, markers and discovery frames keep
path 0 (R289). -/
def destOf (s : State) (f : Frame) : Option Nat :=
  if f.dstSw.toNat = swId s then
    if f.dstPort = 0x7F then some 0x7F else if isPcie s f.dstPort.toNat then some f.dstPort.toNat else none
  else if f.typ = 5 || f.typ = 6 || f.typ = 8 then path0 s f.dstSw.toNat
  else pickPath s f

/-- A contained port (R198, R207). -/
def contained (s : State) (p : Nat) : Bool := isPcie s p && rdB s (Reg.PCIE_STATUS p) 11

/-- DPC Completion Control of the vDSP bound to a port: 4 Completer Abort when 0, 1 UR when 1 (R198). -/
def dpcStatus (s : State) (p : Nat) : Nat :=
  let k := portHost s p
  let js := (List.range (hostPol s k).vdsps.length).filter fun j => match (hostPol s k).vdsps[j]? with
    | some b => decide (b.kind = 1) && decide (b.port = p)
    | none => false
  if js.any fun j => dpcCplCtl s k j then 1 else 4

/-- A read of landing DRAM for another switch's BAR2 (R268, R302): answered by a completion. -/
def landRead (s : State) (f : Frame) : State :=
  let a := accOf f
  match homeRegion s f.srcSw.toNat a.2.1 a.2.2 with
  | none => completeTo s f 1
  | some _ =>
    let q := readWords s (a.2.1 / 32) ((a.2.1 % 32 + a.2.2 + 31) / 32)
    let ws := bar2Words a.2.1 a.2.2 q.1.1
    let v := freshBits q.2 16
    routeOut v.2 { cplFrame s f 0 v.1 with poison := q.1.2, length := BitVec.ofNat 11 ws.length, payload := ws }

/-- A frame taken by an internal unit of this switch: landing keeps its cells until it lands; every other unit takes it whole. -/
def toUnit (s : State) (e : QEntry) : State :=
  if e.f.typ = 0 && e.f.prot then updFwd s fun x => { x with toLand := x.toLand ++ [e] }
  else
    let s := dropEntry s e
    if e.f.typ = 1 then landRead s e.f else s

/-- A metered frame goes on: to its unit, its output queue, or to nothing when its egress is gone (R198, R242). -/
def proceed (s : State) (e : QEntry) : State :=
  match destOf s e.f with
  | none => unreachable (dropEntry s e) e.inPort e.f
  | some p =>
    if p = 0x7F then toUnit s e
    else if contained s p then completeTo (dropEntry s e) e.f (dpcStatus s p)
    else enqueueDrop s p e

/-- A frame with its cells at the meter of its ingress: coloured and on its way, or held red at a PCI Express port behind any
frame held before it (R252, R253). -/
def meterFrame (s : State) (p : Nat) (e : QEntry) : State :=
  let t := e.f.tc.toNat
  if decide (80 ≤ p) || decide (2 ≤ e.f.vc.toNat) then proceed s e
  else if s.fwd.metHold.get (8 * p + t) ≠ [] then
    updFwd s fun x => { x with metHold := x.metHold.upd (8 * p + t) fun l => l ++ [e] }
  else
    let m := meterColour s p e.f
    let s := countColour m.2 p t m.1
    let e := { e with f := paint e.f m.1 }
    if m.1 = 2 && !(isNoz s p) then
      let s := updFwd s fun x => { x with metHold := x.metHold.set (8 * p + t) [e] }
      wrB s (Reg.QOS_M_HELD p t) 0 true
    else proceed s e

/-- Held frames of a meter tested again, as far as they are not red (R253). A frame found red before is counted once. -/
def meterRetry (s : State) (p t : Nat) : Nat → State
  | 0 => s
  | n + 1 =>
    match s.fwd.metHold.get (8 * p + t) with
    | [] => wrB s (Reg.QOS_M_HELD p t) 0 false
    | e :: rest =>
      let m := meterColour s p { e.f with colour := 0 }
      if m.1 = 2 then
        if e.f.colour = 2 then s
        else
          let s := countColour s p t 2
          updFwd s fun x => { x with metHold := x.metHold.set (8 * p + t) ({ e with f := paint e.f 2 } :: rest) }
      else
        let s := countColour m.2 p t m.1
        let s := updFwd s fun x => { x with metHold := x.metHold.set (8 * p + t) rest }
        meterRetry (proceed s { e with f := paint e.f m.1 }) p t n

/-! ### Reads of the buffer (R223, R230 to R235) -/

/-- A fault of the buffer in the zone of the frame's egress: its port, or for a frame to the landing controller the landing unit's
zone (R514). -/
def faultEgress (s : State) (code p addr : Nat) : State := if p < 80 then faultP s 6 code 2 p addr else fault s 6 code 2 5 8 addr

/-- The buffer address of word i of a frame: cell and line (R223). -/
def wordPlace (e : QEntry) (i : Nat) : Nat × Nat := (e.cells.getD (i / 8) 0, i % 8)

/-- BUF_ERR_ADDR of a place (R245). -/
def errAddr (x : Nat × Nat) : Nat := x.1 + x.2 * 2 ^ 17 + (8 * x.1 + x.2) % 64 * 2 ^ 20

/-- An uncorrectable read counted and latched (R230, R245). -/
def bufUncorr (s : State) (x : Nat × Nat) (syn : Nat) : State :=
  let s := count (bump s Reg.BUF_ECC_UNCORR) 112 2
  let s := if syn / 2 ^ 10 ≠ 0 then bump s Reg.BUF_ADDR_ERR else s
  if rdB s Reg.BUF_ERR_ADDR 31 then s
  else wrF (wrN s Reg.BUF_ERR_ADDR (errAddr x + 2 ^ 31)) Reg.BUF_ERR_SYNDROME 11 0 syn

/-- Datapath parity of a word for port p, `parity` times bad (R232): a first failure is replayed from the word's source, a second one
poisons the word. -/
def parityRead (s : State) (p parity : Nat) : Bool × State :=
  if parity = 0 then (false, s)
  else
    let s := faultU (count (bump s Reg.BUF_PARITY_REPLAY) 112 3) 6 0x04 1 0
    if parity = 1 then (false, s) else (true, faultEgress (bump s Reg.BUF_PARITY_FAIL) 0x05 p 0)

/-- What the reads of a frame's words find: 0 good, 1 a word to be poisoned, 2 its header lost (R230, R232, R235). -/
def bufRead (s : State) (p : Nat) (e : QEntry) (flip : BitVec 268) (addrFlip : BitVec 20) (i parity : Nat) : Nat × State :=
  let syn := bufSyndrome flip.toNat addrFlip.toNat
  let x := wordPlace e i
  match bufVerdict syn with
  | .uncorrectable =>
    let s := bufUncorr s x syn
    if i = 0 then (2, s) else (1, faultEgress s 0x02 p (errAddr x % 2 ^ 20))
  | v =>
    let s := if v = .corrected then faultU (count (bump s Reg.BUF_ECC_CORR) 112 1) 6 0x01 1 (errAddr x % 2 ^ 20) else s
    let r := parityRead s p parity
    (r.1.toNat, r.2)

/-- A header whose routing fields cannot be trusted: discarded with a U fault, with no LOSS (R235). -/
def headerDiscard (s : State) (p : Nat) (e : QEntry) : State :=
  let s := count (bump s Reg.BUF_HDR_DISCARD) 112 4
  dropEntry (faultEgress s 0x03 p (e.cells.headD 0)) e

end Sys2Proof.Machine
end

