-- ==== Sys2Proof/Machine/Landing.lean ====
section
/-! DEFINITION. Landing, epochs and durability: protected writes from ingress to landing, markers, the seal, leader changes,
fences and reads of BAR2 (R268 to R310). -/

namespace Sys2Proof.Machine

open Sys2Proof

/-! ### From the ingress to the home -/

/-- A protected write refused at the ingress: a fault of a kind at the open epoch in the requester's record, counted (R271). -/
def refuseWrite (s : State) (w : WaitWr) (ep kind : Nat) : State :=
  let k := reqKey w.host w.reqId
  let s := updRec s k fun r => { r with port := w.port }
  let s := recFault (recLast s k ep) k ep kind
  count (bump s Reg.LAND_REFUSED) (80 + w.host) 2

/-- The form of a protected write or release that R271 and R303 ask for; a release of 0 pages has none. -/
def writeFormOk (s : State) (w : WaitWr) (beOk : Bool) : Bool :=
  if w.release then decide (0 < w.len) && decide (w.off + w.len ≤ quota s w.host * 4096)
  else decide (w.off % 32 = 0) && decide (w.len % 32 = 0) && beOk && decide (w.off + w.len ≤ quota s w.host * 4096)

/-- The landing address of an offset of host k's window (R270). -/
def landAddr (s : State) (k off : Nat) : Nat := winBase s k * 4096 + off

/-- The class a port's map gives a TLP's TC on a VC (R246, R247). -/
def mapClass (s : State) (p vc tc : Nat) : Nat := rdF s (Reg.QOS_MAP_VC p vc) (3 * tc + 2) (3 * tc)

/-- The VC1 frame of a tagged write or release (R210, R270, R303). -/
def writeFrame (s : State) (w : WaitWr) (ep : Nat) : Frame :=
  let words : List Word := if w.release then [w32 (w.len / 4096)] else w.data.flatMap fun d => natWords 8 d.toNat
  { typ := 0, vc := 1, tc := BitVec.ofNat 3 (mapClass s w.port 1 w.tc), poison := w.poison, prot := true,
    length := BitVec.ofNat 11 words.length, dstSw := BitVec.ofNat 12 (hostPol s w.host).homeSw, dstPort := 0x7F,
    srcSw := BitVec.ofNat 12 (swId s), srcPort := BitVec.ofNat 7 w.port, epoch := BitVec.ofNat 16 ep,
    tspec0 := BitVec.ofNat 16 w.reqId, tspec1 := BitVec.ofNat 64 (landAddr s w.host w.off),
    tspec2 := if w.release then 0 else if words.length = 1 then 0x0F else 0xFF, payload := words }

/-- The pages a write touches. -/
def pagesOf (addr bytes : Nat) : Nat := if bytes = 0 then 0 else (addr + bytes - 1) / 4096 - addr / 4096 + 1

/-- The 32-byte words of a payload. -/
def landWordsOf (n : Nat) (ws : List Word) : List (BitVec 256) :=
  match n with
  | 0 => []
  | n + 1 => BitVec.ofNat 256 (wordsNat (ws.take 8)) :: landWordsOf n (ws.drop 8)

/-- A protected write or release arrives at its home (R270, R303, R307): into the landing input in order, or refused with a
LOSS of kind 2. -/
def arriveHome (s : State) (f : Frame) (ep : Nat) (tag : Option (Nat × Nat × Nat)) (ent : Option QEntry) : State :=
  let addr := f.tspec1.toNat / 4 * 4
  let rel := decide (f.tspec2.toNat % 16 = 0)
  let bytes := if rel then (f.payload.getD 0 0).toNat * 4096 else 4 * f.length.toNat
  let formOk := if rel then decide (addr % 4096 = 0) else decide (addr % 32 = 0) && decide (bytes % 32 = 0)
  match if formOk && landServes s then homeRegion s f.srcSw.toNat addr bytes else none with
  | some r =>
    landPump (updLand s fun l => { l with input := l.input ++ [{
      ep := ep, region := r, srcSw := f.srcSw.toNat, srcPort := f.srcPort.toNat, reqId := f.tspec0.toNat, addr := addr,
      words := if rel then [] else landWordsOf (bytes / 32) f.payload, pages := if rel then 0 else pagesOf addr bytes,
      release := if rel then some (bytes / 4096) else none, poison := f.poison, tag := tag, ent := ent }] })
  | none =>
    let s := match tag with
      | some t => hedgeDrop s t
      | none => s
    let s := match ent with
      | some e => freeEntry s e
      | none => s
    sealPump (lossSend s f.srcSw.toNat f.srcPort.toNat (frameReq f) ep 2 1)

/-- A tagged write or release counted in SENT, and in the host's counters: a write and its bytes B, or a release (R249, R281, R520). -/
def countWrite (s : State) (w : WaitWr) (ep : Nat) : State :=
  let s := updLand s fun l => { l with sent := l.sent.upd ep fun n => n + 1 }
  if w.release then count s (80 + w.host) 3 else countBy (count s (80 + w.host) 0) (80 + w.host) 1 (32 + w.len)

/-- A tagged write that its ingress hedge unit has allowed takes cells, passes its ingress meter and leaves for its home, this
switch's own buffer too, with its hedge tag (R223, R252, R281, R421). -/
def routeWrite (s : State) (w : WaitWr) (tag : Nat × Nat × Nat) (f : Frame) : State :=
  if (destOf s f).isNone then unreachable (hedgeDrop s tag) w.port f
  else
    let r := allocFrame s w.port f (some tag) true
    meterFrame r.2 w.port r.1

/-- A tagged write that its ingress hedge unit has allowed is counted in SENT and leaves for its home (R281, R421). -/
def sendWrite (s : State) (w : WaitWr) (ep : Nat) : State :=
  let t := hedgeTag s w.port 112
  let s := countWrite t.2 w ep
  routeWrite s w t.1 (writeFrame s w ep)

/-- The check of a tagged write by its ingress hedge unit against slot 112 (R421, R423); one whose home has been removed by then is refused
(R297). -/
def checkWrite (s : State) (w : WaitWr) (ep : Nat) : State :=
  let ps := hedgeParts s w.port 112 .prot (landAddr s w.host w.off) w.len
  if s.land.removed.contains (hostPol s w.host).homeSw then refuseWrite s w ep 2
  else if partsOk ps then sendWrite s w ep
  else refuseWrite (hedgeRefuse s w.port 112 .prot ps w.reqId 0) w ep 1

/-- Tagging may go on: the switch has joined, no brace pauses it, no quiesce withholds the VC1 credits of the write's port, and a record is
free for the requester (R86, R281 to R283). -/
def mayTag (s : State) (w : WaitWr) : Bool :=
  joined s && !(vc1Held s) && !(rdB s Reg.LAND_STATUS 3) && recFree s (reqKey w.host w.reqId)

/-- A write is tagged with E_open (R281), then checked, or held with its tag while the unit holds (R428). -/
def tagWrite (s : State) (w : WaitWr) : State :=
  let ep := eOpen s
  let s := updRec s (reqKey w.host w.reqId) fun r => { r with last := ep, port := w.port }
  if hedgeHolds s w.port then { s with hedge := { s.hedge with heldWr := s.hedge.heldWr ++ [(ep, w)] } }
  else checkWrite s w ep

/-- Writes waiting untagged are tagged in arrival order as far as they may be (R281 to R283). -/
def tagWaiting (s : State) : Nat → State
  | 0 => s
  | n + 1 =>
    match s.land.waiting with
    | [] => s
    | w :: rest =>
      if mayTag s w then tagWaiting (tagWrite (updLand s fun l => { l with waiting := rest }) w) n else s

/-- Every write waiting untagged tried, and what waits behind them (R281 to R283). -/
def tagAll (s : State) : State := settleTargets (tagWaiting s s.land.waiting.length)

/-- A protected write or release taken at its ingress (R271, R281, R297). -/
def takeWrite (s : State) (w : WaitWr) (beOk : Bool) : State :=
  if quota s w.host = 0 then s
  else if !(mefAnswers s w.host) then refuseWrite s w (eOpen s) 5
  else if !(writeFormOk s w beOk) then refuseWrite s w (eOpen s) 1
  else if s.land.removed.contains (hostPol s w.host).homeSw then refuseWrite s w (eOpen s) 2
  else if s.land.waiting = [] && mayTag s w then tagWrite s w
  else updLand s fun l => { l with waiting := l.waiting ++ [w] }

/-- PROTECTED_WRITE_INGRESS (R281): refused under R271, R184 or R297, tagged with E_open and sent, or left waiting untagged.
With a quota of 0 the host has no BAR2 and its write is no protected write (R271). -/
def execProtectedWriteIngress (p host : Nat) (reqId : BitVec 16) (off len : Nat) (beOk release : Bool)
    (data : List (BitVec 256)) (poison : Bool) (tc : BitVec 3) (s : State) : Res :=
  let s := countIn s p 1 (32 + (if release then 8 else len))
  .next (takeWrite s { port := p, host := host, reqId := reqId.toNat, off := off, len := len, release := release,
                       data := data, poison := poison, tc := tc.toNat } beOk)

/-- A whole value written to a host's LAND_RELEASE issues the release (R303). -/
def releaseGo (s : State) (host req v : Nat) : State :=
  takeWrite s { port := upPort s host, host := host, reqId := req, off := v % 2 ^ 20 * 4096
                len := v / 2 ^ 20 % 2 ^ 20 * 4096, release := true, data := [], poison := false, tc := 0 } true

/-- The half that a requester's write holding keeps for the pair at `a`, else the half given (R10). -/
def heldHalf (s : State) (host req a : Nat) (other : Word) : Word :=
  match s.access.hold.get (host * 65536 + req) with
  | some (b, v) => if a = b then v else other
  | none => other

/-- A requester's write holding released (R10). -/
def dropHold (s : State) (host req : Nat) : State :=
  { s with access := { s.access with hold := s.access.hold.set (host * 65536 + req) none } }

/-- LAND_RELEASE (R184, R303): the write of LAND_RELEASE_HI issues the release, with the _LO half its requester's holding keeps
(R10). -/
def execLandRelease (host req : Nat) (hi : Word) (s : State) : Res :=
  let lo := heldHalf s host req (Reg.LAND_RELEASE_LO host) 0
  .next (mefWritten s host fun s => releaseGo (dropHold s host req) host req (lo.toNat + hi.toNat * 2 ^ 32))

/-- A frame handed to the landing controller, read out of the buffer: one whose header word is lost goes with no LOSS (R235); one with
a poisoned word keeps its order, poisoned (R233). -/
def readForLand (s : State) (e : QEntry) (flip : BitVec 268) (addrFlip : BitVec 20) (i parity : Nat) : Option QEntry × State :=
  let r := bufRead s 0x7F e flip addrFlip i parity
  if r.1 = 2 then (none, headerDiscard r.2 0x7F e)
  else if r.1 = 1 then (some { e with f := { e.f with poison := true } }, count (bump r.2 Reg.BUF_POISON_OUT) 112 5)
  else (some e, r.2)

/-- What the landing controller does with what it read of a frame from port p: the frame gets its full epoch and is taken or refused
(R270, R278). -/
def homeTakes (p : Nat) (r : Option QEntry × State) : State :=
  match r.1 with
  | none => landPump r.2
  | some e => arriveHome r.2 e.f (rebuildEpoch (refEpoch r.2 (pairKey r.2 p)) e.f.epoch.toNat) e.tag (some e)

/-- VC1_INPUT_ARRIVE (R230, R260, R270, R278): the next frame that an ingress handed to the landing controller is read and
taken. `flip` and `addrFlip` say how the buffer word `wordIdx` differs from what was written, `parity` how
often its datapath parity failed. -/
def execVc1InputArrive (p : Nat) (flip : BitVec 268) (addrFlip : BitVec 20) (wordIdx parity : Nat) (s : State) : Res :=
  match s.fwd.toLand.find? fun e => e.inPort == p with
  | none => .next s
  | some e =>
    let s := { s with fwd := { s.fwd with toLand := s.fwd.toLand.erase e } }
    .next (homeTakes p (readForLand s e flip addrFlip wordIdx parity))

/-- WRITE_LANDED (R276): the oldest admitted write lands; the head write is tested again (R261). Nothing lands in the retention window of a
reset (R83). -/
def execWriteLanded (s : State) : Res :=
  match decide (s.start.phase = .retain), s.land.admitted with
  | true, _ => .next s
  | _, [] => .next s
  | _, w :: rest =>
    let s := landOne (updLand s fun l => { l with admitted := rest }) w
    .next (landPump (landReleases s rest.length))

/-! ### Epochs and markers -/

/-- The period of the epoch timer in core cycles (R280, R308). -/
def timerPeriod (s : State) : Nat := (rdF s Reg.LAND_CFG 7 0 + 1) * 400

/-- EPOCH_TIMER_EXPIRY (R280): a period after its opening E_open closes and the next epoch opens, unless the cap holds or the switch has not
joined. -/
def execEpochTimerExpiry (s : State) : Res :=
  if joined s then
    let s := timeTo s (s.land.openedAt + timerPeriod s)
    .next (sealPump (pumpOpen (updLand s fun l => { l with timerDue := true })))
  else .next s

/-- MARKER_RECEIVE (R280, R285, R286): the marker is recorded for its adjacency, CATCHUP or not; E_open follows. -/
def execMarkerReceive (p : Nat) (e : Epoch) (_catchup : Bool) (s : State) : Res :=
  let k := pairKey s p
  let s := updLand s fun l => { l with adj := l.adj.upd k fun a =>
    { a with rcv := some (match a.rcv with
        | some m => epMax m e.toNat
        | none => e.toNat) } }
  .next (sealPump (pumpOpen s))

/-- The VC1 frames of a port's queues that were put there up to a time. -/
def vc1Queued (s : State) (p upTo : Nat) : List Frame :=
  (((List.range 8).flatMap fun t => (s.fwd.queue.get (8 * p + t)).filter fun e => decide (e.at_ ≤ upTo)).map QEntry.f).filter
    fun f => decide (f.vc = 1)

/-- A marker put on an adjacency, in its place among the port's VC1 frames (R284). -/
def putMarker (s : State) (k e : Nat) (catchup : Bool) : State :=
  let s := sendOn s k (markerFrame s (neighbourOf s k) e catchup)
  updLand s fun l => { l with adj := l.adj.upd k fun a => { a with sent := some e, due := none } }

/-- MARKER_SEND (R284): the marker due on an adjacency is sent once no VC1 frame of an epoch at most its own, queued there before it was
due, is left. -/
def execMarkerSend (p : Nat) (s : State) : Res :=
  let k := pairKey s p
  match (s.land.adj.get k).due with
  | none => .next s
  | some e =>
    if (vc1Queued s k (s.land.adj.get k).dueAt).any fun f => decide (f.typ ≠ 5) && epLe (rebuildEpoch e f.epoch.toNat) e then .next s
    else .next (sealPump (putMarker s k e false))

/-- LOSS_RECEIVE (R288): the origin records the loss and counts it. -/
def execLossReceive (e : Epoch) (reqId : BitVec 16) (srcPort : BitVec 7) (kind : BitVec 3) (_home : BitVec 12) (n : Nat)
    (s : State) : Res :=
  .next (sealPump (lossApply s e.toNat reqId.toNat srcPort.toNat kind.toNat n))

/-! ### The cluster seal -/

/-- The leader a switch follows: its register, and the root of its tree (R289, R308). A fence held while a leader is known can no longer draw
NO_LEADER (R299). -/
def setLeader (s : State) (sw term : Nat) (me none_ : Bool) : State :=
  let s := wrN s Reg.LAND_LEADER (sw + term * 2 ^ 12 + me.toNat * 2 ^ 28 + none_.toNat * 2 ^ 29)
  updLand s fun l => { l with
    term := term
    highTerm := max l.highTerm term
    noLeader := none_
    haveRoot := true
    fences := if none_ then l.fences else l.fences.mapVals fun _ fs => fs.map fun f => { f with noLead := false } }

/-- A new leader during a brace sends BRACE with the current BRACE_ID, or the next one where it holds none, and its own TERM; of the
members it counts itself where its own input braced (R313, R316). -/
def braceAgain (s : State) : State :=
  let next := if (s.pfail.nextId + 1) % 2 ^ 16 = 0 then 1 else (s.pfail.nextId + 1) % 2 ^ 16
  let id := s.pfail.id.getD next
  let me := swId s
  let own := rdB s Reg.PFAIL_STATUS 3
  let s := { s with pfail := { s.pfail with
    id := some id, nextId := id, highs := [], highSent := false, ownH := (s.pfail.cut.orElse fun _ => s.pfail.ownH)
    bracedBy := if own || s.pfail.recovered.contains me then [me] else []
    recovered := s.pfail.recovered.filter fun w => decide (w = me) } }
  let s := wrN s Reg.PFAIL_BRACE_ID (id + s.land.term * 2 ^ 16)
  let w := id + s.land.term * 2 ^ 16 + own.toNat * 2 ^ 32 + me * 2 ^ 36
  (treeChildren s (ownMember s)).foldl (fun s c => sendMsg s (memberSw s c) 0x10 (seOf s) [w]) s

/-- REGION_LOST at the origin (R298): a fault of kind 6 at the LAST_EPOCH of every requester of the host at or below the epoch
carried. -/
def regionLost (s : State) (se host : Nat) : State :=
  let hit := s.land.recs.cells.filter fun c => decide (keyHost c.1 = host) && (c.2.map fun r => epLe r.last se).getD false
  let s := hit.foldl (fun s c => recFault s c.1 ((c.2.map ReqRec.last).getD se) 6) s
  fault (wrB s (Reg.LAND_WIN_STATUS host) 3 true) 8 0x06 2 4 0 se

/-- REGION_LOST for each region of a buffer that was not kept, to its origin (R298). -/
def sendRegionsLost (s : State) : State :=
  (regionList s).foldl (fun s r =>
    let s := fault s 8 0x06 2 4 0 (seOf s)
    if regionSw s r = swId s then regionLost s (seOf s) (regionHost s r)
    else sendMsg s (regionSw s r) 7 (seOf s) [r + regionHost s r * 32]) s

/-- The members that a new sealing set leaves removed: outside it, and in the set before or removed already (R297). A member that was never
in the set has not been removed: writes toward it wait there until it joins (R298; DEDUCED, log entry 116). -/
def removedHomes (s : State) (set : Nat) : List Nat :=
  let old := sealSet s
  ((List.range 64).filter fun m => !(bitN set m) && (bitN old m || s.land.removed.contains (memberSw s m))).map (memberSw s)

/-- A sealing set adopted; windows of homes removed or included follow (R289, R297, R310). -/
def setSealSet (s : State) (set : Nat) : State :=
  let s := updLand s fun l => { l with removed := removedHomes s set }
  let s := wr64 s Reg.LAND_SET_LO set
  (hostsOf s).foldl winNote s

/-- The switch has joined (R283, R298): E_open at least E_join and SE + 1; a buffer not kept is reported lost. -/
def joinAt (s : State) (eJoin : Nat) : State :=
  let first := !(joined s)
  let s := wrB s Reg.LAND_STATUS 1 true
  let eo := epMax (epMax (eOpen s) eJoin) (epAdd (seOf s) 1)
  let s := if eo = eOpen s then s else openEpoch s eo
  if first && !s.land.kept then sendRegionsLost s else s

/-- A claimant that has become leader: the sealing set starts as the members that answered when there was none, and the leader
joins its own set as it would include any other member (R289, R298). -/
def leaderJoins (s : State) (got : Nat) : State :=
  let s := setSealSet s (if sealSet s = 0 then got else setBitN (sealSet s) (ownMember s) true)
  if joined s then s else joinAt s (epAdd (eOpen s) 2)

/-- A claimant that has a REPORT of its TERM from a majority acts as leader: it takes the largest SE they carry and goes on
sealing (R295, R296). -/
def claimTry (s : State) (term bitmap maxSe : Nat) : State :=
  match s.land.claim with
  | none => s
  | some (t, got) =>
    if t ≠ term then s
    else
      let got := got ||| bitmap
      let s := updLand s fun l => { l with claim := some (t, got) }
      let heard := (bitsOf 64 s.seed.policy.members).filter fun m => bitN got m
      let s := adoptSe s maxSe false
      if (bitsOf 64 s.seed.policy.members).length < 2 * heard.length then
        let s := setLeader (updLand s fun l => { l with claim := none }) (swId s) term true false
        let s := leaderJoins s got
        let s := if s.pfail.braceAt.isSome && s.pfail.commit.isNone then braceAgain s else s
        sendSeal (decideSeals s) false
      else s

/-- REPORT_RECEIVE (R290, R294, R295): a REPORT of a lower TERM is ignored; another replaces the earlier one of its child and
epoch and is used while it fits; the claimant counts it. -/
def execReportReceive (child : Nat) (e : Epoch) (sent landed lost : Nat) (bitmap : DWord) (maxSe : Epoch) (term : BitVec 16)
    (_update : Bool) (s : State) : Res :=
  if term.toNat < s.land.term then .next s
  else
    let r : Report := { child := child, ep := e.toNat, sent := sent, landed := landed, lost := lost, bitmap := bitmap.toNat,
                        maxSe := maxSe.toNat, term := term.toNat }
    let s := updLand s fun l => { l with
      reports := (l.reports.filter fun x => !(x.child == child && x.ep == e.toNat)) ++ [r]
      highTerm := max l.highTerm term.toNat }
    let s := claimTry s term.toNat bitmap.toNat maxSe.toNat
    let s := if s.land.sentRep.contains e.toNat then reportAgain s e.toNat else reportTry s e.toNat
    .next (sealPump s)

/-- UNATTR_WAIT_EXPIRY (R291): ΣSENT stayed above for 200 µs, so the leader seals the epoch with UNATTR = 1. -/
def execUnattrWaitExpiry (e : Epoch) (s : State) : Res :=
  if isLeader s && s.pfail.braceAt.isNone && majority s && decide (e.toNat = epAdd (seOf s) 1) && (s.land.sumHigh.any fun x => x.1 == e.toNat)
      && decide (sealVerdict s e.toNat = 2) then
    let s := timeTo s (((s.land.sumHigh.find? fun x => x.1 == e.toNat).map Prod.snd).getD s.now + 320000)
    .next (sealPump (sendSeal (adoptSe s e.toNat true) true))
  else .next s

/-- CLUSTER_SEAL_PERIOD_EXPIRY (R291, R295): 10 µs without a seal, so the leader sends CLUSTER_SEAL again. -/
def execClusterSealPeriodExpiry (s : State) : Res :=
  if isLeader s && majority s then .next (sendSeal (decideSeals (timeTo s (s.land.lastSeal + 16000))) false) else .next s

/-- REJOIN to the leader (R298): own SE, E_open, KEPT. -/
def sendRejoin (s : State) : State :=
  sendMsg s (leaderSw s) 5 (seOf s) [eOpen s, s.land.kept.toNat]

/-! ### Leader changes, exclusion and rejoin -/

/-- This switch is the first of the leader list that it reaches, and it reaches a majority (R295). -/
def mayClaim (s : State) : Bool :=
  (match s.seed.policy.leaders.find? fun l => reachable s l with
    | some l => decide (l = swId s)
    | none => false) && majority s

/-- CLAIM with a TERM one above the highest seen, to every member reached (R295). -/
def sendClaim (s : State) : State :=
  let t := s.land.highTerm + 1
  let s := updLand (setLeader s (swId s) t false true) fun l => { l with claim := some (t, 2 ^ ownMember s) }
  let others := (reachedMembers s).filter fun m => m ≠ ownMember s
  let s := others.foldl (fun s m => sendMsg s (memberSw s m) 4 (seOf s) [t]) s
  claimTry s t (2 ^ ownMember s) (seOf s)

/-- FAILOVER_TIMEOUT (R296): no CLUSTER_SEAL for 100 µs, or the leader is unreachable. -/
def execFailoverTimeout (s : State) : Res :=
  if isLeader s then .next s
  else
    let s := count (bump s Reg.LAND_FAILOVERS) 113 8
    let s := setLeader s (leaderSw s) s.land.term false true
    let s := if mayClaim s then sendClaim s else s
    .next s

/-- MEMBER_REMOVAL_EXPIRY (R297): the leader removes a member and seals what waited for it. -/
def execMemberRemovalExpiry (m : Nat) (s : State) : Res :=
  if isLeader s && s.pfail.braceAt.isNone && bitN (sealSet s) m && decide (m ≠ ownMember s) then
    let s := updLand s fun l => { l with
      gap := (l.gap ++ openRange s).dedup.filter fun e => epAfter e (seOf s)
      joins := l.joins.filter fun j => j.1 ≠ m
      reports := l.reports.filter fun r => r.child ≠ m }
    let s := setSealSet s (setBitN (sealSet s) m false)
    .next (sendSeal (sealPump s) false)
  else .next s

/-- REJOIN_RECEIVE (R298): the leader answers with INCLUDE and adds the member from E_join = E_open + 2 onward. -/
def execRejoinReceive (sw : BitVec 12) (_se _eOpen : Epoch) (_kept : Bool) (s : State) : Res :=
  if isLeader s && sameCluster s sw.toNat then
    let m := sw.toNat % 64
    let ej := epAdd (eOpen s) 2
    let s := setSealSet s (setBitN (sealSet s) m true)
    let s := updLand s fun l => { l with joins := (l.joins.filter fun j => j.1 ≠ m) ++ [(m, ej)] }
    .next (sendMsg s sw.toNat 6 ej [sealSet s, s.land.term])
  else .next s

/-- REGION_LOST_RECEIVE (R298, R310). -/
def execRegionLostReceive (se : Epoch) (_region host : Nat) (s : State) : Res := .next (regionLost s se.toNat host)

/-! ### Fences and reads -/

/-- A fence read arrives (R299): it reaches the MEF, or waits in the ingress non-posted queue while the MEF holds 64 of its host. -/
def takeFence (s : State) (host : Nat) (f : FenceSt) : State :=
  if s.land.fenceQ.get host = [] && decide ((s.land.fences.get host).length < 64) then fenceEnter s host f
  else updLand s fun l => { l with fenceQ := l.fenceQ.upd host fun q => q ++ [f] }

/-- DURABILITY_FENCE (R299): a read of LAND_FENCE; UR status while the MEF does not answer (R184, R195). -/
def execDurabilityFence (host : Nat) (reqId : BitVec 16) (wide : Bool) (s : State) : Res :=
  if !(mefAnswers s host) then .next (emit s (.cpl (upPort s host) reqId.toNat 0 1 false []))
  else .next (takeFence s host { reqId := reqKey host reqId.toNat, target := 0, wide := wide, req := reqId.toNat,
                                 off := Reg.LAND_FENCE_LO host })

/-- CONN_FENCE_READ (R380): the same on a connection's record; NO_WINDOW when no open protected-capable connection is named. -/
def execConnFenceRead (host : Nat) (reqId : BitVec 16) (i : Nat) (wide : Bool) (s : State) : Res :=
  if !(mefAnswers s host) then .next (emit s (.cpl (upPort s host) reqId.toNat 0 1 false []))
  else .next (takeFence s host { reqId := connKey (32 * i + host), target := 0, wide := wide, req := reqId.toNat,
                                 off := 0x20000 + 8 * i, conn := some i })

/-- FENCE_TIMEOUT (R299): the oldest fence the MEF holds for a host completes NOT_YET, or NO_LEADER when no leader was known
since it arrived. -/
def execFenceTimeout (host : Nat) (s : State) : Res :=
  match s.land.fences.get host with
  | [] => .next s
  | f :: rest =>
    let s := updLand (timeTo s (f.at_ + 62400)) fun l => { l with fences := l.fences.set host rest }
    let s := finishFence s host f (if f.noWin then 3 else if f.noLead && noLeader s then 2 else 1)
    .next (fencePump s host)

/-- BAR2_READ (R302): held until SE reaches the requester's LAST_EPOCH, then served. -/
def execBar2Read (host : Nat) (reqId : BitVec 16) (tag : BitVec 10) (off len : Nat) (s : State) : Res :=
  if !(mefAnswers s host) || decide (quota s host * 4096 < off + len) then
    .next (emit s (.cpl (upPort s host) reqId.toNat tag.toNat 1 false []))
  else
    let s := count s (80 + host) 8
    let k := reqKey host reqId.toNat
    let r : Bar2Rd := { reqId := reqId.toNat, tag := tag.toNat, target := lastOf s k, addr := landAddr s host off, len := len
                        open_ := untagged s k, at_ := s.now }
    if !r.open_ && epLe r.target (seOf s) then .next (serveBar2 s host r)
    else .next (updLand s fun l => { l with bar2 := l.bar2.upd host fun q => q ++ [r] })

/-- BAR2_READ_ABORT (R302): a hold of 40 µs ends in Completer Abort. -/
def execBar2ReadAbort (host : Nat) (s : State) : Res :=
  match s.land.bar2.get host with
  | [] => .next s
  | r :: rest =>
    let s := updLand (timeTo s (r.at_ + 64000)) fun l => { l with bar2 := l.bar2.set host rest }
    .next (emit (bump s Reg.LAND_READ_ABORT) (.cpl (upPort s host) r.reqId r.tag 4 false []))

/-! ### The DRAM -/

/-- PATROL_READ (R277): one word of a written page is read; `flip` is how its stored bits now differ from what was written.
A corrected word is written back; an uncorrectable one is left and counted (R307). -/
def execPatrolRead (w : Nat) (flip : BitVec 288) (addrFlip : BitVec 26) (s : State) : Res :=
  let s := updLand s fun l => { l with word := l.word.upd w fun x => { x with err := flip } }
  let s := count s 113 11
  let fixable := decide (landVerdict (landSyndrome flip.toNat addrFlip.toNat) = .corrected)
  let left := landLeft (s.land.word.get w) (landSyndrome flip.toNat addrFlip.toNat)
  let r := readWord s w addrFlip.toNat
  if fixable then
    .next (updLand r.2 fun l => { l with word := l.word.upd w fun x => { x with err := BitVec.ofNat 288 left } })
  else .next r.2

/-- LAND_DIAG_GO (R308): a write of LAND_DIAG_CTRL keeps W; with GO it reads the word's meta bits and syndrome. -/
def execLandDiagGo (v : Word) (flip : BitVec 288) (s : State) : Res :=
  let w := getF v 25 0
  let s := wrF s Reg.LAND_DIAG_CTRL 25 0 w
  if getB v 31 then
    let s := updLand s fun l => { l with word := l.word.upd w fun x => { x with err := flip } }
    let r := readWord s w 0
    let m := metaOf (s.land.word.get w) ^^^ (landLeft (s.land.word.get w) r.1.2.2 / 2 ^ 256 % 2 ^ 16)
    .next (wrN r.2 Reg.LAND_DIAG_META (m + r.1.2.2 * 2 ^ 16))
  else .next s

/-- The landing buffer goes out of service: its windows close, and what waits to be admitted is refused with a LOSS of kind 2 (R33, R276,
R307). -/
def bufferOut (s : State) : State :=
  let s := wrB s Reg.LAND_STATUS 0 false
  let late := s.land.input
  let s := updLand s fun l => { l with input := [] }
  landPump (late.foldl (fun s w => refuseIn (match w.tag with
      | some t => hedgeDrop s t
      | none => s) w) s)

/-- DRAM_CHANNEL_FAIL (R33, R307): the buffer is out of service; writes that reach it from now on, and those waiting to be
admitted, are refused with a LOSS of kind 2. -/
def execDramChannelFail (c : Nat) (s : State) : Res :=
  .next (bufferOut (faultU s 8 0x07 2 c))

end Sys2Proof.Machine
end

