-- ==== Sys2Proof/Machine/RmeRequests.lean ====
section
/-! DEFINITION. Remote memory: the requests that manage queues, areas, connections and regions, and the doorbells and completion
queues (R374 to R379, R386 to R389, R402 to R406). -/

namespace Sys2Proof.Machine

open Sys2Proof

/-- The issuer of a request about a host's own objects (R539). -/
def hostOnly : Issuers := { h := true }

/-! ### Doorbells (R375) -/

/-- SQ_TAIL_WRITE (R184, R375). -/
def execSqTailWrite (host sq : Nat) (v : Word) (s : State) : Res :=
  let key := 1024 * host + sq
  let q := s.rme.sq.get key
  if q.st = 0 || !(mefAnswers s host) then .next s
  else .next (sqFetch (updSq s key fun q => { q with tail := getF v 15 0 % 2 ^ q.log2 }) key)

/-- The SQs of a host bound to a CQ. -/
def boundSqs (s : State) (k cq : Nat) : List Nat :=
  (s.rme.sq.cells.filter fun c => decide (c.1 / 1024 = k) && decide (c.2.st ≠ 0) && decide (c.2.cq = cq)).map Prod.fst

/-- CQ_HEAD_WRITE (R184, R375, R378): entries are free again, and the SQs that waited fetch on. -/
def execCqHeadWrite (host cq : Nat) (v : Word) (s : State) : Res :=
  let key := 1024 * host + cq
  if !(s.rme.cq.get key).valid || !(mefAnswers s host) then .next s
  else
    let s := updRme s fun r => { r with cq := r.cq.upd key fun c => { c with head := getF v 15 0 % 2 ^ c.log2 } }
    .next ((boundSqs s host cq).foldl sqFetch s)

/-- CQ_ARM_WRITE (R184, R375): ARM asks for one MSI-X message at the next entry written. -/
def execCqArmWrite (host cq : Nat) (v : Word) (s : State) : Res :=
  let key := 1024 * host + cq
  if (s.rme.cq.get key).valid && mefAnswers s host && getB v 0 then
    .next (updRme s fun r => { r with cq := r.cq.upd key fun c => { c with armed := true } })
  else .next s

/-- The completion entry of a message (R378). -/
def cqeWords (c : Cq) (m : RMsg) : List Word :=
  let st := m.status.getD 0
  let ep := if bitN m.w.flags.toNat 0 then m.epoch.getD 0 else 0
  [lo32 m.w.wrId.toNat, hi32 m.w.wrId.toNat, w32 (m.conn % 2 ^ 20), w32 (st + (m.w.flags.toNat % 2) * 2 ^ 8 + m.sq * 2 ^ 16),
   w32 m.bytes, lo32 ep, w32 (ep / 2 ^ 32 + m.sqHead * 2 ^ 16), w32 ((1 - c.written / 2 ^ c.log2 % 2) * 2 ^ 31)]

/-- The next message of a host that waits for an entry in a CQ: the first of its SQ's order. -/
def cqeDue (s : State) (k cq : Nat) : Option (Nat × RMsg) :=
  (boundSqs s k cq).findSome? fun key =>
    match ((s.rme.sq.get key).order.head?).bind (msgOf s) with
    | some m => if m.done && needsCqe m then some (key, m) else none
    | none => none

/-- CQE_WRITE (R378): an entry is written in posting order while the CQ has room; an armed CQ with a vector signals it. -/
def execCqeWrite (host cq : Nat) (s : State) : Res :=
  let ck := 1024 * host + cq
  let c := s.rme.cq.get ck
  match cqeDue s host cq with
  | none => .next s
  | some (key, m) =>
    if !(c.valid && cqRoom c && mefBme s host) then .next s
    else
      let s := (engWrite s (cq % 8) noConn host (.cqe cq) (c.base + 32 * (c.written % 2 ^ c.log2)) (cqeWords c m) false
        (some (BitVec.ofNat 20 c.pasid))).2
      let s := updRme s fun r => { r with
        cq := r.cq.upd ck fun c => { c with written := c.written + 1, armed := false }
        msgs := r.msgs.filter fun x => decide (x.id ≠ m.id) }
      let s := if m.status = some 0 || m.status = some 1 then s else count s (80 + host) 12
      let s := if c.armed && decide (c.vec ≠ 0) then msix s host c.vec else s
      let s := updSq s key fun q => { q with order := q.order.tail }
      let s := sqPump s key ((s.rme.sq.get key).order.length + 1)
      .next (sqFetch (sqDestroy (noteRme s) key) key)

/-! ### Requests (R389) -/

/-- The area registers of host k follow (R413). -/
def noteAreas (s : State) (k : Nat) : State :=
  let bits := (areasOf s k).foldl (fun b x => setBitN b x.1 true) 0
  let slots := ((areasOf s k).map fun x => areaEnd x.1 x.2 - 2048 * x.1).sum
  let s := wrN (wrF s (Reg.RME_H_AREAS k) 15 0 bits) (Reg.RME_H_SLOTS k) (min slots 32768)
  wrB s (Reg.RME_H_STATUS k) 0 (decide (areasOf s k ≠ []))

/-- COMPOST_ADD (R387, R389). An area that would cover a position already taken is refused as well (DEDUCED, log entry 117). -/
def execCompostAdd (q : ReqSrc) (pos : Nat) (base : BitVec 64) (log2 : Nat) (pasid : Option (BitVec 20)) (s : State) : Res :=
  .next (serve s q 0x0501 hostOnly false false fun s =>
    if 16 ≤ pos || decide (base.toNat % 4096 ≠ 0) || decide (log2 < 16) || decide (30 < log2) then reply s q 0x0501 0x03 []
    else if (hostPol s q.host).maxAreas ≤ (areasOf s q.host).length then reply s q 0x0501 0x04 []
    else if (areaFor s q.host (2048 * pos)).isSome
      || ((areasOf s q.host).any fun x => decide (pos < x.1) && decide (2048 * x.1 < 2048 * pos + 2 ^ log2 / 256)) then reply s q 0x0501 0x07 []
    else
      let a : Area := { base := base.toNat, log2 := log2, pasid := pasid }
      let s := updRme s fun r => { r with areas := r.areas.set (16 * q.host + pos) (some a) }
      reply (noteAreas s q.host) q 0x0501 0 [])

/-- COMPOST_REMOVE (R389): refused while a covered index is not FREE. -/
def execCompostRemove (q : ReqSrc) (pos : Nat) (s : State) : Res :=
  .next (serve s q 0x0502 hostOnly false false fun s =>
    match s.rme.areas.get (16 * q.host + pos) with
    | none => reply s q 0x0502 (if 16 ≤ pos then 0x03 else 0x08) []
    | some a =>
      let used := s.rme.ctx.cells.any fun c => decide (c.1 % 32 = q.host) && decide (c.2.st ≠ 0) &&
        decide (2048 * pos ≤ c.1 / 32) && decide (c.1 / 32 < areaEnd pos a)
      if used then reply s q 0x0502 0x07 []
      else
        let s := updRme s fun r => { r with areas := r.areas.set (16 * q.host + pos) none }
        reply (noteAreas s q.host) q 0x0502 0 [])

/-- SQ_CREATE (R389): the lowest free SQ of the host. -/
def execSqCreate (q : ReqSrc) (base : BitVec 64) (log2 cq tc : Nat) (pasid : BitVec 20) (s : State) : Res :=
  .next (serve s q 0x0503 hostOnly false false fun s =>
    if decide (base.toNat % 4096 ≠ 0) || decide (log2 < 6) || decide (16 < log2) || decide (8 ≤ tc) || decide (vcOfClass s tc ≠ 0)
      || decide (1024 ≤ cq) then reply s q 0x0503 0x03 []
    else if !(s.rme.cq.get (1024 * q.host + cq)).valid then notFound s q 0x0503 4 (cq + 2 ^ 31)
    else match searchUp (fun n => decide ((s.rme.sq.get (1024 * q.host + n)).st = 0)) 1024 0 with
      | none => reply s q 0x0503 0x06 []
      | some n =>
        let x : Sq := { st := 1, base := base.toNat, log2 := log2, cq := cq, tc := tc, pasid := pasid.toNat }
        let s := updRme s fun r => { r with sq := r.sq.set (1024 * q.host + n) x }
        reply (noteQueues s q.host) q 0x0503 0 [w32 n])

/-- CQ_CREATE (R389): the lowest free CQ of the host. -/
def execCqCreate (q : ReqSrc) (base : BitVec 64) (log2 vec : Nat) (pasid : BitVec 20) (s : State) : Res :=
  .next (serve s q 0x0504 hostOnly false false fun s =>
    if decide (base.toNat % 4096 ≠ 0) || decide (log2 < 6) || decide (16 < log2) || decide (vec ≠ 0 ∧ (vec < 4 ∨ 63 < vec)) then
      reply s q 0x0504 0x03 []
    else match searchUp (fun n => !(s.rme.cq.get (1024 * q.host + n)).valid) 1024 0 with
      | none => reply s q 0x0504 0x06 []
      | some n =>
        let x : Cq := { valid := true, base := base.toNat, log2 := log2, vec := vec, pasid := pasid.toNat }
        let s := updRme s fun r => { r with cq := r.cq.set (1024 * q.host + n) x }
        reply (noteQueues s q.host) q 0x0504 0 [w32 n])

/-- QUEUE_DESTROY (R389): an SQ once its messages have completed; a CQ that no SQ is bound to. -/
def execQueueDestroy (q : ReqSrc) (isCq : Bool) (n : Nat) (s : State) : Res :=
  .next (serve s q 0x0505 hostOnly false false fun s =>
    let key := 1024 * q.host + n
    if 1024 ≤ n then reply s q 0x0505 0x03 []
    else if isCq then
      if !(s.rme.cq.get key).valid then notFound s q 0x0505 4 (n + 2 ^ 31)
      else if boundSqs s q.host n ≠ [] then reply s q 0x0505 0x07 []
      else reply (noteQueues (updRme s fun r => { r with cq := r.cq.set key {} }) q.host) q 0x0505 0 []
    else if (s.rme.sq.get key).st = 0 then notFound s q 0x0505 4 n
    else if (s.rme.sq.get key).closing.isSome then reply s q 0x0505 0x07 []
    else sqDestroy (updSq s key fun x => { x with st := 3, closing := some q }) key)

/-- The lowest covered FREE index of a host from `i` on. -/
def freeIdx (s : State) (k : Nat) (fuel i : Nat) : Option Nat :=
  searchUp (fun i => (areaFor s k i).isSome && decide ((ctxOf s (32 * i + k)).st = 0)) fuel i

/-- CONN_CREATE (R389): the lowest free covered index of its range; refused for a host without an area (R398). -/
def execConnCreate (q : ReqSrc) (prot : Bool) (s : State) : Res :=
  .next (serve s q 0x0506 hostOnly false false fun s =>
    if areasOf s q.host = [] then reply s q 0x0506 0x07 []
    else match if prot then freeIdx s q.host 2048 0 else freeIdx s q.host 30720 2048 with
      | none => reply s q 0x0506 0x06 []
      | some i =>
        let n := 32 * i + q.host
        let r := makeRoom s n
        if !r.2 then reply r.1 q 0x0506 0x06 []
        else
          let c : Ctx := { st := 1, prot := prot, host := q.host, cached := true, dirty := true, used := s.now }
          let s := updRme r.1 fun x => { x with ctx := x.ctx.set n c }
          let s := bumpF s (Reg.RME_H_CONNS q.host) 15 0 1
          reply (noteRme s) q 0x0506 0 [w32 n])

/-- CONN_CONNECT (R389): IDLE becomes OPEN; a protected-capable connection needs a peer in the own cluster. The changed context takes its
place in the cache (R386); with none to be had the request finds no resource (DESIGN CHOICE, log entry 117). -/
def execConnConnect (q : ReqSrc) (conn : Nat) (peerSw : BitVec 12) (peerConn : BitVec 20) (s : State) : Res :=
  .next (serve s q 0x0507 hostOnly false false fun s =>
    let c := ctxOf s conn
    if connHost conn ≠ q.host || c.st = 0 then notFound s q 0x0507 3 conn
    else if c.st ≠ 1 then reply s q 0x0507 0x07 []
    else if c.prot && !(sameCluster s peerSw.toNat) then reply s q 0x0507 0x04 []
    else
      let r := if c.cached then (s, true) else makeRoom s conn
      if !r.2 then reply r.1 q 0x0507 0x06 []
      else
        let s := updCtx r.1 conn fun c => { c with
          st := 2, peerSw := peerSw.toNat, peerConn := peerConn.toNat, txNext := 0, txUna := 0, rxCum := 0, rate := 512000, rto := 80
          cached := true, used := s.now }
        reply (noteRme s) q 0x0507 0 [])

/-- CONN_CLOSE (R389): new work entries complete FLUSHED, outstanding messages finish; answered when FREE. -/
def execConnClose (q : ReqSrc) (conn : Nat) (s : State) : Res :=
  .next (serve s q 0x0508 hostOnly false false fun s =>
    let c := ctxOf s conn
    if connHost conn ≠ q.host || c.st = 0 then notFound s q 0x0508 3 conn
    else
      let s := updCtx s conn fun c => { c with st := 4 }
      let s := updRme s fun r => { r with closing := r.closing ++ [(conn, q)] }
      closePump s conn)

/-! ### Registrations (R402 to R406) -/

/-- A new ACTIVE entry at the lowest free index that is not retired; its TAG is drawn at its first use of this start (R403). -/
def allocRegion (s : State) (g : Region) : Option Nat × State :=
  let t := s.rme.regions
  match searchUp (fun i => decide (i < 2 ^ 18) && decide ((t.get i).st = 0) && !(t.get i).retired) (t.cells.length + 1) 0 with
  | none => (none, s)
  | some i =>
    let old := t.get i
    match old.startTag with
    | some _ =>
      (some i, updRegion s i fun o => { g with st := 1, tag := o.tag, startTag := o.startTag })
    | none =>
      let v := freshBits s 10
      (some i, updRegion v.2 i fun _ => { g with st := 1, tag := v.1.toNat, startTag := some v.1.toNat })

/-- An entry returns to FREE: TAG advances, and an index whose next TAG would equal its starting value is retired (R403). -/
def freeRegion (s : State) (i : Nat) : State :=
  let k := (s.rme.regions.get i).owner
  noteRegions (updRegion s i fun g =>
    { tag := (g.tag + 1) % 1024, startTag := g.startTag, retired := decide (some ((g.tag + 1) % 1024) = g.startTag) }) k

/-- A connectionless message of an engine (R399): its ID, its packets waiting to be sent. -/
def clStart (s : State) (m : RMsg) (eng : Nat) : State :=
  let n := s.rme.clCount.get eng
  let id := eng * 2 ^ 29 + n % 2 ^ 29
  let s := countBy s (115 + eng) 10 1
  updRme s fun r => { r with
    clCount := r.clCount.set eng (n + 1)
    msgs := r.msgs ++ [{ m with id := r.nextMsg, conn := noConn, clId := id, started := true, npk := m.items.length,
                                items := m.items.map fun it => { it with msg := r.nextMsg } }]
    nextMsg := r.nextMsg + 1 }

/-- A CTRL packet's body (R401). -/
def ctrlBody (action host key off len perm peers peerSw : Nat) : List Word :=
  [w32 (action + host * 2 ^ 4), w32 key, lo32 off, hi32 off, lo32 len, hi32 len, w32 (perm + peers * 2 ^ 4 + peerSw * 2 ^ 6), 0]

/-- A CTRL message to a home (R401). -/
def sendCtrl (s : State) (home : Nat) (host action key : Nat) (q : Option ReqSrc) (body : List Word) : State :=
  clStart s { id := 0, kind := 3, host := host, dst := home, action := action, region := key, q := q,
              items := [{ kind := 4, last := true, asked := true, ready := true, data := body }] } 0

/-- The registrations a host holds against its envelope, those asked of a home among them (R404). -/
def hostRegions (s : State) (k : Nat) : List Nat :=
  ((s.rme.regions.cells.filter fun c => decide (c.2.st ≠ 0) && decide (c.2.owner = k) && !c.2.landing).map fun c => c.2.len)
    ++ ((s.rme.landKeys.filter fun x => decide (x.host = k)).map LandKey.len)
    ++ ((s.rme.msgs.filter fun m => m.kind == 3 && decide (m.action = 1) && !m.done && decide (m.host = k)).map RMsg.region)

/-- The landing region entry of a window range on its own home (R401, R404). -/
def landRegion (host origin base len peers peerSw : Nat) : Region :=
  { landing := true, owner := host, origin := origin, perm := 4, peers := peers, peerSw := peerSw, base := base, len := len }

/-- A landing key granted by a home is kept by the origin and answered (R404). -/
def grantLandKey (s : State) (q : ReqSrc) (key home len : Nat) : State :=
  let s := updRme s fun r => { r with landKeys := r.landKeys ++ [{ key := key, host := q.host, home := home, len := len }] }
  reply (noteRegions s q.host) q 0x0509 0 [w32 key, w32 home]

/-- REG_REGION (R404). -/
def execRegRegion (q : ReqSrc) (landing : Bool) (base len : Nat) (pasid : Option (BitVec 20)) (perm peers : Nat)
    (peerSw : BitVec 12) (s : State) : Res :=
  .next (serve s q 0x0509 hostOnly false false fun s =>
    let h := hostPol s q.host
    let form := if landing then decide (base % 4096 = 0) && decide (len % 4096 = 0) && decide (0 < len)
        && decide (perm = 4) && decide (peers = 1 ∨ peers = 2)
      else decide (len % 4096 = 0) && decide (4096 ≤ len) && decide (len ≤ 2 ^ 40) && decide (perm ≠ 0) && !(bitN perm 2)
        && decide (perm < 16) && decide (peers < 3)
    if !form then reply s q 0x0509 0x03 []
    else if (landing && decide (quota s q.host * 4096 < base + len)) || decide (h.maxRegions ≤ (hostRegions s q.host).length)
      || decide (h.maxBytes < (hostRegions s q.host).sum + len) || decide (perm &&& h.kinds ≠ perm) then reply s q 0x0509 0x04 []
    else if landing then
      if h.homeSw = swId s then
        let r := allocRegion s (landRegion q.host (swId s) (landAddr s q.host base) len peers peerSw.toNat)
        match r.1 with
        | none => reply r.2 q 0x0509 0x06 []
        | some i => grantLandKey r.2 q (keyOf r.2 i) h.homeSw len
      else sendCtrl s h.homeSw q.host 1 len (some q) (ctrlBody 1 q.host 0 base len perm peers peerSw.toNat)
    else
      let r := allocRegion s { owner := q.host, origin := swId s, perm := perm, peers := peers, peerSw := peerSw.toNat,
                               pasid := pasid, base := base, len := len }
      match r.1 with
      | none => reply r.2 q 0x0509 0x06 []
      | some i => reply (noteRegions r.2 q.host) q 0x0509 0 [w32 (keyOf r.2 i), w32 (swId s)])

/-- REVOKE_REGION (R406): the entry drains; a landing key is drained at its home. A key that drains already is in no state for it. -/
def execRevokeRegion (q : ReqSrc) (key : BitVec 32) (s : State) : Res :=
  .next (serve s q 0x050A hostOnly false false fun s =>
    match s.rme.landKeys.find? fun x => x.key == key.toNat && x.host == q.host with
    | some x =>
      if x.draining then reply s q 0x050A 0x07 [] else
      let mark (y : LandKey) : LandKey :=
        if y.key = key.toNat && decide (y.host = q.host) then { y with draining := true, q := some q } else y
      let s := updRme s fun r => { r with landKeys := r.landKeys.map mark }
      match if x.home = swId s then keyEntry s key.toNat else none with
      | some i => updRegion s i fun g => { g with st := if g.st = 1 then 2 else g.st }
      | none => sendCtrl s x.home q.host 2 key.toNat none (ctrlBody 2 q.host key.toNat 0 0 0 0 0)
    | none =>
      match keyEntry s key.toNat with
      | some i =>
        let g := s.rme.regions.get i
        if g.owner = q.host && !g.landing then
          if g.st = 1 then updRegion s i fun g => { g with st := 2, q := some q } else reply s q 0x050A 0x07 []
        else notFound s q 0x050A 1 key.toNat
      | none => notFound s q 0x050A 1 key.toNat)

/-- A landing key reported revoked by its home leaves the origin and is answered (R406). -/
def dropLandKey (s : State) (key : Nat) : State :=
  match s.rme.landKeys.find? fun x => x.key == key with
  | none => s
  | some x =>
    let s := updRme s fun r => { r with landKeys := r.landKeys.filter fun y => y.key ≠ key }
    let s := noteRegions s x.host
    match x.q with
    | some q => reply s q 0x050A 0 []
    | none => s

/-- REGION_OUTSTANDING_ZERO (R403, R406): a draining entry with nothing outstanding is REVOKED, answered, and returns to FREE. -/
def execRegionOutstandingZero (idx : Nat) (s : State) : Res :=
  let g := s.rme.regions.get idx
  if g.st = 2 && decide (g.outst = 0) then
    let key := keyOf s idx
    let s := freeRegion s idx
    let s := match g.q with
      | some q => reply s q 0x050A 0 []
      | none => s
    .next (if g.landing && decide (g.origin = swId s) then dropLandKey s key else s)
  else .next s

/-- REGION_QUERY_EXPIRY (R406): the origin asks the home for a draining key's state every 10 µs. -/
def execRegionQueryExpiry (key : BitVec 32) (s : State) : Res :=
  match s.rme.landKeys.find? fun x => x.key == key.toNat && x.draining with
  | none => .next s
  | some x => .next (sendCtrl s x.home x.host 3 key.toNat none (ctrlBody 3 x.host key.toNat 0 0 0 0 0))

/-- CONN_CLOSE_EXPIRY (R409): 10 ms after a host's reset its CLOSING connections become FREE. -/
def execConnCloseExpiry (host : Nat) (s : State) : Res :=
  if s.rme.flr.contains host then
    let ns := (s.rme.ctx.cells.filter fun c => decide (c.1 % 32 = host) && decide (c.2.st = 4)).map Prod.fst
    let s := ns.foldl (fun s n => closeConn (flushMsgs s n 0x0E) n) s
    .next (flrAreas s host)
  else .next s

end Sys2Proof.Machine
end

