-- ==== Sys2Proof/Machine/RmePackets.lean ====
section
/-! DEFINITION. Remote memory: work entries started, packets sent and received, acknowledgements, timers, connectionless work and
the context cache (R375 to R401, R405, R411). -/

namespace Sys2Proof.Machine

open Sys2Proof

/-! ### Source data (R407, R408, R411) -/

/-- The owner key of the source data of a connectionless message, and of a response read again. -/
def clSrcKey (id : Nat) : Nat := 2 ^ 46 + id
def againKey (n psn : Nat) : Nat := n + 2 ^ 20 * (psn + 1)

/-- The key and the offset at which a packet's source data lies. -/
def itemSrc (m : RMsg) (it : TxItem) : Nat × Nat :=
  if it.kind = 3 then (m.region, m.w.remoteOff.toNat + it.off) else (m.w.localKey.toNat, m.w.localOff.toNat + 4064 * it.idx)

/-- A connectionless message ends with a status; a CTRL that asked for a landing key answers its request. -/
def clEnd (s : State) (m : RMsg) (status : Nat) : State :=
  let s := match m.q with
    | some q => if m.kind = 3 && decide (m.action = 1) then reply s q 0x0509 0x06 [] else s
    | none => s
  finishMsg s m.id status

/-- The source data of the next packet of a connectionless message is asked for (R407). -/
def askCl (s : State) (id : Nat) : State :=
  match msgOf s id with
  | none => s
  | some m =>
    if m.done || (m.items.any fun it => it.asked && !it.ready) then s
    else match m.items.find? fun it => !it.asked with
      | none => s
      | some it =>
        let mark (y : TxItem) : TxItem := if y = it then { it with asked := true, ready := decide (it.kind = 2 ∨ it.kind = 4) } else y
        let src := itemSrc m it
        if it.kind = 2 || it.kind = 4 then updMsg s id fun m => { m with items := m.items.map mark }
        else if it.kind = 1 && !(localOk s m.host src.1 src.2 it.bytes) then clEnd s m 0x02
        else if it.kind = 3 && decide ((s.rme.regions.get (m.region % 2 ^ 18)).st ≠ 1) then
          let s := ackFrame s m.dst 4 [w32 m.clId, w32 (0x05 * 2 ^ 16), 0]
          finishMsg (regionDone s (m.region % 2 ^ 18)) id 0x05
        else if !(mefBme s m.host) then s
        else engRead (updMsg s id fun m => { m with items := m.items.map mark }) (msgEng m) noConn m.host (.src (clSrcKey id))
          (regionAddr s src.1 src.2) it.bytes
          (s.rme.regions.get (src.1 % 2 ^ 18)).pasid

/-- The item with its data at hand. -/
def itemGot (it : TxItem) (data : List Word) (poison : Bool) : TxItem :=
  { it with ready := true, asked := true, data := data, poison := poison }

/-- A source read that failed: at the initiator the message ends HOST_READ_FAIL; at a target it draws REMOTE_HOST_ERROR (R408). -/
def srcFailed (s : State) (m : RMsg) : State :=
  if m.conn = noConn then
    if m.kind = 2 then
      let s := ackFrame s m.dst 4 [w32 m.clId, w32 (0x0D * 2 ^ 16), 0]
      finishMsg (regionDone s (m.region % 2 ^ 18)) m.id 0x0D
    else clEnd s m 0x0C
  else if m.kind = 2 then
    let s := updCtx s m.conn fun c => { c with sendQ := c.sendQ.filter fun it => decide (it.msg ≠ m.id) }
    let s := finishMsg (regionDone s (m.region % 2 ^ 18)) m.id 0x0D
    sendAck s m.conn 0x0D (m.expect.getD 0)
  else connError s m.conn 0x0C (some m.id)

/-- Every response of a READ has been read: its packet finishes at the target (R405). -/
def noteRead (s : State) (id : Nat) : State :=
  match msgOf s id with
  | none => s
  | some m =>
    if m.kind ≠ 2 then s
    else
      let s := updMsg s id fun m => { m with got := m.got + 1 }
      if m.got + 1 = m.npk then regionDone s (m.region % 2 ^ 18) else s

/-- Source data reaches the packet that asked for it (R407, R408, R411). -/
def srcDone (s : State) (key : Nat) (ok : Bool) (data : List Word) (poison : Bool) : State :=
  if 2 ^ 46 ≤ key then
    match msgOf s (key - 2 ^ 46) with
    | none => s
    | some m =>
      if !ok then srcFailed s m
      else
        let take (it : TxItem) : TxItem := if it.asked && !it.ready then itemGot it data poison else it
        let s := updMsg s m.id fun m => { m with items := m.items.map take, poison := m.poison || (poison && m.kind == 1) }
        askCl (noteRead s m.id) m.id
  else if 2 ^ 20 ≤ key then
    let n := key % 2 ^ 20
    let psn := key / 2 ^ 20 - 1
    if ok then updCtx s n fun c => { c with
      flight := c.flight.map fun f => if f.psn = psn then { f with item := itemGot f.item data poison } else f }
    else sendAck s n 0x0D psn
  else
    match (ctxOf s key).sendQ with
    | [] => s
    | it :: rest =>
      match msgOf s it.msg with
      | none => s
      | some m =>
        if !(it.asked && !it.ready) then s
        else if !ok then srcFailed s m
        else
          let s := updCtx s key fun c => { c with sendQ := itemGot it data poison :: rest }
          noteRead (updMsg s m.id fun m => { m with poison := m.poison || (poison && m.kind == 1) }) m.id

/-! ### Work entries (R375 to R377) -/

/-- A work entry is malformed (R376, R377). -/
def wqeMalformed (host : Nat) (w : Wqe) : Bool :=
  let conn := w.conn.toNat % 2 ^ 20
  let cl := decide (conn = noConn)
  let len := w.len.toNat
  let prot := bitN w.flags.toNat 0
  w.resv || decide (w.conn.toNat ≥ 2 ^ 20) || decide (w.flags.toNat ≥ 8) || decide (w.target.toNat ≥ 4096)
    || (!cl && decide (w.target ≠ 0)) || decide (w.op = 0) || decide (3 < w.op.toNat)
    || (if w.op = 3 then decide (len ≠ 0) else decide (len < 4) || decide ((if cl then 65024 else 8388608) < len))
    || decide (len % 4 ≠ 0) || decide (w.localOff.toNat % 4 ≠ 0) || decide (w.remoteOff.toNat % 4 ≠ 0)
    || (prot && (decide (w.op ≠ 1) || cl || decide (65536 ≤ conn)))
    || (!cl && decide (conn % 32 ≠ host))

/-- A protected work entry off the 32-byte grid (R377). -/
def wqeMisaligned (w : Wqe) : Bool :=
  bitN w.flags.toNat 0 && (decide (w.len.toNat % 32 ≠ 0) || decide (w.remoteOff.toNat % 32 ≠ 0))

/-- A message started as its class of work asks: a NOP waits its turn, connectionless work goes out, a connection's message
takes its number (R376, R389, R398). -/
def startWork (s : State) (host key : Nat) (w : Wqe) (id : Nat) : State :=
  let conn := w.conn.toNat % 2 ^ 20
  if w.op = 3 then sqPump s key ((s.rme.sq.get key).order.length + 1)
  else if conn = noConn then
    let eng := key % 8
    let n := s.rme.clCount.get eng
    let s := updRme s fun r => { r with clCount := r.clCount.set eng (n + 1) }
    let s := countBy s (115 + eng) 10 1
    let len := w.len.toNat
    let its := if w.op = 1 then wqeItems id w else [readItem id len 0 w.remoteOff.toNat]
    let s := updMsg s id fun m => { m with
      conn := noConn, dst := w.target.toNat, clId := eng * 2 ^ 29 + n % 2 ^ 29, started := true, npk := its.length, items := its }
    askCl s id
  else
    let _ := host
    startMsg s id

/-- One fetched work entry (R375 to R377): appended to its SQ's order, refused, or started. A poisoned entry gets a status the
rules do not state: a free value. -/
def takeWqe (s : State) (host sq : Nat) (w : Wqe) : State :=
  let key := 1024 * host + sq
  let q := s.rme.sq.get key
  let head := (q.head + 1) % 2 ^ q.log2
  let id := s.rme.nextMsg
  let m : RMsg := { id := id, kind := 1, host := host, sq := sq, sqHead := head, w := w, conn := w.conn.toNat % 2 ^ 20 }
  let s := updRme s fun r => { r with msgs := r.msgs ++ [m], nextMsg := id + 1 }
  let s := updSq s key fun q => { q with head := head, fetching := q.fetching - 1, order := q.order ++ [id] }
  let s := count s (80 + host) 9
  if w.ep then
    let v := freshBits s 8
    finishMsg v.2 id v.1.toNat
  else if wqeMalformed host w then finishMsg s id 0x0F
  else if wqeMisaligned w then
    let ep := eOpen s
    finishMsg (recFault (recLast s (connKey m.conn) ep) (connKey m.conn) ep 1) id 0x10
  else noteRme (startWork s host key w id)

/-- The read of a fetch ends once its entries have all been taken. -/
def endFetch (s : State) (host sq : Nat) : State :=
  if (s.rme.sq.get (1024 * host + sq)).fetching = 0 then
    let due := (s.pcie.mef.get host).reads.filter fun r => decide (r.own = .wqe sq)
    let s := updMef s host fun m => { m with reads := m.reads.filter fun r => decide (r.own ≠ .wqe sq) }
    readGo (mefTp (due.foldl readFree s) host)
  else s

/-- WQE_FETCH_DONE (R375, R389): the next entry of a fetch is checked and its message started; then the SQ is freed if it is to be, or
fetches on. -/
def execWqeFetchDone (host sq : Nat) (w : Wqe) (s : State) : Res :=
  let key := 1024 * host + sq
  if (s.rme.sq.get key).fetching = 0 then .next s
  else .next (sqFetch (sqDestroy (endFetch (takeWqe s host sq w) host sq) key) key)

/-! ### Sending (R390, R395 to R399) -/

/-- The bucket of a context brought up to now (R397). -/
def settleBucket (s : State) (c : Ctx) : Ctx := { c with lack := c.lack - c.rate * (s.now - c.lackAt), lackAt := s.now }

/-- The bucket holds a packet of `b` bytes (R397): 8,256 bytes, in units of 1/12,800 byte. -/
def bucketHas (s : State) (c : Ctx) (b : Nat) : Bool := decide ((settleBucket s c).lack + b * 12800 ≤ 8256 * 12800)

/-- The bucket after a packet of `b` bytes. -/
def bucketPay (s : State) (c : Ctx) (b : Nat) : Ctx := { settleBucket s c with lack := (settleBucket s c).lack + b * 12800 }

/-- The frame of a packet (R381 to R383). `age` is given for connectionless work. -/
def itemFrame (s : State) (m : RMsg) (it : TxItem) (dst dstConn src psn msn : Nat) (prot : Bool) (age : Option Nat)
    (ep : Nat) : Frame :=
  let cl := age.isSome.toNat
  let off := if it.kind = 4 then 0 else it.off
  let ws := rmeHeader dstConn src psn it.last msn (if it.kind = 4 then 0 else m.w.remoteKey.toNat) off it.idx it.lastIdx ++ it.data
  let sq := s.rme.sq.get (1024 * m.host + m.sq)
  let tc := if it.kind = 3 then classOf s 3 else if it.kind = 4 then lowClass s 0 else if prot then lowClass s 1 else sq.tc
  let op := if it.kind = 3 then 2 else it.kind
  let t1 := (if it.kind = 2 then it.readLen % 2 ^ 24 else 0) + age.getD 0 * 2 ^ 32
  rmeFrame s (if it.kind = 3 then 4 else 3) (if it.kind = 3 then 3 else if prot then 1 else 0) tc dst (op + 16 * cl) t1 prot
    it.poison ep ws

/-- The frame-form size B of a packet with so many words of data behind its 8 header words (R249, R382). -/
def packetB (words : Nat) : Nat := 32 + 4 * (8 + words)

/-- A packet sent, counted for its engine and its host's bytes (R520). -/
def countTx (s : State) (e k : Nat) (it : TxItem) (again : Bool) : State :=
  let s := countBy (engCount s e (Reg.RME_E_TX_PKTS e) 0 1) (80 + k) 10 (packetB it.data.length)
  if again then engCount s e (Reg.RME_E_RETX e) 2 1 else s

/-- A flight entry changed. -/
def updFlight (s : State) (n psn : Nat) (f : Flight → Flight) : State :=
  updCtx s n fun c => { c with flight := c.flight.map fun x => if x.psn = psn then f x else x }

/-- A packet marked to be resent; a response is read from memory again (R396). -/
def markResend (f : Flight) : Flight :=
  if f.item.kind = 3 then { f with resend := true, item := { f.item with asked := false, ready := false, data := [] } }
  else { f with resend := true }

/-- The engines have cells for a frame: of the internal reservation, and beyond it of the shared pool while it holds 2,048 free (R228). -/
def engMay (s : State) (f : Frame) : Bool :=
  let more := frameCells f - (reserveOf s internalMaster 0 - s.fwd.resUsed.get (4 * internalMaster))
  let free := rdF s Reg.BUF_SHARED_FREE 17 0
  decide (more = 0) || (decide (2048 ≤ free) && decide (more ≤ free))

/-- A retransmission of a connection (R390, R396). -/
def resendOne (s : State) (n : Nat) (fl : Flight) : State :=
  let c := ctxOf s n
  let m := (msgOf s fl.item.msg).getD { id := fl.item.msg }
  if !fl.item.ready then
    let src := itemSrc m fl.item
    if fl.item.asked || !(mefBme s m.host) then s
    else if (s.rme.regions.get (m.region % 2 ^ 18)).st ≠ 1 then
      sendAck (updFlight s n fl.psn fun f => { f with resend := false }) n 0x05 (m.expect.getD 0)
    else
      let s := updFlight s n fl.psn fun f => { f with item := { f.item with asked := true } }
      engRead s (connEng n) n m.host (.src (againKey n fl.psn)) (regionAddr s src.1 src.2) fl.item.bytes (s.rme.regions.get (src.1 % 2 ^ 18)).pasid
  else
    let f := itemFrame s m fl.item c.peerSw c.peerConn n fl.psn m.msn false none 0
    if !(bucketHas s c (frameB f)) || !(engMay s f) then s
    else
      let s := updCtx s n fun c => bucketPay s c (frameB f)
      let s := updFlight s n fl.psn fun x => { x with resend := false, again := true, at_ := s.now }
      countTx (routeOut s f) (connEng n) m.host fl.item true

/-- The cells a READ_REQ needs, and whether the engine may take them (R396). -/
def respOk (s : State) (e : Nat) (it : TxItem) : Bool :=
  let want := 17 * (it.lastIdx + 1 - it.idx)
  let now := respCells s e
  let more := (now + want - 272) - (now - 272)
  let free := rdF s Reg.BUF_SHARED_FREE 17 0
  decide (it.kind ≠ 2) || decide (more = 0) || (decide (2048 ≤ free) && decide (more ≤ free))

/-- A READ_REQ's cells taken. -/
def respTake (s : State) (e : Nat) (it : TxItem) : State :=
  if it.kind = 2 then
    let want := 17 * (it.lastIdx + 1 - it.idx)
    updMsg (setResp s e (respCells s e + want)) it.msg fun m => { m with cells := m.cells + want }
  else s

/-- A protected message to a home removed from the sealing set is refused at this ingress: a fault of kind 2 at E_open, the message LOST
(R297, R379; DEDUCED, log entry 116). -/
def refuseProt (s : State) (n : Nat) (m : RMsg) : State :=
  let ep := eOpen s
  let s := recFault (recLast s (connKey n) ep) (connKey n) ep 2
  let s := updCtx s n fun c => { c with sendQ := c.sendQ.filter fun it => decide (it.msg ≠ m.id), protFly := c.protFly - (m.sentPk - m.landed) }
  closePump (startWaiting (finishMsg s m.id 0x08) n) n

/-- A protected packet is tagged with E_open, counted in SENT and leaves toward its home (R395). -/
def sendProt (s : State) (n : Nat) (m : RMsg) (it : TxItem) : State :=
  let c := ctxOf s n
  let ep := eOpen s
  let f := itemFrame s m it c.peerSw c.peerConn n 0 m.msn true none (ep % 2 ^ 16)
  let s := recLast s (connKey n) ep
  let s := updLand s fun l => { l with sent := l.sent.upd ep fun x => x + 1 }
  let s := updMsg s m.id fun m => { m with sentPk := m.sentPk + 1, epLow := some (m.epLow.getD ep), epoch := some ep }
  let s := updCtx s n fun c => { bucketPay s c (frameB f) with protFly := c.protFly + 1 }
  let s := countTx s (connEng n) m.host it false
  if c.peerSw = swId s || (pickPath s f).isSome then routeOut s f
  else sealPump (lossSend (routeOut s f) (swId s) 0x7F n ep 3 1)

/-- A new packet of a connection (R390, R395, R397). -/
def sendNew (s : State) (n : Nat) (it : TxItem) (rest : List TxItem) : State :=
  let c := ctxOf s n
  let m := (msgOf s it.msg).getD { id := it.msg }
  let prot := bitN m.w.flags.toNat 0 && decide (m.kind = 1)
  let f := itemFrame s m it c.peerSw c.peerConn n c.txNext m.msn prot none 0
  if !it.ready then askData s n
  else if reducedTo s c.peerSw || !(bucketHas s c (frameB f)) || !(respOk s (connEng n) it) || !(engMay s f) then s
  else if prot then
    if 512 ≤ c.protFly then s
    else if !(joined s) || rdB s Reg.LAND_STATUS 3 then s
    else if s.land.removed.contains c.peerSw then refuseProt s n m
    else askData (sendProt (updCtx s n fun c => { c with sendQ := rest }) n m it) n
  else if 512 ≤ psnDist c.txNext c.txUna then s
  else
    let s := respTake s (connEng n) it
    let fl : Flight := { psn := c.txNext, item := it, at_ := s.now }
    let s := updCtx s n fun c =>
      { bucketPay s c (frameB f) with sendQ := rest, flight := c.flight ++ [fl], txNext := (c.txNext + 1) % 2 ^ 24 }
    let s := updMsg s m.id fun m => { m with sentPk := m.sentPk + 1 }
    askData (countTx (routeOut s f) (connEng n) m.host it false) n

/-- A packet of a connection: a retransmission ahead of a new one (R390). -/
def sendConn (s : State) (n : Nat) : State :=
  let c := ctxOf s n
  match c.flight.find? fun f => f.resend with
  | some fl => if 2 ≤ c.st then resendOne s n fl else s
  | none =>
    match c.sendQ with
    | [] => s
    | it :: rest => if c.st = 2 || c.st = 4 then sendNew s n it rest else s

/-- The connectionless packets of an engine in flight (R397). -/
def clFlying (s : State) (e : Nat) : Nat :=
  ((s.rme.msgs.filter fun m => m.conn == noConn && msgEng m == e).map fun m => popN 16 m.sentPk - popN 16 (m.sentPk &&& m.acked)).sum

/-- The place in a connectionless message of the next packet to send: ready, not sent, not acknowledged. -/
def clNext (m : RMsg) : Option (Nat × TxItem) :=
  ((List.range m.items.length).zip m.items).find? fun x => x.2.ready && !(bitN m.sentPk x.1) && !(bitN m.acked x.1)

/-- A connectionless packet of an engine (R397 to R399): the next transmission at AGE 1,000 or more ends the message TIMEOUT instead. -/
def sendCl (s : State) (e : Nat) : State :=
  match s.rme.msgs.find? fun m => m.conn == noConn && m.started && !m.done && msgEng m == e && (clNext m).isSome with
  | none => s
  | some m =>
    match clNext m with
    | none => s
    | some (j, it) =>
      let first := m.clFirst.getD s.now
      let age := (s.now - first) / 1600
      let f := itemFrame s m it m.dst noConn (rdN s Reg.FWD_START_NO % 2 ^ 16) 0 m.clId false (some age) 0
      if 1000 ≤ age then noteRme (clEnd (bump s (Reg.RME_E_CL_TIMEOUT e)) m 0x06)
      else if 256 ≤ clFlying s e || !(respOk s e it) || !(engMay s f) then s
      else
        let s := if m.cells = 0 then respTake s e it else s
        let s := updMsg s m.id fun m => { m with
          sentPk := setBitN m.sentPk j true, onceSent := setBitN m.onceSent j true, clFirst := some first }
        askCl (countTx (routeOut s f) e m.host it (bitN m.onceSent j)) m.id

/-- RME_PACKET_SEND (R390, R395 to R399): the next packet of a connection, or of an engine's connectionless work. -/
def execRmePacketSend (eng conn : Nat) (s : State) : Res :=
  if conn = noConn then .next (sendCl s eng)
  else if connEng conn ≠ eng then .next s
  else .next (noteRme (sendConn s conn))

/-! ### Receiving (R383, R391, R392, R400, R405) -/

/-- What carrying out a packet led to. -/
inductive Carried where
  /-- Carried out or refused with a status; 0 carried out. -/
  | done (status : Nat)
  /-- The engine's hedge unit holds it (R428). -/
  | held
  deriving DecidableEq, Repr

/-- The check of R405 to the end: the status, and the tag of the hedge check that allowed it. -/
def fullCheck (s : State) (eng : Nat) (k : RmePkt) (need len : Nat) : (Nat × Option (Nat × Nat × Nat)) × State :=
  let st := regionCheck s k.srcSw.toNat k.key.toNat need k.offset.toNat len
  if st ≠ 0 then ((st, none), s)
  else
    let g := s.rme.regions.get (k.key.toNat % 2 ^ 18)
    let slot := regionSlot s g
    let kind : AccKind := if need = 0 then .read else if need = 1 then .write else .prot
    let ps := hedgeParts s (80 + eng) slot kind (g.base + k.offset.toNat) len
    if !(partsOk ps) then ((0x04, none), hedgeRefuse s (80 + eng) slot kind ps 0 k.dstConn.toNat)
    else if !g.landing && !(mefBme s g.owner) then ((0x0D, none), s)
    else
      let t := hedgeTag s (80 + eng) slot
      ((0, some t.1), updRegion t.2 (k.key.toNat % 2 ^ 18) fun g => { g with outst := g.outst + 1 })

/-- The part of a WRITE that its hedge unit allows while it refuses another is written all the same (R422). -/
def carryPart (s : State) (eng : Nat) (k : RmePkt) : State :=
  let g := s.rme.regions.get (k.key.toNat % 2 ^ 18)
  let slot := regionSlot s g
  let addr := g.base + k.offset.toNat
  match (hedgeParts s (80 + eng) slot .write addr (4 * k.data.length)).find? fun p => decide (p.reason = 0) with
  | some p =>
    if !(mefBme s g.owner) then s
    else
      let t := hedgeTag s (80 + eng) slot
      mefWriteTag t.2 g.owner .part p.addr ((k.data.drop ((p.addr - addr) / 4)).take (p.len / 4)) k.poison g.pasid (some t.1)
  | none => s

/-- A WRITE carried out (R391, R405, R411): written to the owner's memory. -/
def carryWrite (s : State) (eng : Nat) (k : RmePkt) : Nat × State :=
  let r := fullCheck s eng k 1 (4 * k.data.length)
  if r.1.1 ≠ 0 then
    if regionCheck s k.srcSw.toNat k.key.toNat 1 k.offset.toNat (4 * k.data.length) = 0 && decide (r.1.1 = 4) then (4, carryPart r.2 eng k)
    else (r.1.1, r.2)
  else
    let idx := k.key.toNat % 2 ^ 18
    let g := r.2.rme.regions.get idx
    let s := countBy r.2 (80 + g.owner) 11 (packetB k.data.length)
    (0, mefWriteTag s g.owner (.region idx) (g.base + k.offset.toNat) k.data k.poison g.pasid r.1.2)

/-- The response packets of a READ_REQ (R383, R396). -/
def respItems (id : Nat) (k : RmePkt) : List TxItem :=
  (List.range (k.lastIdx + 1 - k.pktIdx)).map fun j =>
    let i := k.pktIdx + j
    { msg := id, kind := 3, idx := i, off := 4064 * i, bytes := min 4064 (k.readLen - 4064 * i),
      last := decide (i + 1 = packetCount k.readLen) }

/-- A READ_REQ carried out (R396): its responses wait to be read and sent. -/
def carryRead (s : State) (eng : Nat) (k : RmePkt) : Nat × State :=
  let r := fullCheck s eng k 0 k.readLen
  if r.1.1 ≠ 0 then (r.1.1, r.2)
  else
    let idx := k.key.toNat % 2 ^ 18
    let s := match r.1.2 with
      | some t => hedgeDrop r.2 t
      | none => r.2
    let s := countBy s (80 + (s.rme.regions.get idx).owner) 11 (packetB k.data.length)
    let id := s.rme.nextMsg
    let its := respItems id k
    let m : RMsg := { id := id, kind := 2, host := (s.rme.regions.get idx).owner, conn := if k.cl then noConn else k.dstConn.toNat,
                      dst := k.srcSw.toNat, msn := k.msn.toNat % 2 ^ 24, npk := its.length, started := true, region := idx,
                      w := { remoteKey := k.key, remoteOff := k.offset }, expect := some k.psn.toNat, clId := k.msn.toNat,
                      items := if k.cl then its else [] }
    let s := updRme s fun r => { r with msgs := r.msgs ++ [m], nextMsg := id + 1 }
    if k.cl then (0, askCl s id)
    else
      let n := k.dstConn.toNat
      (0, askData (updCtx s n fun c => { c with sendQ := c.sendQ ++ its }) n)

/-- The READ that a response belongs to: of a connection by its MSN, connectionless by its message ID. -/
def readOf (s : State) (k : RmePkt) : Option RMsg :=
  s.rme.msgs.find? fun m => m.kind == 1 && !m.done && decide (m.w.op = 2) &&
    (if k.cl then m.conn == noConn && m.clId == k.msn.toNat else m.conn == k.dstConn.toNat && m.msn == k.msn.toNat % 2 ^ 24)

/-- Response data handed to the upstream port: its 17 cells are free, and the READ completes with its last packet (R394, R396). -/
def readDelivered (s : State) (id bytes : Nat) : State :=
  match msgOf s id with
  | none => s
  | some m =>
    if m.done then s
    else
      let e := msgEng m
      let s := setResp s e (respCells s e - min 17 m.cells)
      let s := updMsg s id fun m => { m with cells := m.cells - 17, landed := m.landed + 1, bytes := m.bytes + bytes }
      if m.landed + 1 = packetCount m.w.len.toNat then
        let s := finishMsg s id 0
        if m.conn = noConn then s else closePump (startWaiting s m.conn) m.conn
      else s

/-- A READ_RESP carried out (R394, R407, R411): written to the local region, whose key is checked now. What its hedge unit refuses is
discarded as a posted write's (R422), and counts as written (DEDUCED, log entry 118). -/
def carryResp (s : State) (k : RmePkt) : Nat × State :=
  match readOf s k with
  | none => (0, s)
  | some m =>
    let off := m.w.localOff.toNat + k.offset.toNat
    if !(localOk s m.host m.w.localKey.toNat off (4 * k.data.length)) then
      (0, if m.conn = noConn then clEnd s m 0x02 else connError s m.conn 0x02 (some m.id))
    else if !(mefBme s m.host) then
      let s := count (bump s (Reg.RME_H_BME_DISCARD m.host)) (80 + m.host) 18
      (0, if m.conn = noConn then clEnd s m 0x0B else connError s m.conn 0x0B (some m.id))
    else
      let s := updMsg s m.id fun m => { m with poison := m.poison || k.poison }
      let s := countBy s (80 + m.host) 11 (packetB k.data.length)
      let r := engWrite s (msgEng m) m.conn m.host (.readData m.id) (regionAddr s m.w.localKey.toNat off) k.data k.poison
        (s.rme.regions.get (m.w.localKey.toNat % 2 ^ 18)).pasid
      (0, if r.1 then r.2 else readDelivered r.2 m.id (4 * k.data.length))

/-- A packet of PSN q has arrived at a receiver. -/
def psnIn (c : Ctx) (q : Nat) : Bool :=
  let d := psnDist q c.rxCum
  if d < 512 then bitN c.rxMap d else decide (2 ^ 23 ≤ d)

/-- RX_CUM advanced past every contiguous set bit (R391). -/
def advanceRx (c : Ctx) : Nat → Ctx
  | 0 => c
  | fuel + 1 => if bitN c.rxMap 0 then advanceRx { c with rxMap := c.rxMap / 2, rxCum := (c.rxCum + 1) % 2 ^ 24 } fuel else c

/-- A message whose last packet has PSN p and index m has arrived whole (R383). -/
def msgWhole (c : Ctx) (x : Nat × Nat) : Bool := (List.range (x.2 + 1)).all fun j => psnIn c (psnDist x.1 j)

/-- A packet of a connection accepted (R391, R392): its bit set, the acknowledgement sent when one is due. -/
def acceptPkt (s : State) (n : Nat) (k : RmePkt) (status : Nat) : State :=
  let s := updCtx s n fun c =>
    let c := { c with
      rxMap := setBitN c.rxMap (psnDist k.psn.toNat c.rxCum) true, accepted := c.accepted + 1
      covered := satAdd 255 c.covered 1, marked := satAdd 255 c.marked k.cm.toNat
      rxLast := if k.last then c.rxLast ++ [(k.psn.toNat, k.pktIdx)] else c.rxLast }
    advanceRx c 512
  let c := ctxOf s n
  let whole := c.rxLast.filter (msgWhole c)
  let s := updCtx s n fun c => { c with rxLast := c.rxLast.filter fun x => !(whole.contains x), used := s.now }
  if status ≠ 0 then sendAck s n status k.psn.toNat
  else if 16 ≤ c.accepted || whole ≠ [] then sendAck s n 0 0
  else s

/-- A duplicate (R391, R392): counted, and acknowledged at most once per µs. -/
def dupPkt (s : State) (n e : Nat) : State :=
  let s := engCount s e (Reg.RME_E_DUP_RX e) 5 1
  let c := ctxOf s n
  let free := match c.lastDup with
    | some t => decide (t + 1600 ≤ s.now)
    | none => true
  if free then sendAck (updCtx s n fun c => { c with lastDup := some s.now }) n 0 0 else s

/-- A packet waits for its engine's hedge unit (R428). -/
def holdPkt (s : State) (eng : Nat) (k : RmePkt) (isRead : Bool) : State :=
  { s with hedge := { s.hedge with heldPkt := s.hedge.heldPkt ++ [(eng, .pkt k isRead)] } }

/-- The entry of a connectionless packet (R400). -/
def clEntOf (s : State) (eng : Nat) (k : RmePkt) : Option ClEnt :=
  s.rme.cl.find? fun e => e.eng == eng && e.srcSw == k.srcSw.toNat && e.start == k.srcConn.toNat % 2 ^ 16 && e.msgId == k.msn.toNat

/-- The receiver table's count follows (R413). -/
def noteCl (s : State) (eng : Nat) : State :=
  wrF s (Reg.RME_E_CL_TABLE eng) 12 0 (s.rme.cl.filter fun e => e.eng == eng).length

/-- An entry put in place of the one with its key. -/
def putCl (s : State) (e : ClEnt) : State :=
  let same (x : ClEnt) : Bool := x.eng == e.eng && x.srcSw == e.srcSw && x.start == e.start && x.msgId == e.msgId
  let l := if s.rme.cl.any same then s.rme.cl.map fun x => if same x then e else x else s.rme.cl ++ [e]
  noteCl (updRme s fun r => { r with cl := l }) e.eng

/-- A connectionless packet handled against the receiver table (R400): `f` carries it out and gives status and result. -/
def clReceive (s : State) (eng : Nat) (k : RmePkt) (f : State → (Nat × Word) × State) : State :=
  let fresh : ClEnt := { eng := eng, srcSw := k.srcSw.toNat, start := k.srcConn.toNat % 2 ^ 16, msgId := k.msn.toNat, created := s.now }
  if 1000 ≤ k.age then bump s (Reg.RME_E_CL_AGED eng)
  else
    let old := clEntOf s eng k
    if old.isNone && decide (4096 ≤ (s.rme.cl.filter fun e => e.eng == eng).length) then
      sendClAck (engCount s eng (Reg.RME_E_CL_BUSY eng) 11 1) fresh 0x11
    else
      let e := old.getD fresh
      if bitN e.got (k.pktIdx % 16) then sendClAck s e e.status
      else
        let r := f s
        let e := { e with
          got := setBitN e.got (k.pktIdx % 16) true, expect := if k.last then some (k.pktIdx + 1) else e.expect, unacked := true
          result := if r.1.2 = 0 then e.result else r.1.2.toNat, status := if r.1.1 = 0 then e.status else r.1.1 }
        let whole := (e.expect.map fun x => decide (popN 16 e.got = x)).getD false
        if whole || decide (r.1.1 ≠ 0) then sendClAck (putCl r.2 { e with unacked := false }) e e.status
        else putCl r.2 e

/-- A packet of a connection reaches its engine (R386, R389, R391). `isRead` names a READ_REQ. -/
def connReceive (s : State) (eng : Nat) (k : RmePkt) (isRead : Bool) : State :=
  let n := k.dstConn.toNat
  let c := ctxOf s n
  let drop := bump s (Reg.RME_E_WINDOW_DROP eng)
  if c.st = 0 then drop
  else if !c.cached then
    if 512 ≤ (s.rme.missq.filter fun x => x.1 == eng).length then bump s Reg.RME_MISSQ_DROP
    else fillCtx (updRme s fun r => { r with missq := r.missq ++ [(eng, k, isRead)] }) n
  else if c.st ≠ 2 then drop
  else if k.srcSw.toNat ≠ c.peerSw || decide (k.srcConn.toNat ≠ c.peerConn) then sendInvalid s k.srcSw.toNat k.srcConn.toNat k.psn.toNat
  else
    let d := psnDist k.psn.toNat c.rxCum
    if d < 512 && !(bitN c.rxMap d) then
      if hedgeHolds s (80 + eng) then holdPkt s eng k isRead
      else
        let r := if isRead then carryRead s eng k else carryWrite s eng k
        acceptPkt r.2 n k r.1
    else if d < 512 || 2 ^ 23 ≤ d then dupPkt s n eng
    else drop

/-- A protected WRITE arrives at its home (R395, R405): checked with no context, put into the landing input in order, or refused
with a LANDED entry and a LOSS of kind 2. -/
def protReceive (s : State) (eng : Nat) (k : RmePkt) : State :=
  let ep := rebuildEpoch (seOf s) k.epoch.toNat
  let bytes := 4 * k.data.length
  let g := s.rme.regions.get (k.key.toNat % 2 ^ 18)
  let r := fullCheck s eng k 2 bytes
  let addr := g.base + k.offset.toNat
  match if r.1.1 = 0 then regionOf s (addr / 4096) else none with
  | some reg =>
    let w : LandIn := { ep := ep, region := reg, srcSw := k.srcSw.toNat, srcPort := 0x7F, reqId := k.srcConn.toNat, addr := addr,
                        words := landWordsOf (bytes / 32) k.data, pages := pagesOf addr bytes, poison := k.poison,
                        conn := some (k.srcConn.toNat, k.msn.toNat % 2 ^ 24), key := some (k.key.toNat % 2 ^ 18), tag := r.1.2 }
    landPump (updLand r.2 fun l => { l with input := l.input ++ [w] })
  | none =>
    let st := if r.1.1 = 0 then 0x04 else r.1.1
    let s := match r.1.2 with
      | some t => regionDone (hedgeDrop r.2 t) (k.key.toNat % 2 ^ 18)
      | none => r.2
    let s := sendLanded s k.srcSw.toNat k.srcConn.toNat st [(k.msn.toNat % 2 ^ 24, 1)]
    sealPump (lossSend s k.srcSw.toNat 0x7F k.srcConn.toNat ep 2 1)

/-- A WRITE taken by its engine: protected, connectionless, or of a connection. -/
def takePkt (s : State) (eng : Nat) (k : RmePkt) (isRead : Bool) : State :=
  if hedgeHolds s (80 + eng) && (k.prot || k.cl) then holdPkt s eng k isRead
  else if k.prot then protReceive s eng k
  else if k.cl then clReceive s eng k fun s =>
    let r := if isRead then carryRead s eng k else carryWrite s eng k
    ((r.1, 0), r.2)
  else connReceive s eng k isRead

/-- The engine a packet of a request reaches: of its connection, or of its message ID's low bits (R370). -/
def pktEng (k : RmePkt) : Nat := if k.cl then k.msn.toNat % 8 else connEng k.dstConn.toNat

/-- RME_WRITE_RECEIVE (R391, R395, R400). A packet at an engine that R370 does not name is none. -/
def execRmeWriteReceive (eng : Nat) (k : RmePkt) (s : State) : Res :=
  if pktEng k ≠ eng then .next s
  else .next (noteRme (takePkt (engCount s eng (Reg.RME_E_RX_PKTS eng) 1 1) eng k false))

/-- READ_REQ_RECEIVE (R370, R396). A READ_REQ is never protected. -/
def execReadReqReceive (eng : Nat) (k : RmePkt) (s : State) : Res :=
  if pktEng k ≠ eng then .next s
  else .next (noteRme (takePkt (engCount s eng (Reg.RME_E_RX_PKTS eng) 1 1) eng { k with prot := false } true))

/-- READ_RESP_RECEIVE (R370, R386, R391, R394): the context of a response is pinned; for another one the frame is stale. A connectionless
response reaches the engine that its message ID names at the message's sender. -/
def execReadRespReceive (eng : Nat) (k : RmePkt) (s : State) : Res :=
  if (if k.cl then k.msn.toNat / 2 ^ 29 else connEng k.dstConn.toNat) ≠ eng then .next s else
  let s := engCount s eng (Reg.RME_E_RX_PKTS eng) 1 1
  if k.cl then .next (noteRme (clReceive s eng k fun s => let r := carryResp s k; ((r.1, 0), r.2)))
  else
    let n := k.dstConn.toNat
    let c := ctxOf s n
    if !(c.cached && pinned s n) || decide (c.st ≠ 2 ∧ c.st ≠ 4) then .next (engCount s eng (Reg.RME_E_DUP_RX eng) 5 1)
    else if k.srcSw.toNat ≠ c.peerSw || decide (k.srcConn.toNat ≠ c.peerConn) then
      .next (sendInvalid s k.srcSw.toNat k.srcConn.toNat k.psn.toNat)
    else
      let d := psnDist k.psn.toNat c.rxCum
      if d < 512 && !(bitN c.rxMap d) then
        let r := carryResp s k
        .next (noteRme (acceptPkt r.2 n k r.1))
      else if d < 512 || 2 ^ 23 ≤ d then .next (dupPkt s n eng)
      else .next (bump s (Reg.RME_E_WINDOW_DROP eng))

/-- The region of this home's list that a CTRL names: of the origin that sent it and its host (R401). -/
def ctrlRegion (s : State) (k : RmePkt) : Option Nat :=
  let host := getF (k.data.getD 0 0) 8 4
  if sameCluster s k.srcSw.toNat then
    (regionList s).find? fun r => decide (regionSw s r = k.srcSw.toNat) && decide (regionHost s r = host)
  else none

/-- INSTALL, DRAIN or QUERY at the home (R401, R404, R406): status and result word. -/
def carryCtrl (s : State) (k : RmePkt) : (Nat × Word) × State :=
  let w (i : Nat) : Word := k.data.getD i 0
  let host := getF (w 0) 8 4
  match ctrlRegion s k with
  | none => ((0x04, 0), s)
  | some r =>
    if getF (w 0) 3 0 = 1 then
      let off := (w 2).toNat + (w 3).toNat * 2 ^ 32
      let len := (w 4).toNat + (w 5).toNat * 2 ^ 32
      if regionSize s r * 4096 < off + len then ((0x04, 0), s)
      else
        let a := allocRegion s (landRegion host k.srcSw.toNat (regionBase s r * 4096 + off) len (getF (w 6) 5 4) (getF (w 6) 17 6))
        match a.1 with
        | none => ((0x04, 0), a.2)
        | some i => ((0, w32 (keyOf a.2 i)), noteRegions a.2 host)
    else
      let own := (keyEntry s (w 1).toNat).filter fun i =>
        let g := s.rme.regions.get i
        g.landing && decide (g.origin = k.srcSw.toNat) && decide (g.owner = host)
      match own with
      | none => if getF (w 0) 3 0 = 3 then ((0, 1), s) else ((0, 0), s)
      | some i =>
        if getF (w 0) 3 0 = 2 then ((0, 0), updRegion s i fun g => { g with st := if g.st = 1 then 2 else g.st })
        else ((0, 0), s)

/-- CTRL_RECEIVE (R370, R401, R411): a poisoned CTRL is discarded and counted. -/
def execCtrlReceive (eng : Nat) (k : RmePkt) (s : State) : Res :=
  if k.msn.toNat % 8 ≠ eng then .next s else
  let s := engCount s eng (Reg.RME_E_RX_PKTS eng) 1 1
  if k.poison then .next (bump s (Reg.RME_E_WINDOW_DROP eng))
  else .next (clReceive s eng k fun s => carryCtrl s k)

/-! ### Acknowledgements (R392, R393, R397) -/

/-- RATE after a cut at `now` (R397). -/
def cutRate (s : State) (c : Ctx) (rate : Nat) : Ctx := { settleBucket s c with rate := max 100 rate, lastCut := tUs s, incAt := tUs s }

/-- RTO from SRTT and RTTVAR, within 4 to 2,048 µs; 8 µs before the first sample (R393). -/
def rtoOf (c : Ctx) : Nat := if c.srtt = 0 && c.rttvar = 0 then 80 else max 40 (min 20480 (c.srtt + 4 * c.rttvar))

/-- One RTT sample in 0.1 µs, with gains 1/8 and 1/4 (R393, RFC 6298). -/
def sampleRtt (c : Ctx) (r : Nat) : Ctx :=
  let c := if c.srtt = 0 && c.rttvar = 0 then { c with srtt := r, rttvar := r / 2 }
    else { c with rttvar := (3 * c.rttvar + ((c.srtt - r) + (r - c.srtt))) / 4, srtt := (7 * c.srtt + r) / 8 }
  { c with rto := rtoOf c }

/-- An ACK covers a PSN. -/
def ackCovers (cum bitmap psn : Nat) : Bool :=
  let d := psnDist psn cum
  decide (2 ^ 23 ≤ d) || (decide (1 ≤ d) && decide (d ≤ 511) && bitN bitmap (d - 1))

/-- TX_UNA and TX_SACK from the packets still in flight (R385, R393). -/
def refreshTx (c : Ctx) : Ctx :=
  let una := (c.flight.head?.map Flight.psn).getD c.txNext
  let adv := decide (una ≠ c.txUna)
  let sack := (List.range (psnDist c.txNext una)).foldl (fun b i =>
    setBitN b i (!(c.flight.any fun f => f.psn == (una + i) % 2 ^ 24))) 0
  let c := { c with txUna := una, txSack := sack }
  if adv then { c with expiries := 0, rto := rtoOf c } else c

/-- The message of an acknowledged packet moves on (R394). -/
def ackItem (s : State) (it : TxItem) : State :=
  match msgOf s it.msg with
  | none => s
  | some m =>
    if m.done || it.kind = 2 then s
    else
      let s := updMsg s m.id fun m => { m with acked := m.acked + 1, bytes := m.bytes + it.bytes }
      if m.acked + 1 = m.npk then finishMsg s m.id 0 else s

/-- What CUM, BITMAP and STATUS of an acknowledgement do (R389, R393, R394). -/
def ackApply (s : State) (n cum bitmap status errPsn marked covered : Nat) : State :=
  let c := ctxOf s n
  let named := (c.flight.find? fun f => f.psn == errPsn).map fun f => f.item.msg
  let got := c.flight.filter fun f => ackCovers cum bitmap f.psn
  let s := updCtx s n fun c =>
    let c := match got.getLast? with
      | some f => if f.again then c else sampleRtt c ((s.now - f.at_) / 160)
      | none => c
    refreshTx { c with flight := c.flight.filter fun f => !(ackCovers cum bitmap f.psn) }
  let s := if 0 < marked && 0 < covered && decide (c.lastCut + 8 ≤ tUs s) then
      let s := updCtx s n fun c => cutRate s c (c.rate * (2 * covered - marked) / (2 * covered))
      engCount s (connEng n) (Reg.RME_E_RATE_CUTS (connEng n)) 6 1
    else s
  let s := got.foldl (fun s f => if some f.item.msg = named && decide (status ≠ 0) then s else ackItem s f.item) s
  let s := if status ≠ 0 then connError s n status named else s
  noteRme (closePump (startWaiting s n) n)

/-- An acknowledgement frame names a connection whose context is pinned and whose peer sent it (R386). -/
def ackFits (s : State) (n : Nat) (srcSw : BitVec 12) : Bool :=
  let c := ctxOf s n
  c.cached && pinned s n && decide (2 ≤ c.st) && decide (srcSw.toNat = c.peerSw)

/-- A stale or poisoned acknowledgement frame is discarded and counted (R386, R411). -/
def staleAck (s : State) (n : Nat) : State := engCount s (connEng n) (Reg.RME_E_DUP_RX (connEng n)) 5 1

/-- RME_ACK_RECEIVE (R393, R397). -/
def execRmeAckReceive (conn : Nat) (cum : BitVec 24) (status : BitVec 8) (errPsn : BitVec 24) (marked covered : Nat)
    (bitmap : BitVec 511) (srcSw : BitVec 12) (poison : Bool) (s : State) : Res :=
  if poison || !(ackFits s conn srcSw) then .next (staleAck s conn)
  else .next (ackApply s conn cum.toNat bitmap.toNat status.toNat errPsn.toNat marked covered)

/-- A listed packet is resent at once, at most once per RTO (R392). -/
def nakMark (now rto : Nat) (psns : List (BitVec 24 × Nat)) (f : Flight) : Flight :=
  if (psns.any fun e => decide (psnDist f.psn e.1.toNat < e.2)) && (!f.again || decide (f.at_ + rto * 160 ≤ now)) then markResend f
  else f

/-- NAK_LIST_RECEIVE (R392): CUM and STATUS apply as in an ACK; each listed PSN is resent. -/
def execNakListReceive (conn : Nat) (cum : BitVec 24) (status : BitVec 8) (psns : List (BitVec 24 × Nat)) (poison : Bool)
    (s : State) : Res :=
  let e := connEng conn
  let s := engCount s e (Reg.RME_E_NAK_RX e) 4 1
  let c := ctxOf s conn
  if poison || !(c.cached && pinned s conn) then .next (staleAck s conn)
  else
    let s := ackApply s conn cum.toNat 0 status.toNat (2 ^ 24) 0 0
    .next (updCtx s conn fun c => { c with flight := c.flight.map (nakMark s.now c.rto psns) })

/-- The bytes of a protected message of which `n` packets landed. -/
def landedBytes (m : RMsg) (n : Nat) : Nat := min m.w.len.toNat (4064 * n)

/-- One LANDED entry (R395): packets landed, or the first refusal of the message; for a message that ended LOST it counts only bytes
(R412). -/
def landedEntry (s : State) (n status msn cnt : Nat) : State :=
  let is (m : RMsg) : Bool := m.conn == n && m.kind == 1 && bitN m.w.flags.toNat 0 && m.started && m.msn == msn
  match s.rme.msgs.find? fun m => !m.done && is m with
  | none =>
    match s.rme.msgs.find? is with
    | some m =>
      if status = 0 || status = 1 then
        updMsg s m.id fun m => { m with landed := m.landed + cnt, bytes := landedBytes m (m.landed + cnt) }
      else s
    | none => s
  | some m =>
    if status = 0 || status = 1 then
      let s := updMsg s m.id fun m => { m with landed := m.landed + cnt, bytes := landedBytes m (m.landed + cnt) }
      let s := updCtx s n fun c => { c with protFly := c.protFly - cnt }
      if m.landed + cnt = m.npk then finishMsg s m.id 0x01 else s
    else connError s n status (some m.id)

/-- LANDED_RECEIVE (R395). -/
def execLandedReceive (conn : Nat) (status : BitVec 8) (entries : List (BitVec 24 × Nat)) (poison : Bool) (s : State) : Res :=
  let c := ctxOf s conn
  if poison || !(c.cached && pinned s conn) then .next (staleAck s conn)
  else
    let s := entries.foldl (fun s e => landedEntry s conn status.toNat e.1.toNat e.2) s
    .next (noteRme (closePump (startWaiting (rmeSettle s) conn) conn))

/-- CL_ACK_RECEIVE (R370, R399, R400, R404, R406): packets shown received; BUSY leaves them for the resend. -/
def execClAckReceive (eng : Nat) (srcSw : BitVec 12) (msgId : BitVec 32) (received : BitVec 16) (status : BitVec 8) (result : Word)
    (poison : Bool) (s : State) : Res :=
  if poison then .next (engCount s eng (Reg.RME_E_DUP_RX eng) 5 1)
  else match s.rme.msgs.find? fun m => m.conn == noConn && !m.done && m.clId == msgId.toNat && m.dst == srcSw.toNat && msgEng m == eng with
    | none => .next s
    | some m =>
      if status = 0x11 then .next s
      else if status ≠ 0 then .next (noteRme (clEnd s m status.toNat))
      else
        let acked := m.acked ||| received.toNat
        let bytes := (((List.range m.items.length).zip m.items).filter fun x => bitN acked x.1 && decide (x.2.kind = 1)).map fun x => x.2.bytes
        let s := updMsg s m.id fun x => { x with acked := acked, bytes := if m.w.op = 1 then bytes.sum else x.bytes }
        if popN 16 acked < m.npk then .next s
        else if m.kind = 1 then .next (if m.w.op = 1 then finishMsg s m.id 0 else s)
        else
          let s := finishMsg s m.id 0
          if m.kind = 3 && decide (m.action = 1) then
            .next (match m.q with
              | some q => grantLandKey s q result.toNat m.dst m.region
              | none => s)
          else if m.kind = 3 && decide (m.action = 3) && decide (result = 1) then .next (dropLandKey s m.region)
          else .next s

/-! ### Timers -/

/-- RME_ACK_DELAY_EXPIRY (R392). -/
def execRmeAckDelayExpiry (conn : Nat) (s : State) : Res :=
  if 0 < (ctxOf s conn).accepted then .next (noteRme (sendAck s conn 0 0)) else .next s

/-- NAK_LIST_EXPIRY (R392): a PSN missing below the highest received, listed at most every 8 µs. -/
def execNakListExpiry (conn : Nat) (psn : BitVec 24) (s : State) : Res :=
  let c := ctxOf s conn
  let d := psnDist psn.toNat c.rxCum
  if decide (d < 512) && !(bitN c.rxMap d) && decide (0 < c.rxMap / 2 ^ (d + 1)) then
    let e := connEng conn
    let s := timeTo s ((c.naks.find? fun x => x.1 == psn.toNat).elim 0 fun x => x.2 + 12800)
    let s := updCtx s conn fun c => { c with
      naks := (c.naks.filter fun x => decide (x.1 ≠ psn.toNat) && decide (psnDist x.1 c.rxCum < 512)) ++ [(psn.toNat, s.now)] }
    let s := engCount s e (Reg.RME_E_NAK_TX e) 3 1
    .next (ackFrame s c.peerSw 1 [w32 c.peerConn, w32 c.rxCum, w32 1, w32 psn.toNat])
  else .next s

/-- RTO_EXPIRY (R393): the oldest packet is resent, RTO doubled, RATE halved; at 16 expiries the connection ends. -/
def execRtoExpiry (conn : Nat) (s : State) : Res :=
  let c := ctxOf s conn
  let e := connEng conn
  match c.flight with
  | [] => .next s
  | f :: rest =>
    if 16 ≤ c.expiries + 1 then
      let una := c.txUna
      let s := engCount s e (Reg.RME_E_TIMEOUTS e) 7 1
      let s := connError s conn 0x06 (some f.item.msg)
      let s := updCtx s conn fun c => refreshTx { c with flight := [], st := if c.st = 4 then 4 else 3 }
      .next (closePump (fault s 12 0x02 2 3 conn una) conn)
    else
      let s := updCtx s conn fun c => { cutRate s c (c.rate / 2) with
        flight := markResend f :: rest, rto := min 20480 (2 * c.rto), expiries := c.expiries + 1 }
      .next (engCount s e (Reg.RME_E_RATE_CUTS e) 6 1)

/-- RATE_INCREASE_EXPIRY (R397): 16 µs without a cut, since the last cut or increase. -/
def execRateIncreaseExpiry (conn : Nat) (s : State) : Res :=
  let c := ctxOf s conn
  if c.cached && decide (2 ≤ c.st) then
    let s := timeTo s (s.t0 + (c.incAt + 16) * 1600)
    .next (updCtx s conn fun c => { settleBucket s c with rate := min 512000 (c.rate + 2000), incAt := tUs s })
  else .next s

/-- LANDED_REPORT_EXPIRY (R395): the home's entries for a connection leave. -/
def execLandedReportExpiry (srcSw conn : Nat) (s : State) : Res := .next (flushLanded s srcSw conn)

/-- A connectionless message's packets not shown received are sent again; a response is read again (R396, R399). -/
def clAgain (m : RMsg) : RMsg :=
  let again (x : Nat × TxItem) : TxItem :=
    if bitN m.acked x.1 || x.2.kind ≠ 3 then x.2 else { x.2 with asked := false, ready := false, data := [] }
  { m with sentPk := m.sentPk &&& m.acked, items := ((List.range m.items.length).zip m.items).map again }

/-- CL_RESEND_EXPIRY (R399): packets not shown received go again, or the message ends TIMEOUT at AGE 1,000. -/
def execClResendExpiry (eng : Nat) (msgId : BitVec 32) (s : State) : Res :=
  match s.rme.msgs.find? fun m => m.conn == noConn && !m.done && m.clId == msgId.toNat && msgEng m == eng && m.clFirst.isSome with
  | none => .next s
  | some m =>
    let first := m.clFirst.getD 0
    let s := timeTo s (first + ((s.now - first) / 80000 + 1) * 80000)
    if 1000 ≤ (s.now - first) / 1600 then
      .next (noteRme (clEnd (bump s (Reg.RME_E_CL_TIMEOUT eng)) m 0x06))
    else .next (askCl (updMsg s m.id clAgain) m.id)

/-- CL_ACK_DELAY_EXPIRY (R400): `key` is the place of the entry in the table of the engine. -/
def execClAckDelayExpiry (eng key : Nat) (s : State) : Res :=
  match (s.rme.cl.filter fun e => e.eng == eng)[key]? with
  | some e => if e.unacked then .next (sendClAck (putCl s { e with unacked := false }) e e.status) else .next s
  | none => .next s

/-- CL_ENTRY_EXPIRY (R400): an entry expires 20 ms after its creation, whatever its state. -/
def execClEntryExpiry (eng key : Nat) (s : State) : Res :=
  match (s.rme.cl.filter fun e => e.eng == eng)[key]? with
  | some e =>
    .next (noteCl (updRme (timeTo s (e.created + 32000000)) fun r => { r with cl := r.cl.filter fun x => decide (x ≠ e) }) eng)
  | none => .next s

/-! ### The context cache (R386 to R388) -/

/-- The packets that waited for a fill are taken in order. -/
def missRelease (s : State) (n : Nat) : State :=
  let mine := s.rme.missq.filter fun x => decide (x.2.1.dstConn.toNat = n)
  let s := updRme s fun r => { r with missq := r.missq.filter fun x => decide (x.2.1.dstConn.toNat ≠ n) }
  mine.foldl (fun s x => takePkt s x.1 x.2.1 x.2.2) s

/-- A slot read back passes: its TAG and its connection number (R387, R388). -/
def slotGood (s : State) (n : Nat) (slot : List Word) : Bool :=
  decide (wordsNat (slot.drop 60) = (Config.slotTag s.rme.secret (slot.take 60)).toNat)
    && decide (getF (slot.getD 48 0) 19 0 = n)

/-- A fill that returned is checked, and a close or an error that came meanwhile stands; a failure puts the connection in ERROR (R388, R408, R411). -/
def fillDone (s : State) (n : Nat) (slot : List Word) (readOk ep : Bool) : State :=
  if !(ctxOf s n).filling then s
  else if readOk && !ep && slotGood s n slot then
    let s := updRme s fun r => { r with ctx := r.ctx.upd n fun c =>
      { ctxOfWords c slot with
        st := if 3 ≤ c.st then c.st else (ctxOfWords c slot).st, cached := true, filling := false, dirty := decide (3 ≤ c.st), used := s.now
        spills := (slot.getD 49 0).toNat } }
    noteRme (startWaiting (missRelease s n) n)
  else
    let s := updRme s fun r => { r with ctx := r.ctx.upd n fun c => { c with cached := true, filling := false } }
    let s := bump s Reg.RME_TAG_FAIL
    let s := fault s 12 0x01 2 3 n (connIdx n)
    missRelease (connError s n 0x0E none) n

/-- CONTEXT_FILL_DONE (R388). -/
def execContextFillDone (conn : Nat) (slot : List Word) (readOk ep : Bool) (s : State) : Res :=
  .next (fillDone s conn slot readOk ep)

/-- A spill is over, and what waited for the context fetches it again (R386). -/
def spillDone (s : State) (n : Nat) : State :=
  let s := spillEnd s n
  if (s.rme.missq.any fun x => decide (x.2.1.dstConn.toNat = n)) then fillCtx s n else startWaiting s n

/-- CONTEXT_SPILL_DONE (R388). -/
def execContextSpillDone (conn : Nat) (s : State) : Res := .next (spillDone s conn)

end Sys2Proof.Machine
end

