-- ==== Sys2Proof/Machine/RouteOps.lean ====
section
/-! DEFINITION. Trellis discovery and its table (R215 to R219), and frames taken out of queues. -/

namespace Sys2Proof.Machine

open Sys2Proof

/-- The frames of one queue taken out where `f` holds, its depth following (R225). -/
def takeQueue (s : State) (p t : Nat) (f : QEntry → Bool) : List QEntry × State :=
  let q := s.fwd.queue.get (8 * p + t)
  let out := q.filter f
  let s := updFwd s fun x => { x with queue := x.queue.set (8 * p + t) (q.filter fun e => !(f e)) }
  (out, wrF s (Reg.FWD_Q_DEPTH p t) 17 0 (qDepth s p t - (out.map fun e => frameCells e.f).sum))

/-! ### The table (R217) -/

/-- What R217 computes of a switch: its distance and the ports of its next hops. -/
structure Route where
  sw    : Nat
  dist  : Nat
  ports : List Nat
  deriving DecidableEq, Repr, Inhabited

/-- The adjacencies a switch's stored frame lists. -/
def lsAdj (ls : List LsEntry) (u : Nat) : List (Nat × Nat) := ((ls.find? fun e => e.origin == u).map LsEntry.adj).getD []

/-- A pair put in its place among ascending pairs. -/
def insPair (x : Nat × Nat) : List (Nat × Nat) → List (Nat × Nat)
  | [] => [x]
  | y :: rest => if x.1 < y.1 || (decide (x.1 = y.1) && decide (x.2 ≤ y.2)) then x :: y :: rest else y :: insPair x rest

/-- Pairs in ascending order. -/
def sortPairs (l : List (Nat × Nat)) : List (Nat × Nat) := l.foldr insPair []

/-- The edges of a switch, (neighbour, port) ascending: each end's frame lists the other (R217). -/
def edgesOf (ls : List LsEntry) (u : Nat) : List (Nat × Nat) :=
  sortPairs ((lsAdj ls u).filter fun a => (lsAdj ls a.1).any fun b => b.1 == u)

/-- Ports added once each. -/
def addPorts (old more : List Nat) : List Nat := more.foldl (fun l p => if l.contains p then l else l ++ [p]) old

/-- One edge of R217's inner loop, from `u` at distance `d`. -/
def edgeStep (self u d : Nat) (up : List Nat) (rs : List Route) (e : Nat × Nat) : List Route :=
  let rs := if rs.any fun r => r.sw == e.1 then rs else rs ++ [{ sw := e.1, dist := d + 1, ports := [] }]
  let add := if u = self then [e.2] else up
  rs.map fun r => if r.sw = e.1 && decide (r.dist = d + 1) then { r with ports := addPorts r.ports add } else r

/-- One frontier of R217: the switches at distance `d`, ascending. -/
def frontStep (ls : List LsEntry) (self d : Nat) (rs : List Route) : List Route :=
  let front := (sortPairs ((rs.filter fun r => r.dist == d).map fun r => (r.sw, 0))).map Prod.fst
  front.foldl (fun rs u =>
    let up := ((rs.find? fun r => r.sw == u).map Route.ports).getD []
    (edgesOf ls u).foldl (edgeStep self u d up) rs) rs

/-- The routes up to distance 14 (R217). -/
def routes (ls : List LsEntry) (self : Nat) : Nat → Nat → List Route → List Route
  | 0, _, rs => rs
  | n + 1, d, rs => routes ls self n (d + 1) (frontStep ls self d rs)

/-- The entry a route gives (R213, R217): paths by neighbour and port, as many as the path count. -/
def entryOf (s : State) (r : Route) : Nat :=
  if r.sw = swId s then 2 ^ 36 + 2 ^ 37
  else
    let nb (p : Nat) : Nat := ((lsAdj s.fwd.ls (swId s)).find? fun a => a.2 == p).elim 0 Prod.fst
    let ps := (sortPairs (r.ports.map fun p => (nb p, p))).map Prod.snd
    let ps := ps.take (rdF s Reg.FWD_DISC_CFG 2 0)
    let paths := ((List.range ps.length).zip ps).map fun x => (x.2 + 128) * 2 ^ (8 * x.1)
    paths.sum + r.dist * 2 ^ 32 + 2 ^ 37

/-- The entry of an unreachable switch. -/
def entryNone : Nat := 15 * 2 ^ 32 + 2 ^ 37

/-- The table that the stored frames give: switch and entry (R217). -/
def newTable (s : State) : List (Nat × Nat) :=
  (routes s.fwd.ls (swId s) 14 0 [{ sw := swId s, dist := 0, ports := [] }]).map fun r => (r.sw, entryOf s r)

/-- REACHABLE and ADJACENCIES of FWD_STATUS follow (R244). -/
def noteFwd (s : State) : State :=
  let known := (s.fwd.ls.map LsEntry.origin).filter fun w => decide (w ≠ swId s) && trReach (trEntry s w)
  let s := wrF s Reg.FWD_STATUS 20 9 known.length
  let s := wrF s Reg.FWD_STATUS 8 2 s.fwd.adjs.length
  let waits := s.fwd.adjDown.any fun d => (s.fwd.ls.map LsEntry.origin).any fun w => (trPaths (trEntry s w)).contains d.1
  wrB s Reg.FWD_STATUS 21 waits

/-- The whole table written at once (R218). -/
def writeTable (s : State) : State := (newTable s).foldl (fun s e => wr64 s (Reg.FWD_TRELLIS_LO e.1) e.2) s

/-! ### Changes in service (R219) -/

/-- A queued frame moved off an adjacency down for 10 ms to the egress its new entry gives, or discarded (R219, R242). A message keeps
to path 0 (R289). -/
def moveEntry (s : State) (e : QEntry) : State :=
  match if e.f.typ = 6 then path0 s e.f.dstSw.toNat else pickPath s e.f with
  | some p => enqueueDrop s p e
  | none => unreachable (dropEntry s e) e.inPort e.f

/-- The frames queued for a destination on a down adjacency move in their order (R219). Markers and link-state frames belong to that link,
not to the entry, and stay with it (R214; DEDUCED, log entry 94). -/
def moveFrames (s : State) (p dst : Nat) : State :=
  (List.range 8).foldl (fun s t =>
    let r := takeQueue s p t fun e => decide (e.f.dstSw.toNat = dst) && decide (e.f.typ.toNat ≠ 5 ∧ e.f.typ.toNat ≠ 8)
    r.1.foldl moveEntry r.2) s

/-- How long ago an adjacency went down: at least 10 ms. -/
def downLong (s : State) (p : Nat) : Bool := s.fwd.adjDown.any fun d => d.1 == p && decide (d.2 + 16000000 ≤ s.now)

/-- A destination takes its new entry when it was unreachable or a current path has been down for 10 ms (R219). -/
def applyEntry (s : State) (dst new : Nat) : State :=
  let old := if trEntry s dst = 0 then entryNone else trEntry s dst
  if old = new || decide (dst = swId s) then s
  else if !(trReach old) || (trPaths old).any (downLong s) then
    let s := wr64 s (Reg.FWD_TRELLIS_LO dst) new
    let s := count (bump s Reg.FWD_ROUTE_CHANGES) 112 6
    ((trPaths old).filter (downLong s)).foldl (fun s p => moveFrames s p dst) s
  else s

/-- The table recomputed at a change of the stored frames, or as an adjacency has been down for 10 ms (R219). -/
def recompute (s : State) : State :=
  if !(rdB s Reg.FWD_STATUS 0) then noteFwd s
  else
    let t := newTable s
    let dsts := addPorts (t.map Prod.fst) (s.fwd.ls.map LsEntry.origin)
    noteFwd (dsts.foldl (fun s d => applyEntry s d (((t.find? fun e => e.1 == d).map Prod.snd).getD entryNone)) s)

/-! ### Link-state frames (R216) -/

/-- A link-state frame to a neighbour (R216). -/
def lsFrame (s : State) (dst : Nat) (e : LsEntry) : Frame :=
  let ws := [w32 (e.origin + e.adj.length * 2 ^ 12), w32 e.start, w32 e.seq] ++ e.adj.map fun a => w32 (a.1 + a.2 * 2 ^ 12)
  { typ := 8, vc := 2, tc := BitVec.ofNat 3 (classOf s 2), length := BitVec.ofNat 11 ws.length, dstSw := BitVec.ofNat 12 dst,
    dstPort := 0x7F, srcSw := BitVec.ofNat 12 (swId s), srcPort := 0x7F, tspec0 := 1, payload := ws }

/-- A link-state frame sent on one adjacency. -/
def lsSend (s : State) (e : LsEntry) (p : Nat) : State := bump (sendOn s p (lsFrame s (neighbourOf s p) e)) Reg.FWD_LS_TX

/-- A stored frame put in place of the one of its origin. -/
def lsStore (s : State) (e : LsEntry) : State :=
  updFwd s fun x => { x with ls := (x.ls.filter fun y => decide (y.origin ≠ e.origin)) ++ [e], lsChange := s.now }

/-- The own link-state frame with the present adjacency set, on every adjacency (R216). -/
def lsOwn (s : State) : State :=
  let e : LsEntry := { origin := swId s, start := rdN s Reg.FWD_START_NO, seq := s.fwd.ownSeq + 1,
                       adj := s.fwd.adjs.map fun p => (neighbourOf s p, p) }
  let s := lsStore (updFwd s fun x => { x with ownSeq := x.ownSeq + 1 }) e
  recompute (s.fwd.adjs.foldl (fun s p => lsSend s e p) s)

/-- A permitted port trained to its expected neighbour becomes an adjacency: own and stored frames leave on it (R215, R216). -/
def adjUp (s : State) (p : Nat) : State :=
  let k := pairKey s p
  let peer := neighbourOf s p
  if !(s.seed.policy.permitted.contains p) then s
  else if expectedNeighbour s p ≠ some peer then
    faultP (bump s Reg.FWD_NEIGH_MISMATCH) 5 0x01 2 p peer
  else
    let s := wrB s (Reg.FWD_PORT_FLAGS p) 0 true
    if s.fwd.adjs.contains k then s
    else
      let s := updFwd s fun x => { x with
        adjs := x.adjs ++ [k], adjDown := x.adjDown.filter fun d => decide (d.1 ≠ k), firstAdj := some (x.firstAdj.getD s.now) }
      let s := (s.fwd.ls.filter fun e => decide (e.origin ≠ swId s)).foldl (fun s e => lsSend s e k) s
      lsOwn s

/-- A port, or the last up member of a pair, is no adjacency any more (R215, R219). -/
def adjDownAt (s : State) (p : Nat) : State :=
  let k := pairKey s p
  let s := wrB s (Reg.FWD_PORT_FLAGS p) 0 false
  if pairUp s p || !(s.fwd.adjs.contains k) then s
  else
    let s := updFwd s fun x => { x with adjs := x.adjs.filter fun q => decide (q ≠ k), adjDown := x.adjDown ++ [(k, s.now)] }
    lsOwn s

/-! ### Discovery (R218) -/

/-- Every expected neighbour of the DISCOVERY section is an adjacency. -/
def allAdjacent (s : State) : Bool :=
  s.seed.policy.neighbours.all fun n => s.fwd.adjs.contains (pairKey s n.1)

/-- Discovery completes: the table becomes active (R218). -/
def discDone (s : State) : State :=
  let s := writeTable s
  let s := wrB s Reg.FWD_STATUS 0 true
  noteFwd (wrN s Reg.FWD_DISC_TIME ((s.now - s.fwd.firstAdj.getD s.now) / 16000))

end Sys2Proof.Machine
end

