-- ==== Sys2Proof/Machine/PathOps.lean ====
section
/-! DEFINITION. A frame at its ingress: the hedge check (R421 to R423), then cells and its meter (R224 to R228, R249); and the samples of
R240. -/

namespace Sys2Proof.Machine

open Sys2Proof

/-! ### Samples (R240, R241) -/

/-- A frame's first bytes as they stand at a port, at most 128, padded to words (R529). -/
def sampleBytes (f : Frame) : List Byte :=
  let hdr := headerWords f
  let hw := hdr.take 7 ++ [w32 ((hdr.getD 7 0).toNat % 2 ^ 16 + hcrcOf hdr * 2 ^ 16)]
  ((hw ++ f.payload).flatMap wordBytes).take 128

/-- A frame counted for its port's sample ratio; every Nth is sampled, into a queue of 256 (R240, R241). -/
def sampleFrame (s : State) (p dir : Nat) (f : Frame) (stomped : Bool) : State :=
  let n := if dir = 0 then rdF s (Reg.FWD_PORT_CFG p) 15 0 else rdF s (Reg.FWD_PORT_CFG p) 31 16
  if n = 0 then s
  else
    let c := s.fwd.sampleCnt.get (2 * p + dir) + 1
    if c < n then updFwd s fun x => { x with sampleCnt := x.sampleCnt.set (2 * p + dir) c }
    else
      let s := updFwd s fun x => { x with sampleCnt := x.sampleCnt.set (2 * p + dir) 0 }
      let s := count s p 22
      if 256 ≤ s.fwd.samples.length then count (bump s (Reg.FWD_PORT_SAMPLE_DROP p)) p 23
      else
        let body := leBytes 1 p ++ leBytes 1 (dir + 2 * stomped.toNat) ++ leBytes 2 (frameB f) ++ sampleBytes f
        updFwd s fun x => { x with samples := x.samples ++ [(tstamp s, body)] }

/-! ### The hedge check (R415 to R423) -/

/-- The slot an arrival is checked against: the one its resolution gave, or for a frame from the fabric its DST_PORT, 112 for a
protected write (R417). A read of landing DRAM from another switch is answered under R302 and names no slot. -/
def checkSlot (s : State) (p : Nat) (a : Arrival) : Option Nat :=
  match a.slot with
  | some k => some k
  | none =>
    if decide (80 ≤ p) || !(isNoz s p) || decide (a.f.dstSw.toNat ≠ swId s) then none
    else if a.f.typ = 0 then some (if a.f.prot && decide (a.f.dstPort = 0x7F) then 112 else a.f.dstPort.toNat)
    else if a.f.typ = 1 && decide (a.f.dstPort ≠ 0x7F) then some a.f.dstPort.toNat
    else none

/-- The part of a posted write that a slot allows, as a write of its own with adjusted byte enables (R422). -/
def cutWrite (f : Frame) (x : Part) : Frame :=
  let pre := pfxWords f
  let first := (x.addr - frameAddr f) / 4
  let n := x.len / 4
  let total := f.payload.length - pre
  let fb := if first = 0 then f.tspec2.toNat % 16 else 15
  let lb := if first + n = total && decide (1 < total) then f.tspec2.toNat / 16 % 16 else 15
  let be := if n = 1 then (if first = 0 then fb else lb) else fb + 16 * lb
  let ws := f.payload.take pre ++ ((f.payload.drop pre).drop first).take n
  { f with
    tspec1 := BitVec.ofNat 64 (x.addr + f.tspec1.toNat % 4), tspec2 := BitVec.ofNat 16 (f.tspec2.toNat / 256 * 256 + be)
    length := BitVec.ofNat 11 ws.length, payload := ws }

/-- What a refused access leaves for its requester (R422, R423): Completer Abort for a non-posted request; LOSS of kind 2 for a
protected write at its home. -/
def refusedFrame (s : State) (p : Nat) (f : Frame) : State := lossOf (completeTo s f 4) p f 2

/-- What a refused access sends on (R422): of a write the parts its slot allows, each with its tag. -/
def cutAccess (s : State) (u k p : Nat) (f : Frame) (write : Bool) (ps : List Part) : List (Frame × Option (Nat × Nat × Nat)) × State :=
  if write then
    (ps.filter fun q => decide (q.reason = 0)).foldl (fun r q =>
      let t := hedgeTag r.2 u k
      (r.1 ++ [(cutWrite f q, some t.1)], t.2)) ([], s)
  else ([], refusedFrame s p f)

/-- An access checked by unit `u` (R421 to R423): the frames allowed, each with its tag. -/
def checkAccess (s : State) (u p : Nat) (a : Arrival) (agree : Bool) : List (Frame × Option (Nat × Nat × Nat)) × State :=
  match checkSlot s p a with
  | none => ([(a.f, none)], s)
  | some k =>
    let x := accOf a.f
    if !agree then ([], refusedFrame (hedgeDisagree s u k x.1 x.2.1 a.f.tspec0.toNat) p a.f)
    else
      let ps := hedgeParts s u k x.1 x.2.1 x.2.2
      if partsOk ps then
        let t := hedgeTag s u k
        ([(a.f, some t.1)], t.2)
      else cutAccess (hedgeRefuse s u k x.1 ps a.f.tspec0.toNat (a.scion.getD p)) u k p a.f (decide (x.1 = .write)) ps

/-- An arrival whose header is known: held while its unit holds (R428); checked, then given cells and metered. -/
def takeArrival (s : State) (u p : Nat) (a : Arrival) (agree : Bool) : State :=
  if hedgeHolds s u && (checkSlot s p a).isSome then
    { s with hedge := { s.hedge with held := s.hedge.held.upd u fun l => l ++ [a] } }
  else if (destOf s a.f).isNone then unreachable s p a.f
  else
    let r := checkAccess s u p a agree
    r.1.foldl (fun s x =>
      let e := allocFrame s p x.1 x.2 true
      meterFrame e.2 p { e.1 with mapper := a.scion }) r.2

end Sys2Proof.Machine
end

