-- ==== Sys2Proof/Machine/Hier.lean ====
section
/-! DEFINITION. A host's virtual hierarchy: its form, where a configuration request goes in it (R179), which vDSP a host's address
resolves to (R416), and the AER registers of its functions (R177, R200). -/

namespace Sys2Proof.Machine

open Sys2Proof

/-- The binding of a vDSP of host k, and how many vDSPs the host has (R176). -/
def vdspOf (s : State) (k j : Nat) : Config.VdspBind := (hostPol s k).vdsps.getD j {}
def vdspCount (s : State) (k : Nat) : Nat := (hostPol s k).vdsps.length

/-- The vDSP bound to a host-assigned port, as its host and number (R176). -/
def portVdspOf (s : State) (p : Nat) : Option (Nat × Nat) :=
  let k := portHost s p
  if portRole s p ≠ 1 then none
  else ((List.range (vdspCount s k)).find? fun j => decide ((vdspOf s k j).kind = 1) && decide ((vdspOf s k j).port = p)).map fun j => (k, j)

/-! ### Where a configuration request goes (R179) -/

/-- What a configuration request names: a function of the hierarchy, a device behind a vDSP (on the vDSP's secondary bus, or beyond it), or
nothing. -/
inductive CfgTo where
  | fn (f : VFn)
  | below (j : Nat) (beyond : Bool)
  | nothing
  deriving DecidableEq, Repr

/-- A bus number lies in the range that a bridge function was given. -/
def busIn (s : State) (k : Nat) (f : VFn) (bus : Nat) : Bool := decide (secBus s k f ≤ bus) && decide (bus ≤ subBus s k f)

/-- Of some vDSPs, the one in whose range a bus number lies. -/
def behind (s : State) (k : Nat) (js : List Nat) (bus : Nat) : CfgTo :=
  match js.find? fun j => busIn s k (.vdsp j) bus && decide (secBus s k (.vdsp j) ≠ 0) with
  | some j => .below j (decide (secBus s k (.vdsp j) ≠ bus))
  | none => .nothing

/-- The vDSPs on the internal bus of branch b: those with j div 32 = b. -/
def branchVdsps (s : State) (k b : Nat) : List Nat := (List.range (vdspCount s k)).filter fun j => decide (j / 32 = b)

/-- A request to a bus below branch port b: the upstream port of its virtual switch, a vDSP on its internal bus, or what stands behind one. -/
def inBranch (s : State) (k b : Nat) (c : CfgIn) : CfgTo :=
  if c.bus = secBus s k (.branch b) then (if c.dev = 0 ∧ c.fn = 0 then .fn (.branchUp b) else .nothing)
  else if c.bus = secBus s k (.branchUp b) then
    (if c.dev < 32 ∧ 32 * b + c.dev < vdspCount s k ∧ c.fn = 0 then .fn (.vdsp (32 * b + c.dev)) else .nothing)
  else if busIn s k (.branchUp b) c.bus then behind s k (branchVdsps s k b) c.bus
  else .nothing

/-- A Type 1 request below the upstream port: the internal bus holds the vDSPs, or with more than 32 of them two branch ports. -/
def inSwitch (s : State) (k : Nat) (c : CfgIn) : CfgTo :=
  let n := vdspCount s k
  if !(busIn s k .usp c.bus) then .nothing
  else if n ≤ 32 then
    if c.bus = secBus s k .usp then (if c.dev < n ∧ c.fn = 0 then .fn (.vdsp c.dev) else .nothing)
    else behind s k (List.range n) c.bus
  else if c.bus = secBus s k .usp then (if c.dev < 2 ∧ c.fn = 0 then .fn (.branch c.dev) else .nothing)
  else match [0, 1].find? fun b => busIn s k (.branch b) c.bus with
    | some b => inBranch s k b c
    | none => .nothing

/-- What a configuration request of host k names (R179): Type 0, the upstream port as function 0 and the MEF as function 1. -/
def cfgTo (s : State) (k : Nat) (c : CfgIn) : CfgTo :=
  if c.type1 then inSwitch s k c
  else if c.dev = 0 ∧ c.fn = 0 then .fn .usp
  else if c.dev = 0 ∧ c.fn = 1 then .fn .mef
  else .nothing

/-! ### Base address registers of the MEF (R183) -/

/-- The least power of two from 2^n on that is at least `a`, among 64. -/
def ceilPow2 (n a : Nat) : Nat := 2 ^ ((searchUp (fun i => decide (a ≤ 2 ^ i)) 64 n).getD 64)

/-- The size of a MEF BAR: BAR0 256 KiB, 64 MiB for the manager; BAR2 the landing quota, as a power of two; BAR4 1 MiB (R183). -/
def barSize (s : State) (k bar : Nat) : Nat :=
  if bar = 0 then (if k = mgr s then 2 ^ 26 else 2 ^ 18)
  else if bar = 2 then (if (hostPol s k).quota = 0 then 0 else ceilPow2 12 ((hostPol s k).quota * 4096))
  else 2 ^ 20

/-- The address a host has given a MEF BAR. -/
def barBase (s : State) (k bar : Nat) : Nat :=
  let o := 0x10 + 4 * bar
  let n := barSize s k bar
  if n = 0 then 0 else ((cfgV s k .mef capHdr o).toNat + (cfgV s k .mef capHdr (o + 4)).toNat * 2 ^ 32) / n * n

/-- An address lies in a BAR of host k's MEF (R416 orders 1 and 2). -/
def inMefBar (s : State) (k a : Nat) : Bool :=
  mefMse s k && [0, 2, 4].any fun b => decide (barBase s k b ≤ a) && decide (a < barBase s k b + barSize s k b)

/-! ### Windows (R416) -/

/-- The vDSP of host k whose memory or prefetchable window holds an address. -/
def windowOf (s : State) (k a : Nat) : Option Nat := (List.range (vdspCount s k)).find? fun j => inWindow s k (.vdsp j) a

/-- The vDSP of host k whose I/O window holds an address. -/
def ioWindowOf (s : State) (k a : Nat) : Option Nat := (List.range (vdspCount s k)).find? fun j => inIoWindow s k (.vdsp j) a

/-! ### AER (R177, R178, R200) -/

/-- Bits of the AER Uncorrectable Error Status register, and Advisory Non-Fatal of the correctable one. -/
def aerSurpriseDown : Nat := 5
def aerTimeout : Nat := 14
def aerUr : Nat := 20
def aerAdvisory : Nat := 13

/-- An uncorrectable error is fatal by its severity bit, and masked by its mask bit. -/
def aerFatal (s : State) (k : Nat) (f : VFn) (bit : Nat) : Bool := getB (cfgV s k f capAer 0x0C) bit
def aerMasked (s : State) (k : Nat) (f : VFn) (bit : Nat) : Bool := getB (cfgV s k f capAer 0x08) bit

/-- An uncorrectable error in the AER registers of a function: its status bit and that of Device Status; unmasked, and with no earlier first
error left, the First Error Pointer and the logs of the header, four words, and of the prefix, what `hdr` holds beyond them. -/
def aerUnc (s : State) (k : Nat) (f : VFn) (bit : Nat) (hdr : List Word) : State :=
  let free := !(getB (cfgV s k f capAer 4) (getF (cfgV s k f capAer 0x18) 4 0))
  let log := free && !(aerMasked s k f bit)
  let s := cfgF s k f capAer 4 bit bit 1
  let s := cfgF s k f capPcie 8 (if aerFatal s k f bit then 18 else 17) (if aerFatal s k f bit then 18 else 17) 1
  let s := if bit = aerUr then cfgF s k f capPcie 8 19 19 1 else s
  if !log then s
  else
    let s := cfgF (cfgF s k f capAer 0x18 4 0 bit) k f capAer 0x18 11 11 (decide (4 < hdr.length)).toNat
    let s := (List.range 4).foldl (fun s i => cfgSet s k f capAer (0x1C + 4 * i) (hdr.getD i 0)) s
    (List.range 4).foldl (fun s i => cfgSet s k f capAer (0x38 + 4 * i) (hdr.getD (4 + i) 0)) s

/-- An uncorrectable error reported (R200): in the AER of the function, and unmasked as a message on the host's upstream port. -/
def reportUnc (s : State) (k : Nat) (f : VFn) (bit : Nat) (hdr : List Word) : State :=
  let s := aerUnc s k f bit hdr
  if aerMasked s k f bit then s else emit s (.pcieMsg (upPort s k) (if aerFatal s k f bit then "ERR_FATAL" else "ERR_NONFATAL"))

/-- An Advisory Non-Fatal error of a function (R200): a correctable one, and unmasked an ERR_COR message. -/
def reportAdvisory (s : State) (k : Nat) (f : VFn) : State :=
  let s := cfgF (cfgF s k f capAer 0x10 aerAdvisory aerAdvisory 1) k f capPcie 8 16 16 1
  if getB (cfgV s k f capAer 0x14) aerAdvisory then s else emit s (.pcieMsg (upPort s k) "ERR_COR")

/-- An Unsupported Request logged with its header (R178): of a posted request an uncorrectable error; of a non-posted one, whose requester
learns it from the completion, an advisory one. -/
def reportUr (s : State) (k : Nat) (f : VFn) (posted : Bool) (hdr : List Word) : State :=
  if posted then reportUnc s k f aerUr hdr else reportAdvisory (aerUnc s k f aerUr hdr) k f

/-- The function that shows the errors of a port: a host's upstream port, or the vDSP of a host-assigned port (R200). -/
def portFn (s : State) (p : Nat) : Option (Nat × VFn) :=
  if portRole s p = 0 then some (portHost s p, .usp) else (portVdspOf s p).map fun v => (v.1, .vdsp v.2)

/-- The words of a memory request's header, then its PASID prefix (PCI Express 6.0, non-FLIT mode). -/
def tlpHdr (t : Tlp) : List Word :=
  let long := decide (2 ^ 32 ≤ t.addr.toNat)
  let data := decide (t.kind ≠ .read)
  let typ := if t.kind = .atomic then 12 + t.op.toNat % 4 else 0
  let tg := t.tag.toNat
  let w0 := (long.toNat + 2 * data.toNat) * 2 ^ 29 + typ * 2 ^ 24 + tg / 2 ^ 9 % 2 * 2 ^ 23 + t.tcField.toNat * 2 ^ 20 + tg / 2 ^ 8 % 2 * 2 ^ 19
    + t.ido.toNat * 2 ^ 18 + t.ep.toNat * 2 ^ 14 + t.ro.toNat * 2 ^ 13 + t.ns.toNat * 2 ^ 12 + t.at_.toNat * 2 ^ 10 + (t.len + 3) / 4 % 1024
  let w1 := t.reqId.toNat * 2 ^ 16 + tg % 256 * 2 ^ 8 + t.lastBe.toNat * 16 + t.firstBe.toNat
  let lo := w32 (t.addr.toNat / 4 * 4)
  (if long then [w32 w0, w32 w1, hi32 t.addr.toNat, lo] else [w32 w0, w32 w1, lo, 0]) ++ (t.pasid.map fun v => w32 (0x91 * 2 ^ 24 + v.toNat)).toList

end Sys2Proof.Machine
end

