-- ==== Sys2Proof/Machine/Forward.lean ====
section
/-! DEFINITION. Forwarding and the shared buffer: TLPs and frames from ingress to egress, completions, and trellis discovery (R209 to
R242). -/

namespace Sys2Proof.Machine

open Sys2Proof

/-! ### TLPs at their ingress (R178, R209, R210, R416, R417) -/

/-- The OP of a request word (R210). -/
def opOf (t : Tlp) : Nat := if t.kind = .atomic then t.op.toNat else 0

/-- A memory request as a frame with its resolved target and address (R210). -/
def tlpFrame (s : State) (p : Nat) (t : Tlp) (dstSw dstPort addr dw : Nat) (data : List Word) : Frame :=
  let wrt := decide (t.kind = .write)
  let pfx := t.pasid.isSome
  let ws := (match t.pasid with
      | some v => [w32 v.toNat]
      | none => [])
    ++ (if wrt then [] else [w32 (t.tag.toNat + dw * 2 ^ 10 + opOf t * 2 ^ 21)]) ++ data
  { typ := if wrt then 0 else 1, vc := 0, tc := BitVec.ofNat 3 (mapClass s p 0 t.tcField.toNat), poison := t.ep,
    length := BitVec.ofNat 11 ws.length, dstSw := BitVec.ofNat 12 dstSw, dstPort := BitVec.ofNat 7 dstPort,
    srcSw := BitVec.ofNat 12 (swId s), srcPort := BitVec.ofNat 7 p, tspec0 := t.reqId,
    tspec1 := BitVec.ofNat 64 (addr / 4 * 4 + t.ro.toNat + 2 * t.ido.toNat)
    tspec2 := BitVec.ofNat 16 (t.firstBe.toNat + t.lastBe.toNat * 16 + pfx.toNat * 256 + t.ns.toNat * 512), payload := ws }

/-- An arrival queued behind those of its port. -/
def pushArrival (s : State) (p : Nat) (a : Arrival) : State :=
  updFwd s fun x => { x with passed := x.passed.upd p fun l => l ++ [a] }

/-- An Unsupported Request at a port counted, and logged with its header by the function that shows the port's errors (R178, R200). -/
def urNote (s : State) (p : Nat) (posted : Bool) (hdr : List Word) : State :=
  let s := count (bump s (Reg.PCIE_UR_TX p)) p 20
  match portFn s p with
  | some (k, f) => reportUr s k f posted hdr
  | none => s

/-- A memory request refused with Unsupported Request: counted, logged, and completed when it is non-posted (R178). -/
def unsupported (s : State) (p : Nat) (t : Tlp) : State :=
  let posted := decide (t.kind = .write ∨ t.kind = .prot)
  let s := urNote s p posted (tlpHdr t)
  if posted then s else emit s (.cpl p t.reqId.toNat t.tag.toNat 1 false [])

/-- One resolved part of a device's request: its target slot names a port of this switch or a remote port (R417, R418). -/
def slotTarget (s : State) (p slot : Nat) : Nat × Nat :=
  if slot < 80 then (swId s, slot)
  else (rdF s (Reg.HEDGE_S_REMOTE p slot) 11 0, rdF s (Reg.HEDGE_S_REMOTE p slot) 18 12)

/-- The byte enables of `len` bytes from byte `a` of a request of `total`: its own at its ends, all set inside; a single word has no last
ones (R210). -/
def partBe (t : Tlp) (a len total : Nat) : BitVec 4 × BitVec 4 :=
  let first : BitVec 4 := if a = 0 then t.firstBe else 0xF
  let last : BitVec 4 := if total ≤ a + len && decide (4 < total) then t.lastBe else if a = 0 && decide (len ≤ 4) then t.firstBe else 0xF
  if len ≤ 4 then (if a = 0 then first else last, 0) else (first, last)

/-- The words of a request's data that a part takes. -/
def partData (t : Tlp) (base a len : Nat) : List Word := (t.data.drop ((a - base) / 4)).take ((len + 3) / 4)

/-- The parts of a request with the place each begins at in the request. -/
def withStart (n : Nat) : List (Nat × Nat × Nat) → List (Nat × Nat × Nat × Nat)
  | [] => []
  | (slot, a, l) :: rest => (n, slot, a, l) :: withStart (n + l) rest

/-- A device's request of host k's hierarchy resolved part by part (R417, R433, R434). -/
def deviceParts (s : State) (p k : Nat) (t : Tlp) : List Arrival :=
  (withStart 0 (pwResolve s k 64 t.addr.toNat t.len)).map fun x =>
    let d := slotTarget s p x.2.1
    let be := partBe t x.1 x.2.2.2 t.len
    { f := tlpFrame s p { t with firstBe := be.1, lastBe := be.2 } d.1 d.2 x.2.2.1 ((x.2.2.2 + 3) / 4) (partData t 0 x.1 x.2.2.2)
      slot := some x.2.1, part := decide (x.1 ≠ 0) }

/-- A device's request resolved and queued part by part. -/
def deviceRequest (s : State) (p k : Nat) (t : Tlp) : State := (deviceParts s p k t).foldl (fun s a => pushArrival s p a) s

/-- A host's request that a vDSP window resolves to a host-assigned port (R416). -/
def hostArrival (s : State) (p k : Nat) (t : Tlp) : Option Arrival :=
  match windowOf s k t.addr.toNat with
  | none => none
  | some j =>
    let b := vdspOf s k j
    if b.kind = 1 && !(inMefBar s k t.addr.toNat) then some { f := tlpFrame s p t (swId s) b.port t.addr.toNat ((t.len + 3) / 4) t.data, slot := some b.port } else none

/-- A host's request resolved by its vDSP windows (R416); the MEF's BARs, which come first, bridged devices and scion positions have commands
of their own. -/
def hostRequest (s : State) (p k : Nat) (t : Tlp) : State :=
  match hostArrival s p k t with
  | some a => pushArrival s p a
  | none =>
    if inMefBar s k t.addr.toNat || (windowOf s k t.addr.toNat).any fun j => decide ((vdspOf s k j).kind = 2 ∨ (vdspOf s k j).kind = 3) then s
    else unsupported s p t

/-- What a memory request whose header is known resolves to, when one frame carries it (R220, R416, R417). -/
def tlpArrival (s : State) (p : Nat) (t : Tlp) : Option Arrival :=
  if t.at_ ≠ 0 then none
  else if portRole s p = 0 then hostArrival s p (portHost s p) t
  else if portRole s p = 1 then match deviceParts s p (portHost s p) t with
    | [a] => some a
    | _ => none
  else none

/-- The flush target whose port this is (R326). -/
def targetOf (s : State) (p : Nat) : Option Nat :=
  (List.range 8).find? fun t => rdB s (Reg.PFAIL_TGT_CFG t) 7 && decide (rdF s (Reg.PFAIL_TGT_CFG t) 6 0 = p)

/-- A request of a flush target's drive (R325, R415): checked by the mover's unit, and a read of the landing buffer answered. -/
def driveRequest (s : State) (p : Nat) (t : Tlp) : State :=
  match targetOf s p with
  | none => unsupported s p t
  | some n =>
    let ps := hedgeParts s (88 + n) 112 t.kind t.addr.toNat t.len
    let cpl (s : State) : State :=
      if t.kind = .write || t.kind = .prot then s else emit s (.cpl p t.reqId.toNat t.tag.toNat 4 false [])
    if !(partsOk ps) then cpl (hedgeRefuse s (88 + n) 112 t.kind ps t.reqId.toNat p)
    else
      let q := readWords s (t.addr.toNat / 32) ((t.addr.toNat % 32 + t.len + 31) / 32)
      emit q.2 (.cpl p t.reqId.toNat t.tag.toNat 0 q.1.2 (bar2Words t.addr.toNat t.len q.1.1))

/-- A configuration or I/O request of a host waits at the port of the device it names, for its issue (R212). -/
def npPush (s : State) (p : Nat) (r : NpReq) : State :=
  { s with pcie := { s.pcie with npWait := s.pcie.npWait.upd p fun l => l ++ [r] } }

/-- An I/O request, which is always non-posted: to a host-assigned port by the vDSP's I/O window, to a bridged device by a command of its
own, or refused. -/
def ioRequest (s : State) (p : Nat) (t : Tlp) : State :=
  let k := portHost s p
  let refuse (s : State) : State := emit (urNote s p false (tlpHdr t)) (.cpl p t.reqId.toNat t.tag.toNat 1 false [])
  match (if portRole s p = 0 then ioWindowOf s k t.addr.toNat else none).map (vdspOf s k) with
  | some b =>
    if b.kind = 1 && rdB s (Reg.PCIE_STATUS b.port) 10 then npPush s b.port { up := p, reqId := t.reqId, tag := t.tag, kind := .io t }
    else if b.kind = 2 then s else refuse s
  | none => refuse s

/-- TLP_RECEIVE (R178, R209): taken at its ingress, resolved and turned into a frame, or refused. Requests of a shareable port have
commands of their own, and so has MRdLk to a bridged device. -/
def execTlpReceive (p : Nat) (t : TlpIn) (s : State) : Res :=
  match t with
  | .ptmOrUnknownMsg hdr => .next (urNote s p true hdr)
  | .mrdLk t =>
    if (windowOf s (portHost s p) t.addr.toNat).any fun j => decide ((vdspOf s (portHost s p) j).kind = 2) then .next s
    else .next (unsupported s p t)
  | .io t => .next (ioRequest s p t)
  | .mem t =>
    let s := countIn s p 0 (tlpB t)
    if t.at_ ≠ 0 || portRole s p = 4 then .next (unsupported s p t)
    else if portRole s p = 0 then .next (hostRequest s p (portHost s p) t)
    else if portRole s p = 1 then .next (deviceRequest s p (portHost s p) t)
    else if portRole s p = 3 then .next (driveRequest s p t)
    else .next s

/-! ### Eligibility (R152, R215, R220, R248) -/

/-- Credits for a frame on a Nozan port (R152, R153). -/
def creditOk (s : State) (p : Nat) (f : Frame) : Bool :=
  let vc := f.vc.toNat
  bitN (s.pair.get (pairKey s p)).vcKnown vc &&
    decide ((rdF s (Reg.NZL_LIMIT_VC p vc) 23 0 + 2 ^ 25 - rdF s (Reg.NZL_USED_VC p vc) 23 0 - frameCredits f) % 2 ^ 24 < 2 ^ 23)

/-- What a link in the reduced mode carries: no VC1 but markers, no VC0 but connectionless remote memory (R94, R95). -/
def bringupOk (s : State) (p : Nat) (f : Frame) : Bool :=
  let slow := ((membersOf s p).filter (nzUp s)).all fun q => (s.member.get q).bringup
  !slow || decide (2 ≤ f.vc.toNat) || (decide (f.vc = 1) && decide (f.typ = 5))
    || (decide (f.vc = 0) && decide (f.typ = 3) && bitN f.tspec0.toNat 4)

/-- A locked sequence holds a far port of this switch (R457). -/
def portLocked (s : State) (p : Nat) : Bool :=
  decide (rdF s Reg.BRG_LOCK 18 12 = p) && (decide (rdF s Reg.BRG_STATUS 12 11 = 3)
    || (decide (rdF s Reg.BRG_STATUS 12 11 ≠ 0) && decide (rdF s Reg.BRG_LOCK 11 0 = swId s)))

/-- A frame may leave on a port now: link, adjacency, credits, and a free completion map entry for a non-posted request (R152,
R212, R215, R248). -/
def mayLeave (s : State) (p : Nat) (f : Frame) : Bool :=
  if isNoz s p then
    pairUp s p && (decide (f.vc = 2) || adjacent s p) && bringupOk s p f && creditOk s p f
  else
    rdB s (Reg.PCIE_STATUS p) 10 && decide (rdF s (Reg.PCIE_STATUS p) 3 0 = 3) && !(contained s p)
      && (decide (f.typ = 2) || !(portLocked s p))
      && (decide (f.typ ≠ 1) || decide ((s.fwd.cmap.get p).length + (s.fwd.tx.get p).length < 768))

/-- A frame may leave on a port whose partner grants flow-control credits as `fc` says: bit 0 for posted, 1 for non-posted requests, 2 for
completions (R220). The partner's credits are a reading of the link, which the row carries (log entry 74). -/
def mayLeaveFc (s : State) (p : Nat) (f : Frame) (fc : BitVec 3) : Bool :=
  mayLeave s p f && (isNoz s p || fc.getLsbD (if f.typ = 0 then 0 else if f.typ = 1 then 1 else 2))

/-- The shaper of a queue allows it (R254, R255). -/
def shaperOk (s : State) (p t : Nat) : Bool :=
  decide (vcOfClass s t = 3) || decide (0 ≤ ofTwos 25 (rdF s (Reg.QOS_SH_TOKENS p t) 24 0))

/-- The shaper pays for a frame that starts (R254). -/
def shaperPay (s : State) (p t b : Nat) : State :=
  wrF s (Reg.QOS_SH_TOKENS p t) 24 0 (twos 25 (ofTwos 25 (rdF s (Reg.QOS_SH_TOKENS p t) 24 0) - (b : Int)))

/-- The payload rate of a port in 10 Mb/s (R108, R220). -/
def portRate (s : State) (p : Nat) : Nat :=
  let p := if isNoz s p then (upMember s p).getD p else p
  if isNoz s p then (if rdB s (Reg.NZL_STATUS p) 5 then 3200 else 800) * 2 ^ (rdF s (Reg.NZL_STATUS p) 4 3 + 2)
  else ([200, 400, 788, 1575, 3151, 6400].getD (rdF s (Reg.PCIE_STATUS p) 6 4) 0) * 2 ^ (rdF s (Reg.PCIE_STATUS p) 8 7 + 1)

/-- No frame waits or leaves at a port at this priority or above (R220). -/
def egressIdle (s : State) (q t : Nat) : Bool :=
  (s.fwd.tx.get q = []) && (s.fwd.cutTo.cells.all fun c => c.2 ≠ some q)
    && ((List.range 8).all fun u => decide (u < t) || decide (s.fwd.queue.get (8 * q + u) = []))

/-- The port a frame cuts through to, when every condition of R220 but the hedge check and the meter holds. -/
def cutPort (s : State) (p : Nat) (f : Frame) (fc : BitVec 3) : Option Nat :=
  match destOf s f with
  | none => none
  | some q =>
    if q ≠ 0x7F && egressIdle s q f.tc.toNat && mayLeaveFc s q f fc && shaperOk s q f.tc.toNat && decide (portRate s q ≤ portRate s p)
      && decide (f.typ ≠ 8) && (s.fwd.staged.get p).isNone then some q
    else none

/-- A frame whose header is known before its verdict: cut through when R220 and R252 allow, else left to its store (R220). -/
def cutThrough (s : State) (p : Nat) (a : Arrival) (agree : Bool) (fc : BitVec 3) : State :=
  let f := a.f
  match cutPort s p f fc with
  | none => s
  | some q =>
    if (isNoz s p && malformed s (headerWords f) f) || (hedgeHolds s p && (checkSlot s p a).isSome) then s
    else
      let held := decide (s.fwd.metHold.get (8 * p + f.tc.toNat) ≠ [])
      let m := if f.vc.toNat < 2 then meterColour s p f else (0, s)
      if held || !agree || (m.1 = 2 && !(isNoz s p)) then s
      else
        let r := checkAccess s p p a true
        match r.1 with
        | [(g, tag)] =>
          if g ≠ f then s
          else
            let m := if f.vc.toNat < 2 then meterColour r.2 p f else (f.colour.toNat, r.2)
            let s := if f.vc.toNat < 2 then countColour m.2 p f.tc.toNat m.1 else m.2
            let e := allocFrame s p (if f.vc.toNat < 2 then paint f m.1 else f) tag false
            let s := shaperPay e.2 q f.tc.toNat (frameB f)
            let s := updFwd s fun x => { x with staged := x.staged.set p (some e.1), cutTo := x.cutTo.set p (some q) }
            if isNoz s p then { s with pair := s.pair.upd p fun x => { x with cutSeq := some f.lseq.toNat } } else s
        | _ => s

/-- A frame that arrives on a Nozan member is next in order, and follows what the member carried last, so that it may be cut through
(R148, R157). -/
def cutNext (s : State) (p : Nat) (f : Frame) : Bool :=
  isNoz s p && nzUp s p && decide (f.lseq.toNat = nextRx s p) && (s.pair.get (pairKey s p)).cutSeq.isNone
    && (f.first || decide ((s.member.get p).last = some f.prev.toNat))

/-- A frame written into the buffer, a word of which had bad parity `parity` times on its way (R232, R233). -/
def writeParity (s : State) (a : Arrival) (parity : Nat) : Arrival × State :=
  let r := parityRead s ((destOf s a.f).getD 0x7F) parity
  (if r.1 then { a with f := { a.f with poison := true } } else a, r.2)

/-- FRAME_HEADER_KNOWN (R220): the oldest arrival of a port whose verdict is known, or a frame or TLP whose header alone is known.
`checksAgree` says the hedge unit's two circuits agree (R421), `fc` which credits the egress's partner grants, `parity` how often a word's
parity failed at the buffer write. -/
def execFrameHeaderKnown (p : Nat) (h : Option HdrIn) (checksAgree : Bool) (fc : BitVec 3) (parity : Nat) (s : State) : Res :=
  match h with
  | some (.frame f) => .next (if cutNext s p f then cutThrough s (pairKey s p) { f := f } checksAgree fc else s)
  | some (.tlp t) => match tlpArrival s p t with
    | some a => .next (cutThrough s p a checksAgree fc)
    | none => .next s
  | none =>
    match s.fwd.passed.get p with
    | [] => .next s
    | a :: rest =>
      let s := updFwd s fun x => { x with passed := x.passed.set p rest }
      let x := writeParity (if a.part then s else sampleFrame s p 0 a.f false) a parity
      .next (takeArrival x.2 p p x.1 checksAgree)

/-! ### Egress (R222, R229 to R237, R248) -/

/-- A frame as a TLP (R209, R236). -/
def tlpOf (f : Frame) : Tlp :=
  let pre := pfxWords f
  let w := reqWord f
  let nonp := decide (f.typ = 1)
  let data := f.payload.drop (pre + nonp.toNat)
  { kind := (accOf f).1, addr := BitVec.ofNat 64 (frameAddr f), len := (accOf f).2.2, reqId := f.tspec0,
    tag := BitVec.ofNat 10 (if nonp then getF w 9 0 else 0), firstBe := BitVec.ofNat 4 f.tspec2.toNat
    lastBe := BitVec.ofNat 4 (f.tspec2.toNat / 16), tcField := f.tc, ro := bitN f.tspec1.toNat 0, ido := bitN f.tspec1.toNat 1
    ns := bitN f.tspec2.toNat 9, pasid := if pre = 1 then some (BitVec.ofNat 22 (f.payload.getD 0 0).toNat) else none
    ep := f.poison, op := BitVec.ofNat 3 (if nonp then getF w 23 21 else 0), data := data }

/-- What the owner of a MEF's upstream write does once it has left (R394, R405, R388). -/
def handOver (s : State) (o : MefOwner) (f : Frame) : State :=
  match o with
  | .readData id => readDelivered s id (4 * (f.payload.length - pfxWords f))
  | .region i => regionDone s i
  | .spill c => spillDone s c
  | _ => s

/-- A frame sent counted for its port (R520). -/
def countSent (s : State) (p : Nat) (f : Frame) : State :=
  count (countBy (count s p 2) p 3 (frameB f)) p (8 + f.vc.toNat)

/-- GEN of a scion (R469, R487). -/
def scionGen (s : State) (sc : Nat) : Nat := rdF s (Reg.SCION_S_STATUS sc) 10 3

/-- The secondary bus a host has written for a scion's vDSP, the Requester ID of the scion's requests (R473). -/
def scionReqId (s : State) (sc : Nat) : Nat :=
  let b := Reg.SCION_S_BIND sc
  secBus s (rdF s b 4 0) (.vdsp (rdF s b 10 5)) * 256

/-- The scion of a shareable port that holds an open request with a Requester ID and tag. -/
def scionOfRead (s : State) (reqId tag : Nat) : Option (Nat × ScionRead) :=
  s.scion.recs.cells.findSome? fun c =>
    if scionReqId s c.1 = reqId then (c.2.reads.find? fun r => r.tag == tag).map fun r => (c.1, r) else none

/-- A completion for a shareable device: the device's requester and tag are restored, or an older generation's is dropped and counted
(R473). The open request ends with the completion that carries its last byte, or with one of another status. -/
def scionCpl (s : State) (p : Nat) (f : Frame) : State :=
  let tag := f.tspec1.toNat % 2 ^ 10
  match scionOfRead s f.tspec0.toNat tag with
  | none => s
  | some (sc, r) =>
    let st := f.tspec1.toNat / 2 ^ 10 % 8
    let final := decide (st ≠ 0) || decide (f.tspec1.toNat / 2 ^ 13 % 2 ^ 13 ≤ 4 * f.payload.length)
    let s := if final then { s with scion := { s.scion with recs := s.scion.recs.upd sc fun x => { x with reads := x.reads.erase r } } } else s
    if r.gen = scionGen s sc then emit s (.cpl p r.devReq r.devTag st f.poison f.payload (cplHdr f)) else bump s (Reg.SCION_S_LATE_CPL sc)

/-- PME_TO_Ack leaves once the last queued posted write of the MEF has left (R188). -/
def turnOffAck (s : State) (k : Nat) : State :=
  let queued := (List.range 8).any fun t => (s.fwd.queue.get (8 * upPort s k + t)).any fun e => e.own.isSome
  if (s.pcie.mef.get k).turnOff.isNone || queued then s else pmeAck s k

/-- A frame leaves through a PCI Express port. -/
def sendPcie (s : State) (p : Nat) (e : QEntry) : State :=
  let f := e.f
  let s := countSent s p f
  if e.stomp then freeEntry (bump s (Reg.PCIE_NULLIFIED_TX p)) e
  else match e.own with
    | some (k, o) => turnOffAck (freeEntry (handOver (emit s (.hostWrite k (frameAddr f) (f.payload.drop (pfxWords f)) (tlpOf f).pasid)) o f) e) k
    | none =>
      if f.typ = 1 then updFwd s fun x => { x with tx := x.tx.upd p fun l => l ++ [e] }
      else if f.typ = 2 && decide (portRole s p = 2) then freeEntry (scionCpl s p f) e
      else if f.typ = 2 then
        freeEntry (emit s (.cpl p f.tspec0.toNat (f.tspec1.toNat % 2 ^ 10) (f.tspec1.toNat / 2 ^ 10 % 8) f.poison f.payload (cplHdr f))) e
      else freeEntry (emit s (.tlp p (tlpOf f))) e

/-- The frame of a member's transmit queue that may leave: the pair's first of its VC, with credits (R31, R152, R156); what stands in the
queue of a member that is down may leave on the other. -/
def txReady (s : State) (p : Nat) : Option QEntry :=
  let l := s.fwd.tx.get (pairKey s p)
  l.find? fun e =>
    (decide (e.member = p) || !(nzUp s e.member)) && decide ((l.find? fun x => decide (x.f.vc = e.f.vc)) = some e) && creditOk s p e.f

/-- A member's transmit queue: the bytes that wait to leave on it, new and to be resent, and its speed in lanes times rate (R156). -/
def txLoad (s : State) (p : Nat) : Nat × Nat :=
  let new := ((s.fwd.tx.get (pairKey s p)).filter fun e => e.member == p).map fun e => frameB e.f
  let old := ((s.pair.get (pairKey s p)).replay.filter fun h => h.member == p && h.resend).map fun h => frameB h.f
  (new.sum + old.sum, widthLanes (rdF s (Reg.NZL_STATUS p) 4 3) * (if rdB s (Reg.NZL_STATUS p) 5 then 4 else 1))

/-- The member that a pair's next new frame is placed on: of those up the one whose transmit queue empties sooner, the lower-numbered on a
tie (R156). -/
def txMember (s : State) (p : Nat) : Nat :=
  let sooner (a b : Nat) : Bool := decide ((txLoad s a).1 * (txLoad s b).2 ≤ (txLoad s b).1 * (txLoad s a).2)
  match (membersOf s p).filter (nzUp s) with
  | [a, b] => if sooner a b then a else b
  | [a] => a
  | _ => p

/-- A frame handed to its port's transmitter, on a link pair to the queue of one member (R156). -/
def toPort (s : State) (p : Nat) (e : QEntry) : State :=
  if isNoz s p then updFwd s fun x => { x with tx := x.tx.upd p fun l => l ++ [{ e with member := txMember s p }] } else sendPcie s p e

/-- The delivery check of a tagged frame at its egress: it passes, or it is discarded (R424). -/
def deliverCheck (s : State) (e : QEntry) : Bool × State :=
  match e.tag with
  | none => (true, s)
  | some t =>
    let x := accOf e.f
    let r := hedgeDeliver s t x.1 x.2.1 e.f.tspec0.toNat
    if r.1 then (true, r.2) else (false, completeTo (freeEntry r.2 e) e.f 4)

/-- A stomped or nullified copy of a frame leaves ahead of the frame itself (R222, R234). -/
def stompCopy (s : State) (p : Nat) (e : QEntry) : State :=
  let s := count (bump s (Reg.FWD_PORT_STOMP_TX p)) p 14
  toPort (sampleFrame s p 1 e.f true) p { e with stomp := true, cells := [], shared := 0, own := none, tag := none, inPort := internalMaster }

/-- CM set at dequeue when the queue held at least its threshold (R237). -/
def markCm (s : State) (p t depth : Nat) (e : QEntry) : QEntry × State :=
  if isNoz s p && decide (e.f.vc.toNat < 2) && decide (rdF s (Reg.FWD_Q_CFG p t) 13 0 ≤ depth) then
    ({ e with f := { e.f with cm := true } }, bump s (Reg.FWD_PORT_MARKED p))
  else (e, s)

/-- The highest-numbered eligible queue of a port, with its head (R248). -/
def pickQueue (s : State) (p : Nat) (fc : BitVec 3) : Option (Nat × QEntry) :=
  [7, 6, 5, 4, 3, 2, 1, 0].findSome? fun t =>
    match s.fwd.queue.get (8 * p + t) with
    | [] => none
    | e :: _ => if mayLeaveFc s p e.f fc && shaperOk s p t then some (t, e) else none

/-- The head of a queue taken out. -/
def popQueue (s : State) (p t : Nat) (e : QEntry) : State :=
  let s := updFwd s fun x => { x with queue := x.queue.upd (8 * p + t) List.tail }
  wrF s (Reg.FWD_Q_DEPTH p t) 17 0 (qDepth s p t - frameCells e.f)

/-- EGRESS_FRAME_BOUNDARY (R248): the highest eligible queue is served. `flip` and `addrFlip` say how the buffer word `wordIdx`
differs from what was written, `parity` how often its datapath parity failed, `fc` which credits the link partner grants. -/
def execEgressFrameBoundary (p : Nat) (flip : BitVec 268) (addrFlip : BitVec 20) (wordIdx parity : Nat) (fc : BitVec 3) (s : State) : Res :=
  if isNoz s p && (txReady s (txMember s p)).isSome then .next s
  else match pickQueue s p fc with
    | none => .next s
    | some (t, e) =>
      let depth := qDepth s p t
      let s := shaperPay (popQueue s p t e) p t (frameB e.f)
      let r := bufRead s p e flip addrFlip wordIdx parity
      if r.1 = 2 then .next (headerDiscard r.2 p e)
      else
        let d := deliverCheck r.2 e
        if !d.1 then .next d.2
        else
          let m := markCm d.2 p t depth { e with tag := none }
          if r.1 = 1 then
            let s := stompCopy m.2 p m.1
            let s := count (bump s Reg.BUF_POISON_OUT) 112 5
            .next (toPort (sampleFrame s p 1 m.1.f false) p { m.1 with f := { m.1.f with poison := true } })
          else .next (toPort (sampleFrame m.2 p 1 m.1.f false) p m.1)

/-- A cut-through frame whose verdict is good leaves on port q: whole, or, when a word of it was poisoned or its replay came too late for the
two words kept ahead, stomped and then again from the buffer (R232 to R235). -/
def cutLeaves (s : State) (q : Nat) (e : QEntry) (flip : BitVec 268) (addrFlip : BitVec 20) (wordIdx parity : Nat) (late : Bool) : State :=
  let r := bufRead s q e flip addrFlip wordIdx parity
  if r.1 = 2 then headerDiscard (stompCopy r.2 q e) q e
  else
    let d := deliverCheck r.2 e
    if !d.1 then d.2
    else
      let e := { e with tag := none }
      let s := if r.1 = 1 || (late && decide (parity ≠ 0)) then stompCopy d.2 q e else d.2
      let e := if r.1 = 1 then { e with f := { e.f with poison := true } } else e
      let s := if r.1 = 1 then count (bump s Reg.BUF_POISON_OUT) 112 5 else s
      toPort (sampleFrame s q 1 e.f false) q e

/-- INGRESS_VERDICT (R222): a cut-through copy ends good, or stomped on Nozan and nullified on PCI Express. `flip`, `addrFlip`, `wordIdx` and
`parity` say what the reads of its words found, as in EGRESS_FRAME_BOUNDARY, `late` that a replay emptied the words kept ahead (R232). -/
def execIngressVerdict (p : Nat) (good : Bool) (flip : BitVec 268) (addrFlip : BitVec 20) (wordIdx parity : Nat) (late : Bool)
    (s : State) : Res :=
  let p := if isNoz s p then pairKey s p else p
  match s.fwd.staged.get p, s.fwd.cutTo.get p with
  | some e, some q =>
    let s := updFwd s fun x => { x with staged := x.staged.set p none, cutTo := x.cutTo.set p none }
    let e := { e with known := true }
    if good then
      let s := if isPcie s p then countIn s p e.f.vc.toNat (frameB e.f) else s
      .next (cutLeaves (sampleFrame s p 0 e.f false) q e flip addrFlip wordIdx parity late)
    else
      let s := count (bump s (Reg.FWD_PORT_STOMP_TX q)) q 14
      let s := match e.tag with
        | some t => hedgeDrop s t
        | none => s
      .next (toPort (sampleFrame s q 1 e.f true) q { e with stomp := true, tag := none })
  | _, _ => .next s

/-! ### Non-posted requests at their egress (R212) -/

/-- The Requester ID under which port p issues requests to its device (R446, R472). -/
def farRequester (p : Nat) : BitVec 16 := BitVec.ofNat 16 (0xFF00 + p)

/-- The lowest tag no map entry of a port holds. -/
def freeMapTag (s : State) (p : Nat) : Nat :=
  (searchUp (fun t => !((s.fwd.cmap.get p).any fun c => c.tag == t)) ((s.fwd.cmap.get p).length + 1) 0).getD 0

/-- A configuration or I/O request issued on a device's port, as a memory request is (R212). -/
def npIssue (s : State) (p : Nat) (r : NpReq) : State :=
  let n := freeMapTag s p
  let c : CmapEntry := { tag := n, srcSw := swId s, srcPort := r.up, reqId := r.reqId.toNat, origTag := r.tag.toNat }
  let s := { s with pcie := { s.pcie with npWait := s.pcie.npWait.upd p fun l => l.erase r } }
  let s := updFwd s fun x => { x with cmap := x.cmap.upd p fun l => l ++ [c] }
  match r.kind with
  | .cfg c => emit s (.cfg p { c with tag := BitVec.ofNat 10 n, reqId := farRequester p })
  | .io t => emit s (.bridged p (if t.kind = .read then .ioRd else .ioWr) { t with tag := BitVec.ofNat 10 n, reqId := farRequester p })

/-- NONPOSTED_ISSUE (R212): the next non-posted request of a port, of the requester named, leaves with a tag of the port's own under the
port's Requester ID 0xFF00 + p, which R446 and R472 give it, and a map entry keeps where its completion goes; it waits while 768 are out. -/
def execNonpostedIssue (p : Nat) (reqId : BitVec 16) (tag : BitVec 10) (srcSw : BitVec 12) (srcPort : BitVec 7) (s : State) : Res :=
  let np := (s.pcie.npWait.get p).find? fun r =>
    decide (r.reqId = reqId ∧ r.tag = tag ∧ srcSw.toNat = swId s ∧ srcPort.toNat = r.up ∧ (s.fwd.cmap.get p).length < 768)
  match (s.fwd.tx.get p).find? fun e => decide (e.f.typ = 1) with
  | none => .next ((np.map (npIssue s p)).getD s)
  | some e =>
    if np.isSome then .next ((np.map (npIssue s p)).getD s)
    else if 768 ≤ (s.fwd.cmap.get p).length || e.f.tspec0 ≠ reqId || decide (getF (reqWord e.f) 9 0 ≠ tag.toNat) || e.f.srcSw ≠ srcSw
      || e.f.srcPort ≠ srcPort then .next s
    else
      let n := freeMapTag s p
      let c : CmapEntry := { tag := n, srcSw := srcSw.toNat, srcPort := srcPort.toNat, reqId := reqId.toNat, origTag := tag.toNat
                             bytes := (accOf e.f).2.2, low := frameAddr e.f % 128, tcl := e.f.tc.toNat, scion := e.scion }
      let s := updFwd s fun x => { x with tx := x.tx.upd p fun l => l.erase e, cmap := x.cmap.upd p fun l => l ++ [c] }
      let s := emit s (.tlp p { tlpOf e.f with tag := BitVec.ofNat 10 n, reqId := farRequester p })
      .next (freeEntry s e)

/-- A completion sent to where a map entry says, in the class that its ingress port's map gives its traffic class on VC3 (R30, R211,
R212, R247). -/
def mapComplete (s : State) (p : Nat) (c : CmapEntry) (tcl : Nat) (t1 : BitVec 64) (ep : Bool) (data : List Word) : State :=
  let f : Frame := { typ := 2, vc := 3, tc := BitVec.ofNat 3 (mapClass s p 3 tcl), poison := ep, length := BitVec.ofNat 11 data.length,
                     dstSw := BitVec.ofNat 12 c.srcSw, dstPort := BitVec.ofNat 7 c.srcPort, srcSw := BitVec.ofNat 12 (swId s),
                     srcPort := BitVec.ofNat 7 p, tspec0 := BitVec.ofNat 16 c.reqId, tspec1 := t1, payload := data }
  takeArrival (sampleFrame s p 0 f false) p p { f := f } true

/-- A completion ends its request: it carries no data, or another status than success, or the last of the bytes that remain (R211, R212). -/
def cplEnds (x : CplIn) : Bool :=
  x.data.isEmpty || decide (x.status ≠ 0) ||
    decide ((if x.bc = 0 then 4096 else x.bc.toNat) ≤ 4 * x.data.length - x.low.toNat % 4)

/-- A device's completion: the requester's fields are restored and it returns; one without an entry is discarded and counted, as is one
of a scion's older GEN (R212, R472). -/
def deviceCpl (p : Nat) (x : CplIn) (s : State) : Res :=
  match (s.fwd.cmap.get p).find? fun c => c.tag == x.tag with
  | none => .next (bump s (Reg.FWD_PORT_UNEXP_CPL p))
  | some c =>
    let s := if cplEnds x then updFwd s fun x => { x with cmap := x.cmap.upd p fun l => l.erase c } else s
    if c.scion.any fun x => decide (scionGen s x.1 ≠ x.2) then .next (bump s (Reg.SCION_S_LATE_CPL (c.scion.getD (0, 0)).1)) else
    .next (mapComplete s p c x.tcl.toNat (cplSpec c.origTag x.status.toNat x.bc.toNat x.low.toNat x.cplId x.ro x.ido x.ns) x.ep x.data)

/-- DEVICE_COMPLETION_RECEIVE (R212): received on VC3, then as deviceCpl says. -/
def execDeviceCompletionReceive (p : Nat) (c : CplIn) (s : State) : Res :=
  deviceCpl p c (countIn s p 3 (32 + 4 * c.data.length))

/-! ### Discovery (R215 to R219) -/

/-- (START, SEQ) as one 64-bit value. -/
def lsStamp (e : LsEntry) : Nat := e.start * 2 ^ 32 + e.seq

/-- LINK_STATE_RECEIVE (R216): a newer frame is stored, forwarded on every other adjacency, and the table recomputed. -/
def execLinkStateReceive (p : Nat) (origin : BitVec 12) (start seq : Word) (adj : List (BitVec 12 × BitVec 7)) (s : State) : Res :=
  let s := bump s Reg.FWD_LS_RX
  let e : LsEntry := { origin := origin.toNat, start := start.toNat, seq := seq.toNat, adj := adj.map fun a => (a.1.toNat, a.2.toNat) }
  let old := (s.fwd.ls.find? fun x => x.origin == e.origin).elim 0 lsStamp
  if e.origin = swId s || decide (lsStamp e ≤ old) then .next s
  else
    let s := lsStore s e
    let s := (s.fwd.adjs.filter fun q => decide (q ≠ pairKey s p)).foldl (fun s q => lsSend s e q) s
    .next (recompute s)

/-- DISCOVERY_QUIET_EXPIRY (R218): complete when every expected neighbour is an adjacency and no stored frame changed for 1 ms. -/
def execDiscoveryQuietExpiry (s : State) : Res :=
  if rdB s Reg.FWD_STATUS 0 then .next s
  else if allAdjacent s then .next (discDone (timeTo s (s.fwd.lsChange + 1600000)))
  else .next s

/-- DISCOVERY_PARTIAL_EXPIRY (R218): 20 ms after the first adjacency came up, an expected neighbour is still none. -/
def execDiscoveryPartialExpiry (s : State) : Res :=
  match s.fwd.firstAdj with
  | none => .next s
  | some t =>
    if rdB s Reg.FWD_STATUS 0 || allAdjacent s then .next s
    else .next (discDone (faultU (wrB (timeTo s (t + 32000000)) Reg.FWD_STATUS 1 true) 5 0x02 2 0))

/-- ADJACENCY_DOWN_EXPIRY (R219): an adjacency has been down for 10 ms, so destinations over it take their new entries. -/
def execAdjacencyDownExpiry (p : Nat) (s : State) : Res :=
  match s.fwd.adjDown.find? fun d => d.1 == pairKey s p with
  | some d => .next (recompute (timeTo s (d.2 + 16000000)))
  | none => .next s

end Sys2Proof.Machine
end

