-- ==== Sys2Proof/Machine/Qos.lean ====
section
/-! DEFINITION. Meters, shapers and the energy ledger: token updates, the manager's shaper request, the allowance of a bank
sample, and ADMIT (R249 to R264). -/

namespace Sys2Proof.Machine

open Sys2Proof

/-! ### Meters (R249, R253) -/

/-- METER_TOKEN_TICK (R249, R253): every 10 ns each bucket gains its rate, capped at its size, and held frames are tested again. -/
def execMeterTokenTick (s : State) : Res :=
  let s := updQos (nextTick s 16) fun q => { q with
    lackC := q.lackC.mapVals fun k n => n - rdF s (Reg.QOS_M_CIR (k / 8) (k % 8)) 20 0
    lackP := q.lackP.mapVals fun k n => n - rdF s (Reg.QOS_M_PIR (k / 8) (k % 8)) 20 0 }
  .next (s.fwd.metHold.keys.foldl (fun s k => meterRetry s (k / 8) (k % 8) (s.fwd.metHold.get k).length) s)

/-! ### Shapers (R254 to R257) -/

/-- The token count of a shaper, in 1/200 byte. -/
def shTokens (s : State) (p t : Nat) : Int :=
  ofTwos 25 (rdF s (Reg.QOS_SH_TOKENS p t) 24 0) * 200 + s.qos.frac.get (8 * p + t)

/-- A shaper's token count set, in 1/200 byte. -/
def setShTokens (s : State) (p t : Nat) (v : Int) : State :=
  let s := wrF s (Reg.QOS_SH_TOKENS p t) 24 0 (twos 25 (v / 200))
  updQos s fun q => { q with frac := q.frac.set (8 * p + t) (v % 200).toNat }

/-- R and S of a shaper changed. -/
def setShaper (s : State) (p t rate size : Nat) : State :=
  bump (wrF (wrF s (Reg.QOS_SH_RATE p t) 20 0 rate) (Reg.QOS_SH_SIZE p t) 17 0 size) (Reg.QOS_SH_CHANGES p t)

/-- A privileged shaper takes the latest change committed before this refill (R256, R257). -/
def applyPending (s : State) (p t : Nat) : State :=
  let k := 8 * p + t
  let due := (s.qos.shPend.get k).filter fun c => decide (c.2.2 < s.now)
  match due.getLast? with
  | none => s
  | some c =>
    let s := updQos s fun q => { q with shPend := q.shPend.upd k fun l => l.filter fun c => decide (s.now ≤ c.2.2) }
    setShaper s p t c.1 c.2.1

/-- One shaper's refill: R × 40 ns of bytes, capped at S (R254). -/
def refillOne (s : State) (p t : Nat) : State :=
  let s := applyPending s p t
  let r := rdF s (Reg.QOS_SH_RATE p t) 20 0
  let cap : Int := rdF s (Reg.QOS_SH_SIZE p t) 17 0 * 64 * 200
  setShTokens s p t (min (shTokens s p t + r) cap)

/-- A queue whose shaper is privileged: its class is bound to VC1 or VC2 (R256). -/
def privileged (s : State) (t : Nat) : Bool := decide (vcOfClass s t = 1) || decide (vcOfClass s t = 2)

/-- A change of R and S commits at a shaper (R256): at once on an ordinary one, at the next refill on a privileged one. -/
def shaperChange (s : State) (p t rate size : Nat) (fill : Bool) : State :=
  if privileged s t then
    updQos s fun q => { q with shPend := q.shPend.upd (8 * p + t) fun l => l ++ [(rate, size, s.now)] }
  else setShTokens (setShaper s p t rate size) p t (if fill then size * 64 * 200 else 0)

/-- The ranges of R254 and the bounds of the QOS section. -/
def shaperBounds (s : State) (p t rate size : Nat) : Bool :=
  (s.seed.policy.shBounds.find? fun b => b.1 == 8 * p + t).elim false fun b => decide (rate ≤ b.2.1) && decide (size ≤ b.2.2)

/-- SHAPER (R256, R539): the manager's request, checked against the queue's bounds. -/
def execShaper (q : ReqSrc) (p t : Nat) (rate : BitVec 21) (size : BitVec 18) (fill : Bool) (s : State) : Res :=
  .next (serve s q 0x0304 { m := true } false false fun s =>
    if 80 ≤ p || 8 ≤ t || rate = 0 || size.toNat < 65 then reply s q 0x0304 0x03 []
    else if !(shaperBounds s p t rate.toNat size.toNat) then reply s q 0x0304 0x04 []
    else reply (shaperChange s p t rate.toNat size.toNat fill) q 0x0304 0x00 [])

/-! ### The ledger (R259 to R264) -/

/-- The channels disagree by more than 3 %, with the floor of 6.67 V (R356). -/
def disagree (a b : Nat) : Bool := decide (3 * max (max a b) 6670 < 100 * (max a b - min a b))

/-- VMIN and TOP in mV. -/
def bankVmin (s : State) : Nat := rdF s Reg.ROOT_BANK_CFG0 28 17 * 10
def bankTop (s : State) : Nat := rdF s Reg.ROOT_BANK_CFG0 16 5 * 10

/-- ETA × C × (V² − VMIN²) at a bank voltage in mV: 4 × 10¹² times half of e_use in J (R259). -/
def ledgerEnergy (s : State) (v : Nat) : Nat :=
  rdF s Reg.QOS_LEDGER_PARAM0 25 16 * rdF s Reg.QOS_LEDGER_PARAM0 15 0 * (v * v - bankVmin s * bankVmin s)

/-- The allowance in pages at a bank voltage in mV (R259). -/
def ledgerAllow (s : State) (v : Nat) : Nat :=
  let p := rdF s Reg.QOS_LEDGER_PARAM1 8 0
  let full := rdF s Reg.QOS_LEDGER_PARAM1 19 9
  let fix := rdF s Reg.QOS_LEDGER_PARAM1 29 20
  min 524288 ((ledgerEnergy s v - 400000000 * p * fix) * 524288 / (4000000000 * p * full))

/-- A bank sample the ledger may use: valid, in agreement, at most 200 µs old (R259). -/
def samplePair (s : State) : Option Nat :=
  match s.qos.lastPair with
  | some (a, b, va, vb, t) =>
    if va && vb && !(disagree a b) && decide (s.now ≤ t + 320000) then some (min a b) else none
  | none => none

/-- The sum of the region sizes of this home's list. -/
def sizeSum (s : State) : Nat := ((regionList s).map (regionSize s)).sum

/-- The allowance written, and each region's share of it (R259). -/
def setAllow (s : State) (allow : Nat) : State :=
  let total := sizeSum s
  let s := wrF s Reg.QOS_ALLOW 19 0 allow
  (regionList s).foldl (fun s h => wrF s (Reg.QOS_HOST_ALLOW h) 19 0 (allow * regionSize s h / total)) s

/-- LEDGER_SAMPLE (R259 to R264): the allowance of the last pair of readings, the regions' shares, SHORT_AT_TOP, and the head write
tested again. -/
def execLedgerSample (s : State) : Res :=
  let v := samplePair s
  let s := updQos s fun q => { q with resume := false }
  let s := wrB s Reg.QOS_LEDGER_STATUS 0 v.isSome
  let s := wrF s Reg.QOS_E_USE 19 0 (v.elim 0 fun v => ledgerEnergy s v / 2000000000)
  let s := setAllow s (v.elim 0 (ledgerAllow s))
  let s := wrB s Reg.QOS_LEDGER_STATUS 4 (decide (ledgerAllow s (bankTop s) < sizeSum s))
  .next (landPump s)

/-- ADMIT_RECEIVE (R264, R310): the origin applies the region's state to its host's window. -/
def execAdmitReceive (_region originHost : Nat) (openB held deficit : Bool) (block : BitVec 3) (allow : Nat) (s : State) : Res :=
  .next (applyAdmit s originHost { opened := openB, held := held, deficit := deficit, block := block.toNat, allow := allow })

/-- ADMIT_HOLDOFF_EXPIRY (R264): a change held back by the 100 µs spacing leaves now, with the present state. -/
def execAdmitHoldoffExpiry (region : Nat) (s : State) : Res :=
  if (regionList s).contains region && admitChanged s region then
    .next (sendAdmit (timeTo s ((s.qos.sentAt.get region).elim 0 fun t => t + 160000)) region)
  else .next s

/-- ADMIT_REPEAT_EXPIRY (R264): every 1 ms each region below its full size has its state sent again, at the spacing. -/
def execAdmitRepeatExpiry (s : State) : Res :=
  .next ((regionList s).foldl (fun s r =>
    if decide (allowOf s r < regionSize s r) && admitFree s r then sendAdmit s r else s) (nextTick s 1600000))

end Sys2Proof.Machine
end

