-- ==== Sys2Proof/Machine/Nozan.lean ====
section
/-! DEFINITION. The Nozan link layer (R136 to R170): data frames, acknowledgement and replay, credits, link pairs, training, the full
link reset, sleep and wake. -/

namespace Sys2Proof.Machine

open Sys2Proof

/-! ### Shared state -/

/-- A member's state changed. -/
def updMember (s : State) (p : Nat) (f : MemberSt → MemberSt) : State := { s with member := s.member.upd p f }

/-- The state of the pair a port belongs to, and its change. -/
def pairOf (s : State) (p : Nat) : PairSt := s.pair.get (pairKey s p)
def updPair (s : State) (p : Nat) (f : PairSt → PairSt) : State := { s with pair := s.pair.upd (pairKey s p) f }

/-- A register that both members of a pair show (R171). -/
def onPair (s : State) (p : Nat) (f : State → Nat → State) : State := (membersOf s p).foldl f s

/-- NZL_STATUS.STATE set: 0 idle, 1 training, 2 up, 3 reset, 4 sleep, 5 down. PAIR_ACTIVE is 1 in up alone (R172). -/
def setNz (s : State) (p n : Nat) : State := wrB (wrF s (Reg.NZL_STATUS p) 2 0 n) (Reg.NZL_STATUS p) 8 (decide (n = 2))

/-- TRAIN_STEP. -/
def trainStep (s : State) (p : Nat) : Nat := rdF s (Reg.NZL_STATUS p) 13 10
def setStep (s : State) (p n : Nat) : State := wrF s (Reg.NZL_STATUS p) 13 10 n

/-- The next LSEQ of a pair. -/
def nextTx (s : State) (p : Nat) : Nat := rdF s (Reg.NZL_TX_SEQ p) 15 0

/-- NZL_REPLAY_FILL and the reorder count follow (R171). -/
def noteNz (s : State) (p : Nat) : State :=
  let x := pairOf s p
  onPair s p fun s q =>
    wrF (wrN s (Reg.NZL_REPLAY_FILL q) (x.replay.map fun h => frameB h.f).sum) (Reg.NZL_RX_SEQ q) 23 16 x.reorder.length

/-! ### Receiving data frames (R138 to R150) -/

/-- A frame on the wire is bad (R138). -/
def badFrame (w : WireFrame) : Bool :=
  let f := frameOfWords w.hdr w.payload
  let right := crc32 ((w.hdr ++ w.payload).flatMap wordBytes)
  let crcOk := decide (w.crc.toNat = right) || (w.eos && decide (w.crc.toNat = 0xFFFFFFFF - right))
  w.marker || w.innerK || !w.endOk || decide (w.hdr.length ≠ 8) || decide (f.length.toNat ≠ w.payload.length)
    || decide (getF (w.hdr.getD 7 0) 31 16 ≠ hcrcOf w.hdr) || decide (1024 < f.length.toNat) || !crcOk

/-- A frame that is not bad is stomped: EOS with the complemented CRC-32 (R143). -/
def stompedFrame (w : WireFrame) : Bool :=
  w.eos && decide (w.crc.toNat ≠ crc32 ((w.hdr ++ w.payload).flatMap wordBytes))

/-- The number of a port in its pair: 0 the lower-numbered, 1 the higher (R147). -/
def memberBit (s : State) (p : Nat) : Nat := if membersOf s p = [p] || (membersOf s p).head? = some p then 0 else 1

/-- A NAK of a member, until a link-good frame or the repeat (R150). -/
def sendNak (s : State) (p : Nat) : State :=
  sendLcf (bump (updMember s p fun m => { m with nakOut := true }) (Reg.NZL_NAK_TX p)) p (some (memberBit s p))

/-- The first bad frame since the last NAK was satisfied is NAKed (R150). -/
def nakFirst (s : State) (p : Nat) : State := if (s.member.get p).nakOut then s else sendNak s p

/-- A frame takes receive space of its VC (R152). -/
def holdSpace (s : State) (p : Nat) (f : Frame) : State :=
  updPair s p fun x => { x with heldCred := x.heldCred.modify f.vc.toNat (· + frameCredits f) }

/-- A frame at its turn: a stomped one and a malformed one are discarded and their space returns, another passes to the forwarding core
(R141, R143, R148). -/
def passTurn (s : State) (p : Nat) (x : Early) : State :=
  let f := x.f
  if x.stomped then
    let s := count (bump s (Reg.NZL_STOMP_RX p)) p 15
    if (pairOf s p).cutSeq = some f.lseq.toNat then updPair s p fun x => { x with cutSeq := none }
    else returnCredits s p f.vc.toNat (frameCredits f)
  else if malformed s x.hdr f then
    returnCredits (faultP (bump s (Reg.NZL_MALFORMED p)) 3 0x02 2 p f.lseq.toNat) p f.vc.toNat (frameCredits f)
  else passFrame s (pairKey s p) f

/-- The held frames that follow in order from a sequence number on, in that order; `n` at most (R148). -/
def heldRun (l : List Early) (seq : Nat) : Nat → List Early
  | 0 => []
  | n + 1 =>
    match l.find? fun h => decide (h.f.lseq.toNat = seq % 65536) with
    | none => []
    | some h => h :: heldRun l (seq + 1) n

/-- An accepted frame counts toward the next LCF (R150). -/
def accepted (s : State) (p : Nat) : State := updPair s p fun x => { x with accepted := x.accepted + 1, ackWait := true }

/-- The sixteenth frame accepted since the last LCF sends one (R150). -/
def acceptedLcf (s : State) (p : Nat) : State := if 16 ≤ (pairOf s p).accepted then sendLcf s p none else s

/-- A frame that is next in order: NEXT_RX moves past it and past the held frames that follow, and each is passed in that order (R148,
R157). -/
def passNext (s : State) (p : Nat) (x : Early) : State :=
  let run := heldRun (pairOf s p).reorder (x.f.lseq.toNat + 1) 128
  let s := onPair s p fun s q => wrF s (Reg.NZL_RX_SEQ q) 15 0 (x.f.lseq.toNat + 1 + run.length)
  let s := updPair s p fun y => { y with reorder := y.reorder.filter fun h => !(run.contains h) }
  (x :: run).foldl (fun s h => passTurn s p h) s

/-- A link-good frame (R148). -/
def linkGood (s : State) (p : Nat) (hdr : List Word) (f : Frame) (stomped : Bool) : State :=
  let s := updMember s p fun m => { m with last := some f.lseq.toNat, nakOut := false }
  let s := countIn s p f.vc.toNat (frameB f)
  let d := (f.lseq.toNat + 65536 - nextRx s p) % 65536
  let held := (pairOf s p).reorder.any fun h => h.f.lseq == f.lseq
  let x : Early := { hdr := hdr, f := f, stomped := stomped }
  if d = 0 then noteNz (acceptedLcf (passNext (accepted (holdSpace s p f) p) p x) p) p
  else if d < 128 && !held then
    noteNz (acceptedLcf (accepted (updPair (holdSpace s p f) p fun y => { y with reorder := y.reorder ++ [x] }) p) p) p
  else if 128 ≤ d && d ≤ 32767 then bump s (Reg.NZL_REORDER_DROP p)
  else bump s (Reg.NZL_DUP_RX p)

/-- A member receives frames: up, or finishing them as a full reset begins. -/
def receives (s : State) (p : Nat) : Bool := isNoz s p && (nzUp s p || decide (nzState s p = 3))

/-- A data frame judged (R138, R148): bad or not link-good and NAKed, or link-good. A bad one that was cut through is no longer awaited
(R144). -/
def takeFrame (s : State) (p : Nat) (w : WireFrame) : State :=
  let f := frameOfWords w.hdr w.payload
  if badFrame w then
    let s := updPair s p fun x => { x with cutSeq := if x.cutSeq = some f.lseq.toNat then none else x.cutSeq }
    nakFirst (faultP (count (bump s (Reg.NZL_CRC_ERR p)) p 12) 3 0x01 1 p f.lseq.toNat) p
  else if f.first || decide ((s.member.get p).last = some f.prev.toNat) then linkGood s p w.hdr f (stompedFrame w)
  else nakFirst s p

/-- DATA_FRAME_RECEIVE (R116, R137, R138, R148): the groups are checked, and the frame they spell is judged. Without a SOF on lane
position 0 they spell none. -/
def execDataFrameReceive (p : Nat) (g : LaneGroups) (s : State) : Res :=
  let r := receiveGroups s p g
  match frameIn r.1 with
  | some w => .next (if receives s p then takeFrame r.2 p w else r.2)
  | none => .next r.2

/-! ### Sending (R145, R149, R151, R152, R159) -/

/-- The oldest unacknowledged frame sent on a member. -/
def oldestOn (s : State) (p : Nat) : Option Held := (pairOf s p).replay.find? fun h => h.member == p

/-- A replay of a member runs: frames that it sent wait to be resent. Frames moved to it from its partner are none of its replay (R151,
R170). -/
def replaying (s : State) (p : Nat) : Bool := (pairOf s p).replay.any fun h => h.member == p && h.resend && !h.fresh

/-- The frames of a member that is down placed on another, ahead of new frames, with FIRST and PREV of that member (R159). -/
def reroute (s : State) (p q : Nat) : State :=
  let s := updPair s p fun x => { x with
    replay := x.replay.map fun h => if h.member = p then { h with member := q, resend := true, fresh := true } else h }
  bump s (Reg.NZL_REROUTE q)

/-- A member goes down (R158): counted, a U fault unless a full reset begins, its frames placed on the other member, or kept, with any
replay stopped (R159, R163, R170). `n` is the new STATE. -/
def memberDown (s : State) (p n : Nat) : State :=
  let s := bump s (Reg.NZL_DOWN p)
  let s := count s p 21
  let s := if n = 3 then s else faultP s 3 0x04 2 p 0
  let s := setNz s p n
  let s := (lanesOf s p).foldl (fun s l => wrF s (Reg.LANE_STATUS l) 2 1 0) s
  let s := updMember s p fun m => { m with
    last := none, firstSent := false, nakOut := false, replays := 0, oldest := none, sleepReq := false, signal := false
    downAt := some s.now, wentDown := some s.now }
  match (partnerOf s p).bind fun q => if nzUp s q then some q else none with
  | some q => adjDownAt (reroute s p q) p
  | none =>
    let still (h : Held) : Held := { h with resend := false, charge := false, fresh := false }
    let s := updPair s p fun x => { x with
      downSince := some s.now, firstLcf := false, vcKnown := 0, replay := x.replay.map still, cutSeq := none }
    adjDownAt s p

/-- A replay of a member (R151): every unacknowledged frame sent on it is resent, unless a replay runs; after four replays of the
same oldest frame without progress the member goes down. -/
def replay (s : State) (p : Nat) : State :=
  match oldestOn s p with
  | none => s
  | some h =>
    let m := s.member.get p
    let n := if m.oldest = some h.f.lseq.toNat then m.replays else 0
    if replaying s p || !(nzUp s p) then s
    else if 4 ≤ n then memberDown s p 5
    else
      let s := updMember s p fun m => { m with oldest := some h.f.lseq.toNat, replays := n + 1 }
      let s := updPair s p fun x => { x with replay := x.replay.map fun h => if h.member = p then { h with resend := true } else h }
      count (bump s (Reg.NZL_REPLAY p)) p 13

/-- LIMIT of a VC taken from a link-good LCF, unless it is not newer (R152, R153). -/
def takeLimit (s : State) (p vc new : Nat) : State :=
  let old := rdF s (Reg.NZL_LIMIT_VC p vc) 23 0
  let known := bitN (pairOf s p).vcKnown vc
  if known && !decide ((new + 2 ^ 24 - old) % 2 ^ 24 < 2 ^ 23) then s
  else
    let s := if known then s else updPair s p fun x => { x with vcKnown := setBitN x.vcKnown vc true, limit0 := x.limit0.set vc new }
    onPair s p fun s q => wrF s (Reg.NZL_LIMIT_VC q vc) 23 0 new

/-- Acknowledged frames are freed (R151). -/
def takeAck (s : State) (p ack : Nat) : State :=
  let s := onPair s p fun s q => wrF s (Reg.NZL_TX_SEQ q) 31 16 ack
  let newer (h : Held) : Bool := decide (1 ≤ (h.f.lseq.toNat + 65536 - ack) % 65536) && decide ((h.f.lseq.toNat + 65536 - ack) % 65536 ≤ 32767)
  noteNz (updPair s p fun x => { x with replay := x.replay.filter newer }) p

/-- The frames kept over a link-down are resent on the member whose LCF came first, charged like new frames (R152, R163). -/
def resendKept (s : State) (p : Nat) : State :=
  if !(pairOf s p).firstLcf then s
  else updPair s p fun x => { x with
    firstLcf := false
    replay := x.replay.map fun h => { h with member := p, resend := true, charge := true, fresh := true } }

/-- What makes an LCF bad (R138, R147). -/
def badLcf (w : WireFrame) : Bool :=
  badFrame { w with eos := false } || w.eos || w.payload ≠ [] || decide (getF (w.hdr.getD 0 0) 3 0 ≠ 15)

/-- A good LCF acts (R147, R151, R152): limits, acknowledgement, and a NAK on the member it names. MEMBER is read by this end's own
numbering of its pair (DESIGN CHOICE, log entry 95). -/
def takeLcf (s : State) (p : Nat) (hdr : List Word) : State :=
  let h (i : Nat) : Word := hdr.getD i 0
  let s := (List.range 4).foldl (fun s v => takeLimit s p v (getF (h (2 + v)) 23 0)) s
  let s := resendKept (takeAck s p (getF (h 1) 15 0)) p
  if getB (h 1) 16 then
    match (membersOf s p)[getF (h 1) 17 17]? with
    | some q => replay (bump s (Reg.NZL_NAK_RX q)) q
    | none => s
  else s

/-- LCF_RECEIVE (R116, R147): the groups are checked; a bad LCF is ignored and counted. -/
def execLcfReceive (p : Nat) (g : LaneGroups) (s : State) : Res :=
  let r := receiveGroups s p g
  match frameIn r.1 with
  | some w =>
    if !(receives s p) then .next r.2
    else if badLcf w then .next (bump r.2 (Reg.NZL_CRC_ERR p))
    else .next (takeLcf r.2 p w.hdr)
  | none => .next r.2

/-- LCF_ACK_DELAY_EXPIRY (R150): an accepted frame has waited 100 ns. -/
def execLcfAckDelayExpiry (p : Nat) (s : State) : Res := .next (if (pairOf s p).ackWait then sendLcf s p none else s)

/-- LCF_PERIOD_EXPIRY (R150): an idle link still carries one LCF per period. -/
def execLcfPeriodExpiry (p : Nat) (s : State) : Res := .next (if nzUp s p then sendLcf s p none else s)

/-- NAK_REPEAT_EXPIRY (R150): no link-good frame since the NAK, so it is repeated. -/
def execNakRepeatExpiry (p : Nat) (s : State) : Res := .next (if nzUp s p && (s.member.get p).nakOut then sendNak s p else s)

/-- REPLAY_TIMER_EXPIRY (R151). -/
def execReplayTimerExpiry (p : Nat) (s : State) : Res := .next (replay s p)

/-- USED raised by a frame's credits (R152). -/
def payCredits (s : State) (p : Nat) (f : Frame) : State :=
  onPair s p fun s q => wrF s (Reg.NZL_USED_VC q f.vc.toNat) 23 0 (rdF s (Reg.NZL_USED_VC q f.vc.toNat) 23 0 + frameCredits f)

/-- FIRST and PREV of a frame by the sending history of a member, which it joins (R149). -/
def stampFrame (s : State) (p : Nat) (f : Frame) : Frame × State :=
  let m := s.member.get p
  ({ f with first := !m.firstSent, prev := BitVec.ofNat 16 m.lastSent },
   updMember s p fun m => { m with firstSent := true, lastSent := f.lseq.toNat })

/-- The next frame to resend on a member: the replay's own frames before those placed anew (R151, R170); none while the first LCF after a
link-up that kept the sequence is awaited (R163). -/
def nextResend (s : State) (p : Nat) : Option Held :=
  let l := (pairOf s p).replay.filter fun h => h.member == p && h.resend && !(pairOf s p).firstLcf
  (l.find? fun h => !h.fresh).orElse fun _ => l.head?

/-- A held frame put back after its resending. -/
def putHeld (s : State) (p : Nat) (h : Held) : State :=
  updPair s p fun x => { x with replay := x.replay.map fun y => if y.f.lseq = h.f.lseq then h else y }

/-- A frame resent on a member, once its credits allow when it is charged again (R151, R152). -/
def sendHeld (s : State) (p : Nat) (h : Held) : State :=
  if h.charge && !(creditOk s p h.f) then filSend s p
  else
    let s := if h.charge then payCredits s p h.f else s
    let r := if h.fresh then stampFrame s p h.f else (h.f, s)
    let s := putHeld r.2 p { h with f := r.1, resend := false, charge := false, fresh := false }
    frameSend s p r.1 h.stomped

/-- The replay buffer of a pair: 96 KiB for each member (R145). -/
def replayRoom (s : State) (p : Nat) (f : Frame) : Bool :=
  decide (rdN s (Reg.NZL_REPLAY_FILL p) + frameB f ≤ 98304 * (membersOf s p).length) && decide ((pairOf s p).replay.length < 32767)

/-- A new frame takes the next LSEQ of its pair and leaves (R145). -/
def sendFrame (s : State) (p : Nat) (e : QEntry) : State :=
  let k := pairKey s p
  let lseq := nextTx s p
  let s := updFwd s fun x => { x with tx := x.tx.upd k fun l => l.erase e }
  let s := payCredits s p e.f
  let r := stampFrame s p { e.f with lseq := BitVec.ofNat 16 lseq }
  let s := onPair r.2 p fun s q => wrF s (Reg.NZL_TX_SEQ q) 15 0 (lseq + 1)
  let s := updPair s p fun x => { x with replay := x.replay ++ [{ f := r.1, member := p, stomped := e.stomp }] }
  let s := countSent s p r.1
  let s := if r.1.cm then count s p 16 else s
  freeEntry (frameSend (noteNz s p) p r.1 e.stomp) e

/-- Nothing is queued for a port. -/
def portDrained (s : State) (p : Nat) : Bool :=
  (pairOf s p).replay = [] && s.fwd.tx.get (pairKey s p) = []
    && (List.range 8).all fun t => decide (s.fwd.queue.get (8 * pairKey s p + t) = [])

/-- WAKE sets sent on a port, at 10 Gbaud (R168, R169). -/
def wakeSend (s : State) (p : Nat) : State := kSetSend s p [0xF7, 0xF7, 0xF7, 0xF7] 1

/-- DATA_FRAME_TRANSMIT (R136, R145, R151, R152, R156): a member that is free sends a frame to be resent, or else the frame of its
transmit queue that may leave, or FIL when neither is ready. Frames that wait for a link in sleep wake the partner (R168, R169). -/
def execDataFrameTransmit (p : Nat) (s : State) : Res :=
  if nzState s p = 4 && decide (s.start.phase ≠ .asleep) && !(portDrained s p) then .next (wakeSend s p)
  else if !(nzUp s p) then .next s
  else match nextResend s p with
    | some h => .next (sendHeld s p h)
    | none =>
      match txReady s p with
      | none => .next (filSend s p)
      | some e => if replayRoom s p e.f && !(pairOf s p).firstLcf then .next (sendFrame s p e) else .next (filSend s p)

/-! ### Down, and the sequence state (R158, R163) -/

/-- LANE_LOCK_LOSS_TIMEOUT (R158): a lane without lock for 4 ALN intervals takes its member down. -/
def execLaneLockLossTimeout (lane : Nat) (s : State) : Res :=
  let p := rdF s (Reg.LANE_CFG lane) 8 2
  if decide (rdF s (Reg.LANE_CFG lane) 1 0 = 2) && nzUp s p then .next (memberDown s p 5) else .next s

/-- A lane of the port is in a test or a loop, which holds the port in detect (R123). -/
def inTest (s : State) (p : Nat) : Bool := (lanesOf s p).any fun n => rdB s (Reg.LANE_STATUS n) 7

/-- Step 1 of training begins (R162); a lane in a test holds the port in detect (R123). -/
def beginTraining (s : State) (p : Nat) : State :=
  if inTest s p then updMember (setNz s p 0) p fun m => { m with retryWait := true }
  else if (lanesOf s p).any fun n => !(rdB s (Reg.LANE_STATUS n) 6) then setNz s p 0
  else
  let s := wrB (setStep (setNz s p 1) p 1) (Reg.NZL_STATUS p) 7 false
  let s := (lanesOf s p).foldl (fun s n => wrF s (Reg.LANE_STATUS n) 2 1 0) (startLanes s p)
  let s := updMember s p fun m => { m with
    retryWait := false, lanesUp := [], offered := 0, peerSw := none, peerPort := none, peerSess := none, readyRx := 0, readyTx := 0
    preset := 0, eyes := [], wakeWait := false, downAt := none }
  filSend (alnSend s p) p

/-- The end of a wait that began when a member went down or failed a step. -/
def waitOut (s : State) (p t : Nat) : State := timeTo s ((s.member.get p).downAt.elim 0 fun a => a + t)

/-- A time passed since a member went down; one that never went down is not up since the start. -/
def waited (s : State) (p t : Nat) : Bool := match (s.member.get p).wentDown with
  | some a => decide (a + t ≤ s.now)
  | none => true

/-- DOWN_IDLE_EXPIRY (R158): after 1 ms of electrical idle a member that is down begins step 1. -/
def execDownIdleExpiry (p : Nat) (s : State) : Res :=
  if decide (nzState s p = 5) && !(s.member.get p).refDown then .next (beginTraining (waitOut s p 1600000) p) else .next s

/-- The sequence state is discarded (R163): both counters restart at 0, each unacknowledged VC1 frame yields a LOSS of kind 3 (R288),
the discard counts, and each port draws a new link session (R161); the other member's is a free value. -/
def discardSeq (s : State) (p : Nat) (session : BitVec 16) : State :=
  let x := pairOf s p
  let s := updPair s p fun x => { x with replay := [], reorder := [], ackWait := false, accepted := 0, firstLcf := false, cutSeq := none }
  let s := x.reorder.foldl (fun s h => returnCredits s p h.f.vc.toNat (frameCredits h.f)) s
  let s := onPair s p fun s q => wrN (wrN s (Reg.NZL_TX_SEQ q) 0) (Reg.NZL_RX_SEQ q) 0
  let s := noteNz s p
  let s := faultP (bump s (Reg.NZL_SEQ_DISCARD p)) 3 0x05 2 p x.replay.length
  let s := onPair s p fun s q =>
    let v := if q = p then (session, s) else freshBits s 16
    wrF v.2 (Reg.NZL_SESSION q) 15 0 v.1.toNat
  x.replay.foldl (fun s h => lossOf s internalMaster h.f 3) s

/-- The pair holds sequence state that a discard would lose. -/
def seqInUse (s : State) (p : Nat) : Bool :=
  decide (nextTx s p ≠ 0) || decide (nextRx s p ≠ 0) || (pairOf s p).replay ≠ [] || (pairOf s p).reorder ≠ []

/-- The pair has been down for 10 ms (R163). -/
def downTen (s : State) (p : Nat) : Bool := match (pairOf s p).downSince with
  | some t => decide (t + 16000000 ≤ s.now)
  | none => false

/-- SEQUENCE_HOLD_EXPIRY (R163, R285): down for 10 ms, the pair's sequence state is discarded and its adjacency leaves the marker set. -/
def execSequenceHoldExpiry (p : Nat) (session : BitVec 16) (s : State) : Res :=
  if pairUp s p || (pairOf s p).downSince.isNone then .next s
  else
    let s := timeTo s ((pairOf s p).downSince.getD 0 + 16000000)
    let s := if seqInUse s p then discardSeq s p session else s
    .next (sealPump (updLand s fun l => { l with adj := l.adj.upd (pairKey s p) fun a => { a with inSet := false, due := none } }))

/-! ### Training (R162 to R165) -/

/-- SIGNAL_PRESENT (R162, R169): the bound of step 1 starts; a sender that woke its partner begins training with it. -/
def execSignalPresent (p : Nat) (s : State) : Res :=
  let s := updMember s p fun m => { m with signal := true }
  if (s.member.get p).wakeWait then .next (beginTraining s p) else .next s

/-- DESKEW_FAIL of a port's lowest lane: the skew found in step 4 exceeds 16 symbol times, or it does not (R118). -/
def noteSkew (s : State) (p skew : Nat) : State :=
  match (lanesOf s p).head? with
  | some n => if trainStep s p = 4 then wrB s (Reg.LANE_STATUS n) 4 (decide (16 < skew)) else s
  | none => s

/-- A step of training failed: counted, electrical idle without locks, and a wait (R133, R162). -/
def trainFail (s : State) (p : Nat) : State :=
  let s := bump (setNz s p 0) (Reg.NZL_TRAIN_FAIL p)
  let s := (lanesOf s p).foldl (fun s n => wrF s (Reg.LANE_STATUS n) 2 1 0) s
  updMember s p fun m => { m with fails := m.fails + 1, retryWait := true, signal := false, downAt := some s.now }

/-- The width a port comes up at: the widest of its target, x8 and x4 with every lane up, within what the partner offers (R164). -/
def settleWidth (target offered : Nat) (up : List Nat) : Option Nat :=
  [target, 1, 0].find? fun w =>
    decide (w ≤ target) && decide (widthLanes w ≤ offered) && (List.range (widthLanes w)).all fun i => up.contains i

/-- The tap word of a preset (R132, R165). -/
def presetTaps (n : Nat) : Word :=
  let pre := [0, 0, 0, 4, 4, 4, 8, 8].getD n 0
  let post := [0, 6, 12, 0, 6, 12, 6, 12].getD n 0
  w32 (pre + (64 - pre - post) * 2 ^ 8 + post * 2 ^ 16)

/-- PRESET_REQ for a preset (R165). -/
def askPreset (s : State) (p n : Nat) : State := lcsSend (updMember s p fun m => { m with preset := n }) p 0x05 n 0 1

/-- A step of training begins: what its end sends, 16 LANE sets, 8 of each of PEER_SW, PEER_PORT and SESSION, 16 READY (R161, R162). -/
def enterStep (s : State) (p n : Nat) : State :=
  let s := setStep s p n
  let m := s.member.get p
  if n = 3 then
    laneSetsSend s p (widthLanes m.target.1) 16
  else if n = 5 then
    let id := swId s
    let s := lcsSend s p 0x02 (id % 256) (id / 256) 8
    let s := lcsSend s p 0x03 p (if rdB s (Reg.NZL_CFG p) 2 then 7 else 6) 8
    let v := rdF s (Reg.NZL_SESSION p) 15 0
    lcsSend s p 0x04 (v % 256) (v / 256) 8
  else if n = 6 then (if m.tapsOk || decide (m.target.2 = 0) then s else askPreset s p 0)
  else if n = 7 then lcsSend s p 0x07 0 0 16
  else s

/-- Step 5 has what it exchanges. -/
def identified (m : MemberSt) : Bool := m.peerSw.isSome && m.peerPort.isSome && m.peerSess.isSome

/-- The identity of the partner and both link sessions (R163). -/
def linkIdent (s : State) (p : Nat) : Nat × Nat × Nat × Nat :=
  (rdF s (Reg.NZL_PEER p) 11 0, rdF s (Reg.NZL_PEER p) 18 12, rdF s (Reg.NZL_SESSION p) 15 0, rdF s (Reg.NZL_SESSION p) 31 16)

/-- A buffer entry that came in on pair p, which goes on under the number q. -/
def rekey (p q : Nat) (e : QEntry) : QEntry := if e.inPort = p then { e with inPort := q } else e

/-- The frames of one table moved from keys `w` p + i to `w` q + i. -/
def moveKeys {α : Type} [Inhabited α] [DecidableEq α] (t : Tab α) (w p q : Nat) : Tab α :=
  (List.range w).foldl (fun t i => (t.set (w * q + i) (t.get (w * p + i))).set (w * p + i) default) t

/-- What a pair holds under the number of its lower member p goes on under the number q of the other: its sequence space, its frames queued
and received, its adjacency, its marker record, its receive space in use (R155). -/
def movePair (s : State) (p q : Nat) : State :=
  let all (l : List QEntry) : List QEntry := l.map (rekey p q)
  let s := { s with pair := (s.pair.set q (s.pair.get p)).set p {} }
  let s := updFwd s fun x => { x with
    queue := moveKeys (x.queue.mapVals fun _ l => all l) 8 p q
    metHold := moveKeys (x.metHold.mapVals fun _ l => all l) 8 p q
    tx := moveKeys (x.tx.mapVals fun _ l => all l) 1 p q
    staged := moveKeys (x.staged.mapVals fun _ e => e.map (rekey p q)) 1 p q
    cutTo := moveKeys (x.cutTo.mapVals fun _ c => if c = some p then some q else c) 1 p q
    passed := moveKeys x.passed 1 p q
    toLand := all x.toLand
    avg := moveKeys x.avg 8 p q
    resUsed := moveKeys x.resUsed 4 p q
    adjs := x.adjs.map fun k => if k = p then q else k
    adjDown := x.adjDown.map fun d => if d.1 = p then (q, d.2) else d }
  let s := updLand s fun l => { l with
    adj := moveKeys l.adj 1 p q
    input := l.input.map fun e => { e with ent := e.ent.map (rekey p q) }
    admitted := l.admitted.map fun e => { e with ent := e.ent.map (rekey p q) } }
  let s := (List.range 8).foldl (fun s t => wrF (wrF s (Reg.FWD_Q_DEPTH q t) 17 0 (qDepth s p t)) (Reg.FWD_Q_DEPTH p t) 17 0 0) s
  wrB s (Reg.FWD_PORT_FLAGS p) 0 false

/-- A port that trained to another neighbour than its partner's leaves the pair, and runs as a single link with its own sequence space and
credits restarted; the pair goes on with its other member alone (R155). -/
def leavePair (s : State) (p q : Nat) : State :=
  let s := if pairKey s p = p then movePair s p q else s
  let s := updMember s p fun m => { m with left := true, lastSeen := none }
  let s := { s with pair := s.pair.set p {} }
  let s := wrN (wrN s (Reg.NZL_TX_SEQ p) 0) (Reg.NZL_RX_SEQ p) 0
  faultP (noteNz s p) 3 0x03 2 p (rdF s (Reg.NZL_PEER p) 11 0)

/-- Another member of the pair is up, and leads to another switch. -/
def foreign (s : State) (p : Nat) : Option Nat :=
  (partnerOf s p).bind fun q =>
    if nzUp s q && decide (rdF s (Reg.NZL_PEER q) 11 0 ≠ rdF s (Reg.NZL_PEER p) 11 0) then some q else none

/-- Credits at a pair's link-up: USED and LIMIT 0, and the first LIMIT sent, each VC's space less what is still held (R153). -/
def openCredits (s : State) (p : Nat) : State :=
  let held := (pairOf s p).heldCred
  let n := (membersOf s p).length
  let s := updPair s p fun x => { x with vcKnown := 0, owed := 0 }
  (List.range 4).foldl (fun s v => onPair s p fun s q =>
    let g := n * vcSpace (rdF s (Reg.NZL_CFG q) 1 0) v - held.getD v 0
    wrF (wrF (wrF s (Reg.NZL_USED_VC q v) 23 0 0) (Reg.NZL_LIMIT_VC q v) 23 0 0) (Reg.NZL_GRANT_VC q v) 23 0 g) s

/-- The marker that opens a cluster adjacency, ahead of every other VC1 frame (R285). -/
def catchUp (s : State) (k : Nat) : State :=
  if !(s.fwd.adjs.contains k && sameCluster s (neighbourOf s k)) then s
  else
    let s := updLand s fun l => { l with adj := l.adj.upd k fun a => { a with inSet := true } }
    let s := putMarker s k ((eOpen s + 2 ^ 48 - 1) % 2 ^ 48) true
    let front (l : List QEntry) : List QEntry := l.getLast?.toList ++ l.dropLast
    sealPump (updFwd s fun x => { x with queue := x.queue.upd (8 * k + classOf s 1) front })

/-- Link-up (R162 step 8, R163): the sequence state kept or discarded, credits opened, the first LCF sent, the adjacency made. -/
def linkUp (s : State) (p : Nat) (session : BitVec 16) : State :=
  let s := match foreign s p with
    | some q => leavePair s p q
    | none => s
  let m := s.member.get p
  let already := pairUp s p
  let kept := already || (decide (m.lastSeen = some (linkIdent s p)) && !(downTen s p))
  let s := if kept || !(seqInUse s p) then s else discardSeq s p session
  let s := wrF (wrB (setStep (setNz s p 2) p 8) (Reg.NZL_STATUS p) 9 kept) (Reg.NZL_STATUS p) 5 5 m.target.2
  let reduced := !m.resetDone && decide (rdF s (Reg.NZL_CFG p) 2 0 ≠ 0)
  let s := updMember s p fun m => { m with
    lastSeen := some (linkIdent s p), fails := 0, bringup := reduced, downAt := none, wentDown := none, ownReq := none, last := none, firstSent := false }
  let s := if m.manager then wrF (updMember s p fun m => { m with manager := false }) (Reg.NZL_RESET_CTRL p) 5 4 1 else s
  let s := (lanesOf s p).foldl (fun s n => wrF s (Reg.LANE_RATE n) 2 0 (6 + m.target.2)) s
  let s := if already then s
    else
      let s := openCredits s p
      updPair s p fun x => { x with downSince := none, firstLcf := kept && x.replay ≠ [] }
  let s := adjUp (sendLcf s p none) p
  if already then s else catchUp s (pairKey s p)

/-- TRAINING_STEP_DONE (R162): the step's findings are taken and the next begins; a step without what it needs fails. `inverted` are the
lanes whose polarity was corrected (R109), `skew` the symbol times between the lanes (R118). -/
def execTrainingStepDone (p : Nat) (lanesUp inverted : List Nat) (skew : Nat) (s : State) : Res :=
  let m := s.member.get p
  let n := trainStep s p
  if nzState s p ≠ 1 || inTest s p || !(isNoz s p) then .next s
  else if n = 1 then
    .next (enterStep ((lanesOf s p).foldl (fun s l => wrB s (Reg.LANE_STATUS l) 1 true) s) p 2)
  else if n = 2 then
    .next (enterStep ((lanesOf s p).foldl (fun s l => wrB s (Reg.LANE_STATUS l) 2 true) s) p 3)
  else if n = 3 then
    .next (enterStep ((lanesOf s p).foldl (fun s l => wrB s (Reg.LANE_STATUS l) 3 (inverted.contains l)) s) p 4)
  else if n = 4 then
    let s := noteSkew s p skew
    match (if 16 < skew then none else settleWidth m.target.1 m.offered lanesUp) with
    | none => .next (trainFail s p)
    | some w =>
      let s := wrB (wrF s (Reg.NZL_STATUS p) 4 3 w) (Reg.NZL_STATUS p) 6 (decide (w < m.target.1))
      .next (enterStep (updMember s p fun m => { m with lanesUp := lanesUp }) p 5)
  else if n = 5 then
    match m.peerSw, m.peerPort, m.peerSess with
    | some sw, some port, some sess =>
      let s := wrF (wrN s (Reg.NZL_PEER p) (sw + port.1 * 2 ^ 12)) (Reg.NZL_SESSION p) 31 16 sess
      .next (enterStep s p 6)
    | _, _, _ => .next (trainFail s p)
  else if n = 6 then
    if m.tapsOk || decide (m.target.2 = 0) then .next (enterStep s p 7) else .next s
  else
    let s := updMember s p fun m => { m with readyTx := 16 }
    if 8 ≤ m.readyRx then
      let v := freshBits s 16
      .next (linkUp v.2 p v.1)
    else .next s

/-- TRAINING_STEP_TIMEOUT (R118, R162): a step exceeded its bound; step 1 has none before a signal is present. -/
def execTrainingStepTimeout (p skew : Nat) (s : State) : Res :=
  if nzState s p ≠ 1 || (decide (trainStep s p = 1) && !(s.member.get p).signal) then .next s else .next (trainFail (noteSkew s p skew) p)

/-- TRAINING_RETRY_EXPIRY (R162): the 1 ms wait, or 100 ms after 16 failures in a row, ends; a sender that woke its partner waits for the
partner's training no longer than the cold start's bound to service (R96, R169; DEDUCED, log entry 97). -/
def execTrainingRetryExpiry (p : Nat) (s : State) : Res :=
  let m := s.member.get p
  if m.wakeWait then .next (beginTraining (waitOut s p 1920000000) p)
  else if m.retryWait && !m.refDown then .next (beginTraining (waitOut s p (if 16 ≤ m.fails then 160000000 else 1600000)) p) else .next s

/-- The positions received are straight or wholly reversed (R162 step 3). -/
def orderOk (pos : List Nat) : Bool :=
  let n := pos.length
  decide (pos = List.range n) || decide (pos = (List.range n).reverse)

/-- The LANE sets of a port's lanes as (position, width offered), where each lane that carries symbols carries one (R161). -/
def laneSets (lanes : List (List Sym)) : Option (List (Nat × Nat)) :=
  let l := (lanes.filter fun x => !x.isEmpty).map fun x => (setData kLCS x).bind fun d => if d.1 = 1 then some d.2 else none
  if l.all Option.isSome then some (l.filterMap id) else none

/-- LANE_SET_RECEIVE (R161, R162 step 3): the positions the lanes carry, straight or wholly reversed, and the width offered. -/
def execLaneSetReceive (p : Nat) (g : LaneGroups) (s : State) : Res :=
  let r := receiveGroups s p g
  match laneSets r.1 with
  | none => .next r.2
  | some l =>
    if nzState s p ≠ 1 || trainStep s p ≠ 3 then .next r.2
    else if !(orderOk (l.map Prod.fst)) then .next (trainFail r.2 p)
    else
      let back := decide (2 ≤ l.length) && decide (l.map Prod.fst ≠ List.range l.length)
      .next (updMember (wrB r.2 (Reg.NZL_STATUS p) 7 back) p fun m => { m with offered := (l.map Prod.snd).foldl min 16 })

/-- An LCS of a code other than LANE counts only when every lane carries it alike; one that differs is ignored and counted (R161). -/
def sameSet (s : State) (p : Nat) (g : LaneGroups) (code : Nat) (f : State → Nat → Nat → State) : Res :=
  let r := receiveGroups s p g
  match evenSet kLCS r.1 with
  | none => .next (bump r.2 (Reg.NZL_LCS_ERR p))
  | some d => .next (if d.1 = code then f r.2 d.2.1 d.2.2 else r.2)

/-- PEER_SW_RECEIVE (R161, R162 step 5). -/
def execPeerSwReceive (p : Nat) (g : LaneGroups) (s : State) : Res :=
  sameSet s p g 0x02 fun s d2 d3 => updMember s p fun m => { m with peerSw := some (d2 + d3 % 16 * 2 ^ 8) }

/-- PEER_PORT_RECEIVE (R161): the partner's port and rate limit code. -/
def execPeerPortReceive (p : Nat) (g : LaneGroups) (s : State) : Res :=
  sameSet s p g 0x03 fun s d2 d3 => updMember s p fun m => { m with peerPort := some (d2 % 128, d3) }

/-- SESSION_RECEIVE (R161): the partner's link session. -/
def execSessionReceive (p : Nat) (g : LaneGroups) (s : State) : Res :=
  sameSet s p g 0x04 fun s d2 d3 => updMember s p fun m => { m with peerSess := some (d2 + d3 * 2 ^ 8) }

/-- The preset exchange runs (R162 step 6, R165). -/
def presetStep (s : State) (p : Nat) : Bool := decide (nzState s p = 1) && decide (trainStep s p = 6)

/-- PRESET_REQ_RECEIVE (R165): the transmitter applies the preset and acknowledges it. -/
def execPresetReqReceive (p : Nat) (g : LaneGroups) (s : State) : Res :=
  sameSet s p g 0x05 fun s preset _ =>
    if !(presetStep s p) || 8 ≤ preset then s
    else
      let s := (lanesOf s p).foldl (fun s n => wr s (Reg.LANE_TXEQ n) (presetTaps preset)) s
      lcsSend (updMember s p fun m => { m with partnerPreset := preset }) p 0x06 preset 0 1

/-- The exchange ends: the taps are in use, and stored in the retention SRAM (R122, R165). -/
def tapsDone (s : State) (p : Nat) : State :=
  let new := (lanesOf s p).filter fun n => !(s.ret.taps.contains n)
  updMember { s with ret := { s.ret with taps := s.ret.taps ++ new } } p fun m => { m with tapsOk := true }

/-- PRESET_ACK_RECEIVE (R165): adaptation on the preset starts; the ACK of the one chosen ends the exchange. -/
def execPresetAckReceive (p : Nat) (g : LaneGroups) (s : State) : Res :=
  sameSet s p g 0x06 fun s preset _ =>
    let m := s.member.get p
    if presetStep s p && decide (m.preset = preset) && decide (8 ≤ m.eyes.length) then tapsDone s p
    else s

/-- The preset with the widest eye, the lower number on a tie (R165). -/
def bestPreset (l : List (Nat × Nat)) : Nat := (l.foldl (fun b e => if b.2 < e.2 then e else b) (0, 0)).1

/-- The receiver's codes after adaptation: what the analog circuits settle at is open (R122, R132). -/
def adaptLanes (s : State) (p : Nat) : State :=
  (lanesOf s p).foldl (fun s n =>
    let v := freshBits s 13
    wrN v.2 (Reg.LANE_RXEQ n) (v.1.toNat % 32 + v.1.toNat / 32 * 256)) s

/-- PRESET_ADAPT_EXPIRY (R165): the eye of the preset is measured, and the next one, or the best, is asked for. -/
def execPresetAdaptExpiry (p eye : Nat) (s : State) : Res :=
  let m := s.member.get p
  if !(presetStep s p) || 8 ≤ m.eyes.length then .next s
  else
    let s := updMember (adaptLanes s p) p fun m => { m with eyes := m.eyes ++ [(m.preset, eye)] }
    let l := (s.member.get p).eyes
    if l.length < 8 then .next (askPreset s p l.length) else .next (askPreset s p (bestPreset l))

/-- READY_RECEIVE (R162 step 7): counted; with 8 received and 16 sent the link is up and the first LCF leaves. -/
def execReadyReceive (p : Nat) (g : LaneGroups) (newSession : BitVec 16) (s : State) : Res :=
  sameSet s p g 0x07 fun s _ _ =>
    if nzState s p ≠ 1 || trainStep s p ≠ 7 then s
    else
      let s := updMember s p fun m => { m with readyRx := m.readyRx + 1 }
      let m := s.member.get p
      if 8 ≤ m.readyRx && 16 ≤ m.readyTx then linkUp s p newSession else s

/-! ### The full link reset (R166, R167) -/

/-- D1 of an LRS: width, rate, ACK. -/
def lrsD1 (t : Nat × Nat) (ack : Bool) : Nat := t.1 + t.2 * 4 + ack.toNat * 8

/-- `n` LRS sets with the sender's reset ID (R166); a request and its answer go on back to back until the other end's ACK. -/
def lrsSend (s : State) (p : Nat) (t : Nat × Nat) (ack : Bool) (n : Nat) : State :=
  let d := lrsD1 t ack
  sendSets s p 0x7C d (s.member.get p).resetId (255 - d) n

/-- The lower of two targets, in width and in rate. -/
def lowTarget (a b : Nat × Nat) : Nat × Nat := (min a.1 b.1, min a.2 b.2)

/-- A port's own limits: its seed width and rate. -/
def ownLimit (s : State) (p : Nat) : Nat × Nat := (rdF s (Reg.NZL_CFG p) 1 0, rdF s (Reg.NZL_CFG p) 2 2)

/-- The member stops for a full reset (R166): no new frame, a replay stopped with its frames kept (R170). -/
def resetStop (s : State) (p : Nat) : State :=
  let s := memberDown s p 3
  updMember s p fun m => { m with resetting := true, sleepReq := false }

/-- A full reset that this side requests (R166 step 1). -/
def resetBegin (s : State) (p : Nat) (t : Nat × Nat) (mgrAsked : Bool) : State :=
  let s := resetStop s p
  let s := updMember s p fun m => { m with
    ownReq := some t, target := t, manager := mgrAsked, resetId := (m.resetId + 1) % 256 }
  lrsSend s p t false 1

/-- NZL_RESET_GO (R173): the manager's request, refused beyond the seed's limits, while the port is not up, or during a brace. -/
def execNzlResetGo (p : Nat) (v : Word) (s : State) : Res :=
  let t := (getF v 2 1, getF v 3 3)
  let s := wrF s (Reg.NZL_RESET_CTRL p) 3 1 (getF v 3 1)
  if !(getB v 0) then .next s
  else if lowTarget t (ownLimit s p) ≠ t || !(nzUp s p) || braced s then .next (wrF s (Reg.NZL_RESET_CTRL p) 5 4 2)
  else .next (resetBegin (wrF s (Reg.NZL_RESET_CTRL p) 5 4 0) p t true)

/-- The member of a pair that both ends reset first: the one that the end with the lower switch ID numbers lower (R166). -/
def firstMember (s : State) (p q : Nat) : Nat :=
  let byPeer := decide (rdF s (Reg.NZL_PEER p) 18 12 < rdF s (Reg.NZL_PEER q) 18 12)
  if swId s < rdF s (Reg.NZL_PEER p) 11 0 then min p q else if byPeer then p else q

/-- A member's bring-up reset may begin: it is the first of its pair, or the first is up at its own target (R166). -/
def bringupTurn (s : State) (p : Nat) : Bool :=
  match partnerOf s p with
  | none => true
  | some q => if nzUp s q && (s.member.get q).bringup then decide (firstMember s p q = p) else nzUp s q || waited s q 16000000

/-- BRINGUP_RESET_BEGIN (R166, R170): after discovery a port below its seed width or rate limit is reset to them; a brace defers it. -/
def execBringupResetBegin (p : Nat) (s : State) : Res :=
  if rdB s Reg.FWD_STATUS 0 && nzUp s p && (s.member.get p).bringup && bringupTurn s p && !(braced s) then
    .next (resetBegin s p (ownLimit s p) false)
  else .next s

/-- BRINGUP_MEMBER_DOWN_EXPIRY (R166): the first member has been down for 10 ms, so the second follows. -/
def execBringupMemberDownExpiry (p : Nat) (s : State) : Res :=
  match partnerOf s p with
  | some q =>
    if nzUp s q && !(nzUp s p) && (s.member.get q).bringup && rdB s Reg.FWD_STATUS 0 && !(braced s) then
      .next (resetBegin (timeTo s ((s.member.get p).wentDown.elim 0 fun a => a + 16000000)) q (ownLimit s q) false)
    else .next s
  | none => .next s

/-- A target adopted: 16 further LRS, electrical idle, and training at it (R166 steps 3 and 4). -/
def resetAgree (s : State) (p : Nat) (t : Nat × Nat) : State :=
  let s := updMember s p fun m => { m with target := lowTarget t m.target, resetting := false, resetDone := true }
  beginTraining (lrsSend s p (s.member.get p).target true 16) p

/-- The LRS that the last two sets of every lane carry alike (R166 step 2): D1, the reset ID, D3. -/
def lrsIn (lanes : List (List Sym)) : Option (Nat × Nat × Nat) :=
  match lanes with
  | [] => none
  | l :: ls =>
    match (runsOf 4 l.length l).reverse with
    | a :: b :: _ => if (ls.all fun x => x == l) && a == b then setData kLRS a else none
    | _ => none

/-- A recognised LRS acts (R166, R167): a request is answered with ACK and the agreed minimum; an ACK is adopted; one already recognised is
ignored in idle and in training. -/
def takeLrs (s : State) (p d1 d2 : Nat) : State :=
  let t := (d1 % 4, d1 / 4 % 2)
  let m := s.member.get p
  if nzState s p = 2 || nzState s p = 3 then
    let s := if nzState s p = 2 then
        updMember (resetStop s p) p fun m => { m with target := ownLimit s p }
      else s
    let s := updMember s p fun m => { m with seenId := some d2 }
    if bitN d1 3 then resetAgree s p t
    else
      let own := match m.ownReq with
        | some r => lowTarget r (ownLimit s p)
        | none => ownLimit s p
      let s := updMember s p fun m => { m with target := lowTarget t own }
      lrsSend s p (lowTarget t own) true 1
  else if m.seenId = some d2 then s
  else updMember s p fun m => { m with seenId := some d2, target := lowTarget t (ownLimit s p) }

/-- LRS_RECEIVE (R166, R167): two consecutive identical sets are recognised; a set whose D3 is not the complement of D1 is ignored. -/
def execLrsReceive (p : Nat) (g : LaneGroups) (s : State) : Res :=
  let r := receiveGroups s p g
  match lrsIn r.1 with
  | none => .next r.2
  | some d => .next (if d.1 + d.2.2 ≠ 255 || !(isNoz s p) || 3 ≤ d.1 % 4 then r.2 else takeLrs r.2 p d.1 d.2.1)

/-- LRS_ACK_TIMEOUT (R167): a requester without ACK trains at the requested target. -/
def execLrsAckTimeout (p : Nat) (s : State) : Res :=
  let m := s.member.get p
  match m.ownReq with
  | some t =>
    if nzState s p = 3 then
      let s := if m.manager then wrF s (Reg.NZL_RESET_CTRL p) 5 4 3 else s
      .next (beginTraining (updMember s p fun m => { m with target := t, resetting := false, resetDone := true, manager := false }) p)
    else .next s
  | none => .next s

/-! ### Sleep and wake (R168, R169) -/

/-- Every credit of the pair is returned. -/
def creditsBack (s : State) (p : Nat) : Bool :=
  (List.range 4).all fun v =>
    let have_ := rdF s (Reg.NZL_LIMIT_VC p v) 23 0 + 2 ^ 24 - rdF s (Reg.NZL_USED_VC p v) 23 0
    decide ((have_ + 2 ^ 24 - (pairOf s p).limit0.getD v 0) % 2 ^ 24 < 2 ^ 23)

/-- SLEEP_REQ sent (R168). -/
def sleepRequest (s : State) (p : Nat) : State :=
  if nzUp s p then lcsSend (updMember s p fun m => { m with sleepReq := true }) p 0x08 0 0 1 else s

/-- SLEEP_REQ_RECEIVE (R168): SLEEP_ACK when nothing is unsent, unacknowledged or unreturned, else SLEEP_NAK. -/
def execSleepReqReceive (p : Nat) (g : LaneGroups) (s : State) : Res :=
  sameSet s p g 0x08 fun s _ _ =>
    if !(nzUp s p) then s
    else if portDrained s p && creditsBack s p then
      updMember (setNz (lcsSend s p 0x09 0 0 1) p 4) p fun m => { m with signal := false }
    else lcsSend s p 0x0A 0 0 1

/-- WAKE_RECEIVE (R168): sleep ends and both ends train with retained taps. -/
def execWakeReceive (p : Nat) (s : State) : Res :=
  if nzState s p = 4 && s.start.phase ≠ .asleep then .next (beginTraining (updMember s p fun m => { m with last := none, firstSent := false }) p)
  else .next s

/-- WAKE_SEND_END (R169): the pattern ends; the sender holds electrical idle until it detects training. -/
def execWakeSendEnd (p : Nat) (s : State) : Res :=
  if nzState s p = 4 then
    .next (updMember (setNz s p 0) p fun m => { m with wakeWait := true, last := none, firstSent := false, downAt := some s.now })
  else .next s

end Sys2Proof.Machine
end

