-- ==== Sys2Proof/Machine/SlotOps.lean ====
section
/-! DEFINITION. Slot channels and the hold-up bank: the shared steps of the rootstock die (R338 to R364): turn-on and turn-off, trips,
damage, the charger's conditions, bank protections and the isolation FETs. -/

namespace Sys2Proof.Machine

open Sys2Proof

/-- A channel's state changed. -/
def updChan (s : State) (c : Nat) (f : ChanSt → ChanSt) : State :=
  { s with rootSt := { s.rootSt with chan := s.rootSt.chan.upd c f } }

/-- The bank's state changed. -/
def updBank (s : State) (f : BankSt → BankSt) : State := { s with rootSt := { s.rootSt with bank := f s.rootSt.bank } }

/-- The hot-plug event bits of a vDSP (R202). -/
def slotEvents (v : VdspSt) : List Bool := [v.cmdDone, v.pwrFault, v.attnPress, v.presChg, v.dllChg]

/-- A vDSP's state changed; `k` is 64 host + vDSP. A hot-plug event signals PME (R188). -/
def updVdsp (s : State) (k : Nat) (f : VdspSt → VdspSt) : State :=
  let old := s.pcie.vdsp.get k
  let s := { s with pcie := { s.pcie with vdsp := s.pcie.vdsp.upd k f } }
  if ((slotEvents old).zip (slotEvents (f old))).any fun x => !x.1 && x.2 then mefPme s (k / 64) else s

/-- A wake that the rootstock die itself sees: a brace of the own input (5), a slot trip or bank protection event (6), in P2 and P3 only
(R495, R499, R507). The switch leaves its state with the next tick. -/
def wakeSeen (s : State) (code n : Nat) : State :=
  if s.pwr.asleep = 2 || s.pwr.asleep = 3 then
    { s with pwr := { s.pwr with wakeDue := some (s.pwr.wakeDue.getD (code, n)) } }
  else s

/-! ### Channels (R340 to R353) -/

/-- STATE of a channel: 0 EMPTY, 1 SEATING, 2 OFF, 3 CHECK, 4 RAMP, 5 QUAL, 6 ON, 7 TRIPPED, 8 DAMAGED, 9 DISABLED (R368). -/
def chState (s : State) (c : Nat) : Nat := rdF s (Reg.ROOT_CH_STATUS c) 3 0
def setChState (s : State) (c n : Nat) : State := wrF s (Reg.ROOT_CH_STATUS c) 3 0 n

/-- The channel's gate may be driven: RAMP, QUAL or ON. -/
def chOn (s : State) (c : Nat) : Bool := decide (4 ≤ chState s c) && decide (chState s c ≤ 6)

/-- Fields of a channel's SLOTS entry (R340). -/
def chUsed (s : State) (c : Nat) : Bool := rdB s (Reg.ROOT_CH_CFG c) 0
def chClassL (s : State) (c : Nat) : Bool := rdB s (Reg.ROOT_CH_CFG c) 7
def chPaired (s : State) (c : Nat) : Bool := rdB s (Reg.ROOT_CH_CFG c) 11
def chPort (s : State) (c : Nat) : Nat := rdF s (Reg.ROOT_CH_CFG c) 19 13

/-- The channel's port is a flush target's (R320). -/
def chTarget (s : State) (c : Nat) : Bool := chUsed s c && decide (portRole s (chPort s c) = 3)

/-- AUTO_ON: the entry's bit, and always for flush-target and shareable slots (R340). -/
def chAuto (s : State) (c : Nat) : Bool :=
  rdB s (Reg.ROOT_CH_CFG c) 12 || decide (portRole s (chPort s c) = 2) || decide (portRole s (chPort s c) = 3)

/-- The limit in mA, at most 3.00 A on a channel strapped class S (R340, R341). -/
def chLimit (s : State) (c : Nat) : Nat :=
  let n := (rdF s (Reg.ROOT_CH_CFG c) 6 1 + 1) * 250
  if rdB s (Reg.ROOT_CH_STATUS c) 11 then n else min n 3000

/-- The fault timer in µs, never beyond 32 ms (R340, R341). -/
def chTimer (s : State) (c : Nat) : Nat := 500 * 2 ^ min 6 (rdF s (Reg.ROOT_CH_CFG c) 10 8)

/-- The channel whose pins serve a slot (R340). -/
def chLead (s : State) (c : Nat) : Nat := if chPaired s c then c / 2 * 2 else c

/-- The channels of a slot (R340). -/
def chGroup (s : State) (c : Nat) : List Nat := if chPaired s c then [c / 2 * 2, c / 2 * 2 + 1] else [c]

/-- The vDSP of a channel's slot, as 64 host + vDSP, when its port is host-assigned (R201). -/
def chVdsp (s : State) (c : Nat) : Option Nat :=
  let p := chPort s c
  let k := portHost s p
  if portRole s p = 1 then
    ((List.range (hostPol s k).vdsps.length).find? fun j =>
      decide ((vdspOf s k j).kind = 1) && decide ((vdspOf s k j).port = p)).map fun j => 64 * k + j
  else none

/-- A change in the slot registers of a channel's vDSP. -/
def slotNote (s : State) (c : Nat) (f : VdspSt → VdspSt) : State :=
  match chVdsp s c with
  | some k => updVdsp s k f
  | none => s

/-- PERST_N of a slot asserted or released (R344). -/
def setPerst (s : State) (c : Nat) (low : Bool) : State :=
  emit (wrB s (Reg.ROOT_CH_STATUS (chLead s c)) 8 low) (.pin (.perst (chLead s c)) (!low))

/-- Gate drive of a channel. -/
def setGate (s : State) (c : Nat) (on : Bool) : State :=
  if (s.rootSt.chan.get c).gate = on then s else emit (updChan s c fun x => { x with gate := on }) (.pin (.gate c) on)

/-- PWRWARN_N of a channel. -/
def setWarn (s : State) (c : Nat) (low : Bool) : State :=
  if rdB s (Reg.ROOT_CH_STATUS c) 9 = low then s
  else emit (wrB s (Reg.ROOT_CH_STATUS c) 9 low) (.pin (.pwrWarn c) (!low))

/-- ROOT_SLOT_SUMMARY follows the channels (R366). -/
def noteSlots (s : State) : State :=
  let sum := (List.range 16).foldl (fun n c =>
    n + (rdB s (Reg.ROOT_CH_STATUS c) 7).toNat * 2 ^ c + (decide (chState s c = 7)).toNat * 2 ^ (c + 16)) 0
  wrN s Reg.ROOT_SLOT_SUMMARY sum

/-- Power-good and the timer of a channel withdrawn as its output goes off. -/
def chClear (s : State) (c : Nat) : State :=
  let s := wrB (wrB s (Reg.ROOT_CH_STATUS c) 7 false) (Reg.ROOT_CH_STATUS c) 6 false
  let s := wrF s (Reg.ROOT_CH_STATUS c) 17 13 0
  updChan s c fun x => { x with qualOk := false, perstDue := false, timerUs := 0, monHigh := false, offAt := some s.now }

/-- ON_HELD of a channel: a turn-on waits for stand-down or the cool-down (R368). -/
def noteHeld (s : State) (c : Nat) : State :=
  wrB s (Reg.ROOT_CH_STATUS c) 12
    ((s.rootSt.chan.get c).want && (braced s || rdB s (Reg.ROOT_CH_STATUS c) 10))

/-- Command Completed of the vDSPs that wait on a channel (R202, R204). -/
def cmdDone (s : State) (c : Nat) : State :=
  let w := (s.rootSt.chan.get c).waiters
  let s := updChan s c fun x => { x with waiters := [] }
  w.foldl (fun s k => updVdsp s k fun v => { v with cmdDone := true }) s

/-- A channel may begin a turn-on (R344, R353, R354, R364). -/
def mayTurnOn (s : State) (c : Nat) : Bool :=
  chUsed s c && s.seed.loaded && decide (chState s c = 2) && rdB s (Reg.ROOT_CH_STATUS (chLead s c)) 5
    && !(rdB s (Reg.ROOT_CH_STATUS c) 10) && !(braced s) && !(rdB s Reg.ROOT_CLK 16) && !s.root.dieDead
    && !(s.rootSt.chan.get c).gateDue

/-- Gate drive starts (R344 step 2). -/
def rampStart (s : State) (c : Nat) : State :=
  updChan (setGate (setChState s c 4) c true) c fun x => { x with armed := false }

/-- A channel's turn-on begins: the check of class L, or the ramp (R344). -/
def turnOn (s : State) (c : Nat) : State :=
  let s := updChan s c fun x => { x with trigAt := some s.now, peak := 0, want := false, qualOk := false }
  if chClassL s c then setChState s c 3 else rampStart s c

/-- The slot of a channel is turned on when it may be, or the turn-on waits (R344, R350, R353). -/
def tryTurnOn (s : State) (c : Nat) : State :=
  let g := chGroup s c
  let s := if g.all (mayTurnOn s) then g.foldl turnOn (setPerst s c true)
    else g.foldl (fun s c => if decide (chState s c ≤ 2) || decide (7 ≤ chState s c) then updChan s c fun x => { x with want := true } else s) s
  let s := g.foldl noteHeld s
  if braced s then s else g.foldl cmdDone s

/-- Turn-ons that wait are tried again, and outside a brace no command is held any more (R204, R344, R350, R353). -/
def retryTurnOn (s : State) : State :=
  (List.range 16).foldl (fun s c =>
    if (s.rootSt.chan.get c).want && chLead s c = c && decide (chState s c = 2) then tryTurnOn s c
    else if braced s then noteHeld s c else cmdDone (noteHeld s c) c) s

/-- An off command on a slot: PERST_N asserted at once, gate drive removed 100 µs later (R351). -/
def turnOff (s : State) (c : Nat) : State :=
  let g := chGroup s c
  let s := if g.any (fun c => chOn s c || decide (chState s c = 3)) then setPerst s c true else s
  let s := g.foldl (fun s c =>
    let s := updChan s c fun x => { x with want := false }
    if chOn s c then updChan (chClear (setChState s c 2) c) c fun x => { x with gateDue := true }
    else if chState s c = 3 then setChState s c 2 else s) s
  noteSlots (g.foldl (fun s c => cmdDone (noteHeld s c) c) s)

/-- A channel's output is cut at once: gate drive removed, PERST_N asserted, power-good withdrawn. -/
def chCut (s : State) (c n : Nat) : State :=
  updChan (chClear (setPerst (setGate (setChState s c n) c false) c true) c) c fun x => { x with gateDue := false }

/-- ROOT_CH_LAST_TRIP (R366). -/
def chCause (s : State) (c cause : Nat) : State :=
  wrN s (Reg.ROOT_CH_LAST_TRIP c) (cause + min 65535 (s.rootSt.chan.get c).peak * 16)

/-- One channel trips (R349). -/
def tripOne (s : State) (c cause : Nat) : State :=
  let s := chCut s c 7
  let s := chCause (wrB s (Reg.ROOT_CH_STATUS c) 10 true) c cause
  let s := if cause = 2 || cause = 5 then bumpF s (Reg.ROOT_CH_TRIPS c) 31 16 1 else bumpF s (Reg.ROOT_CH_TRIPS c) 15 0 1
  let s := updChan s c fun x => { x with tripAt := some s.now }
  let s := slotNote s c fun v => { v with pwrFault := true }
  faultP s 10 0x01 2 (chPort s c) cause

/-- A channel on, or turned off by a command of this same cycle (R365). -/
def mayTrip (s : State) (c : Nat) : Bool :=
  chOn s c || (decide (chState s c = 2) && (s.rootSt.chan.get c).gateDue && decide ((s.rootSt.chan.get c).offAt = some s.now))

/-- A trip, with the other channel of a pair (R349). -/
def trip (s : State) (c cause : Nat) : State :=
  if !(mayTrip s c) then s
  else
    let s := tripOne s c cause
    wakeSeen (noteSlots (((chGroup s c).filter fun d => d ≠ c && chOn s d).foldl (fun s d => tripOne s d 5) s)) 6 c

/-- A channel is DAMAGED (R352). -/
def damage (s : State) (c cause : Nat) : State :=
  let s := chCause (chCut s c 8) c cause
  noteSlots (faultP s 10 0x02 2 (chPort s c) cause)

/-- A SLOTS entry taken by a channel that is off: a used channel whose CLASS differs from its strap is DISABLED, with its cause, and one whose
entry matches is DISABLED no more (R341, R351). -/
def takeEntry (s : State) (c : Nat) (v : Word) : State :=
  let s := wr s (Reg.ROOT_CH_CFG c) v
  let strapL := rdB s (Reg.ROOT_CH_STATUS c) 11
  if getB v 0 && (getB v 7 != strapL) then
    if chState s c = 9 then s else noteSlots (faultP (chCause (setChState s c 9) c 0xA) 10 0x02 2 (chPort s c) 0xA)
  else if chState s c = 9 then setChState s c (if rdB s (Reg.ROOT_CH_STATUS c) 5 then 2 else if rdB s (Reg.ROOT_CH_STATUS c) 4 then 1 else 0)
  else s

/-- A new SLOTS entry waiting on a channel is applied once its gate is off; the channel turns on again when AUTO_ON is set (R340, R354). -/
def applyCfg (s : State) (c : Nat) : State :=
  match (s.rootSt.chan.get c).newCfg with
  | some w =>
    let s := takeEntry (updChan s c fun x => { x with newCfg := none }) c w
    if chUsed s c && chAuto s c then updChan s (chLead s c) fun x => { x with want := true } else s
  | none => s

/-- The trip latch of a slot clears on a toggle of R350: OFF when its board is seated, else as its PRSNT pin says. -/
def clearLatch (s : State) (c : Nat) : State :=
  let l := Reg.ROOT_CH_STATUS (chLead s c)
  let s := (chGroup s c).foldl (fun s c => if chState s c = 7 then
      setChState s c (if rdB s l 5 then 2 else if rdB s l 4 then 1 else 0) else s) s
  noteSlots s

/-! ### The bank (R355 to R363) -/

/-- The lower and the higher voltage channel, in mV. -/
def bankLow (s : State) : Nat := min (rdF s Reg.ROOT_BANK_V 15 0) (rdF s Reg.ROOT_BANK_V 31 16)
def bankHigh (s : State) : Nat := max (rdF s Reg.ROOT_BANK_V 15 0) (rdF s Reg.ROOT_BANK_V 31 16)

/-- A protection of R360 holds the charger. -/
def chargerHeld (s : State) : Bool :=
  let b := s.rootSt.bank
  b.disagree || b.tapHold || b.ntcHold || b.rise || b.reverse || b.isoFail || b.isoRun.isSome
    || rdB s Reg.ROOT_BANK_STATUS 5 || rdB s Reg.ROOT_BANK_STATUS 6 || rdB s Reg.ROOT_BANK_STATUS 7 || rdB s Reg.ROOT_BANK_STATUS 8

/-- The charger may run (R358, R364). -/
def chargerMay (s : State) : Bool :=
  s.seed.loaded && !s.start.bankBad && !(chargerHeld s) && !(braced s) && !(rdB s Reg.ROOT_CLK 16) && s.pfail.commit.isNone
    && decide (rdF s Reg.ROOT_BANK_CFG0 16 5 ≠ 0)

/-- CHARGING, AT_TOP and the charger's pin follow (R358, R367). -/
def noteCharger (s : State) : State :=
  let on := chargerMay s && !s.rootSt.bank.full
  let s := wrB s Reg.ROOT_BANK_STATUS 1 (on && decide (995 * bankTop s ≤ 1000 * bankLow s))
  if rdB s Reg.ROOT_BANK_STATUS 0 = on then s else emit (wrB s Reg.ROOT_BANK_STATUS 0 on) (.pin .chgEn on)

/-- LATCHED and ISO_OPEN follow the protections; the isolation FETs are driven (R360, R361, R367). -/
def noteBank (s : State) : State :=
  let b := s.rootSt.bank
  let cut := rdB s Reg.ROOT_BANK_STATUS 8
  let latched := b.disagree || b.rise || b.reverse || cut || rdB s Reg.ROOT_BANK_STATUS 5 || rdB s Reg.ROOT_BANK_STATUS 6
  let open_ := b.rise || b.reverse || cut || b.isoRun.isSome
  let s := wrB s Reg.ROOT_BANK_STATUS 10 latched
  let s := if rdB s Reg.ROOT_BANK_STATUS 3 = open_ then s
    else emit (wrB s Reg.ROOT_BANK_STATUS 3 open_) (.pin .bankIso (!open_))
  noteCharger s

/-- A protection event: counted, recorded with its code, and raised as a U fault in the bank zone (R360). -/
def bankEvent (s : State) (code : Nat) : State :=
  let s := wrF (bump s Reg.ROOT_BANK_FAULTS) Reg.ROOT_BANK_LAST 3 0 code
  wakeSeen (noteBank (faultU s 11 0x01 2 code)) 6 0

/-- Discharge switched on or off at BANK_DIS_EN (R362). -/
def setDischarge (s : State) (on : Bool) : State :=
  if rdB s Reg.ROOT_BANK_STATUS 2 = on then s
  else emit (wrB s Reg.ROOT_BANK_STATUS 2 on) (.pin .bankDisEn on)

end Sys2Proof.Machine
end

