-- ==== Sys2Proof/Machine/PwrOps.lean ====
section
/-! DEFINITION. Regulators and power states: the shared steps of voltage changes (R500 to R503), and the end of an entry into P2, P3 or
P4 without entering (R490, R496, R507). -/

namespace Sys2Proof.Machine

open Sys2Proof

/-! ### Regulators (R500, R501) -/

/-- The rails in the order they are raised, each with its nominal value in mV (R500). -/
def railOrder : List (Nat × Nat) := [(0, 750), (1, 800), (3, 1200), (2, 900), (4, 1200), (5, 1800)]

/-- What the rootstock die waits on, changed. -/
def updRails (s : State) (f : RailSt → RailSt) : State := { s with rootSt := { s.rootSt with rails := f s.rootSt.rails } }

/-- The last acknowledged value of a rail, in mV (R508). -/
def railSet (s : State) (r : Nat) : Nat := rdF s (Reg.PWR_RAIL_SET r) 15 0

/-- The next voltage change is issued once none waits for its acknowledgement (R501). -/
def pmbusGo (s : State) : State :=
  match s.rootSt.rails.busy, s.rootSt.rails.queue with
  | none, c :: rest => emit (updRails s fun _ => { busy := some c, at_ := s.now, queue := rest }) (.pmbus c.1 c.2)
  | _, _ => s

/-- Voltage changes asked for, in order. -/
def pmbusAsk (s : State) (cs : List (Nat × Nat)) : State :=
  pmbusGo (updRails s fun x => { x with queue := x.queue ++ cs })

/-- Every rail that is not at its nominal value is set to it, in order; every start begins at 0.75 V (R500, R502). -/
def railsUp (s : State) : State :=
  pmbusAsk (updRails s fun x => { x with queue := [] }) (railOrder.filter fun c => decide (railSet s c.1 ≠ c.2))

/-- Every rail off, in the reverse order, at a start or a failure (R79, R85, R331). DESIGN CHOICE, log entry 62: no acknowledgement is
awaited there. -/
def railsCut (s : State) : State :=
  let s := updRails s fun _ => {}
  (railOrder.reverse.filter fun c => decide (railSet s c.1 ≠ 0)).foldl (fun s c =>
    emit (wrB (wrF s (Reg.PWR_RAIL_SET c.1) 15 0 0) (Reg.PWR_RAIL_STATUS c.1) 16 false) (.pmbus c.1 0)) s

/-- Whether every change asked for has been acknowledged. -/
def railsDone (s : State) : Bool := s.rootSt.rails.busy.isNone && decide (s.rootSt.rails.queue = [])

/-! ### Power states (R490, R496) -/

/-- The power-state record changed. -/
def updPwr (s : State) (f : PwrSt → PwrSt) : State := { s with pwr := f s.pwr }

/-- RESULT of PWR_STATE (R509). -/
def setResult (s : State) (n : Nat) : State := wrF s Reg.PWR_STATE 11 9 n

/-- The board management controller's request ends: OK when the state was entered and left, else STATE, each with RESULT (R539).
DESIGN CHOICE, log entry 63. -/
def powerReply (s : State) (q : Option ReqSrc) (result : Nat) : State :=
  match q with
  | some q => reply s q 0x0202 (if result = 1 then 0x00 else 0x07) [w32 result]
  | none => s

/-- The VC1 credits a quiesce withheld are returned, and writes that waited for them at a PCI Express ingress are tagged (R86). -/
def releaseCredits (s : State) : State :=
  if vc1Held s then s
  else tagAll (s.pair.cells.foldl (fun s c =>
    if c.2.owed = 0 then s
    else
      let s := { s with pair := s.pair.upd c.1 fun x => { x with owed := 0 } }
      returnCredits { s with pair := s.pair.upd c.1 fun x => { x with heldCred := x.heldCred.modify 1 (· + c.2.owed) } } c.1 1 c.2.owed) s)

/-- WAKE sent on a port that sleeps, which then trains with its retained taps (R168). -/
def wakePort (s : State) (p : Nat) : State :=
  let kept := (lanesOf s p).all fun n => s.ret.taps.contains n
  let s := updMember (wakeSend s p) p fun m => { m with last := none, firstSent := false, tapsOk := m.tapsOk || kept }
  beginTraining s p

/-- Every port that sleeps or is in L1 leaves it (R496, R497). -/
def wakePorts (s : State) : State :=
  let s := s.seed.policy.nzPorts.foldl (fun s p =>
    if nzState s p = 4 then wakePort s p else updMember s p fun m => { m with sleepReq := false }) s
  s.seed.policy.pciePorts.foldl (fun s p =>
    if rdF s (Reg.PCIE_STATUS p) 3 0 = 5 then wrB (wrF s (Reg.PCIE_STATUS p) 3 0 4) (Reg.PCIE_STATUS p) 13 false else s) s

/-- No entry is in progress any more. -/
def entryOver (s : State) : State :=
  releaseCredits (updPwr (wrF s Reg.PWR_STATE 5 3 0) fun x => { x with req := 0, phase := 0, q := none, sr := 0, asleep := 0, wakeDue := none })

/-- An entry ends without entering, with a result: the switch is in P0, ports that went to sleep wake, links driven to electrical idle train,
rails rise again (R490, R496, R503, R507). -/
def abortEntry (s : State) (result : Nat) : State :=
  if s.pwr.req = 0 then s
  else
    let req := s.pwr.req
    let q := s.pwr.q
    let moved := decide (2 ≤ s.pwr.phase)
    let s := wakePorts (entryOver s)
    let s := if moved && decide (3 ≤ req) then railsUp s else s
    let s := if moved && decide (req = 3) then
        s.seed.policy.nzPorts.foldl (fun s p => if nzState s p = 0 then beginTraining s p else s) s
      else s
    powerReply (setResult s result) q result

end Sys2Proof.Machine
end

