-- ==== Sys2Proof/Machine/StartOps.lean ====
section
/-! DEFINITION. The beginning of a start: what every register becomes (R15, R78 to R83), the kind of the start, the retention record
of R83, and a cause held back by a brace (R98). -/

namespace Sys2Proof.Machine

open Sys2Proof

/-! ### The register image of a start (R15) -/

/-- Whether an offset from a row's base is one of its registers; strides are in falling order. -/
def inDims : List (Nat × Nat) → Nat → Bool
  | [], n => decide (n = 0)
  | (st, c) :: rest, n => decide (n / st < c) && inDims rest (n % st)

/-- The row of a BAR0 address. -/
def rowOf (a : Nat) : Option RegRow :=
  match regUnits.find? fun u => decide (a < u.1) with
  | none => none
  | some u => u.2.find? fun r => decide (r.base ≤ a) && inDims r.dims (a - r.base)

/-- What a start leaves of a register (R15, R366): a register that no start resets, or that only the loss of the rootstock die's
supply clears, or the bits a warm start keeps. -/
def keptOf (warm por : Bool) (a : Nat) (v : Word) : Word :=
  match rowOf a with
  | none => 0
  | some r => if r.hold = 2 || (r.hold = 1 && !por) then v else if warm then v &&& w32 r.kept else 0

/-- The bits of a register that a warm start keeps. -/
def keptMask (a : Nat) : Word :=
  match rowOf a with
  | none => 0
  | some r => w32 r.kept

/-- The registers as a start begins: what it keeps, and the reset values of the rest. -/
def resetImage (s : State) (warm por : Bool) : Tab Word :=
  let kept := s.regs.mapVals fun a v => keptOf warm por a v
  resetRegs.cells.foldl (fun t c =>
    let m : Word := if warm then keptMask c.1 else 0
    t.set c.1 (mergeW c.2 (t.get c.1) m)) kept

/-! ### The kind of a start (R79 to R81) -/

/-- 600 s in core cycles. -/
def sec600 : Nat := 960000000000

/-- The failed warm starts of the last 600 s. -/
def recentFails (s : State) : Nat := (s.root.warmFails.filter fun t => decide (s.now ≤ t + sec600)).length

/-- Three kept failures lie within 600 s of one another (R81). -/
def threeFails (s : State) : Bool :=
  match s.root.warmFails with
  | [a, _, c] => decide (c ≤ a + sec600)
  | _ => false

/-- R80: a start has reached service since the rootstock die got its supply, none has failed in the seed step and no flush was
committed since, and R81 forces nothing; step 1 of the warm start then checks the rootstock record (R87). -/
def warmOk (s : State) : Bool :=
  s.root.powered && s.root.reachedService && !s.root.seedFailedSince && !s.root.flushedSince && !(threeFails s)

/-- The failure of a warm start kept by the rootstock die (R81). -/
def warmFail (s : State) : State :=
  let l := s.root.warmFails ++ [s.now]
  { s with root := { s.root with warmFails := l.drop (l.length - 3) } }

/-- A warm start is in progress that has not reached service: in a step, in the retention window of its next cause, waiting for its rails,
or stopped in its seed step (R81, R99). -/
def inWarmStart (s : State) : Bool :=
  s.start.warm && !(rdB s Reg.GLB_START_STATUS 7) && decide (s.start.phase ≠ .off ∧ s.start.phase ≠ .asleep)

/-- The step now running (R102). -/
def startStep (s : State) : Nat := rdF s Reg.GLB_START_STATUS 3 0

/-- Links train from step 8 of the cold table, step 7 of the warm one (R84, R87). -/
def linksRun (s : State) : Bool :=
  decide (s.start.phase = .service) || (decide (s.start.phase = .steps) && decide ((if s.start.warm then 7 else 8) ≤ startStep s))

/-! ### The seed flash (R48, R49, R71, R73) -/

/-- A byte of the seed flash. -/
def flashByte (s : State) (a : Nat) : Byte := ~~~(s.seed.flash.get a)

/-- `n` bytes of the seed flash from an address on. -/
def flashBytes (s : State) (a n : Nat) : List Byte := (List.range n).map fun i => flashByte s (a + i)

/-- Bytes programmed into the seed flash from an address on. -/
def flashPut (s : State) (a : Nat) : List Byte → State
  | [] => s
  | b :: bs => flashPut { s with seed := { s.seed with flash := s.seed.flash.set a (~~~b) } } (a + 1) bs

/-- The flash address where a copy starts (R49). -/
def copyBase (c : Nat) : Nat := c * 2 ^ 24

/-- A copy erased (R71). -/
def eraseCopy (s : State) (c : Nat) : State :=
  { s with seed := { s.seed with flash := s.seed.flash.keep fun a _ => decide (a / 2 ^ 24 ≠ c) } }

/-- `n` words of 32 free bytes each, written to the flash from an address on. -/
def tearBytes (s : State) (a : Nat) : Nat → State
  | 0 => s
  | n + 1 =>
    let v := freshBits s 256
    tearBytes (flashPut v.2 a (leBytes 32 v.1.toNat)) (a + 32) n

/-- A page whose programming is cut short is torn: what it then holds is open (R73). -/
def tearPage (s : State) : State :=
  match s.seed.programming with
  | some x => tearBytes s x.1 8
  | none => s

/-- The code of the seed update request that waits for the flash. -/
def updCode (s : State) : Nat :=
  if rdF s Reg.SEED_UPDATE_STATUS 1 0 = 1 then 0x0102 else if s.seed.headOp.isSome then 0x0104 else 0x0103

/-- A seed update in progress stops at a brace or reset (R73, R100). -/
def stopSeedUpdate (s : State) : State :=
  let n := rdF s Reg.SEED_UPDATE_STATUS 1 0
  if n = 1 || n = 2 then
    let s := tearPage s
    { wrF s Reg.SEED_UPDATE_STATUS 1 0 3 with
      seed := { s.seed with updPending := none, held := [], headOp := none, programming := none } }
  else s

/-- A seed update stops while the management core goes on: the request that waits for the flash draws STATE. DESIGN CHOICE, log entry 105:
R73 and R548 name no reply to it. -/
def endSeedUpdate (s : State) : State :=
  stopSeedUpdate (match s.seed.updPending with
    | some q => reply s q (updCode s) 0x07 []
    | none => s)

/-- A leaf advance asked for and cut short: whether the counter moved is open (R546). -/
def dropAttest (s : State) : State :=
  if s.mgmt.attWait.isNone then s
  else
    let v := freshBits s 1
    { v.2 with mgmt := { s.mgmt with attWait := none }, root := { s.root with attLeaf := s.root.attLeaf + v.1.toNat } }

/-! ### A start begins -/

/-- The SE the always-on record holds (R82). -/
def noteRetSe (s : State) : Option Nat := if joined s then some (seOf s) else s.root.retSE

/-- The switch die at t0 of a start. What the rootstock die holds stays, the flash stays, and a warm start keeps the landing
DRAM and its bitmap until step 8 decides (R82, R84, R87, R354). `cause` is GLB_RESET_CAUSE. -/
def newStart (s : State) (warm por forced : Bool) (cause : Nat) : State :=
  let s := dropAttest (stopSeedUpdate s)
  let root := { s.root with
    retSE := if por then none else noteRetSe s
    railsOn := warm, retries := 0, heldCause := none, startCounter := (s.root.startCounter + 1) % 2 ^ 32, dieDead := false
    errHold := if s.root.dieDead then some s.now else s.root.errHold }
  let t : State := { State.reset with
    regs := resetImage s warm por, pending := s.pending, out := s.out, now := s.now, t0 := s.now, free := s.free
    root := root, ret := if warm then s.ret else {}, seed := { flash := s.seed.flash }
    rootSt := { s.rootSt with therm := { s.rootSt.therm with brace := false, flush := false } }
    land := if warm then { word := s.land.word, page := s.land.page, relPend := s.land.relPend } else {}
    start := { phase := .steps, por := por, warm := warm } }
  let t := wrF (wrF t Reg.GLB_START_STATUS 3 0 1) Reg.GLB_START_STATUS 5 4 warm.toNat
  let t := wrB t Reg.GLB_START_STATUS 6 forced
  let t := wrN t Reg.GLB_RESET_CAUSE cause
  let t := wrF t Reg.GLB_WARM_FAILS 1 0 (min 3 (recentFails s))
  let t := fltStatus t
  let t := if rdF s Reg.FLT_STATUS 3 2 = 1 then emit t (.pin .errN true) else t
  if warm then
    railsUp ((List.range 16).foldl (fun t c => if chOn t c && chLead t c = c then setPerst t c true else t) t)
  else
    let t := (List.range 16).foldl (fun t c => if chOn t c || decide (chState t c = 3) then chCut t c 2 else t) t
    noteBank (noteSlots (railsCut t))

/-- A reset cause of R79 takes effect: the kind of start is chosen (R80), and a warm start in progress has failed (R81, R99). -/
def resetNow (s : State) (bit : Nat) (held : Bool) : State :=
  let s := if inWarmStart s && !s.start.failed then warmFail s else s
  let warmType := decide (3 ≤ bit) && decide (bit ≤ 5)
  let warm := warmType && warmOk s
  newStart s warm false (warmType && !warm) (if held then 2 ^ 6 + bit * 2 ^ 8 else 2 ^ bit)

/-- The retention record of R83 once the landing step is over: SEALED says that nothing landed lies above SE. Before it the landing
controller holds no more than a warm start's own record, which stays; its SEALED is lost with the bitmap that step 3 cleared. DEDUCED, log
entry 106. -/
def retainRecord (s : State) : State :=
  if rdB s Reg.GLB_START_STATUS 7 then
    let h := s.land.highest.getD (seOf s)
    { s with ret := { s.ret with land := some (seOf s, h, epLe h (seOf s)), bitmapOk := true } }
  else
    let held := decide (startStep s ≤ 3) || s.start.keeps
    { s with ret := { s.ret with land := s.ret.land.map fun x => (x.1, x.2.1, x.2.2 && held) } }

/-- R83: with every DRAM channel in self-refresh the record is written and the reset follows; otherwise the 4 µs run. A cause in
another's window is one reset with it. Lane tests end at the
cause (R128, R131); the registers then read their Warm or Cold values (R132; DEDUCED, log entry 99). -/
def retention (s : State) (bit : Nat) (held : Bool) (selfRefresh : Nat) : State :=
  let s := stopTests s
  if s.start.phase = .retain then s
  else if selfRefresh = 15 then resetNow (retainRecord s) bit held
  else { s with start := { s.start with phase := .retain, retCause := some (if held then 16 + bit else bit) } }

/-- The state just left is shown in PWR_STATE (R509). -/
def noteLeft (s : State) (st : Nat) : State := setResult (wrF s Reg.PWR_STATE 8 6 st) 1

/-- P2 or P3 is left through a start (R497, R507): the landing DRAM is in self-refresh already, and a brace of the own input goes on
(R499). -/
def exitReset (s : State) (bit : Nat) : State :=
  let st := s.pwr.asleep
  let own := rdB s Reg.PFAIL_STATUS 3
  let t := resetNow (if st = 2 then retainRecord s else s) bit false
  let t := updPwr (wrB t Reg.PFAIL_STATUS 3 own) fun x => { x with p3Brace := if own then max 1 s.pwr.p3Brace else 0 }
  noteLeft t st

/-- A brace is in progress as the rootstock die sees it (R98): of the switch, or of its own input. -/
def braceHolds (s : State) : Bool := braced s || rdB s Reg.PFAIL_STATUS 3

/-- A warm-type cause of R79: held back during a brace or in the cloche (R98), joined to an exit from P2 or P3 (R507), without effect in
P4, else retention and the reset. -/
def warmCause (s : State) (bit selfRefresh : Nat) : State :=
  if s.start.phase = .off || decide (s.pwr.asleep = 4) then s
  else if s.pwr.asleep ≠ 0 then exitReset s bit
  else if braceHolds s || inCloche s then
    { s with root := { s.root with heldCause := some (s.root.heldCause.getD bit) } }
  else retention s bit false selfRefresh

/-- A held cause acts at stand-down (R98). Which DRAM channels confirm self-refresh is open: a free value. -/
def actHeld (s : State) : State :=
  match s.root.heldCause with
  | none => s
  | some c =>
    let v := freshBits { s with root := { s.root with heldCause := none } } 4
    retention v.2 c true v.1.toNat

end Sys2Proof.Machine
end

