-- ==== Sys2Proof/Machine/FlushOps.lean ====
section
/-! DEFINITION. Brace, cut, stand-down, commit and the flush movers: the shared steps of R311 to R331. -/

namespace Sys2Proof.Machine

open Sys2Proof

/-- The power-fail state changed. -/
def updPf (s : State) (f : PfailSt → PfailSt) : State := { s with pfail := f s.pfail }

/-! ### The state of the brace (R311 to R318, R337) -/

/-- The temperatures let a brace stand down: no thermal brace holds, or every switch-die reading is below 110 °C (R566). -/
def coolEnough (s : State) : Bool := !s.rootSt.therm.brace || s.rootSt.therm.below.isSome

/-- The thermal diodes' record changed. -/
def updTherm (s : State) (f : ThermSt → ThermSt) : State := { s with rootSt := { s.rootSt with therm := f s.rootSt.therm } }

/-- STATE of PFAIL_STATUS follows. -/
def notePf (s : State) : State :=
  let n := if s.pfail.braceAt.isNone then 0
    else if s.pfail.riseAt.isSome && rdB s Reg.PFAIL_STATUS 3 && coolEnough s then 3
    else if s.pfail.cut.isSome then 2 else 1
  wrF s Reg.PFAIL_STATUS 2 0 n

/-- The input voltage as the monitor reads it (R336). -/
def noteInput (s : State) (mv : Nat) : State :=
  let s := wrF s Reg.PFAIL_INPUT 15 0 mv
  let s := if mv < rdF s Reg.PFAIL_INPUT_MIN 15 0 then wrF s Reg.PFAIL_INPUT_MIN 15 0 mv else s
  updPf s fun x => { x with minMv := if x.braceAt.isSome then min x.minMv mv else x.minMv }

/-- PWRWARN_N on every channel whose output is on, or released everywhere (R312, R317). -/
def warnAll (s : State) (low : Bool) : State :=
  let s := (List.range 16).foldl (fun s c => if !low || chOn s c then setWarn s c low else s) s
  wrB s Reg.PFAIL_STATUS 4 (low && (List.range 16).any fun c => rdB s (Reg.ROOT_CH_STATUS c) 9)

/-- What follows a change of the brace: the ledger's conditions, the charger, waiting turn-ons. -/
def braceNote (s : State) : State :=
  let s := noteCharger (noteBank (noteAdmit (noteLedger s)))
  (List.range 16).foldl noteHeld s

/-- A brace begins on this switch: tagging and admission stop (R312, R313), an entry into P2, P3 or P4 ends (R507), and a start that has not
ended its landing resume step waits (R97). -/
def braceStart (s : State) : State :=
  if s.pfail.braceAt.isSome then s
  else
    let s := updPf (abortEntry s 2) fun x => { x with
      braceAt := some s.now, ownH := none, highs := [], highSent := false, cut := none, cutLeader := 0xFFFF, cutTerm := 0
      gotCommit := false, minMv := rdF s Reg.PFAIL_INPUT 15 0, seBrace := seOf s, starting := !(inService s) }
    let s := wr64 (wrB (wrB s Reg.PFAIL_STATUS 5 false) Reg.PFAIL_STATUS 6 false) Reg.PFAIL_SE_BRACE_LO (seOf s)
    let s := count (bump (notePf s) Reg.PFAIL_BRACES) 114 1
    let s := updBank (wrB (endSeedUpdate s) Reg.LAND_STATUS 3 true) fun b => { b with isoRun := none }
    braceNote s

/-- Words of a BRACE (R313). -/
def braceWord (s : State) (own : Bool) : Nat :=
  s.pfail.id.getD 0 + s.land.term * 2 ^ 16 + own.toNat * 2 ^ 32 + swId s * 2 ^ 36

/-- A message to every child of the seal tree. -/
def sendDown (s : State) (kind ep : Nat) (ws : List Nat) : State :=
  (treeChildren s (ownMember s)).foldl (fun s c => sendMsg s (memberSw s c) kind ep ws) s

/-- The BRACE_ID held, with its TERM (R336); a leader's next one follows the last that the cluster used (R313). -/
def setBraceId (s : State) (id : Nat) : State :=
  let s := updPf s fun x => { x with id := some id, nextId := id }
  wrN s Reg.PFAIL_BRACE_ID (id + s.land.term * 2 ^ 16)

/-- The leader begins a cluster brace: the next BRACE_ID goes down the tree (R313). -/
def leaderBrace (s : State) : State :=
  let id := if (s.pfail.nextId + 1) % 2 ^ 16 = 0 then 1 else (s.pfail.nextId + 1) % 2 ^ 16
  let s := setBraceId (updPf s fun x => { x with bracedBy := [], recovered := [] }) id
  sendDown (braceStart s) 0x10 (seOf s) [braceWord s (rdB s Reg.PFAIL_STATUS 3)]

/-- A switch whose own input braced has recovered (R317, R318). -/
def noteRecovered (s : State) (sw : Nat) : State :=
  updPf s fun x => { x with
    bracedBy := if x.bracedBy.contains sw then x.bracedBy else x.bracedBy ++ [sw]
    recovered := if x.recovered.contains sw then x.recovered else x.recovered ++ [sw] }

/-- A switch recorded as braced on its own input: a RECOVERED before it no longer counts (R317, R318). -/
def noteBraced (s : State) (sw : Nat) : State :=
  updPf s fun x => { x with
    bracedBy := if x.bracedBy.contains sw then x.bracedBy else x.bracedBy ++ [sw]
    recovered := x.recovered.filter fun y => decide (y ≠ sw) }

/-- The own input braces (R312): PWRWARN_N, the brace, and BRACE to the leader. -/
def ownBrace (s : State) : State :=
  let s := warnAll (wrB s Reg.PFAIL_STATUS 3 true) true
  if isLeader s then
    let s := if s.pfail.braceAt.isSome then s else leaderBrace s
    notePf (noteBraced s (swId s))
  else
    let s := updPf (notePf (braceStart s)) fun x => { x with recovered := x.recovered.filter fun y => decide (y ≠ swId s) }
    sendMsg s (leaderSw s) 0x10 (seOf s) [braceWord s true]

/-! ### HIGH and CUT (R314, R315) -/

/-- The highest epoch landed as a home, or SE when that is lower (R314). A write already admitted counts too: it lands whatever follows,
and the cut must lie at or above it (R41, R315). -/
def highNow (s : State) : Nat :=
  s.land.admitted.foldl (fun h w => epMax h w.ep) (epMax (s.land.highest.getD (seOf s)) (seOf s))

/-- The CUT record of the harvest port (R529). -/
def cutBody (s : State) (c : Nat) : List Byte :=
  leBytes 2 (s.pfail.id.getD 0) ++ leBytes 2 s.land.term ++ leBytes 6 c
    ++ leBytes 1 ((rdB s Reg.PFAIL_STATUS 5).toNat + 2 * (rdB s Reg.PFAIL_STATUS 6).toNat) ++ leBytes 1 0
    ++ leBytes 6 s.pfail.seBrace ++ leBytes 2 0

/-- C_m held: the larger of what it was, the cut given and the own H; never lowered (R315). -/
def holdCut (s : State) (c : Nat) (isLocal partial_ : Bool) (leader term : Nat) : State :=
  let n := epMax (epMax c (s.pfail.ownH.getD (highNow s))) (s.pfail.cut.getD c)
  let risen := s.pfail.cut ≠ some n
  let s := updPf s fun x => { x with cut := some n, cutLeader := leader, cutTerm := term }
  let s := wr64 (wrB (wrB s Reg.PFAIL_STATUS 5 isLocal) Reg.PFAIL_STATUS 6 partial_) Reg.PFAIL_CUT_LO n
  notePf (if risen then hvOffer s 0 4 (cutBody s n) else s)

/-- The members whose H a node holds, and the largest H (R314). -/
def highSum (s : State) : Nat × Nat :=
  s.pfail.highs.foldl (fun x h => (x.1 ||| h.2.2, epMax x.2 h.2.1))
    (2 ^ ownMember s, s.pfail.ownH.getD (highNow s))

/-- The leader declares C and sends CUT (R315). -/
def declareCut (s : State) (partial_ : Bool) : State :=
  if s.pfail.cut.isSome && !(rdB s Reg.PFAIL_STATUS 5) then s
  else
    let x := highSum s
    let s := holdCut s x.2 false partial_ (swId s) s.land.term
    sendDown s 0x12 (s.pfail.cut.getD x.2) [s.pfail.id.getD 0 + s.land.term * 2 ^ 16 + partial_.toNat * 2 ^ 32, x.1]

/-- A node with its own H and every child's sends HIGH up; the leader with the whole set declares (R314, R315). -/
def tryHigh (s : State) : State :=
  let ready := s.pfail.ownH.isSome && (treeChildren s (ownMember s)).all fun c => s.pfail.highs.any fun h => h.1 == c
  if !ready || s.pfail.highSent || s.pfail.id.isNone then s
  else
    let x := highSum s
    if isLeader s then
      if x.1 = sealSet s then declareCut (updPf s fun y => { y with highSent := true }) false else s
    else
      let s := updPf s fun y => { y with highSent := true }
      sendMsg s (memberSw s (treeParent s (ownMember s))) 0x11 x.2 [s.pfail.id.getD 0 + s.land.term * 2 ^ 16, x.1]

/-! ### Stand-down (R317, R318) -/

/-- The STAND_DOWN record of the harvest port (R529). -/
def sdBody (s : State) (c dur : Nat) : List Byte :=
  leBytes 2 (s.pfail.id.getD 0) ++ leBytes 2 0 ++ leBytes 6 c ++ leBytes 2 0 ++ leBytes 4 dur ++ leBytes 2 s.pfail.minMv ++ leBytes 2 0

/-- A member stands down: C_m discarded, tagging resumed, what waited for stand-down carried out (R318, R204, R358); a held
cause acts unless the own input braces anew (R98). -/
def standDown (s : State) (c : Nat) : State :=
  let c := s.pfail.cut.getD c
  let dur := (s.now - s.pfail.braceAt.getD s.now) / 1600
  let s := wr64 (wrF (wrN s Reg.PFAIL_SD_DURATION dur) Reg.PFAIL_SD_MIN 15 0 s.pfail.minMv) Reg.PFAIL_SD_CUT_LO c
  let s := hvOffer (count (bump s Reg.PFAIL_STANDDOWNS) 114 2) 0 5 (sdBody s c dur)
  let s := updPf s fun x => { x with
    braceAt := none, stoodDown := x.id, id := none, cut := none, bracedBy := [], recovered := [], riseAt := none }
  let s := wrB (notePf s) Reg.LAND_STATUS 3 false
  let s := updQos s fun q => { q with resume := true }
  let s := updLand s fun l => { l with sumHigh := l.sumHigh.map fun x => (x.1, s.now) }
  let s := retryTurnOn (braceNote s)
  let s := tagAll s
  if rdB s Reg.PFAIL_STATUS 3 then ownBrace s else actHeld s

/-- The leader sends STAND_DOWN once every switch braced on its own input has recovered and no COMMIT came (R318). -/
def tryStandDown (s : State) : State :=
  if isLeader s && s.pfail.id.isSome && !s.pfail.gotCommit && s.pfail.bracedBy ≠ []
      && s.pfail.bracedBy.all fun w => s.pfail.recovered.contains w then
    let c := s.pfail.cut.getD (highNow s)
    standDown (sendDown s 0x15 c [s.pfail.id.getD 0 + s.land.term * 2 ^ 16]) c
  else s

/-! ### The image (R326 to R329) -/

/-- The number of targets, and B of a target. -/
def targetCount (s : State) : Nat := rdF s Reg.PFAIL_TARGETS 11 8
def targetBase (s : State) (t : Nat) : Nat := rd64 s (Reg.PFAIL_TGT_BASE_LO t)

/-- A target is enabled and checked (R325). -/
def targetReady (s : State) (t : Nat) : Bool := rdB s Reg.PFAIL_TARGETS t

/-- The target and the LBA offset of page P (R326). -/
def pageTarget (s : State) (p : Nat) : Nat := p / 32 % targetCount s
def pageLba (s : State) (p : Nat) : Nat := 769 + p / 32 / targetCount s * 32 + p % 32

/-- The written pages of a buffer in service; of one out of service the flush writes none (R335). -/
def heldPages (s : State) : List Nat :=
  if landServes s then (s.land.page.cells.filter fun c => c.2).map Prod.fst else []

/-- The pages the flush writes: bitmap bit set and not release-pending (R328). -/
def flushPages (s : State) : List Nat := (heldPages s).filter fun p => (s.land.relPend.get p).isNone

/-- Consecutive pages of one stripe joined into runs of at most `n` (R330). -/
def joinRuns (n : Nat) : List Nat → List (List Nat)
  | [] => []
  | p :: ps =>
    match joinRuns n ps with
    | (q :: r) :: rest => if q = p + 1 && decide (q / 32 = p / 32) && decide (r.length + 1 < n) then (p :: q :: r) :: rest else [p] :: (q :: r) :: rest
    | rest => [p] :: rest

/-- The largest run a target's drive takes (R330). -/
def maxRun (s : State) (t : Nat) : Nat := ((s.pfail.mdts.find? fun m => m.1 == t).map Prod.snd).getD 32

/-- The loss list as words (R328). -/
def lossWords (es : List LossEnt) : List Word :=
  es.flatMap fun e =>
    [w32 (e.reqId % 2 ^ 16 + e.port % 256 * 2 ^ 16 + e.kind * 2 ^ 24), w32 (e.origin + min 65535 e.count * 2 ^ 16),
     lo32 e.ep, w32 (e.ep / 2 ^ 32 % 2 ^ 16)]

/-- A requester's REQ_ID and SRC_PORT in a loss entry (R328). -/
def lossWho (k : Nat) (r : ReqRec) : Nat × Nat := if k < 2 ^ 22 then (k % 65536, r.port) else ((k - 2 ^ 22) % 65536, 0x7F)

/-- The entries this switch writes as an origin (R328). -/
def originLoss (s : State) (seFinal : Nat) : List LossEnt :=
  s.land.recs.cells.flatMap fun c => match c.2 with
    | none => []
    | some r =>
      let w := lossWho c.1 r
      let mk (k ep : Nat) : LossEnt := { reqId := w.1, port := w.2, kind := k, origin := swId s, count := 0, ep := ep }
      (r.fault.elim [] fun f => [mk f.2 f.1]) ++ (r.poison.elim [] fun e => [mk 0 e])
        ++ (if epAfter r.last seFinal then [mk 8 (epAdd seFinal 1)] else [])

/-- One more held write counted in the loss list (R324). -/
def addLoss (l : List LossEnt) (reqId port origin ep : Nat) : List LossEnt :=
  if l.any fun e => e.reqId == reqId && e.port == port && e.origin == origin && e.ep == ep then
    l.map fun e => if e.reqId == reqId && e.port == port && e.origin == origin && e.ep == ep then { e with count := e.count + 1 } else e
  else l ++ [{ reqId := reqId, port := port, kind := 3, origin := origin, count := 1, ep := ep }]

/-- The scan of the landing VC1 input (R324): held writes and releases of an epoch at most C_m. -/
def homeLoss (s : State) (cut : Nat) : List LossEnt :=
  let held := s.land.input.map fun w => (w.reqId, w.srcPort, w.srcSw, w.ep)
  let raw := s.fwd.toLand.map fun e => (frameReq e.f, e.f.srcPort.toNat, e.f.srcSw.toNat, frameEpoch s e.inPort e.f)
  (held ++ raw).foldl (fun l x => if epLe x.2.2.2 cut then addLoss l x.1 x.2.1 x.2.2.1 x.2.2.2 else l) []

/-- Pages of the table with a bit set. -/
def tabCount (s : State) (b : Nat) : Nat := (s.pfail.pageTab.cells.filter fun c => bitN c.2 b).length

/-- The 32 region entries of a record block (R329). -/
def regionWords (s : State) : List Word :=
  (List.range 32).flatMap fun r =>
    if rdB s (Reg.LAND_REGION_CFG r) 31 then
      [w32 (regionSw s r + regionHost s r * 2 ^ 16 + rdF s (Reg.LAND_REGION_CFG r) 21 17 * 2 ^ 24), w32 (regionBase s r), 0, 0]
    else [0, 0, 0, 0]

/-- The record block of a target in a STATE, as 1,024 words (R329). -/
def recordWords (s : State) (t st : Nat) : List Word :=
  let c := s.pfail.commit.getD { at_ := 0, flushId := 0, cut := 0, seFinal := 0 }
  let z := decide (st = 1)
  let cnt (n : Nat) : Word := if z then 0 else w32 n
  let flags := c.isLocal.toNat + c.isPart.toNat * 2 + c.byLimit.toNat * 4 + s.pfail.lossOver.toNat * 8 + c.remote.toNat * 16
  let head : List Word :=
    [0x52464E58, w32 (1 + st * 2 ^ 16), w32 c.flushId, w32 (swId s + t * 2 ^ 16 + targetCount s * 2 ^ 24),
     lo32 c.cut, hi32 c.cut, lo32 s.pfail.seBrace, hi32 s.pfail.seBrace, lo32 c.seFinal, hi32 c.seFinal,
     w32 ((if c.isLocal then 0xFFFF else s.pfail.cutLeader) + s.pfail.cutTerm * 2 ^ 16),
     w32 (s.pfail.id.getD 0 + flags * 2 ^ 16 + s.pfail.failedT * 2 ^ 24),
     cnt (tabCount s 15), cnt (tabCount s 14), cnt (tabCount s 16), cnt (min 65536 s.pfail.loss.length),
     w32 c.tCommit, cnt ((c.doneAt.getD s.now - c.at_) / 1600), w32 (c.mv / 10 + (if z then 0 else c.endMv / 10) * 2 ^ 16),
     cnt s.pfail.uncorr]
  let body := head ++ List.replicate 44 0 ++ regionWords s ++ List.replicate 831 0
  body ++ [w32 (crc32 (body.flatMap wordBytes))]

/-- The page table entry of page P as it stands. -/
def tabWord (s : State) (p : Nat) : Word := w32 (s.pfail.pageTab.get p)

/-! ### The movers (R330) -/

/-- A mover changed. -/
def updMover (s : State) (t : Nat) (f : Mover → Mover) : State := updPf s fun x => { x with movers := x.movers.upd t f }

/-- The targets the movers serve. -/
def flushTargets (s : State) : List Nat := List.range (targetCount s)

/-- A target has stopped. -/
def moverDead (s : State) (t : Nat) : Bool := (s.pfail.movers.get t).stopped

/-- A command issued to a target. -/
def issueCmd (s : State) (t : Nat) (c : FlushCmd) (what : String) (n : Nat) (data : List Word) : State :=
  let s := updMover s t fun m => { m with out := m.out ++ [c] }
  emit s (.nvme t what (targetBase s t + c.lba) n data)

/-- A page read for the flush: its words are read and its table entry built (R327, R328). -/
def readPage (s : State) (p : Nat) : State :=
  let r := (List.range 128).foldl (fun (x : (Nat × Bool) × State) i =>
    let w := x.2.land.word.get (128 * p + i)
    if !w.valid then x
    else
      let q := readWord x.2 (128 * p + i) 0
      let bad := decide (landVerdict q.1.2.2 = .uncorrectable)
      let s := if bad then updPf q.2 fun y => { y with uncorr := y.uncorr + 1 } else q.2
      ((if bad then x.1.1 else max x.1.1 w.etag.toNat, x.1.2 || q.1.2.1), s)) ((0, false), s)
  updPf r.2 fun x => { x with pageTab := x.pageTab.upd p fun e => e / 2 ^ 15 * 2 ^ 15 + r.1.1 + r.1.2.toNat * 2 ^ 14 }

/-- The 4,096 bytes of a page as the flush writes them: words with VALID = 0 as zero, every other as stored (R328). -/
def pageImage (s : State) (p : Nat) : List Word :=
  (List.range 128).flatMap fun i =>
    let w := s.land.word.get (128 * p + i)
    if w.valid then natWords 8 w.data.toNat else List.replicate 8 0

/-- The words of a command of step 2 or 3: pages, a part of the page table, or of the loss list with zeros behind it. -/
def cmdData (s : State) (c : FlushCmd) : List Word :=
  if c.kind = 2 then c.pages.flatMap (pageImage s)
  else if c.kind ≠ 3 then []
  else if 257 ≤ c.lba then (List.range (1024 * c.n)).map fun i => tabWord s (1024 * (c.lba - 257) + i)
  else
    let ws := ((lossWords (s.pfail.loss.take 65536)).drop (1024 * (c.lba - 1))).take (1024 * c.n)
    ws ++ List.replicate (1024 * c.n - ws.length) 0

/-- The next page runs of a target issued, while fewer than 64 commands are outstanding (R330). -/
def issueRuns (s : State) (t : Nat) : Nat → State
  | 0 => s
  | n + 1 =>
    match (s.pfail.movers.get t).runs with
    | [] => s
    | r :: rest =>
      if 64 ≤ (s.pfail.movers.get t).out.length then s
      else
        let s := r.foldl readPage (updMover s t fun m => { m with runs := rest })
        let c : FlushCmd := { kind := 2, lba := pageLba s (r.headD 0), n := r.length, pages := r }
        issueRuns (issueCmd s t c "write" c.n (cmdData s c)) t n

/-- Step 2 of a mover (R330). -/
def moverPages (s : State) (t : Nat) : State :=
  let ps := (flushPages s).filter fun p => decide (pageTarget s p = t)
  let s := updMover s t fun m => { m with step := 2, runs := joinRuns (min 32 (maxRun s t)) ps }
  issueRuns s t 64

/-- The commands of at most `k` LBAs that write `n` LBAs from offset `a` (R330 step 3). -/
def tableCmds (k a : Nat) : Nat → Nat → List FlushCmd
  | 0, _ => []
  | f + 1, n => if n = 0 then [] else { kind := 3, lba := a, n := min k n } :: tableCmds k (a + min k n) f (n - min k n)

/-- The next commands of step 3 issued, while fewer than 64 are outstanding (R330). -/
def issueTodo (s : State) (t : Nat) : Nat → State
  | 0 => s
  | n + 1 =>
    match (s.pfail.movers.get t).todo with
    | [] => s
    | c :: rest =>
      if 64 ≤ (s.pfail.movers.get t).out.length then s
      else
        let s := updMover s t fun m => { m with todo := rest }
        issueTodo (issueCmd s t c "write" c.n (cmdData s c)) t n

/-- Step 3 of a mover: the page table, and the used blocks of the loss list. -/
def moverTable (s : State) (t : Nat) : State :=
  let k := min 32 (maxRun s t)
  let cs := tableCmds k 257 512 512 ++ tableCmds k 1 256 ((min 65536 s.pfail.loss.length + 255) / 256)
  issueTodo (updMover s t fun m => { m with step := 3, todo := cs }) t 64

/-- Everything the flush keeps ends: die and target channels off, discharge ended (R331, R362). -/
def powerOff (s : State) : State :=
  let s := (List.range 16).foldl (fun s c => if chOn s c then chCut s c 2 else s) s
  let s := setDischarge s false
  railsCut (noteSlots { s with root := { s.root with railsOn := false } })

/-- The cold start that ends a flush, once the input has stayed above 11.4 V for 100 ms (R331); after a thermal flush also every switch-die
reading below 90 °C for 10 s (R566). -/
def flushRestart (s : State) : State :=
  match s.pfail.goodAt with
  | some t =>
    let cool := !s.rootSt.therm.flush || s.rootSt.therm.cool.any fun c => decide (c + 16000000000 ≤ s.now)
    if t + 160000000 ≤ s.now && !s.root.railsOn && cool then newStart s false false false 4 else s
  | none => s

/-- The flush has finished on every target that has not stopped (R331). -/
def flushDone (s : State) : State :=
  if (flushTargets s).all fun t => moverDead s t || decide ((s.pfail.movers.get t).step = 7) then flushRestart (powerOff s) else s

/-- DONE, or DONE_PARTIAL when a page or target failed (R330 step 5). -/
def doneState (s : State) : Nat := if s.pfail.failedT ≠ 0 || tabCount s 16 ≠ 0 then 3 else 2

/-- A mover whose step has nothing outstanding takes its next step (R330). -/
def moverNext (s : State) (t : Nat) : State :=
  let m := s.pfail.movers.get t
  if m.stopped || m.out ≠ [] || m.runs ≠ [] || m.todo ≠ [] then s
  else match m.step with
    | 1 => moverPages s t
    | 3 => issueCmd (updMover s t fun m => { m with step := 4 }) t { kind := 4, lba := 0 } "flush" 0 []
    | 4 =>
      let s := updPf s fun x => { x with commit := x.commit.map fun c =>
        if c.doneAt.isSome then c else { c with doneAt := some s.now, endMv := bankLow s } }
      issueCmd (updMover s t fun m => { m with step := 5 }) t { kind := 1, lba := 0, n := 1 } "write" 1 (recordWords s t (doneState s))
    | 5 => issueCmd (updMover s t fun m => { m with step := 6 }) t { kind := 4, lba := 0 } "flush" 0 []
    | 6 => updMover s t fun m => { m with step := 7 }
    | _ => s

/-- Step 3 begins on every mover once all that have not stopped have finished step 2 (R330). -/
def tableBarrier (s : State) : State :=
  let live := (flushTargets s).filter fun t => !(moverDead s t)
  if live.all fun t => decide ((s.pfail.movers.get t).step = 2) && decide ((s.pfail.movers.get t).out = [])
      && decide ((s.pfail.movers.get t).runs = []) then live.foldl moverTable s
  else s

/-- The movers go on as far as they can. -/
def moverPump (s : State) (t : Nat) : State := flushDone (tableBarrier (moverNext s t))

/-- Bits of the page table entries of pages set and cleared. -/
def markPages (s : State) (ps : List Nat) (set clear : Nat) : State :=
  ps.foldl (fun s p => updPf s fun x => { x with pageTab := x.pageTab.upd p fun e => setBitN (setBitN e clear false) set true }) s

/-- A target stops at once: its unwritten pages are FAILED, its bit is set (R330). -/
def moverStop (s : State) (t : Nat) : State :=
  let m := s.pfail.movers.get t
  if s.pfail.commit.isNone || m.stopped || m.step = 0 || m.step = 7 then s
  else
    let mine := (flushPages s).filter fun p => decide (pageTarget s p = t)
    let left := mine.filter fun p => !(bitN (s.pfail.pageTab.get p) 15)
    let s := updMover s t fun m => { m with stopped := true, out := [], runs := [], todo := [] }
    let s := markPages s left 16 15
    let s := updPf s fun x => { x with failedT := setBitN x.failedT t true }
    flushDone (tableBarrier s)

/-- A slot channel has gone off: a flush target on it stops (R330, R365). -/
def targetLost (s : State) (c : Nat) : State :=
  match targetOf s (chPort s c) with
  | some t => moverStop s t
  | none => s

/-- Discharge ends before the flush does: a switch that runs from the bank loses its supply, and unfinished targets keep STARTED
(R331, R362). -/
def bankEnds (s : State) : State :=
  let onBank := rdB s Reg.ROOT_BANK_STATUS 2
  let s := setDischarge s false
  if onBank && s.pfail.commit.isSome && s.root.railsOn then
    flushRestart (powerOff (updPf s fun x => { x with movers := .empty }))
  else s

/-! ### Commit (R319 to R324) -/

/-- Step 3 of R320: the input isolation opens and the bank discharges, unless a protection keeps it off (R360, R362). -/
def switchover (s : State) : State :=
  let s := updPf s fun x => { x with commit := x.commit.map fun c => { c with bankDue := false } }
  let s := emit s (.root "input isolation open" 0)
  if rdB s Reg.ROOT_BANK_STATUS 8 || rdB s Reg.ROOT_BANK_STATUS 3 || s.rootSt.bank.dischCut then bankEnds s else setDischarge s true

/-- The channels at commit: every one but the flush targets' goes off, held turn-ons are discarded (R204, R320). -/
def commitSlots (s : State) (all : Bool) : State :=
  noteSlots ((List.range 16).foldl (fun s c =>
    let s := cmdDone (updChan s c fun x => { x with want := false }) c
    let s := noteHeld s c
    if (chOn s c || decide (chState s c = 3)) && (all || !(chTarget s c)) then chCut s c 2 else s) s)

/-- A lane at cloche entry: powered down unless it serves a flush target; its test and its margin end ABORTED (R128, R131). -/
def laneCloche (s : State) (n : Nat) : State :=
  let c := Reg.LANE_CFG n
  let keep := decide (rdF s c 1 0 = 1) && decide (portRole s (rdF s c 8 2) = 3)
  let s := if keep then marginAbort s n else marginAbort (testAbort s n) n
  if keep then s else emit (wrF s (Reg.LANE_STATUS n) 2 0 0) (.laneIdle n)

/-- A port at cloche entry: off, unless a flush target is behind it (R323). -/
def portCloche (s : State) (p : Nat) : State :=
  if isNoz s p then wrB (wrF s (Reg.NZL_STATUS p) 2 0 0) (Reg.NZL_STATUS p) 8 false
  else if isPcie s p && decide (portRole s p ≠ 3) then wrB (wrF s (Reg.PCIE_STATUS p) 3 0 0) (Reg.PCIE_STATUS p) 10 false
  else s

/-- The units of the cloche's list that stop lose their queues and what they had in hand (R242, R323, R548). -/
def clocheUnits (s : State) : State :=
  let s := (List.range 80).foldl portCloche (dropAttest ((List.range 160).foldl laneCloche s))
  { s with
    fwd := { ls := s.fwd.ls }
    pair := .empty, member := .empty, rme := {}, brg := {}, scion := {}
    hvst := {}
    mgmt := { s.mgmt with queue := [] }
    land := { s.land with input := [], waiting := [], fences := .empty, fenceQ := .empty, bar2 := .empty }
    start := { s.start with phase := .cloche, quiesce := none } }

/-- The flush begins: each ready target's STARTED record, each other target counted as failed (R330, R335). -/
def flushBegin (s : State) : State :=
  let s := markPages s ((heldPages s).filter fun p => (s.land.relPend.get p).isSome) 17 15
  let ts := flushTargets s
  let s := ts.foldl (fun s t =>
    if targetReady s t then
      issueCmd (updMover s t fun m => { m with step := 1 }) t { kind := 1, lba := 0, n := 1 } "write" 1 (recordWords s t 1)
    else
      let mine := (flushPages s).filter fun p => decide (pageTarget s p = t)
      let s := markPages (updMover s t fun m => { m with stopped := true, step := 1 }) mine 16 15
      updPf s fun x => { x with failedT := setBitN x.failedT t true }) s
  flushDone s

/-- A target holds an unconsumed record, or is unreadable or unusable and not acknowledged: nothing is written (R91, R322, R333). -/
def recordsHold (s : State) : Bool :=
  (flushTargets s).any fun t => decide (rdF s (Reg.PFAIL_REC_STATE t) 3 0 ≠ 0) && !(s.pfail.acked.contains t)

/-- Every admitted write lands: the landing controller keeps its power, and the flush's first command waits (R276, R323, R324). -/
def landAll (s : State) : State := s.land.admitted.foldl landOne (updLand s fun l => { l with admitted := [] })

/-- Commit on this switch (R319 to R324, R97). -/
def commit (s : State) (byLimit remote low : Bool) : State :=
  if s.pfail.commit.isSome then s
  else
    let s := if s.pfail.braceAt.isSome then s else braceStart s
    let s := if s.pfail.cut.isSome then s else holdCut s (s.pfail.ownH.getD (highNow s)) true false 0xFFFF 0
    let cut := s.pfail.cut.getD 0
    let s := if s.root.dieDead then s else landAll s
    let write := inService s && !s.pfail.starting && !s.root.dieDead && !(recordsHold s)
    let n := (s.root.flushCounter + 1) % 2 ^ 32
    let s := { s with root := { s.root with
      flushCounter := n, flushFlag := write, flushId := n, flushCut := cut, flushedSince := true, heldCause := none, retSE := noteRetSe s } }
    let loss := homeLoss s cut ++ originLoss s (seOf s)
    let s := updBank s fun b => { b with dischCut := false }
    let s := updTherm s fun x => { x with flush := byLimit && x.brace }
    let s := updPf s fun x => { x with
      commit := some {
        at_ := s.now, flushId := n, cut := cut, seFinal := seOf s, isLocal := rdB s Reg.PFAIL_STATUS 5, isPart := rdB s Reg.PFAIL_STATUS 6
        byLimit := byLimit, remote := remote, tCommit := (s.now - x.braceAt.getD s.now) / 1600, mv := bankLow s }
      loss := loss, lossOver := decide (65536 < loss.length), failedT := 0, uncorr := 0, pageTab := .empty, movers := .empty }
    let s := clocheUnits (commitSlots s s.root.dieDead)
    let s := noteCharger (stopSeedUpdate s)
    if !write then flushRestart (powerOff s)
    else
      let s := if low then switchover s else s
      if s.root.railsOn then flushBegin s else s

/-- COMMIT to every other member of the sealing set, on path 0: it leaves before the ports stop (R319). -/
def sendCommit (s : State) (byLimit : Bool) : State :=
  let c := s.pfail.cut.getD (highNow s)
  ((bitsOf 64 (sealSet s)).filter fun m => decide (m ≠ ownMember s)).foldl (fun s m =>
    if reachable s (memberSw s m) then
      emit s (.msg (memberSw s m) 0x13 c
        [s.pfail.id.getD 0 + s.land.term * 2 ^ 16 + swId s * 2 ^ 32 + byLimit.toNat * 2 ^ 44])
    else s) s

end Sys2Proof.Machine
end

