-- ==== Sys2Proof/Machine/PowerFail.lean ====
section
/-! DEFINITION. Brace, cut and flush: the input levels, the messages of a brace, commit, the flush movers, and reading a flush record
(R311 to R337). -/

namespace Sys2Proof.Machine

open Sys2Proof

/-! ### The input (R311, R312, R317, R319) -/

/-- INPUT_DIP (R311): the input has fallen. At 11.4 V or below a qualification of stand-down is broken; below 11.0 V the 20 µs of the brace
start. -/
def execInputDip (mv : Nat) (s : State) : Res :=
  let s := noteInput s mv
  let s := if mv ≤ 11400 then notePf (updPf s fun x => { x with goodAt := none, riseAt := none }) else s
  if 11000 ≤ mv then .next s
  else .next (updPf s fun x => { x with dipAt := some (x.dipAt.getD s.now) })

/-- BRACE_QUALIFIED (R311, R312): 20 µs below 11.0 V brace the own input. With the switch die dead only the rootstock die acts (R312);
asleep, it wakes the switch (R499). -/
def execBraceQualified (s : State) : Res :=
  match s.pfail.dipAt with
  | none => .next s
  | some t =>
    if s.pfail.commit.isSome || rdB s Reg.PFAIL_STATUS 3 then .next s
    else
      let s := updPf (timeTo s (t + 30400)) fun x => { x with dipAt := none }
      if s.root.dieDead then .next (warnAll (wrB s Reg.PFAIL_STATUS 3 true) true)
      else if s.start.phase = .asleep then .next (wakeSeen (warnAll (wrB s Reg.PFAIL_STATUS 3 true) true) 5 0)
      else .next (ownBrace s)

/-- INPUT_RISE (R311, R317): a dip under 20 µs is counted; above 11.4 V the qualification of stand-down starts. -/
def execInputRise (mv : Nat) (s : State) : Res :=
  let s := noteInput s mv
  let s := if s.pfail.dipAt.isSome && !(rdB s Reg.PFAIL_STATUS 3) && decide (11000 ≤ mv) then
      count (bump (updPf s fun x => { x with dipAt := none }) Reg.PFAIL_GLITCH) 114 0 else s
  if mv ≤ 11400 then .next s
  else
    let s := updPf s fun x => { x with goodAt := some (x.goodAt.getD s.now), dipAt := none }
    if rdB s Reg.PFAIL_STATUS 3 && s.pfail.commit.isNone then .next (notePf (updPf s fun x => { x with riseAt := some (x.riseAt.getD s.now) }))
    else .next s

/-- When the qualification of a stand-down began: the input's rise, or later, while a thermal brace holds, when every switch-die reading
was last found below 110 °C; none while one is not (R317, R566). -/
def riseFrom (s : State) : Option Nat :=
  match s.pfail.riseAt with
  | none => none
  | some t => if s.rootSt.therm.brace then s.rootSt.therm.below.map (max t) else some t

/-- STAND_DOWN_QUALIFIED (R317, R566): 1 ms above 11.4 V ends the own input's brace, and a thermal one once the readings allow it; RECOVERED
goes to the leader. During the exit from P3 nothing is flushed then (R499). -/
def execStandDownQualified (s : State) : Res :=
  match riseFrom s with
  | none => .next s
  | some t =>
    if !(rdB s Reg.PFAIL_STATUS 3) || s.pfail.commit.isSome || decide (s.pwr.p3Brace = 2) then .next s
    else
      let s := timeTo s (t + 1568000)
      let s := warnAll (wrB s Reg.PFAIL_STATUS 3 false) false
      let s := updTherm (notePf (updPf s fun x => { x with riseAt := none })) fun x => { x with brace := false }
      let s := updPwr s fun x => { x with p3Brace := 0 }
      if s.root.dieDead || s.pfail.braceAt.isNone then .next (actHeld s)
      else if isLeader s then
        .next (tryStandDown (noteRecovered s (swId s)))
      else .next (sendMsg (noteRecovered s (swId s)) (leaderSw s) 0x14 0 [s.pfail.id.getD 0 + swId s * 2 ^ 32])

/-- SWITCHOVER_LEVEL (R319, R320): 9.6 V commits, or completes the switchover of a commit made before. In P2 or P3, or during the exit of
R499, the rootstock die carries the exit on the bank, and the flush follows it. -/
def execSwitchoverLevel (s : State) : Res :=
  let s := updPf s fun x => { x with goodAt := none }
  match s.pfail.commit with
  | some c => if c.bankDue && s.root.railsOn then .next (switchover s) else .next s
  | none =>
    if s.pwr.asleep = 4 then .next s
    else if s.pwr.asleep ≠ 0 || s.pwr.p3Brace ≠ 0 then
      .next (switchover (updPwr (wakeSeen s 5 0) fun x => { x with p3Brace := 2 }))
    else if s.root.dieDead then .next (commit s false false true)
    else .next (commit (sendCommit s false) false false true)

/-- BRACE_LIMIT_EXPIRY (R311, R319): 50 ms after the brace. -/
def execBraceLimitExpiry (s : State) : Res :=
  match s.pfail.braceAt with
  | none => .next s
  | some t =>
    if s.pfail.commit.isSome then .next s
    else .next (commit (sendCommit (timeTo s (t + 79200000)) true) true false false)

/-! ### The messages (R313 to R319) -/

/-- Word 0 of a message that goes on down the tree as it came. -/
def msgWord (m : BraceMsg) : Nat := m.id + m.term * 2 ^ 16 + m.flag.toNat * 2 ^ 32

/-- A member takes a BRACE from its leader: a BRACE_ID it does not hold braces it; a new TERM of the one it holds has it report again,
C_m where it holds one, and say again that its own input braced or recovered (R313, R316). -/
def memberBrace (s : State) (m : BraceMsg) : State :=
  let again := decide (s.pfail.id = some m.id)
  if again && decide (rdF s Reg.PFAIL_BRACE_ID 31 16 = m.term) then s
  else
    let s := setBraceId s m.id
    let s := if s.pfail.braceAt.isSome then
        updPf s fun x => { x with highs := [], highSent := false, ownH := (x.cut.orElse fun _ => x.ownH) }
      else braceStart s
    let s := sendDown s 0x10 m.ep [msgWord m + m.sender * 2 ^ 36]
    let s := if !again then s
      else if rdB s Reg.PFAIL_STATUS 3 then sendMsg s (leaderSw s) 0x10 (seOf s) [braceWord s true]
      else if s.pfail.recovered.contains (swId s) then sendMsg s (leaderSw s) 0x14 0 [m.id + swId s * 2 ^ 32]
      else s
    tryHigh s

/-- A BRACE used (R313): the leader's down the tree, or a member's at the leader, which begins the cluster's brace with it. -/
def useBrace (s : State) (m : BraceMsg) : State :=
  if s.pfail.commit.isSome then s
  else if m.down then memberBrace s m
  else if isLeader s then
    let s := if s.pfail.id.isSome then s else leaderBrace s
    if m.flag then noteBraced s m.sender else s
  else s

/-- A HIGH used (R314): it replaces the child's earlier one. -/
def useHigh (s : State) (m : BraceMsg) : State :=
  if s.pfail.id ≠ some m.id then s
  else tryHigh (updPf s fun x => { x with
    highs := (x.highs.filter fun y => decide (y.1 ≠ m.sender)) ++ [(m.sender, m.ep, m.bitmap)] })

/-- A CUT used (R315): C_m rises to the larger value and the CUT goes down the tree. -/
def useCut (s : State) (m : BraceMsg) : State :=
  if s.pfail.braceAt.isNone || s.pfail.id ≠ some m.id || s.pfail.commit.isSome then s
  else sendDown (holdCut s m.ep false m.flag m.sender m.term) 0x12 m.ep [msgWord m, m.bitmap]

/-- A COMMIT used (R319): one of the BRACE_ID held commits this member too. -/
def useCommit (s : State) (m : BraceMsg) : State :=
  if s.pfail.id ≠ some m.id then s
  else commit (updPf s fun x => { x with gotCommit := true }) m.flag true false

/-- A STAND_DOWN used (R318). -/
def useStandDown (s : State) (m : BraceMsg) : State :=
  if s.pfail.id ≠ some m.id || s.pfail.commit.isSome then s
  else standDown (sendDown s 0x15 m.ep [msgWord m]) m.ep

/-- A message of the own TERM used (R313). -/
def useMsg (s : State) (m : BraceMsg) : State :=
  match m.kind with
  | 0x10 => useBrace s m
  | 0x11 => useHigh s m
  | 0x12 => useCut s m
  | 0x13 => useCommit s m
  | _ => useStandDown s m

/-- A brace or cut message arrives (R294, R313): of a lower TERM it is ignored, of a higher one held unused until that TERM is adopted. -/
def takeMsg (s : State) (m : BraceMsg) : State :=
  if m.term < s.land.term then s
  else if s.land.term < m.term then
    updPf (updLand s fun l => { l with highTerm := max l.highTerm m.term }) fun x => { x with early := x.early ++ [m] }
  else useMsg s m

/-- A TERM was adopted: the messages held for it are used, in the order in which they came (R294). -/
def takeEarly (s : State) : State := s.pfail.early.foldl takeMsg (updPf s fun x => { x with early := [] })

/-- BRACE_RECEIVE (R313): a member's BRACE at the leader, or the leader's down the tree. -/
def execBraceReceive (sender : BitVec 12) (fromLeader : Bool) (id term : BitVec 16) (own : Bool) (se : Epoch) (s : State) : Res :=
  .next (takeMsg s { kind := 0x10, ep := se.toNat, id := id.toNat, term := term.toNat, flag := own, sender := sender.toNat,
                     down := fromLeader })

/-- PEND_DRAINED (R314): every admitted write has landed; the member takes H, or the C_m it holds. -/
def execPendDrained (s : State) : Res :=
  if s.pfail.braceAt.isNone || s.pfail.ownH.isSome || s.land.admitted ≠ [] then .next s
  else .next (tryHigh (updPf s fun x => { x with ownH := some (x.cut.getD (highNow s)) }))

/-- HIGH_RECEIVE (R314). -/
def execHighReceive (child : Nat) (h : Epoch) (id term : BitVec 16) (bitmap : DWord) (s : State) : Res :=
  .next (takeMsg s { kind := 0x11, ep := h.toNat, id := id.toNat, term := term.toNat, sender := child, bitmap := bitmap.toNat })

/-- CUT_DEADLINE_EXPIRY (R315): the leader declares 100 µs after BRACE. -/
def execCutDeadlineExpiry (s : State) : Res :=
  match s.pfail.braceAt with
  | none => .next s
  | some t =>
    if isLeader s && s.pfail.id.isSome && s.pfail.cut.isNone then .next (declareCut (timeTo s (t + 160000)) true)
    else .next s

/-- LOCAL_CUT_EXPIRY (R315): a member with no CUT 100 µs after it braced takes its own H. -/
def execLocalCutExpiry (s : State) : Res :=
  match s.pfail.braceAt with
  | none => .next s
  | some t =>
    if s.pfail.cut.isNone && !(isLeader s) then
      .next (holdCut (timeTo s (t + 160000)) (s.pfail.ownH.getD (highNow s)) true false 0xFFFF 0)
    else .next s

/-- CUT_RECEIVE (R315). -/
def execCutReceive (c : Epoch) (id term : BitVec 16) (partial_ : Bool) (leader : BitVec 12) (bitmap : DWord) (s : State) : Res :=
  .next (takeMsg s { kind := 0x12, ep := c.toNat, id := id.toNat, term := term.toNat, flag := partial_, sender := leader.toNat,
                     bitmap := bitmap.toNat })

/-- RECOVERED_RECEIVE (R318). -/
def execRecoveredReceive (sender : BitVec 12) (id : BitVec 16) (s : State) : Res :=
  if isLeader s && decide (s.pfail.id = some id.toNat) then
    .next (tryStandDown (noteRecovered s sender.toNat))
  else .next s

/-- STAND_DOWN_RECEIVE (R318). -/
def execStandDownReceive (c : Epoch) (id term : BitVec 16) (s : State) : Res :=
  .next (takeMsg s { kind := 0x15, ep := c.toNat, id := id.toNat, term := term.toNat })

/-- COMMIT_RECEIVE (R319). -/
def execCommitReceive (c : Epoch) (id term : BitVec 16) (sender : BitVec 12) (cause : Bool) (s : State) : Res :=
  .next (takeMsg s { kind := 0x13, ep := c.toNat, id := id.toNat, term := term.toNat, flag := cause, sender := sender.toNat })

/-! ### Messages by which a switch adopts a TERM (R292 to R298) -/

/-- CLUSTER_SEAL_RECEIVE (R292, R294): TERM, leader and set are adopted, SE never falls, the message goes down the tree, and
a changed set or TERM sends the REPORTs again (R290). A member left out has lost its place, and one that starts has none yet: it asks
the leader it learns of to be included (R298). -/
def execClusterSealReceive (e : Epoch) (set : DWord) (term : BitVec 16) (unattr : Bool) (leader : BitVec 12) (s : State) : Res :=
  if term.toNat < s.land.term then .next s
  else
    let changed := decide (term.toNat ≠ s.land.term) || decide (set.toNat ≠ sealSet s)
    let newLead := s.land.noLeader || decide (leader.toNat ≠ leaderSw s)
    let s := count s 113 4
    let s := setLeader s leader.toNat term.toNat false false
    let s := setSealSet s set.toNat
    let s := updLand s fun l => { l with lastSeal := s.now, claim := none }
    let s := adoptSe s e.toNat unattr
    let s := if changed then reportAll s else s
    let s := sendSeal s unattr
    let s := if joined s && !(bitN set.toNat (ownMember s)) then sendRejoin (wrB s Reg.LAND_STATUS 1 false)
      else if !(joined s) && inService s && newLead then sendRejoin s
      else s
    .next (takeEarly (sealPump (tagAll s)))

/-- CLAIM_RECEIVE (R294, R296): a CLAIM of a higher TERM is adopted, and every epoch not seen sealed is reported to its sender
with UPDATE = 1; a member with none to report answers for its SE, so that the claimant counts it (R295). -/
def execClaimReceive (sw : BitVec 12) (_se : Epoch) (term : BitVec 16) (s : State) : Res :=
  if term.toNat ≤ s.land.term then .next s
  else
    let s := setLeader (updLand s fun l => { l with claim := none }) sw.toNat term.toNat false true
    match s.land.sealedL.filter fun e => epAfter e (seOf s) with
    | [] => .next (takeEarly (sendMsg s (memberSw s (treeParent s (ownMember s))) 1 (seOf s)
        [0, 0, 0, 2 ^ ownMember s, seOf s + s.land.term * 2 ^ 48, 1]))
    | es => .next (takeEarly (es.foldl (fun s e => sendReport s e true) s))

/-- INCLUDE_RECEIVE (R283, R298): the switch has joined; SE is the cluster's, E_open at least E_join and SE + 1; a buffer not
kept is reported lost; a changed set or TERM sends the REPORTs again (R290); waiting writes are tagged. -/
def execIncludeReceive (eJoin : Epoch) (set : DWord) (term : BitVec 16) (clusterSe : Epoch) (s : State) : Res :=
  if term.toNat < s.land.term then .next s
  else
    let changed := decide (term.toNat ≠ s.land.term) || decide (set.toNat ≠ sealSet s)
    let s := setLeader s (leaderSw s) term.toNat false false
    let s := setSealSet s set.toNat
    let s := joinAt (adoptSe s clusterSe.toNat false) eJoin.toNat
    let s := if changed then reportAll s else s
    .next (takeEarly (landPump (tagAll s)))

/-! ### The flush (R330, R331, R362) -/

/-- A command repeated once after an error (R330). -/
def repeatCmd (s : State) (t : Nat) (c : FlushCmd) : State :=
  let data := if c.kind = 1 then recordWords s t (if (s.pfail.movers.get t).step = 1 then 1 else doneState s) else cmdData s c
  issueCmd s t { c with again := true } "write" c.n data

/-- FLUSH_COMMAND_COMPLETE (R330): the command at place i of those outstanding ends. A write that failed is repeated once; page
runs failing again are FAILED, and any other command failing stops the target. -/
def execFlushCommandComplete (t i : Nat) (ok : Bool) (s : State) : Res :=
  let m := s.pfail.movers.get t
  match m.out[i]? with
  | none => .next s
  | some c =>
    let s := updMover s t fun m => { m with out := m.out.eraseIdx i }
    if ok then
      let s := if c.kind = 2 then markPages s c.pages 15 16 else s
      .next (moverPump (issueTodo (issueRuns s t 1) t 1) t)
    else if c.kind ≠ 4 && !c.again then .next (repeatCmd s t c)
    else if c.kind = 2 then .next (moverPump (issueRuns (markPages s c.pages 16 15) t 1) t)
    else .next (moverStop s t)

/-- FLUSH_TARGET_STALL (R330): a command not complete after 10 ms. -/
def execFlushTargetStall (t : Nat) (s : State) : Res := .next (moverStop s t)

/-- FLUSH_TARGET_LINK_DOWN (R330, R335): during the flush the target stops; in service it is not ready until R325 has run again. -/
def execFlushTargetLinkDown (t : Nat) (s : State) : Res :=
  if s.pfail.commit.isSome then .next (moverStop s t)
  else if t < targetCount s then
    .next (faultP (wrB s Reg.PFAIL_TARGETS t false) 9 0x01 2 (rdF s (Reg.PFAIL_TGT_CFG t) 6 0) t)
  else .next s

/-- INPUT_GOOD_HOLD_EXPIRY (R331, R362): 100 ms above 11.4 V close the input isolation, and a finished flush ends in a cold start. -/
def execInputGoodHoldExpiry (s : State) : Res :=
  match s.pfail.goodAt with
  | none => .next s
  | some t =>
    if s.pfail.commit.isNone then .next s
    else .next (flushRestart (emit (timeTo s (t + 160000000)) (.root "input isolation closed" 0)))

/-- BANK_AT_VMIN (R331, R362): the higher channel below VMIN ends discharge. -/
def execBankAtVmin (s : State) : Res :=
  if rdB s Reg.ROOT_BANK_STATUS 2 && decide (bankHigh s < bankVmin s) then .next (bankEnds s) else .next s

/-! ### Reading a flush area (R333, R334, R336) -/

/-- PFAIL_READ_GO (R334, R336): a write of PFAIL_READ_CTRL; with GO one block of a target's area is read, or refused. -/
def execPfailReadGo (v : Word) (s : State) : Res :=
  let t := getF v 2 0
  let lba := getF v 22 3
  let s := wrN s Reg.PFAIL_READ_CTRL (getF v 22 0)
  if !(getB v 31) || decide (rdF s Reg.PFAIL_READ_STATUS 1 0 = 1) then .next s
  else if braced s || inCloche s || !(targetReady s t) then .next (wrF s Reg.PFAIL_READ_STATUS 1 0 3)
  else
    let s := updPf (wrF s Reg.PFAIL_READ_STATUS 1 0 1) fun x => { x with readReq := some (t, lba) }
    .next (emit s (.nvme t "read" (targetBase s t + lba) 1 []))

/-- The next block of an image copy asked of its drive. -/
def copyNext (s : State) (c : CopySt) : State :=
  emit (updPf s fun x => { x with copy := some c }) (.nvme c.t "read" (targetBase s c.t + c.lba) 1 [])

/-- One block of an image copy has been read: written to host memory through the manager's MEF, or the copy fails (R539). -/
def copyBlock (s : State) (c : CopySt) (ok : Bool) (data : List Word) : State :=
  if !ok then reply (updPf s fun x => { x with copy := none }) c.q 0x0207 0x0B []
  else if !(mefBme s (mgr s)) then reply (updPf s fun x => { x with copy := none }) c.q 0x0207 0x07 []
  else
    let s := mefWrite s (mgr s) .image c.addr data false c.pasid
    if c.left ≤ 1 then reply (updPf s fun x => { x with copy := none }) c.q 0x0207 0x00 []
    else copyNext s { c with lba := c.lba + 1, left := c.left - 1, addr := c.addr + 4096 }

/-- PFAIL_READ_DONE (R336): the block read fills PFAIL_READ_BUF, or goes on to an image copy. -/
def execPfailReadDone (ok : Bool) (data : List Word) (s : State) : Res :=
  match s.pfail.readReq, s.pfail.copy with
  | some _, _ =>
    let s := updPf s fun x => { x with readReq := none }
    if ok then .next (wrF (wrWords s (Reg.PFAIL_READ_BUF 0) (data.take 1024)) Reg.PFAIL_READ_STATUS 1 0 2)
    else .next (wrF s Reg.PFAIL_READ_STATUS 1 0 3)
  | none, some c => .next (copyBlock s c ok (data.take 1024))
  | none, none => .next s

/-- IMAGE_COPY (R333, R539): the manager has blocks of a target copied to host memory. -/
def execImageCopy (q : ReqSrc) (t lba cnt : Nat) (addr : BitVec 64) (pasid : Option (BitVec 20)) (s : State) : Res :=
  .next (serve s q 0x0207 { m := true } false false fun s =>
    if cnt = 0 || decide (1024 < cnt) || decide (targetCount s ≤ t) then reply s q 0x0207 0x03 []
    else if inCloche s || !(targetReady s t) || s.pfail.copy.isSome || !(mefBme s (mgr s)) then reply s q 0x0207 0x07 []
    else copyNext s { q := q, t := t, lba := lba, left := cnt, addr := addr.toNat, pasid := pasid })

end Sys2Proof.Machine
end

