-- ==== Sys2Proof/Machine/Slots.lean ====
section
/-! DEFINITION. Slot channels: seating, turn-on, limit, power-good, trips, damage, and the slot power request (R338 to R354, R364). -/

namespace Sys2Proof.Machine

open Sys2Proof

/-- A trip, and the stop of a flush target whose channel tripped (R349, R365). -/
def tripSlot (s : State) (c cause : Nat) : State :=
  let t := trip s c cause
  if chState t c = 7 && chState s c ≠ 7 then targetLost t c else t

/-- A slot's channel whose output has gone off at a removal: EMPTY, unless latched, DAMAGED or DISABLED (R343, R351). -/
def removeOne (s : State) (c : Nat) : State :=
  if chOn s c then targetLost (chCut s c 0) c
  else if chState s c ≤ 3 then updChan (setGate (setChState s c 0) c false) c fun x => { x with gateDue := false }
  else s

/-- PRSNT_ASSERT (R343): the seating count starts. The pins of the second channel of a pair are ignored (R340). -/
def execPrsntAssert (c : Nat) (s : State) : Res :=
  if chLead s c ≠ c then .next s
  else
    let s := wrB (updChan s c fun x => { x with absentAt := none }) (Reg.ROOT_CH_STATUS c) 4 true
    .next ((chGroup s c).foldl (fun s d => if chState s d = 0 then setChState s d 1 else s) s)

/-- PRSNT_DEASSERT (R343): the count is discarded; an output that is on is cut at once, with no filter. -/
def execPrsntDeassert (c : Nat) (s : State) : Res :=
  if chLead s c ≠ c then .next s
  else
    let seated := rdB s (Reg.ROOT_CH_STATUS c) 5
    let s := wrB (wrB s (Reg.ROOT_CH_STATUS c) 4 false) (Reg.ROOT_CH_STATUS c) 5 false
    let s := updChan s c fun x => { x with absentAt := some s.now }
    let s := (chGroup s c).foldl removeOne s
    let s := if seated then slotNote s c fun v => { v with presence := false, presChg := true } else s
    .next (noteSlots s)

/-- SEATING_COMPLETE (R343, R351): 100 ms of PRSNT seat the board, which turns on when AUTO_ON is set. -/
def execSeatingComplete (c : Nat) (s : State) : Res :=
  if chLead s c ≠ c || !(rdB s (Reg.ROOT_CH_STATUS c) 4) || rdB s (Reg.ROOT_CH_STATUS c) 5 then .next s
  else
    let s := wrB s (Reg.ROOT_CH_STATUS c) 5 true
    let s := (chGroup s c).foldl (fun s d => if chState s d = 1 then setChState s d 2 else s) s
    let s := slotNote s c fun v => { v with presence := true, presChg := true }
    if chUsed s c && chAuto s c then .next (tryTurnOn s c) else .next s

/-- PRE_TURN_ON_CHECK_DONE (R352): a class L output below 0.8 V lets gate drive start. -/
def execPreTurnOnCheckDone (c : Nat) (s : State) : Res :=
  if chState s c = 3 then .next (rampStart s c) else .next s

/-- PRE_TURN_ON_CHECK_TIMEOUT (R352): an output held up for 30 s shows a damaged transistor. -/
def execPreTurnOnCheckTimeout (c : Nat) (s : State) : Res :=
  if chState s c = 3 then .next (damage s c 8) else .next s

/-- GATE_THRESHOLD_EXPIRY (R352): a class L output not above 1.0 V 3 ms after gate drive. -/
def execGateThresholdExpiry (c : Nat) (s : State) : Res :=
  if chState s c = 4 && chClassL s c then .next (damage s c 9) else .next s

/-- OUTPUT_REACHES_PG_LEVEL (R348, R351): the qualification window starts. -/
def execOutputReachesPgLevel (c : Nat) (s : State) : Res :=
  if chState s c = 4 then .next (setChState s c 5) else .next s

/-- PG_WINDOW_COMPLETE (R348): power-good, unless the channel is in limit; a pair waits for both of its channels. -/
def execPgWindowComplete (c : Nat) (s : State) : Res :=
  if chState s c ≠ 5 || rdB s (Reg.ROOT_CH_STATUS c) 6 then .next s
  else
    let s := updChan s c fun x => { x with qualOk := true }
    if (chGroup s c).all fun d => (s.rootSt.chan.get d).qualOk then
      let s := (chGroup s c).foldl (fun s d =>
        let t := (s.now - (s.rootSt.chan.get d).trigAt.getD s.now) / 16000
        wrN (wrB (setChState s d 6) (Reg.ROOT_CH_STATUS d) 7 true) (Reg.ROOT_CH_T_PG d) t) s
      .next (noteSlots (updChan s (chLead s c) fun x => { x with perstDue := true }))
    else .next s

/-- NO_RAMP_EXPIRY (R344): no 95 % within 40 ms. -/
def execNoRampExpiry (c : Nat) (s : State) : Res :=
  if chState s c = 4 then .next (tripSlot s c 4) else .next s

/-- PERST_RELEASE_EXPIRY (R344): 100 ms after power-good PERST_N is released. -/
def execPerstReleaseExpiry (c : Nat) (s : State) : Res :=
  if (s.rootSt.chan.get c).perstDue && chState s c = 6 then
    .next (setPerst (updChan s c fun x => { x with perstDue := false }) c false)
  else .next s

/-- LIMIT_ENTRY (R345): linear limit; the fault timer counts. A qualification window restarts (R348). -/
def execLimitEntry (c : Nat) (s : State) : Res :=
  if chOn s c && !(rdB s (Reg.ROOT_CH_STATUS c) 6) then
    let s := updChan s c fun x => { x with limAt := s.now, qualOk := x.qualOk && decide (chState s c ≠ 5) }
    .next (bump (wrB s (Reg.ROOT_CH_STATUS c) 6 true) (Reg.ROOT_CH_LIMITS c))
  else .next s

/-- LIMIT_EXIT (R345): the timer holds what it has counted; when that has reached TIMER the channel trips. -/
def execLimitExit (c countedUs : Nat) (s : State) : Res :=
  if rdB s (Reg.ROOT_CH_STATUS c) 6 then
    let n := (s.rootSt.chan.get c).timerUs + countedUs
    if chTimer s c ≤ n && chOn s c then .next (tripSlot s c 1)
    else
      let s := updChan (wrB s (Reg.ROOT_CH_STATUS c) 6 false) c fun x => { x with timerUs := n }
      .next (wrF s (Reg.ROOT_CH_STATUS c) 17 13 (min 31 (n / 1000)))
  else .next s

/-- OUT_OF_LIMIT_RESET (R345): 1 ms out of limit resets the timer. -/
def execOutOfLimitReset (c : Nat) (s : State) : Res :=
  if rdB s (Reg.ROOT_CH_STATUS c) 6 then .next s
  else .next (wrF (updChan s c fun x => { x with timerUs := 0 }) (Reg.ROOT_CH_STATUS c) 17 13 0)

/-- FAULT_TIMER_EXPIRY (R345): the timer has reached TIMER while the channel is in limit. -/
def execFaultTimerExpiry (c : Nat) (s : State) : Res :=
  let x := s.rootSt.chan.get c
  if chOn s c && rdB s (Reg.ROOT_CH_STATUS c) 6 then
    .next (tripSlot (timeTo s (x.limAt + (chTimer s c - x.timerUs) * 1600)) c 1)
  else .next s

/-- A timer trip of the same cycle becomes one trip with cause FAST (R365). -/
def fastOverTimer (s : State) (c : Nat) : State :=
  let s := chCause s c 2
  let s := wrF s (Reg.ROOT_CH_TRIPS c) 15 0 (rdF s (Reg.ROOT_CH_TRIPS c) 15 0 - 1)
  bumpF s (Reg.ROOT_CH_TRIPS c) 31 16 1

/-- FAST_COMPARATOR_TRIP (R346): gate drive is removed in every state. -/
def execFastComparatorTrip (c : Nat) (s : State) : Res :=
  if chOn s c then .next (tripSlot s c 2)
  else if chState s c = 7 && decide ((s.rootSt.chan.get c).tripAt = some s.now) && decide (rdF s (Reg.ROOT_CH_LAST_TRIP c) 3 0 = 1) then
    .next (fastOverTimer s c)
  else if mayTrip s c then .next (tripSlot s c 2)
  else .next (updChan (setGate s c false) c fun x => { x with gateDue := false })

/-- MONITOR_ADC_READING (R347): the reading, and a trip on the second in a row above 1.15 × limit out of limit. -/
def execMonitorAdcReading (c ma vout : Nat) (s : State) : Res :=
  let s := wrF (wrF s (Reg.ROOT_CH_I c) 15 0 (min 65535 ma)) (Reg.ROOT_CH_VOUT c) 15 0 (min 65535 vout)
  let high := decide (115 * chLimit s c < 100 * ma) && !(rdB s (Reg.ROOT_CH_STATUS c) 6) && chOn s c
  let again := (s.rootSt.chan.get c).monHigh
  let s := updChan s c fun x => { x with monHigh := high, peak := max x.peak ma }
  if high && again then .next (tripSlot s c 3) else .next s

/-- COOLDOWN_EXPIRY (R349, R350): the 1 s cool-down ends; a turn-on that waited for it proceeds. -/
def execCooldownExpiry (c : Nat) (s : State) : Res :=
  if !(rdB s (Reg.ROOT_CH_STATUS c) 10) then .next s
  else .next (retryTurnOn (wrB s (Reg.ROOT_CH_STATUS c) 10 false))

/-- ATTENTION_BUTTON_PRESS (R350): the press is shown to the host and clears the trip latch. -/
def execAttentionButtonPress (c : Nat) (s : State) : Res :=
  let latched := decide (chState s c = 7)
  let s := clearLatch (slotNote s c fun v => { v with attnPress := true }) c
  if latched && chUsed s c && chAuto s c && decide (chState s c = 2) then .next (tryTurnOn s (chLead s c)) else .next s

/-- PRSNT_ABSENT_EXPIRY (R350): 1 s without PRSNT clears the latch. -/
def execPrsntAbsentExpiry (c : Nat) (s : State) : Res :=
  match (s.rootSt.chan.get c).absentAt with
  | none => .next s
  | some t => if rdB s (Reg.ROOT_CH_STATUS c) 4 then .next s else .next (clearLatch (timeTo s (t + 1600000000)) c)

/-- GATE_REMOVAL_EXPIRY (R351): 100 µs after an off command. A new entry waiting for the channel applies now (R354). -/
def execGateRemovalExpiry (c : Nat) (s : State) : Res :=
  if (s.rootSt.chan.get c).gateDue then
    let s := updChan (setGate s c false) c fun x => { x with gateDue := false, offAt := some s.now }
    .next (retryTurnOn (applyCfg s c))
  else .next s

/-- OFF_STATE_DRAIN_EXPIRY (R352): the drain after a class S turn-off: below 0.8 V arms the monitor, 1 s without it is damage. -/
def execOffStateDrainExpiry (c : Nat) (below : Bool) (s : State) : Res :=
  let x := s.rootSt.chan.get c
  if chClassL s c || chOn s c || x.offAt.isNone || x.gate || decide (8 ≤ chState s c) then .next s
  else if below then .next (updChan s c fun x => { x with armed := true, offAt := none })
  else .next (damage s c 7)

/-- OFF_STATE_OUTPUT_HIGH (R352): an armed, off class S output above 0.8 V for 1 ms. -/
def execOffStateOutputHigh (c : Nat) (s : State) : Res :=
  if (s.rootSt.chan.get c).armed && !(chClassL s c) && !(chOn s c) && decide (chState s c < 8) then .next (damage s c 7) else .next s

/-- SLOT_POWER (R350, R539): off turns the channel off and clears a trip latch; on turns it on, or waits for the cool-down. A channel
the seed does not use is not found; one that may not turn on draws STATE (R364). -/
def execSlotPower (q : ReqSrc) (c : Nat) (on : Bool) (s : State) : Res :=
  .next (serve s q 0x0203 { m := true, b := true } false false fun s =>
    if 16 ≤ c then reply s q 0x0203 0x03 []
    else if !(chUsed s c) then reply s q 0x0203 0x08 []
    else if s.root.dieDead then reply s q 0x0203 0x0B []
    else if !on then reply (clearLatch (turnOff s c) c) q 0x0203 0x00 []
    else if 4 ≤ chState s c && chState s c ≤ 6 then reply s q 0x0203 0x00 []
    else if chState s c = 2 || chState s c = 3 then reply (tryTurnOn s (chLead s c)) q 0x0203 0x00 []
    else reply s q 0x0203 0x07 [])

/-- RC_CLOCK_FAULT (R364): every channel in limit trips; no turn-on and no charging until the clock is back. -/
def execRcClockFault (dev : BitVec 16) (s : State) : Res :=
  let s := wrB (wrF s Reg.ROOT_CLK 15 0 dev.toNat) Reg.ROOT_CLK 16 true
  let s := faultU s 10 0x03 2 1
  let s := (List.range 16).foldl (fun s c => if chOn s c && rdB s (Reg.ROOT_CH_STATUS c) 6 then tripSlot s c 6 else s) s
  .next (noteCharger s)

/-- RC_CLOCK_RESTORED (R364): turn-on and charging are allowed again. -/
def execRcClockRestored (s : State) : Res := .next (retryTurnOn (noteCharger (wrB s Reg.ROOT_CLK 16 false)))

/-- XTAL_LOSS (R364): the crystal has stopped; timers go on on the RC. -/
def execXtalLoss (s : State) : Res := .next (faultU (wrB s Reg.ROOT_CLK 17 true) 10 0x03 2 2)

end Sys2Proof.Machine
end

