-- ==== Sys2Proof/Machine/Bank.lean ====
section
/-! DEFINITION. The hold-up bank: its readings, charging and balancing, protections, the deferred isolation test, and the bank clear
request (R355 to R363). -/

namespace Sys2Proof.Machine

open Sys2Proof

/-! ### Voltage (R356, R358, R360, R363) -/

/-- The 5 % test of the cell sum against the lower channel, for 10 ms; advisory (R357). -/
def sumCheck (s : State) : State :=
  let sum := rdF s Reg.ROOT_CELL_SUM 15 0
  let v := bankLow s
  if 5 * max (max sum v) 6670 < 100 * (max sum v - min sum v) then
    match s.rootSt.bank.sumAt with
    | none => updBank s fun b => { b with sumAt := some s.now }
    | some t =>
      if t + 16000000 ≤ s.now && !s.rootSt.bank.sumRaised then
        faultU (updBank s fun b => { b with sumRaised := true }) 11 0x02 2 0
      else s
  else updBank s fun b => { b with sumAt := none, sumRaised := false }

/-- The isolation test put off at step 1 runs when the bank first reaches 5 V: FETs open and 200 mA for 1 ms, then both channels at
least 1.0 V below the cell sum (R363). -/
def isoTest (s : State) : State :=
  match s.rootSt.bank.isoRun with
  | none =>
    if rdF s Reg.ROOT_ISO_TEST 1 0 = 3 && decide (5000 ≤ bankLow s) && !(braced s) && s.pfail.commit.isNone then
      noteBank (updBank s fun b => { b with isoRun := some s.now })
    else s
  | some t =>
    if s.now < t + 1600000 then s
    else
      let ok := decide (bankHigh s + 1000 ≤ rdF s Reg.ROOT_CELL_SUM 15 0)
      let s := updBank s fun b => { b with isoRun := none, isoFail := !ok }
      let s := wrF s Reg.ROOT_ISO_TEST 1 0 (if ok then 1 else 2)
      if ok then noteBank s else bankEvent s 0xB

/-- BANK_VOLTAGE_SAMPLE (R356, R259, R358, R360): both channels, every 50 µs, sent on to the ledger. -/
def execBankVoltageSample (a b : Nat) (validA validB : Bool) (s : State) : Res :=
  let s := timeTo s (s.qos.lastPair.elim 0 fun x => x.2.2.2.2 + 80000)
  let s := wrN (wrN s Reg.ROOT_BANK_V (min 65535 a + min 65535 b * 2 ^ 16)) Reg.QOS_BANK_V (min 65535 a + min 65535 b * 2 ^ 16)
  let s := updQos s fun q => { q with lastPair := some (a, b, validA, validB, s.now) }
  let dis := disagree a b
  let s := wrB s Reg.ROOT_BANK_STATUS 4 (!dis)
  let s := updBank s fun x => { x with
    disAt := if dis then s.now else x.disAt
    full := x.full && decide (99 * bankTop s ≤ 100 * min a b) }
  let s := if dis && !s.rootSt.bank.disagree then bankEvent (updBank s fun x => { x with disagree := true }) 1 else s
  .next (noteBank (isoTest (sumCheck s)))

/-- CHARGER_CURRENT_LOW (R358): below 0.1 A at TOP the charger stops, until the bank falls below 0.99 × TOP. -/
def execChargerCurrentLow (s : State) : Res :=
  if rdB s Reg.ROOT_BANK_STATUS 1 then .next (noteCharger (updBank s fun b => { b with full := true })) else .next s

/-! ### Cells (R357, R359, R360) -/

/-- One cell's reading, in the two's complement of its register field. -/
def cellWord (s : State) (i : Nat) (mv : Int) (balance : Bool) : Word :=
  w32 (twos 16 mv + balance.toNat * 2 ^ 16 + (decide (2750 ≤ mv) || rdB s (Reg.ROOT_CELL_V i) 17 && rdB s Reg.ROOT_BANK_STATUS 5).toNat * 2 ^ 17
    + (decide (mv < 0) || decide (3300 < mv)).toNat * 2 ^ 18)

/-- A cell bleeds: above the mean by more than 20 mV starts it, within 5 mV ends it, while the charger runs and the bank is at half
of TOP (R359). -/
def bleeds (s : State) (i : Nat) (mv mean : Int) : Bool :=
  rdB s Reg.ROOT_BANK_STATUS 0 && decide (bankTop s ≤ 2 * bankLow s)
    && (decide (mean + 20 < mv) || (rdB s (Reg.ROOT_CELL_V i) 16 && decide (mean + 5 < mv)))

/-- CELL_READING (R357, R359, R360): every cell, every 1 ms. -/
def execCellReading (mv : List Int) (s : State) : Res :=
  let cells := mv.take (rdF s Reg.ROOT_BANK_CFG0 4 0)
  let sum : Int := cells.foldl (· + ·) 0
  let mean : Int := sum / (max 1 cells.length : Nat)
  let s := ((List.range cells.length).zip cells).foldl (fun s x =>
    wr s (Reg.ROOT_CELL_V x.1) (cellWord s x.1 x.2 (bleeds s x.1 x.2 mean))) s
  let s := wrF s Reg.ROOT_CELL_SUM 15 0 (min 65535 sum.toNat)
  let invalid := cells.any fun v => decide (v < 0) || decide (3300 < v)
  let low := decide (bankTop s ≤ 2 * bankLow s) && cells.any fun v => decide (2 * v < mean)
  if invalid || low then
    let fresh := !s.rootSt.bank.tapHold
    let s := updBank s fun b => { b with tapHold := true, tapAt := s.now }
    .next (if fresh then bankEvent s 4 else noteBank s)
  else .next s

/-- CELL_OVERVOLTAGE_TRIP (R360): the tap comparator of a cell. -/
def execCellOvervoltageTrip (i : Nat) (s : State) : Res :=
  let s := wrB s (Reg.ROOT_CELL_V i) 17 true
  if rdB s Reg.ROOT_BANK_STATUS 5 then .next s else .next (bankEvent (wrB s Reg.ROOT_BANK_STATUS 5 true) 2)

/-- BANK_OVERVOLTAGE_TRIP (R360): the comparator on the channel B divider. -/
def execBankOvervoltageTrip (s : State) : Res :=
  if rdB s Reg.ROOT_BANK_STATUS 6 then .next s else .next (bankEvent (wrB s Reg.ROOT_BANK_STATUS 6 true) 3)

/-! ### Temperature (R357, R360) -/

/-- An NTC reading outside −40 to 150 °C, in 0.1 °C. -/
def ntcBad (t : Int) : Bool := decide (t < -400) || decide (1500 < t)

/-- Both NTCs within 0 to 60 °C and within 10 °C of each other. -/
def ntcCalm (a b : Int) : Bool :=
  decide (0 ≤ a) && decide (a ≤ 600) && decide (0 ≤ b) && decide (b ≤ 600) && decide (a - b ≤ 100) && decide (b - a ≤ 100)

/-- NTC_READING (R357, R360): both NTCs, every 10 ms, in 0.1 °C. -/
def execNtcReading (a b : Int) (s : State) : Res :=
  let s := wrN s Reg.ROOT_NTC (twos 16 a + twos 16 b * 2 ^ 16)
  let bad := ntcBad a || ntcBad b
  let s := updBank s fun x => { x with
    ntc := (a, b)
    ntcAt := if bad then s.now else x.ntcAt
    warmAt := if ntcCalm a b then x.warmAt else s.now }
  let s := if bad && !s.rootSt.bank.ntcHold then bankEvent (updBank s fun x => { x with ntcHold := true }) 5 else s
  let hot (t : Int) : Bool := !(ntcBad t) && (decide (650 < t) || decide (t < -100))
  let apart := !bad && (decide (100 < a - b) || decide (100 < b - a))
  let s := if (hot a || hot b || apart) && !(rdB s Reg.ROOT_BANK_STATUS 7) then
      bankEvent (wrB s Reg.ROOT_BANK_STATUS 7 true) 6 else s
  let cut (t : Int) : Bool := !(ntcBad t) && decide (850 < t)
  if (cut a || cut b) && !(rdB s Reg.ROOT_BANK_STATUS 8) then .next (bankEnds (bankEvent (wrB s Reg.ROOT_BANK_STATUS 8 true) 7))
  else .next s

/-! ### The bank current and the isolation (R360) -/

/-- BANK_RISE_CHARGER_OFF (R360): the bank rises though the charger is off. -/
def execBankRiseChargerOff (s : State) : Res :=
  if rdB s Reg.ROOT_BANK_STATUS 0 || s.rootSt.bank.rise then .next s
  else .next (bankEnds (bankEvent (updBank s fun b => { b with rise := true }) 8))

/-- REVERSE_CURRENT_TRIP (R360): the bank discharges while BANK_DIS_EN is off. -/
def execReverseCurrentTrip (s : State) : Res :=
  if rdB s Reg.ROOT_BANK_STATUS 2 || s.rootSt.bank.reverse then .next s
  else .next (bankEvent (updBank s fun b => { b with reverse := true }) 9)

/-- DISCHARGE_OVERCURRENT_TRIP (R360): BANK_DIS_EN off for the rest of the flush. -/
def execDischargeOvercurrentTrip (s : State) : Res :=
  if rdB s Reg.ROOT_BANK_STATUS 2 then .next (bankEnds (bankEvent (updBank s fun b => { b with dischCut := true }) 0xA)) else .next s

/-- PROTECTION_AUTO_CLEAR (R360): an invalid reading or CELL_LOW (4, 5) clears after 1 s of valid readings, the charge temperature (6)
after 60 s within its limits. -/
def execProtectionAutoClear (code : BitVec 4) (s : State) : Res :=
  let b := s.rootSt.bank
  if code = 4 && b.tapHold then
    .next (retryTurnOn (noteBank (updBank (timeTo s (b.tapAt + 1600000000)) fun b => { b with tapHold := false })))
  else if code = 5 && b.ntcHold then
    .next (noteBank (updBank (timeTo s (b.ntcAt + 1600000000)) fun b => { b with ntcHold := false }))
  else if code = 6 && rdB s Reg.ROOT_BANK_STATUS 7 then
    .next (noteBank (wrB (timeTo s (b.warmAt + 96000000000)) Reg.ROOT_BANK_STATUS 7 false))
  else .next s

/-! ### The bank clear request (R361) -/

/-- The latched protections whose clearing condition holds, as a bitmap of R369 codes: every cell below 2.60 V, the bank below TOP,
1 s of agreement, both NTCs below 60 °C (R360). -/
def clearable (s : State) : Nat :=
  let b := s.rootSt.bank
  let cellsOk := (List.range (rdF s Reg.ROOT_BANK_CFG0 4 0)).all fun i => decide (ofTwos 16 (rdF s (Reg.ROOT_CELL_V i) 15 0) < 2600)
  let bankOk := decide (bankHigh s < bankTop s)
  let agreeOk := rdB s Reg.ROOT_BANK_STATUS 4 && decide (b.disAt + 1600000000 ≤ s.now)
  let cool (t : Int) : Bool := !(ntcBad t) && decide (t < 600)
  let tempOk := cool b.ntc.1 && cool b.ntc.2
  (b.disagree && agreeOk).toNat * 2 ^ 1 + (rdB s Reg.ROOT_BANK_STATUS 5 && cellsOk).toNat * 2 ^ 2
    + (rdB s Reg.ROOT_BANK_STATUS 6 && bankOk).toNat * 2 ^ 3 + (rdB s Reg.ROOT_BANK_STATUS 8 && tempOk).toNat * 2 ^ 7
    + b.rise.toNat * 2 ^ 8 + b.reverse.toNat * 2 ^ 9

/-- The protections of a bitmap cleared. -/
def clearBank (s : State) (m : Nat) : State :=
  let s := updBank s fun b => { b with
    disagree := b.disagree && !(bitN m 1), rise := b.rise && !(bitN m 8), reverse := b.reverse && !(bitN m 9) }
  let s := if bitN m 2 then (List.range 16).foldl (fun s i => wrB s (Reg.ROOT_CELL_V i) 17 false) (wrB s Reg.ROOT_BANK_STATUS 5 false) else s
  let s := if bitN m 3 then wrB s Reg.ROOT_BANK_STATUS 6 false else s
  noteBank (if bitN m 7 then wrB s Reg.ROOT_BANK_STATUS 8 false else s)

/-- BANK_CLEAR (R361, R539): latched protections whose condition holds are cleared, and the reply lists them; with none it is
refused with STATE. -/
def execBankClear (q : ReqSrc) (s : State) : Res :=
  .next (serve s q 0x0204 { m := true } false false fun s =>
    let m := clearable s
    if m = 0 then reply s q 0x0204 0x07 [] else reply (clearBank s m) q 0x0204 0x00 [w32 m])

end Sys2Proof.Machine
end

