-- ==== Sys2Proof/Machine/Bridge.lean ====
section
/-! DEFINITION. The cross-fabric bridge (R443 to R460): the near bridge's transactions, the far bridge's store and issue, and the lock
engine. -/

namespace Sys2Proof.Machine

open Sys2Proof

/-- The bridge's state changed. -/
def updBrg (s : State) (f : BrgSt → BrgSt) : State := { s with brg := f s.brg }

/-- The lock engine's state: 0 IDLE, 1 ACQUIRING, 2 OWNER, 3 TARGET (R455, R462). -/
def lockState (s : State) : Nat := rdF s Reg.BRG_STATUS 12 11
def setLock (s : State) (n : Nat) : State := wrF s Reg.BRG_STATUS 12 11 n

/-- The sequence's peer switch and port (R461). -/
def lockPeer (s : State) : Nat := rdF s Reg.BRG_LOCK 11 0
def lockPort (s : State) : Nat := rdF s Reg.BRG_LOCK 18 12
def setPeer (s : State) (sw port : Nat) : State := wrN s Reg.BRG_LOCK (sw + port * 2 ^ 12)

/-- The cells reserved for responses. -/
def respReserved (s : State) : Nat := (s.brg.txns.map BrgTxn.cells).sum

/-- BRG_STATUS and BRG_STORE follow (R461, R462). -/
def noteBrg (s : State) : State :=
  let s := wrF s Reg.BRG_STATUS 10 0 s.brg.txns.length
  let s := wrF s Reg.BRG_STATUS 23 14 (respReserved s)
  let s := wrB s Reg.BRG_STATUS 13 (decide (512 ≤ s.brg.store.length))
  wrF s Reg.BRG_STORE 9 0 s.brg.store.length

/-- Operations that write, and the posted one. -/
def isWrite (o : BrgOp) : Bool := o = .cfgWr || o = .memWr || o = .ioWr
def isPosted (r : BrgReq) : Bool := r.op = .memWr

/-- OP of a request (R445). -/
def opCode : BrgOp → Nat
  | .cfgRd => 1
  | .cfgWr => 2
  | .memRd => 3
  | .memWr => 4
  | .ioRd => 5
  | .ioWr => 6
  | .memRdLk => 7
  | .unlock => 8

/-! ### The near bridge -/

/-- A bridge request as a frame (R445). -/
def brgFrame (s : State) (r : BrgReq) : Frame :=
  let ws := w32 (r.btag + r.dwCount * 2 ^ 10 + r.host * 2 ^ 21) :: r.data
  { typ := 7, vc := 2, tc := BitVec.ofNat 3 (classOf s 2), length := BitVec.ofNat 11 ws.length, dstSw := r.farSw,
    dstPort := BitVec.ofNat 7 r.farPort, srcSw := BitVec.ofNat 12 (swId s), srcPort := 0x7F, tspec0 := r.reqId,
    tspec1 := BitVec.ofNat 64 (r.addr.toNat / 4 * 4), tspec2 := BitVec.ofNat 16 (r.be.toNat + opCode r.op * 2 ^ 8 + r.locked.toNat * 2 ^ 12)
    payload := ws }

/-- The header words of a host's request as it came to the near switch (PCI Express 6.0): memory requests as `tlpHdr`, I/O and
configuration requests by their types. -/
def brgHdr (r : BrgReq) : List Word :=
  let t : Tlp := { kind := if isWrite r.op then .write else .read, addr := r.addr, len := 4 * r.dwCount, reqId := r.reqId, tag := r.tag
                   firstBe := BitVec.ofNat 4 r.be.toNat, lastBe := BitVec.ofNat 4 (r.be.toNat / 16) }
  let typ : Nat := match r.op with
    | .cfgRd => 5
    | .cfgWr => 5
    | .ioRd => 2
    | .ioWr => 2
    | .memRdLk => 1
    | _ => 0
  match tlpHdr t with
  | w :: rest => (w ||| w32 (typ * 2 ^ 24)) :: rest
  | [] => []

/-- The near switch refuses a request: UR for a non-posted one, a posted one discarded, and the AER of its vDSP logs the header (R444). -/
def brgRefuse (s : State) (r : BrgReq) (status : Nat) : State :=
  let s := reportUr (bump s Reg.BRG_REFUSED) r.host (.vdsp r.vdsp) (isPosted r) (brgHdr r)
  if isPosted r || r.op = .unlock then s
  else emit s (.cpl (upPort s r.host) r.reqId.toNat r.tag.toNat status false [])

/-- The host's bridge envelope lists the far switch and port (R443). -/
def inEnvelope (s : State) (r : BrgReq) : Bool := (hostPol s r.host).bridge.any fun e => decide (e = (r.farSw.toNat, r.farPort))

/-- The legacy host and device (R455, R461). -/
def isLegacy (s : State) (r : BrgReq) : Bool :=
  rdB s Reg.BRG_LEGACY 31 && decide (rdF s Reg.BRG_LEGACY 4 0 = r.host) && decide (rdF s Reg.BRG_LEGACY 16 5 = r.farSw.toNat)
    && decide (rdF s Reg.BRG_LEGACY 23 17 = r.farPort)

/-- The hedge unit's check of a memory or I/O request at the upstream port, against the remote slot (R443). -/
def brgParts (s : State) (r : BrgReq) : List Part :=
  let u := upPort s r.host
  let slot := (vdspOf s r.host r.vdsp).slot
  hedgeParts s u slot (if isWrite r.op then .write else .read) r.addr.toNat (4 * r.dwCount)

/-- The cells its response may need (R448). -/
def respNeed (r : BrgReq) : Nat := if isWrite r.op || r.op = .unlock then 0 else (32 + 4 * r.dwCount + 255) / 256

/-- An earlier write of the requester toward the far port is neither acknowledged nor closed (R449). -/
def writesOpen (s : State) (r : BrgReq) : Bool :=
  s.brg.txns.any fun t => isPosted t.req && !t.orphan && decide (t.req.host = r.host ∧ t.req.reqId = r.reqId ∧ t.req.farSw = r.farSw ∧ t.req.farPort = r.farPort)

/-- The lowest free BTAG. -/
def freeBtag (s : State) : Nat :=
  (searchUp (fun b => !(s.brg.txns.any fun t => t.req.btag == b)) (s.brg.txns.length + 1) 0).getD 0

/-- A request can be sent now: BTAG, response cells, earlier writes acknowledged, its hedge unit not holding (R448, R449, R428). -/
def brgMay (s : State) (r : BrgReq) : Bool :=
  decide (s.brg.txns.length < 1024) && decide (respReserved s + respNeed r ≤ 512) && (isPosted r || !(writesOpen s r))
    && !(hedgeHolds s (upPort s r.host))

/-- A request leaves as a frame, which starts its 25 ms (R450); one for this switch goes through its own store (R445, R455). -/
def brgLeave (s : State) (r : BrgReq) : State :=
  let s := count (count (bump s Reg.BRG_REQ_TX) 123 0) (80 + r.host) 13
  let s := updBrg s fun b => { b with txns := b.txns.map fun t => if t.req.btag = r.btag then { t with at_ := s.now } else t }
  if r.farSw.toNat = swId s then noteBrg (updBrg s fun b => { b with store := b.store ++ [(swId s, r)] })
  else routeOut s (brgFrame s r)

/-- A request becomes an open transaction and is sent (R448). -/
def brgSend (s : State) (r : BrgReq) : State :=
  let r := { r with btag := freeBtag s }
  noteBrg (brgLeave (updBrg s fun b => { b with txns := b.txns ++ [{ req := r, cells := respNeed r }] }) r)

/-- The first waiting request of each host is sent as far as it may (R448). -/
def brgPump (s : State) : Nat → State
  | 0 => noteBrg s
  | n + 1 =>
    let first (r : BrgReq) : Bool := decide ((s.brg.waiting.find? fun x => x.host == r.host) = some r)
    match s.brg.waiting.find? fun r => first r && brgMay s r with
    | none => noteBrg s
    | some r => brgPump (brgSend (updBrg s fun b => { b with waiting := b.waiting.erase r }) r) n

/-- Every waiting request tried. -/
def brgGo (s : State) : State := brgPump s (s.brg.waiting.length + 1)

/-- A request put behind those of its host, and sent when it may (R448, R449). -/
def brgQueue (s : State) (r : BrgReq) : State := brgGo (updBrg s fun b => { b with waiting := b.waiting ++ [r] })

/-- An UNLOCK waits or is on its way (R455). -/
def unlocking (s : State) : Bool :=
  (s.brg.waiting.any fun r => r.op == .unlock) || (s.brg.txns.any fun t => t.req.op == .unlock)

/-- The far port of a bridged vDSP is up (R176): on this switch by its data link layer; on another, while that switch can be reached and
the near switch knows no better, which is the row's to say (DESIGN CHOICE, log entry 39). -/
def farPresent (s : State) (r : BrgReq) : Bool :=
  if r.farSw.toNat = swId s then rdB s (Reg.PCIE_STATUS r.farPort) 10 else reachable s r.farSw.toNat && r.farUp

/-- Presence of a bridged vDSP follows its far port (R202). -/
def farNote (s : State) (r : BrgReq) : State :=
  let up := farPresent s r
  if (s.pcie.vdsp.get (64 * r.host + r.vdsp)).presence = up then s
  else updVdsp s (64 * r.host + r.vdsp) fun v => { v with presence := up, presChg := true, dllChg := true }

/-- A request that the hedge unit of its upstream port refuses (R422, R443). -/
def brgHedge (s : State) (r : BrgReq) (slot : Nat) (ps : List Part) : State :=
  let s := hedgeRefuse s (upPort s r.host) slot (if isWrite r.op then .write else .read) ps r.reqId.toNat (upPort s r.host)
  if isPosted r then s else emit s (.cpl (upPort s r.host) r.reqId.toNat r.tag.toNat 4 false [])

/-- BRIDGE_REQUEST (R443, R444, R448): refused, or sent once a BTAG, cells and the acknowledgements are there. A memory write of the owner's
sequence travels LOCKED (R455). -/
def execBridgeRequest (r : BrgReq) (s : State) : Res :=
  if inCloche s then .next s
  else
  let s := farNote s r
  let r := { r with locked := decide (r.op = .memWr) && decide (lockState s = 2) && isLegacy s r && !(unlocking s) }
  if (s.pcie.vdsp.get (64 * r.host + r.vdsp)).dpcTrig then .next (brgRefuse s r (if dpcCplCtl s r.host r.vdsp then 1 else 4))
  else if !r.plain || !(inEnvelope s r) then .next (brgRefuse s r 1)
  else if !(farPresent s r) then
    if r.op = .cfgRd then .next (emit s (.cpl (upPort s r.host) r.reqId.toNat r.tag.toNat 0 false [0xFFFFFFFF]))
    else .next (brgRefuse s r 1)
  else
    let ps := brgParts s r
    if r.op ≠ .cfgRd && r.op ≠ .cfgWr && !(partsOk ps) then .next (brgHedge s r (vdspOf s r.host r.vdsp).slot ps)
    else .next (brgQueue s r)

/-- The upstream port of a host accepts completions. -/
def upAccepts (s : State) (k : Nat) : Bool :=
  rdB s (Reg.PCIE_STATUS (upPort s k)) 10 && decide (rdF s (Reg.PCIE_STATUS (upPort s k)) 3 0 = 3)

/-- A completion to the host of a transaction, held while its port does not accept it (R452). -/
def toHost (s : State) (r : BrgReq) (x : BrgResp) : State :=
  if upAccepts s r.host then emit s (.cpl (upPort s r.host) r.reqId.toNat r.tag.toNat x.status.toNat x.ep x.data)
  else updBrg s fun b => { b with held := b.held ++ [{ resp := x, req := r, at_ := s.now }] }

/-- Held responses of a host leave once its port accepts them. -/
def heldGo (s : State) (k : Nat) : State :=
  if !(upAccepts s k) then s
  else
    let mine := s.brg.held.filter fun h => h.req.host == k
    let s := updBrg s fun b => { b with held := b.held.filter fun h => !(h.req.host == k) }
    mine.foldl (fun s h => emit s (.cpl (upPort s k) h.req.reqId.toNat h.req.tag.toNat h.resp.status.toNat h.resp.ep h.resp.data)) s

/-- A transaction closes (R450). -/
def brgClose (s : State) (t : BrgTxn) : State := noteBrg (updBrg s fun b => { b with txns := b.txns.filter fun x => !(x.req.btag == t.req.btag) })

/-- An error after the host's transaction closed: Advisory Non-Fatal in the vDSP's AER (R200, R450). -/
def advisory (s : State) (r : BrgReq) : State := reportAdvisory (count (bump s Reg.BRG_ADVISORY) 123 5) r.host (.vdsp r.vdsp)

/-- The outcome of a transaction that ends with a status and no device completion (R450). -/
def brgEnd (s : State) (t : BrgTxn) (status : Nat) : State :=
  if t.orphan || t.req.op = .unlock then s
  else if isPosted t.req then advisory s t.req
  else toHost s t.req { btag := t.req.btag, status := BitVec.ofNat 3 status, cplId := 0xFFFF }

/-! ### The lock engine (R455 to R458) -/

/-- The engine starts acquiring for the legacy host (R455): its MEM_RD_LK is sent; on this switch's own device the port locks at once. -/
def lockAcquire (s : State) (r : BrgReq) : State :=
  let s := setPeer (setLock s 1) r.farSw.toNat r.farPort
  brgQueue (updBrg s fun b => { b with lockAt := s.now, lockBy := some r }) { r with op := .memRdLk }

/-- The engine becomes IDLE, and an MRdLk that waited for it at its ingress goes on; an acquisition to be tried again waits its 2 µs
(R455, R456). -/
def lockIdle (s : State) : State :=
  let s := updBrg (wrN (setLock s 0) Reg.BRG_LOCK 0) fun b => { b with idleAt := s.now, lockBy := none }
  match s.brg.lockReq with
  | r :: rest =>
    if s.brg.lockAgain || (s.brg.txns.any fun t => t.again && t.req.op == .memRdLk) then s
    else lockAcquire (updBrg s fun b => { b with lockReq := rest }) r
  | [] => s

/-- UNLOCK of a sequence this switch owns (R455): it follows the acknowledgements of the sequence's writes (R449). -/
def sendUnlock (s : State) : State :=
  match s.brg.lockBy with
  | some r => if unlocking s then s else brgQueue s { r with op := .unlock, data := [], dwCount := 1 }
  | none => s

/-- An acquisition ended: owned, and what waited joins the sequence, or the engine IDLE again (R455, R456). A transaction whose hierarchy
was reset unlocks at once (R460). -/
def acquired (s : State) (t : BrgTxn) (ok : Bool) : State :=
  if lockState s ≠ 1 || t.yielded then s
  else if !ok then lockIdle s
  else
    let s := setLock s 2
    if t.orphan then sendUnlock s
    else updBrg s fun b => { b with waiting := b.waiting ++ b.lockReq.map fun r => { r with op := .memRdLk }, lockReq := [], lockAgain := false }

/-- An acquisition is abandoned to a lower switch ID (R455): its transaction is orphaned, and its MRdLk waits at ingress to be tried again
(R452, R456). -/
def lockYield (s : State) : State :=
  updBrg s fun b => { b with
    waiting := b.waiting.filter fun r => decide (r.op ≠ .memRdLk)
    txns := b.txns.map fun t => if t.req.op = .memRdLk then { t with orphan := true, yielded := true, again := false } else t
    lockReq := b.lockBy.toList ++ b.lockReq, lockAgain := true, lockBy := none }

/-- A timeout of a transaction (R450): counted; Completer Abort, or an advisory for a posted write. -/
def brgTimedOut (s : State) (t : BrgTxn) : State :=
  let s := count (count (bump s Reg.BRG_TIMEOUT) 123 4) (80 + t.req.host) 14
  let s := brgEnd (brgClose s t) t 4
  let s := if t.req.op = .memRdLk then acquired s t false
    else if t.req.op = .unlock && decide (lockState s = 2) then lockIdle s
    else s
  brgGo s

/-- A response counted as uncollected (R452). -/
def uncollected (s : State) : State := count (bump s Reg.BRG_UNCOLLECTED) 123 6

/-- BUSY: the request is sent again later; the sixty-fourth closes it (R451). A lock engine goes back to IDLE (R455). An orphaned one is not
sent again (R452). -/
def brgBusy (s : State) (t : BrgTxn) : State :=
  let s := count (bump s Reg.BRG_BUSY_RX) 123 3
  if t.orphan then
    brgGo (uncollected (brgClose (updBrg s fun b => { b with idleAt := if t.req.op = .memRdLk then s.now else b.idleAt }) t))
  else if 64 ≤ t.busies + 1 then brgTimedOut s t
  else
    let s := updBrg s fun b => { b with
      txns := b.txns.map fun x => if x.req.btag = t.req.btag then { x with busies := x.busies + 1, again := true, busyAt := s.now } else x }
    if t.req.op = .memRdLk && decide (lockState s = 1) then lockIdle s
    else updBrg s fun b => { b with idleAt := if t.req.op = .memRdLk then s.now else b.idleAt }

/-- BRIDGE_RESPONSE_RECEIVE (R447, R450, R452, R455): the response closes its transaction, or is discarded. -/
def execBridgeResponseReceive (r : BrgResp) (s : State) : Res :=
  match s.brg.txns.find? fun t => t.req.btag == r.btag with
  | none => .next (uncollected s)
  | some t =>
    let made := decide (r.cplId = 0xFFFF)
    if made && decide (r.status = 2) then .next (brgBusy s t)
    else
      let ok := decide (r.status = 0)
      let s := if r.final then brgClose s t else s
      let s := if t.orphan then uncollected s
        else if made && !ok then brgEnd s t r.status.toNat
        else if isPosted t.req || t.req.op = .unlock then s
        else toHost s t.req r
      let s := if t.req.op = .memRdLk && r.final then acquired s t ok
        else if t.req.op = .unlock && decide (lockState s = 2) then lockIdle s
        else s
      .next (brgGo s)

/-- BRIDGE_TIMEOUT (R450): 25 ms ± 1 ms after its last send. -/
def execBridgeTimeout (btag : Nat) (s : State) : Res :=
  match s.brg.txns.find? fun t => t.req.btag == btag with
  | none => .next s
  | some t => .next (brgTimedOut (timeTo s (t.at_ + 38400000)) t)

/-- A request answered BUSY sent again with its BTAG (R451). -/
def brgAgain (s : State) (t : BrgTxn) : State :=
  let s := updBrg s fun b => { b with txns := b.txns.map fun x => if x.req.btag = t.req.btag then { x with again := false } else x }
  noteBrg (brgLeave s t.req)

/-- BRIDGE_BUSY_RETRY_EXPIRY (R451): 2 µs after BUSY. An acquisition's retry is the lock engine's (R456). -/
def execBridgeBusyRetryExpiry (btag : Nat) (s : State) : Res :=
  match s.brg.txns.find? fun t => t.req.btag == btag && t.again && decide (t.req.op ≠ .memRdLk ∨ lockState s = 2) with
  | none => .next s
  | some t => .next (brgAgain (timeTo s (t.busyAt + 3200)) t)

/-- BRIDGE_RESPONSE_STALL (R452): a response not accepted upstream within 1 ms is discarded. -/
def execBridgeResponseStall (btag : Nat) (s : State) : Res :=
  match s.brg.held.find? fun h => h.req.btag == btag with
  | some h =>
    .next (uncollected (updBrg (timeTo s (h.at_ + 1600000)) fun b => { b with held := b.held.filter fun h => !(h.req.btag == btag) }))
  | none => .next s

/-- The transactions that `f` names orphaned (R460): no completion to the host; a sequence they own is unlocked at once. -/
def orphanBy (s : State) (f : BrgReq → Bool) : State :=
  let s := updBrg s fun b => { b with
    waiting := b.waiting.filter fun r => !(f r) || decide (r.op = .unlock), held := b.held.filter fun h => !(f h.req)
    txns := b.txns.map fun t => if f t.req && decide (t.req.op ≠ .unlock) then { t with orphan := true, again := false } else t
    lockReq := b.lockReq.filter fun r => !(f r) }
  let s := if lockState s = 2 && s.brg.lockBy.any f then sendUnlock s else s
  let s := if lockState s = 1 && s.brg.lockBy.any f && !(s.brg.txns.any fun t => t.req.op == .memRdLk) then lockIdle s else s
  brgGo s

/-- The transactions of a hierarchy, or of one vDSP contained, orphaned. -/
def brgOrphan (s : State) (k : Nat) : State := orphanBy s fun r => r.host == k
def brgOrphanVdsp (s : State) (k j : Nat) : State := orphanBy s fun r => r.host == k && r.vdsp == j

/-! ### The far bridge (R446, R453, R454, R457) -/

/-- The permission an OP needs, as its bit in BRG_T_PERM (R453). -/
def permBit : BrgOp → Nat
  | .cfgRd => 0
  | .cfgWr => 0
  | .memRd => 1
  | .memWr => 1
  | .ioRd => 2
  | .ioWr => 2
  | .memRdLk => 3
  | .unlock => 3

/-- An entry of the bridge table matches and grants what the request needs (R453). -/
def brgAllowed (s : State) (src : Nat) (r : BrgReq) : Bool :=
  (List.range 256).any fun i =>
    let e := Reg.BRG_T_SRC i
    rdB s e 31 && decide (rdF s e 11 0 = src) && decide (rdF s e 16 12 = r.host) && decide (rdF s e 23 17 = r.farPort)
      && rdB s (Reg.BRG_T_PERM i) (permBit r.op) && (!r.locked || rdB s (Reg.BRG_T_PERM i) 3)

/-- A response the far bridge makes itself (R447): 0 done, 2 BUSY, 1 refused, 4 contained. -/
def farReply (s : State) (src : Nat) (r : BrgReq) (status : Nat) : State :=
  let s := if status = 2 then count (bump s Reg.BRG_BUSY_TX) 123 2 else s
  routeOut s { typ := 2, vc := 3, tc := BitVec.ofNat 3 (classOf s 3), dstSw := BitVec.ofNat 12 src, dstPort := 0x7F,
               srcSw := BitVec.ofNat 12 (swId s), srcPort := BitVec.ofNat 7 r.farPort, tspec0 := r.reqId
               tspec1 := BitVec.ofNat 64 (r.btag + status * 2 ^ 10 + 0xFFFF * 2 ^ 33) }

/-- A request refused at the far side (R453). -/
def farRefuse (s : State) (src : Nat) (r : BrgReq) : State :=
  farReply (faultP (bump s Reg.BRG_REFUSED) 14 0x01 2 r.farPort src) src r 1

/-- What the far port answers when it cannot carry a request of a source switch: UR down or not bridged, CA contained (R447). A legacy
device of this switch may stand on a port of another role (R455). -/
def farDead (s : State) (src p : Nat) : Option Nat :=
  if !(isPcie s p) || (decide (src ≠ swId s) && decide (portRole s p ≠ 4)) then some 1
  else if contained s p then some 4
  else if !(rdB s (Reg.PCIE_STATUS p) 10) then some 1
  else none

/-- A received request counted, and taken on by `f` unless the table or the port refuses it. -/
def farTake (s : State) (src : Nat) (r : BrgReq) (f : State → State) : State :=
  let s := count (bump s Reg.BRG_REQ_RX) 123 1
  if !(brgAllowed s src r) then farRefuse s src r
  else match farDead s src r.farPort with
    | some st => farReply s src r st
    | none => f s

/-- A request kept in the far store (R454). -/
def farStore (s : State) (src : Nat) (r : BrgReq) : State :=
  if 512 ≤ s.brg.store.length then farReply s src r 2
  else noteBrg (updBrg s fun b => { b with store := b.store ++ [(src, r)] })

/-- BRIDGE_FRAME_RECEIVE (R453, R454): refused, answered BUSY, or stored; a locked write outside its sequence draws UR (R458). -/
def execBridgeFrameReceive (srcSw : BitVec 12) (r : BrgReq) (s : State) : Res :=
  if inCloche s || r.op = .memRdLk || r.op = .unlock then .next s
  else .next (farTake s srcSw.toNat r fun s =>
    if r.locked && !decide (lockState s = 3 ∧ lockPeer s = srcSw.toNat ∧ lockPort s = r.farPort) then farReply s srcSw.toNat r 1
    else
      let s := if r.locked then updBrg s fun b => { b with lockAt := s.now } else s
      farStore s srcSw.toNat r)

/-- A request belongs to the locked sequence of its port (R457). -/
def inSequence (s : State) (src : Nat) (r : BrgReq) : Bool := decide (src = lockPeer s) && (r.locked || r.op = .memRdLk || r.op = .unlock)

/-- A stored request may be issued now: lock and completion map (R212, R457). -/
def farMay (s : State) (e : Nat × BrgReq) : Bool :=
  (!(portLocked s e.2.farPort) || inSequence s e.1 e.2) && (isPosted e.2 || decide ((s.fwd.cmap.get e.2.farPort).length < 768))

/-- The first stored request of each source toward a port may be issued, in arrival order (R454). -/
def farNext (s : State) (p : Nat) : Option (Nat × BrgReq) :=
  let l := s.brg.store.filter fun e => e.2.farPort == p
  l.find? fun e => decide ((l.find? fun x => x.1 == e.1) = some e) && farMay s e

/-- The address of a request as it leaves the far port: a configuration request goes to bus 1, device 0 (R446). -/
def farAddr (r : BrgReq) : BitVec 64 :=
  if r.op = .cfgRd || r.op = .cfgWr then BitVec.ofNat 64 (2 ^ 24 + r.addr.toNat / 2 ^ 12 % 2 ^ 8 * 2 ^ 16 + r.addr.toNat % 2 ^ 12) else r.addr

/-- A stored request issued on the far port (R446): a posted write is acknowledged at once, every other one held in the completion map; the
Unlock of a sequence on this switch's own device leaves here (R455). -/
def farSend (s : State) (e : Nat × BrgReq) : State :=
  let r := e.2
  let p := r.farPort
  let s := noteBrg (updBrg s fun b => { b with store := b.store.erase e })
  let t : Tlp := { kind := if isWrite r.op then .write else .read, addr := farAddr r, len := 4 * r.dwCount, reqId := farRequester p,
                   firstBe := BitVec.ofNat 4 r.be.toNat, lastBe := BitVec.ofNat 4 (r.be.toNat / 16), data := r.data }
  if r.op = .unlock then farReply (emit s (.pcieMsg p "Unlock")) e.1 r 0
  else if isPosted r then farReply (emit s (.bridged p r.op t)) e.1 r 0
  else
    let n := freeMapTag s p
    let c : CmapEntry := { tag := n, srcSw := e.1, srcPort := 0x7F, reqId := r.reqId.toNat, origTag := r.btag }
    emit (updFwd s fun x => { x with cmap := x.cmap.upd p fun l => l ++ [c] }) (.bridged p r.op { t with tag := BitVec.ofNat 10 n })

/-- BRIDGE_FAR_ISSUE (R454): the next request a far port may carry is issued; one whose port died is answered. -/
def execBridgeFarIssue (p : Nat) (s : State) : Res :=
  match farNext s p with
  | none => .next s
  | some e =>
    match farDead s e.1 p with
    | some st => .next (farReply (noteBrg (updBrg s fun b => { b with store := b.store.erase e })) e.1 e.2 st)
    | none => .next (farSend s e)

/-! ### Locked sequences (R455 to R458) -/

/-- The hedge check of an MRdLk at its upstream port: against the device's remote slot, or its port's on this switch (R415, R443). -/
def lockSlot (s : State) (r : BrgReq) : Nat := if r.farSw.toNat = swId s then r.farPort else (vdspOf s r.host r.vdsp).slot

/-- An MRdLk of the legacy host toward its device reaches the lock engine (R455): it opens the sequence, continues it, or waits. -/
def lockTake (s : State) (r : BrgReq) : State :=
  let pend := s.brg.lockReq ≠ [] || (s.brg.txns.any fun t => t.again && t.req.op == .memRdLk)
  if lockState s = 0 && !pend then lockAcquire s r
  else if lockState s = 2 && !(unlocking s) then brgQueue s { r with op := .memRdLk }
  else updBrg s fun b => { b with lockReq := b.lockReq ++ [r] }

/-- LEGACY_MRDLK (R178, R443, R444, R455): refused from any other host or toward any other device, else taken by the lock engine. -/
def execLegacyMrdlk (r : BrgReq) (s : State) : Res :=
  let p := upPort s r.host
  let near := decide (r.farSw.toNat = swId s)
  let ps := hedgeParts s p (lockSlot s r) .read r.addr.toNat (4 * r.dwCount)
  if inCloche s then .next s
  else if !(isLegacy s r) then .next (brgRefuse (count (bump s (Reg.PCIE_UR_TX p)) p 20) r 1)
  else if (s.pcie.vdsp.get (64 * r.host + r.vdsp)).dpcTrig then .next (brgRefuse s r (if dpcCplCtl s r.host r.vdsp then 1 else 4))
  else if (!near && !(inEnvelope s r)) || !(farPresent s r) then .next (brgRefuse s r 1)
  else if !(partsOk ps) then .next (brgHedge s { r with op := .memRdLk } (lockSlot s r) ps)
  else .next (lockTake s r)

/-- The engine becomes TARGET of a sequence: the far port is locked and MRdLk goes to it (R455, R457); with the store full it answers BUSY and
keeps nothing (R454). An acquisition of its own is abandoned. -/
def lockTarget (s : State) (src : Nat) (r : BrgReq) : State :=
  if 512 ≤ s.brg.store.length then farReply s src r 2
  else
    let s := if lockState s = 1 then lockYield s else s
    let s := setPeer (setLock s 3) src r.farPort
    farStore (updBrg s fun b => { b with lockAt := s.now }) src { r with op := .memRdLk }

/-- MEM_RD_LK_RECEIVE (R455): the engine becomes TARGET, yields to a lower switch ID, or answers BUSY. -/
def execMemRdLkReceive (srcSw : BitVec 12) (r : BrgReq) (s : State) : Res :=
  let src := srcSw.toNat
  if inCloche s then .next s
  else .next (farTake s src { r with op := .memRdLk } fun s =>
    if lockState s = 0 then lockTarget s src r
    else if lockState s = 1 && decide (src < swId s) then lockTarget s src r
    else if lockState s = 3 && decide (lockPeer s = src) && decide (lockPort s = r.farPort) then
      farStore (updBrg s fun b => { b with lockAt := s.now }) src { r with op := .memRdLk }
    else farReply s src r 2)

/-- LEGACY_UNLOCK (R455): the OWNER's sequence ends with UNLOCK. -/
def execLegacyUnlock (s : State) : Res :=
  if lockState s = 2 then .next (sendUnlock s) else .next s

/-- UNLOCK_RECEIVE (R455): the TARGET issues Unlock on the far port, releases it and acknowledges; outside its sequence it draws UR. -/
def execUnlockReceive (srcSw : BitVec 12) (r : BrgReq) (s : State) : Res :=
  let src := srcSw.toNat
  if inCloche s then .next s
  else .next (farTake s src { r with op := .unlock } fun s =>
    if lockState s = 3 && decide (lockPeer s = src) && decide (lockPort s = r.farPort) then
      farReply (lockIdle (emit s (.pcieMsg r.farPort "Unlock"))) src r 0
    else farReply s src r 1)

/-- LOCK_BACKOFF_EXPIRY (R456): 2 µs after the BUSY and the engine's last IDLE, the acquisition is tried again. -/
def execLockBackoffExpiry (s : State) : Res :=
  if lockState s ≠ 0 then .next s
  else match s.brg.txns.find? fun t => t.again && decide (t.req.op = .memRdLk) with
    | some t =>
      let s := timeTo s (s.brg.idleAt + 3200)
      let s := count (bump s Reg.BRG_LOCK_BACKOFF) 123 7
      let s := updBrg (setPeer (setLock s 1) t.req.farSw.toNat t.req.farPort) fun b => { b with lockBy := some t.req }
      .next (brgAgain s t)
    | none =>
      match s.brg.lockReq with
      | r :: rest =>
        let s := count (bump (timeTo s (s.brg.idleAt + 3200)) Reg.BRG_LOCK_BACKOFF) 123 7
        .next (lockAcquire (updBrg s fun b => { b with lockReq := rest, lockAgain := false }) r)
      | [] => .next s

/-- A TARGET engine releases its lock by force (R458). -/
def lockForce (s : State) : State :=
  if lockState s ≠ 3 then s
  else
    let p := lockPort s
    let s := faultP (count (bump s Reg.BRG_LOCK_FORCED) 123 8) 14 0x02 2 p (lockPeer s)
    lockIdle (emit s (.pcieMsg p "Unlock"))

/-- LOCK_IDLE_EXPIRY (R458): 100 ms without a request of the sequence, or its owner no longer reachable. -/
def execLockIdleExpiry (s : State) : Res :=
  if lockState s ≠ 3 then .next s
  else if reachable s (lockPeer s) then .next (lockForce (timeTo s (s.brg.lockAt + 160000000)))
  else .next (lockForce s)

/-- A far port that goes down or is contained releases its lock (R458). -/
def lockPortLost (s : State) (p : Nat) : State := if lockPort s = p then lockForce s else s

end Sys2Proof.Machine
end

