-- ==== Sys2Proof/Machine/HedgeCtl.lean ====
section
/-! DEFINITION. Rule changes on a hedge unit (R427 to R431): the hold, the commit, the release, and the attempts abandoned. -/

namespace Sys2Proof.Machine

open Sys2Proof

/-- The hedge state changed. -/
def updHedge (s : State) (f : HedgeSt → HedgeSt) : State := { s with hedge := f s.hedge }

/-- The attempt of a unit's current request (R439). -/
def attempt (s : State) (u : Nat) : Nat := rdF s (Reg.HEDGE_U_STATUS u) 10 8

/-- The request a unit serves. -/
def unitReq (s : State) (u : Nat) : Option HedgeReq := (s.hedge.reqs.get u).head?

/-- UPDATING and its unit: the last that holds (R439). -/
def noteUpdating (s : State) : State :=
  match (s.hedge.holdAt.cells.filter fun c => c.2.isSome).getLast? with
  | some c => wrF (wrB s Reg.HEDGE_STATUS 2 true) Reg.HEDGE_STATUS 9 3 c.1
  | none => wrB s Reg.HEDGE_STATUS 2 false

/-- Step 1 of R428: the unit holds, unless a brace is in progress (R431). -/
def hedgeStart (s : State) (u : Nat) : State :=
  if hedgeHolds s u || (s.hedge.reqs.get u) = [] || braced s then s
  else
    let s := wrF (wrB s (Reg.HEDGE_U_STATUS u) 0 true) (Reg.HEDGE_U_STATUS u) 10 8 (attempt s u + 1)
    noteUpdating (updHedge s fun h => { h with holdAt := h.holdAt.set u (some s.now) })

/-- A request queued on a unit (R428, R438). -/
def hedgeQueue (s : State) (u : Nat) (r : HedgeReq) : State :=
  let s := updHedge s fun h => { h with reqs := h.reqs.upd u fun l => l ++ [r] }
  if (s.hedge.reqs.get u).length = 1 then hedgeStart s u else s

/-- The longest hold of a unit, in ns (R439). -/
def noteHold (s : State) (u : Nat) : State :=
  let t := s.now - (s.hedge.holdAt.get u).getD s.now
  wrN s (Reg.HEDGE_U_HOLD_MAX u) (max (rdN s (Reg.HEDGE_U_HOLD_MAX u)) (t * 5 / 8))

/-- An access that an engine's unit held is checked: a packet is taken; of a write refused whole the owner goes on (R422). -/
def engGo (s : State) (e : Nat) (h : EngHeld) : State :=
  match h with
  | .pkt k isRead => takePkt s e k isRead
  | .own a =>
    let r := ownCheck s (80 + e) a
    if r.1 || a.words = [] then r.2
    else match a.own with
      | .spill n => spillDone r.2 n
      | .readData id => readDelivered r.2 id (4 * a.words.length)
      | _ => r.2

/-- Step 5 of R428: the hold is released, and the held accesses are checked in their order. -/
def hedgeRelease (s : State) (u : Nat) : State :=
  let s := noteHold s u
  let s := wrB s (Reg.HEDGE_U_STATUS u) 0 false
  let arr := s.hedge.held.get u
  let pkts := s.hedge.heldPkt.filter fun k => 80 + k.1 == u
  let wrs := s.hedge.heldWr.filter fun w => w.2.port == u
  let s := updHedge s fun h => { h with
    held := h.held.set u [], holdAt := h.holdAt.set u none, heldPkt := h.heldPkt.filter fun k => !(80 + k.1 == u)
    heldWr := h.heldWr.filter fun w => !(w.2.port == u) }
  let s := noteUpdating s
  let s := arr.foldl (fun s a => takeArrival s u (if u < 80 then u else a.f.srcPort.toNat) a true) s
  let s := pkts.foldl (fun s k => engGo s k.1 k.2) s
  let s := wrs.foldl (fun s w => checkWrite s w.2 w.1) s
  sealPump (pumpOpen (brgGo s))

/-- One slot written into both check copies, with its GEN advanced (R428 step 4). -/
def writeSlot (s : State) (u : Nat) (e : HedgeEntry) : State :=
  let c := Reg.HEDGE_S_CTRL u e.slot
  let s := wr64 s (Reg.HEDGE_S_BASE_LO u e.slot) (if e.perm = 0 then 0 else e.base.toNat)
  let s := wr64 s (Reg.HEDGE_S_LIMIT_LO u e.slot) (if e.perm = 0 then 0 else e.limit.toNat)
  let s := wrF s c 4 0 (if e.perm = 0 then 0 else 1 + 2 * e.perm.toNat)
  let s := wrF s c 15 8 (rdF s c 15 8 + 1)
  updHedge s fun h => { h with bad := h.bad.filter fun b => !(b.1 == 128 * u + e.slot) }

/-- INFLIGHT is 0 on every slot a request changes (R428 step 3). -/
def drained (s : State) (u : Nat) (r : HedgeReq) : Bool :=
  r.es.all fun e => decide (rdF s (Reg.HEDGE_S_INFLIGHT u e.slot) 17 0 = 0)

/-- The request at the head of a unit leaves it, and the next one starts. -/
def hedgeNext (s : State) (u : Nat) : State :=
  let s := updHedge s fun h => { h with reqs := h.reqs.upd u List.tail, retryAt := h.retryAt.set u 0 }
  hedgeStart (wrF s (Reg.HEDGE_U_STATUS u) 10 8 0) u

/-- Steps 4 and 5 of R428. -/
def hedgeCommit (s : State) (u : Nat) (r : HedgeReq) : State :=
  let s := r.es.foldl (fun s e => writeSlot s u e) s
  hedgeRelease (count (bump s Reg.HEDGE_UPDATES) 124 1) u

/-- An attempt abandoned: released under the old slots, and tried again 50 µs later (R429). -/
def hedgeAbandon (s : State) (u : Nat) : State :=
  let s := updHedge s fun h => { h with retryAt := h.retryAt.set u (s.now + 80000) }
  hedgeRelease (count (bump s Reg.HEDGE_ABORTS) 124 2) u

end Sys2Proof.Machine
end

