-- ==== Sys2Proof/Machine/ScionOps.lean ====
section
/-! DEFINITION. Scions (R463 to R484): the pools, the instance control array, the mapper's queues and shapers, the reset procedure, and the
dirty-page log. -/

namespace Sys2Proof.Machine

open Sys2Proof

/-- The mapper's state changed; a scion's record and its change. -/
def updScion (s : State) (f : ScionSt → ScionSt) : State := { s with scion := f s.scion }
def scionRec (s : State) (sc : Nat) : ScionRec := s.scion.recs.get sc
def updSc (s : State) (sc : Nat) (f : ScionRec → ScionRec) : State := updScion s fun x => { x with recs := x.recs.upd sc f }

/-- What SCION_S registers say of a scion (R486, R487). -/
def scState (s : State) (sc : Nat) : Nat := rdF s (Reg.SCION_S_STATUS sc) 2 0
def setScState (s : State) (sc n : Nat) : State := wrF s (Reg.SCION_S_STATUS sc) 2 0 n
def scHost (s : State) (sc : Nat) : Nat := rdF s (Reg.SCION_S_BIND sc) 4 0
def scVdsp (s : State) (sc : Nat) : Nat := rdF s (Reg.SCION_S_BIND sc) 10 5
def scDev (s : State) (sc : Nat) : Nat := rdF s (Reg.SCION_S_BIND sc) 16 11
def scInst (s : State) (sc : Nat) : Nat := rdF s (Reg.SCION_S_BIND sc) 25 17
def scBme (s : State) (sc : Nat) : Bool := rdB s (Reg.SCION_S_STATUS sc) 13

/-- The policy of a device, its port, and what was found of it. -/
def devPol (s : State) (d : Nat) : Config.DevPol := ((s.seed.policy.devs.find? fun e => e.1 == d).map Prod.snd).getD {}
def devPort (s : State) (d : Nat) : Nat := rdF s (Reg.SCION_D_CFG d) 6 0
def devInfo (s : State) (d : Nat) : DevIn := s.scion.devs.get d

/-- The device behind a shareable port. -/
def devOfPort (s : State) (p : Nat) : Option Nat := (s.seed.policy.devs.find? fun e => e.2.port == p).map Prod.fst

/-- The live scions, in number order: those whose removal is not reported complete (R467). -/
def liveScions (s : State) : List Nat := (s.scion.recs.cells.filter fun c => c.2.live).map Prod.fst
def devScions (s : State) (d : Nat) : List Nat := (liveScions s).filter fun sc => decide (scDev s sc = d)

/-! ### Pools (R467, R470) -/

/-- Runs taken by live scions of a device: doorbell pages, vectors, queues, as (first, count). -/
def dbRuns (s : State) (d : Nat) : List (Nat × Nat) :=
  (devScions s d).map fun sc => (rdF s (Reg.SCION_S_DB sc) 15 0, rdF s (Reg.SCION_S_DB sc) 31 16)
def vecRuns (s : State) (d : Nat) : List (Nat × Nat) :=
  (devScions s d).map fun sc => (rdF s (Reg.SCION_S_VEC sc) 10 0, rdF s (Reg.SCION_S_VEC sc) 17 11)
def qRuns (s : State) (d : Nat) : List (Nat × Nat) := (devScions s d).map fun sc => ((scionRec s sc).qFirst, (scionRec s sc).qCount)

/-- The lowest run of `n` free places among `pool`, given the runs taken. -/
def lowestRun (taken : List (Nat × Nat)) (n pool : Nat) : Option Nat :=
  searchUp (fun a => decide (a + n ≤ pool) && taken.all fun r => decide (a + n ≤ r.1) || decide (r.1 + r.2 ≤ a)) (pool + 1) 0

/-- The lowest free instance of a device. -/
def freeInst (s : State) (d : Nat) : Option Nat :=
  searchUp (fun i => decide (i < min (devPol s d).scions (devInfo s d).inst)
    && !((devScions s d).any fun sc => scInst s sc == i) && !(s.scion.stuck.any fun x => x.2 == (d, i))) 513 0

/-- The cells of the quotas of live scions. -/
def quotaCells (s : State) (d : Nat) : Nat := ((devScions s d).map fun sc => rdF s (Reg.SCION_S_QUOTA sc) 12 0).sum

/-- The SCION registers that follow from live scions and logs (R486). -/
def noteScions (s : State) : State :=
  let s := wrF s Reg.SCION_STATUS 11 0 (liveScions s).length
  let s := wrF s Reg.SCION_STATUS 20 12 (s.scion.recs.cells.filter fun c => c.2.dirty.isSome).length
  (s.seed.policy.devs.map Prod.fst).foldl (fun s d =>
    if !(rdB s (Reg.SCION_D_STATE d) 0) then s
    else
      let s := wrF s (Reg.SCION_D_STATE d) 12 3 (devScions s d).length
      let s := wrF s (Reg.SCION_D_FREE_DB d) 15 0 ((devPol s d).db - ((dbRuns s d).map Prod.snd).sum)
      let s := wrF s (Reg.SCION_D_FREE_VQ d) 15 0 ((devPol s d).vec - ((vecRuns s d).map Prod.snd).sum)
      let s := wrF s (Reg.SCION_D_FREE_VQ d) 31 16 ((devPol s d).queues - ((qRuns s d).map Prod.snd).sum)
      wrF s (Reg.SCION_D_FREE_CELLS d) 17 0 ((devPol s d).cells - quotaCells s d)) s

/-! ### The instance control array (R464) -/

/-- A word written to a shareable device under the switch's own requester (R464). -/
def devWrite (s : State) (d addr : Nat) (v : Word) : State :=
  emit s (.tlp (devPort s d) { kind := .write, addr := BitVec.ofNat 64 addr, len := 4, reqId := farRequester (devPort s d), data := [v] })

/-- A field of a scion's instance block written. -/
def instWrite (s : State) (sc off : Nat) (v : Word) : State :=
  devWrite s (scDev s sc) ((devInfo s (scDev s sc)).ctrl + 64 * scInst s sc + off) v

/-- The PASID of an instance at a GEN (R469). -/
def instPasid (gen i : Nat) : Nat := 0x80000 + gen % 256 * 2 ^ 9 + i

/-- A scion's GEN advances, and its PASID with it (R469). -/
def bumpGen (s : State) (sc : Nat) : State :=
  let g := (scionGen s sc + 1) % 256
  wrN (wrF s (Reg.SCION_S_STATUS sc) 10 3 g) (Reg.SCION_S_PASID sc) (instPasid g (scInst s sc))

/-! ### Events of a scion -/

/-- EVENT_VECTOR of a scion signalled (R478). -/
def scionEvent (s : State) (sc : Nat) : State := if (scionRec s sc).ev = 0 then s else msix s (scHost s sc) (scionRec s sc).ev

/-- Presence of the scion's vDSP (R470 step 5, R480). -/
def scionPresence (s : State) (sc : Nat) (b : Bool) : State :=
  updVdsp s (64 * scHost s sc + scVdsp s sc) fun v => { v with presence := b, presChg := true, dllChg := true }

/-- A scion's function, an entry of its MSI-X table that nothing masks, and that entry's message. -/
def scFn (sc : Nat) : VFn := .scion sc
def scOpen (s : State) (sc v : Nat) : Bool := scBme s sc && !(bitN (scionRec s sc).mask v) && !(fnMask s (scHost s sc) (scFn sc))
def scMsg (s : State) (sc v : Nat) : Out :=
  let t := (scionRec s sc).table
  .scionMsix sc v (msixAddr t v) (t.get (4 * v + 2))

/-- A scion's MSI-X entry signalled under the rule of R186 (R474). -/
def scionMsi (s : State) (sc v : Nat) : State :=
  if scOpen s sc v then emit s (scMsg s sc v) else updSc s sc fun r => { r with pend := setBitN r.pend v true }

/-- Pending entries leave once enable and mask allow. -/
def scionPending (s : State) (sc : Nat) : State :=
  (bitsOf 64 (scionRec s sc).pend).foldl (fun s v =>
    if scOpen s sc v then emit (updSc s sc fun r => { r with pend := setBitN r.pend v false }) (scMsg s sc v) else s) s

/-! ### The dirty-page log (R482 to R484) -/

/-- The active buffer of a log. -/
def activeBuf (s : State) (sc : Nat) (l : DirtySt) : Nat := if rdB s (Reg.SCION_S_STATUS sc) 15 then l.bufB else l.bufA

/-- A cached word written back to its buffer. -/
def dirtyBack (s : State) (sc : Nat) (l : DirtySt) (w : Nat × Nat) : State :=
  mefWrite s (scHost s sc) (.scion sc) (activeBuf s sc l + 8 * w.1) [lo32 w.2, hi32 w.2] false l.pasid

/-- The log of a scion changed. -/
def updDirty (s : State) (sc : Nat) (f : DirtySt → DirtySt) : State := updSc s sc fun r => { r with dirty := r.dirty.map f }

/-- Bits set in a list of words by index. -/
def orWord (l : List (Nat × Nat)) (i b : Nat) : List (Nat × Nat) := l.map fun w => if w.1 = i then (i, w.2 ||| b) else w

/-- The words cached by all logs. -/
def cachedWords (s : State) : Nat := (s.scion.recs.cells.map fun c => (c.2.dirty.map fun l => l.cache.length + l.want.length).getD 0).sum

/-- The first log with a word in the cache, that of scion `sc` before any other. -/
def fullLog (s : State) (sc : Nat) : Option (Nat × DirtySt) :=
  (((sc, scionRec s sc) :: s.scion.recs.cells).filterMap fun c => c.2.dirty.map fun l => (c.1, l)).find? fun x => decide (x.2.cache ≠ [])

/-- A cache word can be had for another page: the cache has room, or a word to give up (R483). -/
def dirtyMay (s : State) : Bool := decide (cachedWords s + 2 ≤ 1024) || (fullLog s 2048).isSome

/-- A full cache gives up a word, of this scion's log before another's, written back (R483). -/
def dirtyRoom (s : State) (sc : Nat) : State :=
  if cachedWords s < 1024 then s
  else match fullLog s sc with
    | some (x, l) => updDirty (l.cache.head?.elim s fun w => dirtyBack s x l w) x fun l => { l with cache := l.cache.tail }
    | none => s

/-- The bit of one page of the range set, after a read of its word on a miss (R483). -/
def dirtyPage (s : State) (sc n : Nat) : State :=
  match (scionRec s sc).dirty with
  | none => s
  | some l =>
    let i := n / 64
    let b := 2 ^ (n % 64)
    if l.cache.any fun w => w.1 == i then updDirty s sc fun l => { l with cache := orWord l.cache i b }
    else if l.want.any fun w => w.1 == i then updDirty s sc fun l => { l with want := orWord l.want i b }
    else
      let s := updDirty (dirtyRoom (bump s Reg.SCION_CACHE_MISS) sc) sc fun l => { l with want := l.want ++ [(i, b)] }
      mefRead s (scHost s sc) (.scion sc) (activeBuf s sc l + 8 * i) 8 l.pasid

/-- The bits of the pages a write touches; what lies outside the range is counted (R483). -/
def dirtyMark (s : State) (sc addr len : Nat) : State :=
  match (scionRec s sc).dirty with
  | none => s
  | some l =>
    let first := addr / 4096
    let last := (addr + max 1 len - 1) / 4096
    let lo := l.base / 4096
    let hi := lo + 2 ^ (l.log2 - 12)
    let ps := (List.range (last + 1 - first)).map fun i => first + i
    let s := if ps.all fun p => decide (lo ≤ p) && decide (p < hi) then s else bump s (Reg.SCION_S_DIRTY_OUT sc)
    (ps.filter fun p => decide (lo ≤ p) && decide (p < hi)).foldl (fun s p => dirtyPage s sc (p - lo)) s

/-- The log ends, and its buffers are released. -/
def dirtyEnd (s : State) (sc : Nat) : State :=
  noteScions (wrB (updSc s sc fun r => { r with dirty := none }) (Reg.SCION_S_STATUS sc) 14 false)

/-- A sync once no read is outstanding: every cached word is written back, the other buffer becomes active, and the reply names the closed one;
DIRTY_STOP ends the log with it (R482, R484). -/
def dirtySyncGo (s : State) (sc : Nat) : State :=
  match (scionRec s sc).dirty with
  | none => s
  | some l =>
    match l.syncs with
    | [] => s
    | (q, stop) :: rest =>
      if l.want ≠ [] || !(mefBme s (scHost s sc)) then s
      else
        let closed := rdB s (Reg.SCION_S_STATUS sc) 15
        let s := l.cache.foldl (fun s w => dirtyBack s sc l w) s
        let s := updDirty s sc fun l => { l with cache := [], syncs := rest }
        let s := wrB s (Reg.SCION_S_STATUS sc) 15 (!closed)
        let s := if stop || (l.ending && rest = []) then dirtyEnd s sc else s
        reply s q (if stop then 0x0606 else 0x0607) 0x00 [w32 closed.toNat]

/-! ### The mapper's queue (R473, R475, R476) -/

/-- The cells a device's request takes as a frame (R224). -/
def tlpCells (t : Tlp) : Nat := (tlpB t + 255) / 256

/-- Cells held, as SCION_S_QUOTA shows them. -/
def noteHeldCells (s : State) (sc : Nat) : State :=
  wrF s (Reg.SCION_S_QUOTA sc) 25 13 ((scionRec s sc).queue.map tlpCells).sum

/-- The lowest tag of the scion's space in no use (R473, R478). -/
def scionTag (r : ScionRec) : Nat :=
  (searchUp (fun t => !(r.reads.any fun x => x.tag == t) && !(r.heldTags.any fun x => x.1 == t)) (r.reads.length + r.heldTags.length + 1) 0).getD 0

/-- A request passed on with the scion's Requester ID and tag: resolved under R433, checked in unit 96, and logged when it writes upstream
(R473, R483). -/
def scionPass (s : State) (sc : Nat) (t : Tlp) : State :=
  let k := scHost s sc
  let p := devPort s (scDev s sc)
  let r := scionRec s sc
  let posted := decide (t.kind = .write)
  let tag := scionTag r
  let s := if posted then s else updSc s sc fun r => { r with
    reads := r.reads ++ [{ tag := tag, gen := scionGen s sc, devReq := t.reqId.toNat, devTag := t.tag.toNat }] }
  let t := { t with pasid := none, reqId := BitVec.ofNat 16 (scionReqId s sc), tag := if posted then t.tag else BitVec.ofNat 10 tag }
  (withStart 0 (pwResolve s k 64 t.addr.toNat t.len)).foldl (fun s x =>
    let d := slotTarget s 96 x.2.1
    let f := tlpFrame s p t d.1 d.2 x.2.2.1 ((x.2.2.2 + 3) / 4) (partData t 0 x.1 x.2.2.2)
    let up := decide (x.2.1 = upPort s k)
    let s := if up && t.kind ≠ .read then dirtyMark s sc x.2.2.1 x.2.2.2 else s
    let s := if up then count s (80 + k) 15 else s
    takeArrival s 96 p { f := f, slot := some x.2.1, scion := some sc } true) s

/-- The queue's head may go: its shaper, a free tag, and a log that can run (R475, R483). -/
def scionMay (s : State) (sc : Nat) : Bool :=
  let r := scionRec s sc
  decide (0 ≤ r.tokens) && decide (scState s sc = 1) && decide (r.reads.length + r.heldTags.length < 1024)
    && (r.dirty.isNone || (mefBme s (scHost s sc) && dirtyMay s))

/-- Requests of a scion's queue leave in order, as far as they may (R475). -/
def scionPump (s : State) (sc : Nat) : Nat → State
  | 0 => s
  | n + 1 =>
    match (scionRec s sc).queue with
    | [] => s
    | t :: rest =>
      if !(scionMay s sc) then s
      else
        let s := updSc s sc fun r => { r with queue := rest, tokens := r.tokens - ((tlpB t * 200 : Nat) : Int) }
        scionPump (scionPass (noteHeldCells s sc) sc t) sc n

/-- A request refused at the mapper: counted, and completed to the device with UR when it is non-posted (R473). -/
def scionRefuse (s : State) (p cnt : Nat) (t : Tlp) : State :=
  let s := bump s cnt
  if t.kind = .write then s else emit s (.cpl p t.reqId.toNat t.tag.toNat 1 false [])

/-- The scion a request's PASID names by its instance field (R473). -/
def scionOf (s : State) (p : Nat) (t : Tlp) : Option Nat :=
  (devOfPort s p).bind fun d => t.pasid.bind fun v =>
    if v.toNat / 2 ^ 19 % 2 = 0 then none else (devScions s d).find? fun sc => decide (scInst s sc = v.toNat % 2 ^ 9)

/-- Why a matched request is refused: an older PASID, no Bus Master Enable, no secondary bus, a scion not ACTIVE (R473, R478). -/
def scionAccepts (s : State) (sc : Nat) (t : Tlp) : Bool :=
  decide (t.pasid.elim 0 (fun v => v.toNat % 2 ^ 20) = rdF s (Reg.SCION_S_PASID sc) 19 0) && scBme s sc && decide (scionReqId s sc ≠ 0)
    && decide (scState s sc = 1)

/-- A device's request: refused, queued, or left waiting at the port (R473, R475, R476). `false` says that it waits. -/
def scionTake (s : State) (p : Nat) (t : Tlp) : Bool × State :=
  match scionOf s p t with
  | none => (true, match devOfPort s p with
    | some d => scionRefuse s p (Reg.SCION_D_NO_SCION d) t
    | none => s)
  | some sc =>
    if !(scionAccepts s sc t) then (true, scionRefuse s p (Reg.SCION_S_DISCARD sc) t)
    else if rdF s (Reg.SCION_S_QUOTA sc) 12 0 < rdF s (Reg.SCION_S_QUOTA sc) 25 13 + tlpCells t then
      let s := if rdB s (Reg.SCION_S_STATUS sc) 16 then s else updSc s sc fun r => { r with fullAt := s.now }
      (false, wrB s (Reg.SCION_S_STATUS sc) 16 true)
    else
      let s := updSc s sc fun r => { r with queue := r.queue ++ [t] }
      let s := wrB (noteHeldCells s sc) (Reg.SCION_S_STATUS sc) 16 false
      (true, scionPump s sc ((scionRec s sc).queue.length))

/-- Requests waiting at a shareable port, taken in order as far as there is room (R476). -/
def scionWaiting (s : State) (p : Nat) : Nat → State
  | 0 => s
  | n + 1 =>
    match s.scion.wait.get p with
    | [] => s
    | (sc, t) :: rest =>
      let r := scionTake s p t
      if r.1 then scionWaiting (updScion r.2 fun x => { x with wait := x.wait.set p rest }) p n
      else updScion r.2 fun x => { x with wait := x.wait.set p ((sc, t) :: rest) }

/-- Every queue and every waiting port tried. -/
def scionGo (s : State) : State :=
  let s := (liveScions s).foldl (fun s sc => scionPump s sc ((scionRec s sc).queue.length)) s
  s.scion.wait.keys.foldl (fun s p => scionWaiting s p (s.scion.wait.get p).length) s

/-! ### The reset procedure (R477 to R480) -/

/-- Step 2: the host's requests to the scion of the generation just past complete with UR, issued to the device or still waiting at its
port. -/
def hostReqsEnd (s : State) (sc : Nat) : State :=
  let p := devPort s (scDev s sc)
  let k := scHost s sc
  let past (x : Option (Nat × Nat)) : Bool := decide (x = some (sc, (scionGen s sc + 255) % 256))
  let waits := (s.fwd.tx.get p).filter fun e => past e.scion
  let s := ((s.fwd.cmap.get p).filter fun c => past c.scion).foldl (fun s c => emit s (.cpl (upPort s k) c.reqId c.origTag 1 false [])) s
  let s := updFwd s fun x => { x with tx := x.tx.upd p fun l => l.filter fun e => !(past e.scion) }
  waits.foldl (fun s e => freeEntry (emit s (.cpl (upPort s k) e.f.tspec0.toNat (getF (reqWord e.f) 9 0) 1 false [])) e) s

/-- A request of the scion lost at its reset: counted, and completed to the device with UR when it is non-posted (R478 step 1). -/
def scionLose (s : State) (sc : Nat) (f : Frame) : State :=
  let s := bump s (Reg.SCION_S_DISCARD sc)
  if f.typ ≠ 1 then s
  else match (scionRec s sc).reads.find? fun r => r.tag == getF (reqWord f) 9 0 with
    | some r =>
      emit (updSc s sc fun x => { x with reads := x.reads.erase r }) (.cpl (devPort s (scDev s sc)) r.devReq r.devTag 1 false [])
    | none => s

/-- The scion's requests that wait at unit 96, in an egress queue, or for their issue on a PCI Express port: not yet sent (R478 step 1). -/
def scionSweep (s : State) (sc : Nat) : State :=
  let held := (s.hedge.held.get 96).filter fun a => a.scion == some sc
  let s := updHedge s fun h => { h with held := h.held.upd 96 fun l => l.filter fun a => !(a.scion == some sc) }
  let s := held.foldl (fun s a => scionLose s sc a.f) s
  let s := s.fwd.queue.keys.foldl (fun s key =>
    let r := takeQueue s (key / 8) (key % 8) fun e => e.mapper == some sc
    r.1.foldl (fun s e => scionLose (dropEntry s e) sc e.f) r.2) s
  (s.fwd.tx.keys.filter (isPcie s)).foldl (fun s p =>
    let out := (s.fwd.tx.get p).filter fun e => e.mapper == some sc
    let s := updFwd s fun x => { x with tx := x.tx.upd p fun l => l.filter fun e => !(e.mapper == some sc) }
    out.foldl (fun s e => scionLose (freeEntry s e) sc e.f) s) s

/-- The log at a reset: a sync asked for completes first (R485). -/
def dirtyReset (s : State) (sc : Nat) : State :=
  if (scionRec s sc).dirty.any fun l => decide (l.syncs ≠ []) then updDirty s sc fun l => { l with ending := true } else dirtyEnd s sc

/-- Steps 1 to 3 of R478. -/
def resetSteps (s : State) (sc : Nat) : State :=
  let p := devPort s (scDev s sc)
  let s := bumpGen s sc
  let q := (scionRec s sc).queue
  let s := noteHeldCells (updSc s sc fun r => { r with queue := [] }) sc
  let s := scionSweep (q.foldl (fun s t => scionRefuse s p (Reg.SCION_S_DISCARD sc) t) s) sc
  let s := hostReqsEnd s sc
  let s := wrB (wrB s (Reg.SCION_S_STATUS sc) 12 false) (Reg.SCION_S_STATUS sc) 16 false
  let s := instWrite s sc 0x04 2
  let s := dirtyReset s sc
  scionWaiting s p (s.scion.wait.get p).length

/-- The reset procedure begins, or a trigger joins the one in progress (R477, R478, R485). -/
def scionResetGo (s : State) (sc : Nat) (removes contain byDpc : Bool) (w : Option (ReqSrc × Nat)) : State :=
  let r := scionRec s sc
  let add (s : State) : State := updSc s sc fun r => { r with
    waiters := r.waiters ++ w.toList, contain := r.contain || contain, byDpc := r.byDpc || byDpc }
  if !r.live then s
  else if r.resetAt.isSome then
    let s := add s
    if removes && !r.removes then setScState (updSc s sc fun r => { r with removes := true, again := true }) sc 4 else s
  else
    let s := add s
    let s := updSc s sc fun r => { r with resetAt := some s.now, removes := removes }
    resetSteps (setScState s sc (if removes then 4 else 2)) sc

/-- A host's Memory Space Enable, MSI-X table and the queue at reset values (R471, R478 step 5). -/
def scionClean (s : State) (sc : Nat) : State :=
  let s := cfgClear (wrB s (Reg.SCION_S_STATUS sc) 13 false) (scHost s sc) (scFn sc)
  updSc s sc fun r => { r with mse := false, table := .empty, mask := 0, pend := 0, queue := [] }

/-- What the waiting requests are told (R478 step 6). -/
def scionReplies (s : State) (sc : Nat) : State :=
  let ws := (scionRec s sc).waiters
  ws.foldl (fun s w => reply s w.1 w.2 0x00 []) (updSc s sc fun r => { r with waiters := [] })

/-- Slot p_k of unit 96 made valid with host k's envelope, or invalid (R470 step 2, R480). -/
def scionSlot (s : State) (k : Nat) (on : Bool) : HedgeEntry :=
  let p := upPort s k
  { slot := p, base := BitVec.ofNat 64 (rd64 s (Reg.HEDGE_E_BASE_LO 96 p)), limit := BitVec.ofNat 64 (rd64 s (Reg.HEDGE_E_LIMIT_LO 96 p)),
    perm := if on then BitVec.ofNat 4 (rdF s (Reg.HEDGE_E_PERM 96 p) 3 0) else 0 }

/-- A removal's last steps (R480): unbound, and its resources returned; host k's last scion takes the slot of unit 96 with it. A forced
one keeps its instance out of the pool (R479). A sync that could not end is in no state to (DESIGN CHOICE, log entry 120). -/
def scionGone (s : State) (sc : Nat) (forced : Bool) : State :=
  let k := scHost s sc
  let d := scDev s sc
  let i := scInst s sc
  let s := ((scionRec s sc).dirty.elim [] DirtySt.syncs).foldl (fun s x => reply s x.1 (if x.2 then 0x0606 else 0x0607) 0x07 []) s
  let s := scionPresence s sc false
  let s := wrN (wrN (wrN (wrN s (Reg.SCION_S_BIND sc) 0) (Reg.SCION_S_DB sc) 0) (Reg.SCION_S_VEC sc) 0) (Reg.SCION_S_QUOTA sc) 0
  let s := wrN (wrF (wrN s (Reg.SCION_S_STATUS sc) 0) (Reg.SCION_S_STATUS sc) 11 11 forced.toNat) (Reg.SCION_S_PASID sc) 0
  let s := updScion s fun x => { x with
    recs := x.recs.set sc {}, stuck := if forced then x.stuck ++ [(sc, d, i)] else x.stuck }
  let s := if (liveScions s).any fun x => decide (scHost s x = k) then s
    else hedgeQueue s 96 { es := [scionSlot s k false], scion := some (sc, false) }
  noteScions s

/-- Steps 5 and 6 of R478, or the forced end of R479. -/
def scionResetEnd (s : State) (sc : Nat) (forced : Bool) : State :=
  let r := scionRec s sc
  let k := scHost s sc
  if r.resetAt.isNone then s
  else if r.again then
    resetSteps (updSc s sc fun r => { r with again := false, resetAt := some s.now }) sc
  else
    let s := count (bump s (Reg.SCION_S_RESETS sc)) (80 + k) 16
    let s := wrB s (Reg.SCION_S_STATUS sc) 11 forced
    let s := if forced then fault s 15 0x02 2 2 sc 0 else s
    let s := updSc (scionClean s sc) sc fun r => { r with resetAt := none, contain := false }
    let ev := (scionRec s sc).ev
    if r.removes then
      let s := scionReplies s sc
      let s := scionGone s sc forced
      if ev = 0 then s else msix s k ev
    else
      let s := if forced || r.contain then setScState s sc 3
        else
          let s := instWrite s sc 0x00 (rd s (Reg.SCION_S_PASID sc))
          setScState (instWrite s sc 0x04 1) sc 1
      scionEvent (scionReplies s sc) sc

/-- Older-generation requests of a scion are all complete. -/
def oldReadsDone (s : State) (sc : Nat) : Bool := (scionRec s sc).reads.all fun r => decide (r.gen = scionGen s sc)

/-! ### The device (R466) -/

/-- What a device showed covers its DEVICES entry (R466, R467). -/
def devCovers (pol : Config.DevPol) (i : DevIn) : Bool :=
  i.meets && decide (pol.scions ≤ i.inst) && decide (pol.db ≤ i.pages) && decide (pol.queues ≤ i.queues) && decide (pol.vec ≤ i.vec)

/-- A shareable device taken over: its MSI-X entries and every instance's ENABLE written; READY, or FAILED with a U fault (R466). -/
def deviceTake (s : State) (info : DevIn) : State :=
  let d := info.dev
  let pol := devPol s d
  let s := updScion s fun x => { x with devs := x.devs.set d info }
  if devCovers pol info then
    let s := (List.range pol.vec).foldl (fun s v =>
      emit s (.tlp (devPort s d) { kind := .write, addr := BitVec.ofNat 64 (info.msix + 16 * v), len := 12,
                                   reqId := farRequester (devPort s d), data := [0xFEF00000, 0, w32 v] })) s
    let s := (List.range info.inst).foldl (fun s i => devWrite s d (info.ctrl + 64 * i + 4) 0) s
    noteScions (wrF s (Reg.SCION_D_STATE d) 1 0 1)
  else faultP (wrF s (Reg.SCION_D_STATE d) 1 0 2) 15 0x03 2 (devPort s d) 0

end Sys2Proof.Machine
end

