-- ==== Sys2Proof/Machine/Scion.lean ====
section
/-! DEFINITION. The commands of scions (R466 to R484), and the refill of every shaper (R254, R475). -/

namespace Sys2Proof.Machine

open Sys2Proof

/-! ### Creation (R468, R470) -/

/-- The envelope of host k on device d (R65). -/
def devEnv (s : State) (d k : Nat) : Config.DevEnv := (((devPol s d).hosts.find? fun h => h.1 == k).map Prod.snd).getD {}

/-- The live scions of host k on device d. -/
def envScions (s : State) (d k : Nat) : List Nat := (devScions s d).filter fun sc => decide (scHost s sc = k)

/-- A power of two. -/
def isPow2 (n : Nat) : Bool := (List.range 17).any fun i => decide (n = 2 ^ i)

/-- The fields of a creation are in their ranges (R468). -/
def createForm (dev vdsp dbCount vecCount queues cells size evVec : Nat) : Bool :=
  decide (dev < 64) && decide (vdsp < 64) && isPow2 dbCount && decide (1 ≤ vecCount ∧ vecCount ≤ 64) && decide (1 ≤ queues)
    && decide (16 ≤ cells ∧ cells ≤ 4096) && decide (65 ≤ size) && (decide (evVec = 0) || decide (4 ≤ evVec ∧ evVec ≤ 63))

/-- A creation lies inside host k's envelope, summed over its live scions, and inside the device pool (R65, R467, R468). -/
def createEnv (s : State) (d k dbCount vecCount queues cells rate : Nat) : Bool :=
  let e := devEnv s d k
  let mine := envScions s d k
  let sum (f : Nat → Nat) : Nat := (mine.map f).sum
  decide (mine.length + 1 ≤ e.scions)
    && decide (sum (fun sc => rdF s (Reg.SCION_S_DB sc) 31 16) + dbCount ≤ e.db)
    && decide (sum (fun sc => rdF s (Reg.SCION_S_VEC sc) 17 11) + vecCount ≤ e.vec)
    && decide (sum (fun sc => (scionRec s sc).qCount) + queues ≤ e.queues)
    && decide (sum (fun sc => rdF s (Reg.SCION_S_QUOTA sc) 12 0) + cells ≤ e.cells)
    && decide (1 ≤ rate ∧ rate ≤ min e.rate (devPol s d).rateMax)
    && decide (quotaCells s d + cells ≤ (devPol s d).cells)

/-- The vDSP is bound to a scion position with no scion bound (R468). -/
def vdspFree (s : State) (k j : Nat) : Bool :=
  decide ((vdspOf s k j).kind = 3) && !((liveScions s).any fun sc => decide (scHost s sc = k) && decide (scVdsp s sc = j))

/-- Steps 3 to 6 of R470. -/
def createEnd (s : State) (sc : Nat) (q : ReqSrc) : State :=
  let r := scionRec s sc
  let s := instWrite s sc 0x00 (rd s (Reg.SCION_S_PASID sc))
  let s := instWrite s sc 0x08 (w32 (r.qFirst + r.qCount * 2 ^ 16))
  let s := instWrite s sc 0x0C (rd s (Reg.SCION_S_DB sc))
  let s := instWrite (instWrite s sc 0x10 (w32 r.rate)) sc 0x04 1
  let s := updSc s sc fun r => { r with making := none, tokens := r.size * 64 * 200 }
  let s := scionPresence (setScState s sc 1) sc true
  reply (noteScions s) q 0x0601 0x00 [w32 sc, w32 (scInst s sc), w32 (scionGen s sc)]

/-- The lowest free scion number. -/
def freeScion (s : State) : Option Nat :=
  searchUp (fun n => decide (n < 2048) && !(scionRec s n).live && !(s.scion.stuck.any fun x => x.1 == n)) 2049 0

/-- Steps 1 and 2 of R470: the resources are taken; a host's first scion makes its slot of unit 96 valid first. -/
def createGo (s : State) (q : ReqSrc) (d vdsp sc inst db vec qu dbCount vecCount queues cells rate size evVec : Nat) : State :=
  let k := q.host
  let first := !((liveScions s).any fun x => decide (scHost s x = k) && (scionRec s x).making.isNone)
  let s := wrN s (Reg.SCION_S_BIND sc) (k + vdsp * 2 ^ 5 + d * 2 ^ 11 + inst * 2 ^ 17)
  let s := wrN s (Reg.SCION_S_DB sc) (db + dbCount * 2 ^ 16)
  let s := wrN s (Reg.SCION_S_VEC sc) (vec + vecCount * 2 ^ 11)
  let s := wrN (wrN s (Reg.SCION_S_QUOTA sc) cells) (Reg.SCION_S_PASID sc) (instPasid 0 inst)
  let s := updSc s sc fun _ => { live := true, making := some q, qFirst := qu, qCount := queues, rate := rate, size := size, ev := evVec }
  if first then hedgeQueue s 96 { q := some q, es := [scionSlot s k true], scion := some (sc, true) } else createEnd s sc q

/-- SCION_CREATE (R468, R470). -/
def execScionCreate (q : ReqSrc) (dev vdsp dbCount vecCount queues cells : Nat) (rate : BitVec 21) (size : BitVec 18) (evVec : Nat)
    (s : State) : Res :=
  .next (serve s q 0x0601 { h := true } false false fun s =>
    let k := q.host
    if !(createForm dev vdsp dbCount vecCount queues cells size.toNat evVec) then reply s q 0x0601 0x03 []
    else if !(devPol s dev).present then reply s q 0x0601 0x08 []
    else if !(rdB s (Reg.SCION_D_STATE dev) 0) then reply s q 0x0601 0x0B []
    else if !(vdspFree s k vdsp) then reply s q 0x0601 0x07 []
    else if !(createEnv s dev k dbCount vecCount queues cells rate.toNat) then reply s q 0x0601 0x04 []
    else
      match freeScion s, freeInst s dev, lowestRun (dbRuns s dev) dbCount (devPol s dev).db,
        lowestRun (vecRuns s dev) vecCount (devPol s dev).vec, lowestRun (qRuns s dev) queues (devPol s dev).queues with
      | some sc, some i, some db, some vec, some qu =>
        createGo s q dev vdsp sc i db vec qu dbCount vecCount queues cells rate.toNat size.toNat evVec
      | none, _, _, _, _ => reply s q 0x0601 0x06 []
      | _, _, _, _, _ => reply s q 0x0601 0x04 [])

/-- A creation whose rule change was abandoned four times gives its resources back (R429). -/
def createUndo (s : State) (sc : Nat) : State :=
  let s := wrN (wrN (wrN (wrN (wrN s (Reg.SCION_S_BIND sc) 0) (Reg.SCION_S_DB sc) 0) (Reg.SCION_S_VEC sc) 0) (Reg.SCION_S_QUOTA sc) 0)
    (Reg.SCION_S_PASID sc) 0
  noteScions (updScion s fun x => { x with recs := x.recs.set sc {} })

/-! ### Reset and removal (R477 to R480) -/

/-- A scion the issuer may name: its host's, or any for the manager where the request allows it (R539). -/
def scionMine (s : State) (q : ReqSrc) (sc : Nat) (mgrToo : Bool) : Bool :=
  decide (sc < 2048) && (scionRec s sc).live && (scionRec s sc).making.isNone
    && (decide (scHost s sc = q.host) || (mgrToo && decide (q.host = mgr s)))

/-- SCION_RESET (R477): the reply follows the procedure. -/
def execScionReset (q : ReqSrc) (sc : Nat) (s : State) : Res :=
  .next (serve s q 0x0602 { h := true, m := true } false false fun s =>
    if !(scionMine s q sc true) then notFound s q 0x0602 2 sc else scionResetGo s sc false false false (some (q, 0x0602)))

/-- SCION_REMOVE (R477, R480). -/
def execScionRemove (q : ReqSrc) (sc : Nat) (s : State) : Res :=
  .next (serve s q 0x0603 { h := true, m := true } false false fun s =>
    if !(scionMine s q sc true) then notFound s q 0x0603 2 sc else scionResetGo s sc true false false (some (q, 0x0603)))

/-- SCION_SHAPE (R256, R475, R485): RATE and SIZE inside R468, T at S or at 0 by FILL, copied to the instance block; a contained scion refuses it. -/
def execScionShape (q : ReqSrc) (sc : Nat) (rate : BitVec 21) (size : BitVec 18) (fill : Bool) (s : State) : Res :=
  .next (serve s q 0x0604 { h := true } false false fun s =>
    if !(scionMine s q sc false) then notFound s q 0x0604 2 sc
    else if size.toNat < 65 || rate = 0 then reply s q 0x0604 0x03 []
    else if min (devEnv s (scDev s sc) q.host).rate (devPol s (scDev s sc)).rateMax < rate.toNat then reply s q 0x0604 0x04 []
    else if scState s sc ≠ 1 then reply s q 0x0604 0x07 []
    else
      let cap : Int := size.toNat * 64 * 200
      let s := updSc s sc fun r => { r with
        rate := rate.toNat, size := size.toNat, tokens := if fill then cap else 0 }
      reply (scionGo (instWrite s sc 0x10 (w32 rate.toNat))) q 0x0604 0x00 [])

/-- SCION_QUIESCED (R478): the switch reads QUIESCED, again and again, as 1; with every older read complete the procedure ends. An instance kept out of its pool
returns to it (R479). -/
def execScionQuiesced (sc : Nat) (s : State) : Res :=
  if s.scion.stuck.any fun x => x.1 == sc then
    .next (noteScions (updScion s fun x => { x with stuck := x.stuck.filter fun y => !(y.1 == sc) }))
  else if (scionRec s sc).resetAt.isNone then .next s
  else
    let s := wrB s (Reg.SCION_S_STATUS sc) 12 true
    if oldReadsDone s sc then .next (scionResetEnd s sc false) else .next s

/-- SCION_QUIESCE_TIMEOUT (R478 step 4, R479): 10 ms after the reset began, open reads time out and their tags are held; the procedure
ends, by force while QUIESCED is 0. -/
def execScionQuiesceTimeout (sc : Nat) (s : State) : Res :=
  match (scionRec s sc).resetAt with
  | none => .next s
  | some t =>
    let s := timeTo s (t + 16000000)
    let g := scionGen s sc
    let s := updSc s sc fun r => { r with
      heldTags := r.heldTags ++ (r.reads.filter fun x => decide (x.gen ≠ g)).map fun x => (x.tag, s.now + 16000000)
      reads := r.reads.filter fun x => decide (x.gen = g) }
    .next (scionResetEnd s sc (!(rdB s (Reg.SCION_S_STATUS sc) 12)))

/-- SCION_TAG_HOLD_EXPIRY (R478): a further 10 ms later the tag of a timed-out read returns to use. -/
def execScionTagHoldExpiry (sc tag : Nat) (s : State) : Res :=
  match (scionRec s sc).heldTags.find? fun t => t.1 == tag with
  | some t => .next (scionGo (updSc (timeTo s t.2) sc fun r => { r with heldTags := r.heldTags.filter fun x => decide (x ≠ t) }))
  | none => .next s

/-! ### A host's and a device's requests (R472 to R476) -/

/-- The power state of a scion's function, as its host has written it: 0 D0, 3 D3hot (R471). -/
def scD (s : State) (sc : Nat) : Nat := getF (cfgV s (scHost s sc) (scFn sc) capPm 4) 1 0

/-- The end of a scion's doorbell pages in its BAR0. -/
def dbEnd (s : State) (sc : Nat) : Nat := rdF s (Reg.SCION_S_DB sc) 31 16 * 2 ^ (devInfo s (scDev s sc)).log2

/-- A word of the MSI-X page read, and one written (R471, R472): `o` from the page's start. -/
def msixGet (s : State) (sc o : Nat) : Word :=
  let r := scionRec s sc
  if 2048 ≤ o then (if o = 2048 then lo32 r.pend else if o = 2052 then hi32 r.pend else 0) else r.table.get (o / 4)
def msixPut (s : State) (sc o : Nat) (v : Word) : State :=
  if 16 * rdF s (Reg.SCION_S_VEC sc) 17 11 ≤ o then s
  else
    let s := updSc s sc fun r => { r with table := r.table.set (o / 4) v }
    if o % 16 = 12 then scionPending (updSc s sc fun r => { r with mask := setBitN r.mask (o / 16) (v.getLsbD 0) }) sc else s

/-- A request completed to host k with UR, or discarded when it is posted. -/
def hostUr (s : State) (k : Nat) (t : Tlp) : State :=
  if t.kind = .read || t.kind = .atomic then emit s (.cpl (upPort s k) t.reqId.toNat t.tag.toNat 1 false []) else s

/-- A host's access of the MSI-X page, which the switch serves itself (R471, R472); an AtomicOp there is unsupported. -/
def msixPage (s : State) (sc o : Nat) (t : Tlp) : State :=
  let k := scHost s sc
  if t.kind = .atomic then hostUr s k t
  else if t.kind = .read then
    emit s (.cpl (upPort s k) t.reqId.toNat t.tag.toNat 0 false ((List.range ((t.len + 3) / 4)).map fun i => msixGet s sc (o / 4 * 4 + 4 * i)))
  else ((List.range t.data.length).zip t.data).foldl (fun s x => msixPut s sc (o / 4 * 4 + 4 * x.1) x.2) s

/-- A host's non-posted request to a scion's doorbell pages issued on the device's port, its completion's way kept with the scion's GEN; while
all 768 map entries are in use it waits at the port for NONPOSTED_ISSUE (R31, R212, R472). `t` has the device's address. -/
def scionAsk (s : State) (sc p : Nat) (t : Tlp) : State :=
  let up := upPort s (scHost s sc)
  if 768 ≤ (s.fwd.cmap.get p).length + (s.fwd.tx.get p).length then
    let f := tlpFrame s up t (swId s) p t.addr.toNat ((t.len + 3) / 4) t.data
    let r := allocFrame s up f none true
    updFwd r.2 fun x => { x with tx := x.tx.upd p fun l => l ++ [{ r.1 with scion := some (sc, scionGen s sc) }] }
  else
    let n := freeMapTag s p
    let c : CmapEntry := { tag := n, srcSw := swId s, srcPort := up, reqId := t.reqId.toNat, origTag := t.tag.toNat, bytes := t.len
                           low := t.addr.toNat % 128, tcl := t.tcField.toNat, scion := some (sc, scionGen s sc) }
    let s := updFwd s fun x => { x with cmap := x.cmap.upd p fun l => l ++ [c] }
    emit s (.tlp p { t with reqId := farRequester p, tag := BitVec.ofNat 10 n, pasid := none })

/-- SCION_HOST_REQUEST (R472): a memory request of the host at an offset of the scion's BAR0, to the device's doorbells under the port's own
requester, or to the MSI-X page; UR while the scion resets, its Memory Space Enable is 0 or it is in D3hot. -/
def execScionHostRequest (sc off : Nat) (t : Tlp) (s : State) : Res :=
  let d := scDev s sc
  let p := devPort s d
  let r := scionRec s sc
  if !r.live || inCloche s then .next s
  else if scState s sc ≠ 1 || !r.mse || scD s sc ≠ 0 || dbEnd s sc + 4096 ≤ off then .next (hostUr s (scHost s sc) t)
  else if dbEnd s sc ≤ off then .next (msixPage s sc (off - dbEnd s sc) t)
  else
    let t := { t with addr := BitVec.ofNat 64 ((devInfo s d).db + rdF s (Reg.SCION_S_DB sc) 15 0 * 2 ^ (devInfo s d).log2 + off) }
    if t.kind = .read || t.kind = .atomic then .next (scionAsk s sc p t)
    else .next (emit s (.tlp p { t with reqId := farRequester p, pasid := none }))

/-- SCION_DEVICE_REQUEST (R473, R475, R476): matched by PASID, refused, queued, or waiting behind a full queue. -/
def execScionDeviceRequest (p : Nat) (t : Tlp) (s : State) : Res :=
  if inCloche s || portRole s p ≠ 2 then .next s
  else
    let s := countIn s p 0 (tlpB t)
    if s.scion.wait.get p ≠ [] then
      .next (updScion s fun x => { x with wait := x.wait.upd p fun l => l ++ [((scionOf s p t).getD 2048, t)] })
    else
      let r := scionTake s p t
      if r.1 then .next r.2
      else .next (updScion r.2 fun x => { x with wait := x.wait.set p [((scionOf s p t).getD 2048, t)] })

/-- SCION_DEVICE_MSIX (R474): the scion that owns the data signals its entry. -/
def execScionDeviceMsix (p v : Nat) (s : State) : Res :=
  match devOfPort s p with
  | none => .next s
  | some d =>
    let owns (sc : Nat) : Bool :=
      decide (rdF s (Reg.SCION_S_VEC sc) 10 0 ≤ v) && decide (v < rdF s (Reg.SCION_S_VEC sc) 10 0 + rdF s (Reg.SCION_S_VEC sc) 17 11)
    match (devScions s d).find? owns with
    | none => .next (bump s (Reg.SCION_D_NO_SCION d))
    | some sc => .next (scionMsi s sc (v - rdF s (Reg.SCION_S_VEC sc) 10 0))

/-- SCION_QUEUE_WAIT_EXPIRY (R476): a request has waited 1 ms, so its scion is contained. -/
def execScionQueueWaitExpiry (sc : Nat) (s : State) : Res :=
  if rdB s (Reg.SCION_S_STATUS sc) 16 && (scionRec s sc).live then
    .next (scionResetGo (fault (timeTo s ((scionRec s sc).fullAt + 1600000)) 15 0x01 2 2 sc 0) sc false true false none)
  else .next s

/-! ### The log (R482 to R484) -/

/-- DIRTY_START (R482). -/
def execDirtyStart (q : ReqSrc) (sc : Nat) (base : BitVec 64) (log2 : Nat) (bufA bufB : BitVec 64) (pasid : Option (BitVec 20))
    (s : State) : Res :=
  .next (serve s q 0x0605 { h := true } false false fun s =>
    if !(scionMine s q sc false) then notFound s q 0x0605 2 sc
    else if log2 < 21 || 40 < log2 || decide (base.toNat % 2 ^ log2 ≠ 0) || decide (bufA.toNat % 4096 ≠ 0) || decide (bufB.toNat % 4096 ≠ 0) then
      reply s q 0x0605 0x03 []
    else if (scionRec s sc).dirty.isSome || decide (scState s sc ≠ 1) then reply s q 0x0605 0x07 []
    else if 256 ≤ (s.scion.recs.cells.filter fun c => c.2.dirty.isSome).length then reply s q 0x0605 0x06 []
    else
      let l : DirtySt := { base := base.toNat, log2 := log2, bufA := bufA.toNat, bufB := bufB.toNat, pasid := pasid }
      let s := updSc s sc fun r => { r with dirty := some l }
      let s := wrF s (Reg.SCION_S_STATUS sc) 15 14 1
      reply (noteScions s) q 0x0605 0x00 [])

/-- A sync asked for: it runs once the reads outstanding are back. -/
def dirtyAsk (s : State) (q : ReqSrc) (sc code : Nat) (stop : Bool) : State :=
  if !(scionMine s q sc false) then notFound s q code 2 sc
  else if (scionRec s sc).dirty.isNone then reply s q code 0x07 []
  else scionGo (dirtySyncGo (updDirty s sc fun l => { l with syncs := l.syncs ++ [(q, stop)] }) sc)

/-- DIRTY_STOP (R482). -/
def execDirtyStop (q : ReqSrc) (sc : Nat) (s : State) : Res :=
  .next (serve s q 0x0606 { h := true } false false fun s => dirtyAsk s q sc 0x0606 true)

/-- DIRTY_SYNC (R484). -/
def execDirtySync (q : ReqSrc) (sc : Nat) (s : State) : Res :=
  .next (serve s q 0x0607 { h := true } false false fun s => dirtyAsk s q sc 0x0607 false)

/-- DIRTY_WORD_FILL (R483): the word read is ORed with the bits that waited for it. -/
def execDirtyWordFill (sc wordIdx : Nat) (data : BitVec 64) (s : State) : Res :=
  match (scionRec s sc).dirty with
  | none => .next s
  | some l =>
    match l.want.find? fun w => w.1 == wordIdx with
    | none => .next s
    | some w =>
      let s := updDirty s sc fun l => { l with want := l.want.erase w, cache := l.cache ++ [(wordIdx, w.2 ||| data.toNat)] }
      .next (scionGo (dirtySyncGo s sc))

/-! ### A shared port (R481) -/

/-- A trigger on a shareable port: a U fault to the manager, every scion of the port reset and CONTAINED, the port to Disabled, where nothing
issued on it is answered any more (R481). -/
def sharedTrigger (s : State) (p : Nat) : State :=
  match devOfPort s p with
  | none => s
  | some d =>
    if rdB s (Reg.SCION_D_STATE d) 2 then s
    else
      let s := faultP s 4 0x03 2 p 0
      let s := wrB s (Reg.SCION_D_STATE d) 2 true
      let s := (devScions s d).foldl (fun s sc => scionResetGo s sc false true false none) s
      let s := updFwd s fun x => { x with cmap := x.cmap.set p [] }
      let s := updScion s fun x => { x with downAt := x.downAt.set p s.now }
      let s := wrB (wrF s (Reg.PCIE_STATUS p) 3 0 7) (Reg.PCIE_STATUS p) 10 false
      wrB s (Reg.PCIE_STATUS p) 11 true

/-- SHARED_PORT_TRIGGER (R481). -/
def execSharedPortTrigger (p : Nat) (s : State) : Res := .next (sharedTrigger s p)

/-- A scion of a shared port returned to ACTIVE with its new PASID, one whose reset was forced too; one that software contained stays so
(R481). -/
def sharedBack (s : State) (sc : Nat) : State :=
  let r := scionRec s sc
  let s := updSc s sc fun r => { r with contain := r.byDpc }
  if r.resetAt.isSome then scionResetEnd s sc false
  else if scState s sc = 3 && !r.byDpc then
    let s := instWrite s sc 0x00 (rd s (Reg.SCION_S_PASID sc))
    scionEvent (setScState (instWrite s sc 0x04 1) sc 1) sc
  else s

/-- SHARED_PORT_RETRAIN_EXPIRY (R481): 10 ms later the port retrains and the device is taken over; its scions return to ACTIVE, or stay
CONTAINED when R466 fails. -/
def execSharedPortRetrainExpiry (p : Nat) (ok : Bool) (s : State) : Res :=
  match devOfPort s p with
  | none => .next s
  | some d =>
    if !(rdB s (Reg.SCION_D_STATE d) 2) then .next s
    else
      let s := timeTo s (s.scion.downAt.get p + 16000000)
      let s := wrB (wrB s (Reg.SCION_D_STATE d) 2 false) (Reg.PCIE_STATUS p) 11 false
      let s := wrB (wrF s (Reg.PCIE_STATUS p) 3 0 (if ok then 3 else 0)) (Reg.PCIE_STATUS p) 10 ok
      let s := updScion s fun x => { x with stuck := x.stuck.filter fun y => !(y.2.1 == d) }
      let s := deviceTake s { devInfo s d with dev := d, meets := ok }
      if rdB s (Reg.SCION_D_STATE d) 0 then .next (scionGo (noteScions ((devScions s d).foldl sharedBack s))) else .next s

/-! ### Shapers -/

/-- A scion's shaper refilled: R × 40 ns of bytes, capped at S (R254, R475). -/
def refillScion (r : ScionRec) : ScionRec := { r with tokens := min (r.tokens + (r.rate : Int)) ((r.size * 64 * 200 : Nat) : Int) }

/-- SHAPER_REFILL (R254, R256, R475): every 40 ns, each queue's shaper and each scion's. -/
def execShaperRefill (s : State) : Res :=
  let s := nextTick s 64
  let s := (s.seed.policy.nzPorts ++ s.seed.policy.pciePorts).foldl (fun s p =>
    (List.range 8).foldl (fun s t => refillOne s p t) s) s
  let s := updScion s fun x => { x with recs := x.recs.mapVals fun _ r => if r.live then refillScion r else r }
  .next (scionGo s)

end Sys2Proof.Machine
end

