-- ==== Sys2Proof/Machine/Hedge.lean ====
section
/-! DEFINITION. The commands of hedge units and peer windows (R427 to R436). -/

namespace Sys2Proof.Machine

open Sys2Proof

/-- The form of a rule request: 1 to 8 distinct slots, 64-byte aligned bounds, LIMIT at least BASE (R419, R427). -/
def ruleForm (unit : Nat) (es : List HedgeEntry) : Bool :=
  decide (unit ≤ 96) && decide (1 ≤ es.length ∧ es.length ≤ 8) && (es.map HedgeEntry.slot).eraseDups.length == es.length
    && es.all fun e => decide (e.slot < 128) && decide (e.base.toNat % 64 = 0) && decide (e.limit.toNat % 64 = 0)
      && (e.perm = 0 || decide (e.base.toNat ≤ e.limit.toNat))

/-- A new slot lies inside its envelope: not fixed, its range and permissions within (R420, R427). -/
def ruleEnv (s : State) (u : Nat) (e : HedgeEntry) : Bool :=
  let m := Reg.HEDGE_E_PERM u e.slot
  let p := rdF s m 3 0
  decide (e.slot ≤ 113) && !(rdB s (Reg.HEDGE_S_CTRL u e.slot) 5) && !(rdB s m 4) && decide (p ≠ 0)
    && (e.perm = 0 || (decide (e.perm.toNat &&& p = e.perm.toNat) && decide (rd64 s (Reg.HEDGE_E_BASE_LO u e.slot) ≤ e.base.toNat)
      && decide (e.limit.toNat ≤ rd64 s (Reg.HEDGE_E_LIMIT_LO u e.slot))))

/-- HEDGE_RULE (R427): refused outside an envelope, else queued on its unit. -/
def execHedgeRule (q : ReqSrc) (unit : Nat) (es : List HedgeEntry) (s : State) : Res :=
  .next (serve s q 0x0301 { m := true } false false fun s =>
    if !(ruleForm unit es) then reply s q 0x0301 0x03 []
    else if unit = 96 || !(es.all fun e => ruleEnv s unit e) then reply s q 0x0301 0x04 []
    else hedgeQueue s unit { q := some q, es := es })

/-- What a committed request leads to: its reply, or the rest of a scion's creation (R428 step 6, R470). -/
def ruleDone (s : State) (r : HedgeReq) : State :=
  match r.scion, r.q with
  | some (sc, true), some q => if (scionRec s sc).making.isSome then createEnd s sc q else s
  | some _, _ => s
  | none, some q => reply s q 0x0301 0x00 []
  | none, none => s

/-- HEDGE_INFLIGHT_DRAINED (R428): INFLIGHT is 0 on every slot changed, so the new slots are committed and the hold ends. -/
def execHedgeInflightDrained (unit : Nat) (s : State) : Res :=
  match unitReq s unit with
  | none => .next s
  | some r =>
    if hedgeHolds s unit && drained s unit r then .next (hedgeNext (ruleDone (hedgeCommit s unit r) r) unit) else .next s

/-- A request given up after four attempts: BUSY (R429); a scion's creation gives its resources back. -/
def ruleBusy (s : State) (r : HedgeReq) : State :=
  match r.scion, r.q with
  | some (sc, true), some q => reply (createUndo s sc) q 0x0601 0x05 []
  | some _, _ => s
  | none, some q => reply s q 0x0301 0x05 []
  | none, none => s

/-- HEDGE_HOLD_EXPIRY (R429): 2 µs after step 1 the attempt is abandoned; the fourth ends the request. The slot of a host's last scion is
tried without end, since no request waits for it. -/
def execHedgeHoldExpiry (unit : Nat) (s : State) : Res :=
  match unitReq s unit with
  | none => .next s
  | some r =>
    if !(hedgeHolds s unit) then .next s
    else
      let s := timeTo s ((s.hedge.holdAt.get unit).getD s.now + 3200)
      let n := attempt s unit
      let s := hedgeAbandon s unit
      if 4 ≤ n && r.q.isSome then .next (hedgeNext (ruleBusy s r) unit)
      else if 4 ≤ n then .next (wrF s (Reg.HEDGE_U_STATUS unit) 10 8 0)
      else .next s

/-- HEDGE_RETRY_EXPIRY (R429, R431): 50 µs after an abandoned attempt, or after stand-down, the unit holds again. -/
def execHedgeRetryExpiry (unit : Nat) (s : State) : Res :=
  if hedgeHolds s unit || s.hedge.reqs.get unit = [] || braced s then .next s
  else .next (hedgeStart (timeTo s (s.hedge.retryAt.get unit)) unit)

/-! ### Peer windows (R432, R435, R436) -/

/-- Window i of host k's shadow set (set 1) or active set (set 0): VALID, SRC_BASE, SRC_LIMIT, TGT_BASE, TARGET. -/
def pwOf (s : State) (k set w : Nat) : Bool × Nat × Nat × Nat × Nat :=
  let c := Reg.HEDGE_PW_CTRL k set w
  (rdB s c 0, rd64 s (Reg.HEDGE_PW_SRC_BASE_LO k set w), rd64 s (Reg.HEDGE_PW_SRC_LIMIT_LO k set w),
   rd64 s (Reg.HEDGE_PW_TGT_BASE_LO k set w), rdF s c 7 1)

/-- SHADOW_DIRTY follows (R439). -/
def notePw (s : State) (k : Nat) : State :=
  wrB s (Reg.HEDGE_PW_STATUS k) 8 ((List.range 32).any fun w => decide (pwOf s k 0 w ≠ pwOf s k 1 w))

/-- PW_SET (R432, R435): one shadow window written. -/
def execPwSet (q : ReqSrc) (w : Nat) (valid : Bool) (srcBase srcLimit tgtBase : BitVec 64) (target : Nat) (s : State) : Res :=
  .next (serve s q 0x0302 { h := true } false false fun s =>
    let page (v : BitVec 64) : Bool := decide (v.toNat % 4096 = 0)
    if 32 ≤ w || !(page srcBase) || !(page srcLimit) || !(page tgtBase) || 111 < target || (valid && decide (srcLimit.toNat < srcBase.toNat)) then
      reply s q 0x0302 0x03 []
    else
      let k := q.host
      let s := wr64 s (Reg.HEDGE_PW_SRC_BASE_LO k 1 w) srcBase.toNat
      let s := wr64 s (Reg.HEDGE_PW_SRC_LIMIT_LO k 1 w) srcLimit.toNat
      let s := wr64 s (Reg.HEDGE_PW_TGT_BASE_LO k 1 w) tgtBase.toNat
      let s := wrN s (Reg.HEDGE_PW_CTRL k 1 w) (valid.toNat + target * 2)
      reply (notePw s k) q 0x0302 0x00 [])

/-- A valid shadow window's target range lies inside one permitted range (R435). -/
def pwPermitted (s : State) (k w : Nat) : Bool :=
  let x := pwOf s k 1 w
  !x.1 || (hostPol s k).pwRanges.any fun r =>
    decide (r.1 = x.2.2.2.2) && decide (r.2.1 ≤ x.2.2.2.1) && decide (x.2.2.2.1 + (x.2.2.1 - x.2.1) + 4095 ≤ r.2.2 + 4095)

/-- Two valid shadow windows overlap (R432). -/
def pwOverlap (s : State) (k : Nat) : Bool :=
  (List.range 32).any fun i => (List.range i).any fun j =>
    let a := pwOf s k 1 i
    let b := pwOf s k 1 j
    a.1 && b.1 && decide (a.2.1 ≤ b.2.2.1) && decide (b.2.1 ≤ a.2.2.1)

/-- The shadow set copied over the active set (R436). -/
def pwCopy (s : State) (k : Nat) : State :=
  (List.range 32).foldl (fun s w =>
    let x := pwOf s k 1 w
    let s := wr64 s (Reg.HEDGE_PW_SRC_BASE_LO k 0 w) x.2.1
    let s := wr64 s (Reg.HEDGE_PW_SRC_LIMIT_LO k 0 w) x.2.2.1
    let s := wr64 s (Reg.HEDGE_PW_TGT_BASE_LO k 0 w) x.2.2.2.1
    wr s (Reg.HEDGE_PW_CTRL k 0 w) (rd s (Reg.HEDGE_PW_CTRL k 1 w))) s

/-- PW_COMMIT (R435, R436). -/
def execPwCommit (q : ReqSrc) (s : State) : Res :=
  .next (serve s q 0x0303 { h := true } false false fun s =>
    let k := q.host
    if !((List.range 32).all fun w => pwPermitted s k w) || pwOverlap s k then
      reply (bump s (Reg.HEDGE_PW_REFUSED k)) q 0x0303 0x04 []
    else
      let s := pwCopy s k
      let s := wrF s (Reg.HEDGE_PW_STATUS k) 7 0 (rdF s (Reg.HEDGE_PW_STATUS k) 7 0 + 1)
      reply (notePw (count s 124 5) k) q 0x0303 0x00 [])

end Sys2Proof.Machine
end

