-- ==== Sys2Proof/Machine/MefOps.lean ====
section
/-! DEFINITION. The management endpoint function as a requester and its resets: Bus Master Enable with work in flight, Function Level
Reset, the reset of a virtual hierarchy (R184 to R196), and what they do to remote memory (R408, R409). -/

namespace Sys2Proof.Machine

open Sys2Proof

/-- Fields of PCIE_MEF_STATE (R208). -/
def mefD (s : State) (k : Nat) : Nat := rdF s (Reg.PCIE_MEF_STATE (upPort s k)) 1 0
def setMefD (s : State) (k n : Nat) : State := wrF s (Reg.PCIE_MEF_STATE (upPort s k)) 1 0 n
def setBme (s : State) (k : Nat) (b : Bool) : State := wrB s (Reg.PCIE_MEF_STATE (upPort s k)) 2 b
def inFlr (s : State) (k : Nat) : Bool := rdB s (Reg.PCIE_MEF_STATE (upPort s k)) 4

/-- Pending MSI-X messages leave once Bus Master Enable and the mask allow (R186). -/
def msixPending (s : State) (k : Nat) : State :=
  (bitsOf 64 (s.pcie.mef.get k).msixPend).foldl (fun s v =>
    if mefBme s k && msixOpen s k v then
      count (emit (updMef s k fun m => { m with msixPend := setBitN m.msixPend v false }) (msixMsg s k v)) (80 + k) 17
    else s) s

/-! ### Work entries as fetched (R376) -/

/-- Sixteen words as a work entry. -/
def wqeOf (ws : List Word) (ep : Bool) : Wqe :=
  let w (i : Nat) : Word := ws.getD i 0
  let d (i : Nat) : BitVec 64 := BitVec.ofNat 64 ((w i).toNat + (w (i + 1)).toNat * 2 ^ 32)
  { op := BitVec.ofNat 8 (getF (w 0) 7 0), flags := BitVec.ofNat 8 (getF (w 0) 15 8), conn := w 1, wrId := d 2
    localKey := w 4, remoteKey := w 5, localOff := d 6, remoteOff := d 8, len := w 10
    target := BitVec.ofNat 16 (getF (w 11) 15 0)
    resv := decide (getF (w 0) 31 16 ≠ 0) || decide (getF (w 11) 31 16 ≠ 0) || ((List.range 4).any fun i => decide (w (12 + i) ≠ 0))
    ep := ep }

/-- The entries a fetch asked for, taken from its data in order. -/
def takeFetched (s : State) (k sq : Nat) (ep : Bool) : Nat → List Word → State
  | 0, _ => s
  | n + 1, ws => takeFetched (takeWqe s k sq (wqeOf (ws.take 16) ep)) k sq ep n (ws.drop 16)

/-- An entry whose fetch failed completes HOST_READ_FAIL; its WR_ID was never read and is a free value. -/
def failWqe (s : State) (k sq : Nat) : State :=
  let v := freshBits s 64
  let id := v.2.rme.nextMsg
  finishMsg (takeWqe v.2 k sq { wrId := v.1, resv := false, op := 3, ep := false }) id 0x0C

/-- Every entry of a failed fetch. -/
def failFetch (s : State) (k sq : Nat) : Nat → State
  | 0 => s
  | n + 1 => failFetch (failWqe s k sq) k sq n

/-! ### Reads that end (R192, R193, R408) -/

/-- A read of the MEF leaves its table: its tag and its cells are free, OLD_READS and TP follow, and a waiting read may leave. -/
def endRead (s : State) (k : Nat) (r : MefRd) : State :=
  readGo (mefTp (readFree (updMef s k fun m => { m with reads := m.reads.erase r }) r) k)

/-- The operation that issued a read goes on with its data, or fails. -/
def readGives (s : State) (k : Nat) (o : MefOwner) (ok poison : Bool) (data : List Word) : State :=
  match o with
  | .wqe sq =>
    let n := (s.rme.sq.get (1024 * k + sq)).fetching
    let s := if ok then takeFetched s k sq poison n data else failFetch s k sq n
    sqFetch (sqDestroy s (1024 * k + sq)) (1024 * k + sq)
  | .src key => srcDone s key ok data poison
  | .fill c => fillDone s c data ok poison
  | _ => s

/-- A read whose data was dropped as of an older generation: a fetch of work entries, a slot fill and a log's word are read again once Bus
Master Enable returns, source data fails (R408, R484). -/
def readLost (s : State) (k : Nat) (o : MefOwner) : State :=
  match o with
  | .src key => srcDone s key false [] false
  | o => updMef s k fun m => { m with readAgain := m.readAgain ++ [o] }

/-- A read asked for again under the generation in force (R408). -/
def askAgain (s : State) (k : Nat) (o : MefOwner) : State :=
  match o with
  | .wqe sq =>
    let q := s.rme.sq.get (1024 * k + sq)
    if q.fetching = 0 then s
    else engRead s (sq % 8) noConn k o (q.base + 64 * q.head) (64 * q.fetching) (some (BitVec.ofNat 20 q.pasid))
  | .fill c => if (ctxOf s c).filling then engRead s (connEng c) c k o (slotAddr s c) 256 (slotPasid s c) else s
  | .scion sc => match (scionRec s sc).dirty with
    | some l => match l.want with
      | w :: _ => mefRead s k o (activeBuf s sc l + 8 * w.1) 8 l.pasid
      | [] => s
    | none => s
  | _ => s

/-! ### Bus Master Enable (R192, R194) -/

/-- A queued upstream write discarded with its effect on its owner (R192, R408). -/
def discardWrite (s : State) (k : Nat) (e : QEntry) (o : MefOwner) : State :=
  let s := dropEntry (count (bump s (Reg.PCIE_MEF_BME_DISCARD (upPort s k))) (80 + k) 18) e
  let again : MefWrite := { own := o, addr := frameAddr e.f, words := e.f.payload.drop (pfxWords e.f),
                            pasid := (tlpOf e.f).pasid.map fun v => v.setWidth 20 }
  match o with
  | .readData id => match msgOf s id with
    | some m =>
      let s := bump s (Reg.RME_H_BME_DISCARD k)
      if m.conn = noConn then clEnd s m 0x0B else connError s m.conn 0x0B (some id)
    | none => s
  | .region i => regionDone s i
  | .part => s
  | .image => match s.pfail.copy with
    | some c => reply (updPf s fun x => { x with copy := none }) c.q 0x0207 0x07 []
    | none => s
  | _ => updMef s k fun m => { m with wrAgain := m.wrAgain ++ [again] }

/-- Every queued upstream write of host k's MEF discarded (R192 step 2). -/
def discardWrites (s : State) (k : Nat) : State :=
  (List.range 8).foldl (fun s t =>
    let r := takeQueue s (upPort s k) t fun e => e.own.isSome
    r.1.foldl (fun s e => match e.own with
      | some x => discardWrite s k e x.2
      | none => s) r.2) s

/-- Steps 1 to 3 of R192: no new request, queued writes discarded, the generation advanced. -/
def mefStop (s : State) (k : Nat) : State :=
  let s := discardWrites (setBme s k false) k
  mefTp (wrF s (Reg.PCIE_MEF_STATE (upPort s k)) 15 8 (mefGen s k + 1)) k

/-- Bus Master Enable cleared by the host; during a Function Level Reset its drain covers it (R192, R205). -/
def bmeOff (s : State) (k : Nat) : State := if mefBme s k && !(inFlr s k) then mefStop s k else s

/-- A discarded write of the switch's own made again: an entry's and a slot's by their engine (R408, R415). -/
def writeAgain (s : State) (k : Nat) (w : MefWrite) : State :=
  match w.own with
  | .cqe cq => (engWrite s (cq % 8) noConn k w.own w.addr w.words false w.pasid).2
  | .spill n =>
    let r := engWrite s (connEng n) n k w.own w.addr w.words false w.pasid
    if r.1 then r.2 else spillDone r.2 n
  | _ => mefWrite s k w.own w.addr w.words false w.pasid

/-- The engines go on for host k: discarded writes and dropped reads again, fetches, fills and source data (R408). -/
def rmeResume (s : State) (k : Nat) : State :=
  let m := s.pcie.mef.get k
  let s := updMef s k fun m => { m with readAgain := [], wrAgain := [] }
  let s := m.wrAgain.foldl (fun s w => writeAgain s k w) s
  let s := m.readAgain.foldl (fun s o => askAgain s k o) s
  let s := wrB s (Reg.RME_H_STATUS k) 1 false
  let s := (s.rme.sq.cells.filter fun c => decide (c.1 / 1024 = k)).foldl (fun s c => sqFetch s c.1) s
  let s := ((s.rme.missq.map Prod.fst).filter fun n => decide (connHost n = k)).foldl fillCtx s
  let s := (s.rme.ctx.cells.filter fun c => decide (c.1 % 32 = k)).foldl (fun s c => askData s c.1) s
  let s := (s.rme.msgs.filter fun m => decide (m.host = k) && m.conn == noConn).foldl (fun s m => askCl s m.id) s
  let s := ((liveScions s).filter fun sc => decide (scHost s sc = k)).foldl dirtySyncGo s
  readGo (scionGo s)

/-- Bus Master Enable set: requests resume under the new generation, and pending messages leave (R186, R194). -/
def bmeOn (s : State) (k : Nat) : State :=
  if mefBme s k || inFlr s k then s else rmeResume (msixPending (setBme s k true) k) k

/-! ### Function Level Reset (R195, R409, R548) -/

/-- The fences the MEF holds complete with the not-yet code; those of the ingress queue find its BARs stopped and complete with UR
status (R195 step 1, R299). -/
def endFences (s : State) (k : Nat) : State :=
  let fs := s.land.fences.get k
  let qs := s.land.fenceQ.get k
  let s := fs.foldl (fun s f => finishFence s k f 1)
    (updLand s fun l => { l with fences := l.fences.set k [], fenceQ := l.fenceQ.set k [] })
  qs.foldl (fun s f => emit s (.cpl (upPort s k) f.req 0 1 false [])) s

/-- The reads of BAR2 held for host k complete with UR status as its BARs stop, so that none outlives the reset (R43, R195 step 1;
DEDUCED, log entry 92). -/
def endBar2 (s : State) (k : Nat) : State :=
  (s.land.bar2.get k).foldl (fun s r => emit s (.cpl (upPort s k) r.reqId r.tag 1 false []))
    (updLand s fun l => { l with bar2 := l.bar2.set k [] })

/-- A message of a reset host: kept without a queue while packets of it are unacknowledged, else gone (R409). -/
def orphanMsg (s : State) (m : RMsg) : State :=
  let s := setResp s (msgEng m) (respCells s (msgEng m) - m.cells)
  if m.conn ≠ noConn && m.w.op = 1 && !m.done && decide ((if bitN m.w.flags.toNat 0 then m.landed else m.acked) < m.sentPk) then
    updMsg s m.id fun m => { m with sq := closedSq, npk := m.sentPk, items := [], cells := 0 }
  else updRme s fun r => { r with msgs := r.msgs.filter fun x => decide (x.id ≠ m.id) }

/-- Every queue of host k is free at once (R409). A destroy that waited is answered. -/
def closeQueues (s : State) (k : Nat) : State :=
  let due := (s.rme.sq.cells.filter fun c => decide (c.1 / 1024 = k)).filterMap fun c => c.2.closing
  let s := (s.rme.msgs.filter fun m => decide (m.host = k) && m.kind == 1).foldl orphanMsg s
  let s := updRme s fun r => { r with sq := r.sq.keep fun c _ => decide (c / 1024 ≠ k), cq := r.cq.keep fun c _ => decide (c / 1024 ≠ k) }
  due.foldl (fun s q => reply s q 0x0505 0 []) (noteQueues s k)

/-- Every connection of host k is CLOSING; what it has not sent is dropped but responses (R409). -/
def closeConns (s : State) (k : Nat) : State :=
  let ns := (s.rme.ctx.cells.filter fun c => decide (c.1 % 32 = k) && decide (c.2.st ≠ 0)).map Prod.fst
  ns.foldl (fun s n =>
    closePump (updCtx s n fun c => { c with st := 4, sendQ := c.sendQ.filter fun it => decide (it.kind = 3) }) n) s

/-- Every registration of host k drains (R406, R409). -/
def drainRegions (s : State) (k : Nat) : State :=
  let s := updRme s fun r => { r with
    regions := r.regions.mapVals fun _ g => if g.owner = k && !g.landing && decide (g.st = 1) then { g with st := 2 } else g }
  let mine := s.rme.landKeys.filter fun x => decide (x.host = k) && !x.draining
  let s := updRme s fun r => { r with landKeys := r.landKeys.map fun x => if x.host = k then { x with draining := true } else x }
  mine.foldl (fun s x => match if x.home = swId s then keyEntry s x.key else none with
    | some i => updRegion s i fun g => { g with st := if g.st = 1 then 2 else g.st }
    | none => sendCtrl s x.home k 2 x.key none (ctrlBody 2 k x.key 0 0 0 0 0)) s

/-- Remote memory of host k at a reset of its MEF (R409). -/
def rmeReset (s : State) (k : Nat) : State :=
  let s := closeQueues s k
  let s := updRme s fun r => { r with flr := (r.flr.filter fun h => decide (h ≠ k)) ++ [k] }
  flrAreas (noteRme (drainRegions (closeConns s k) k)) k

/-- Requests of host k already queued lose their replies, and its mailbox slots read cold (R548). -/
def mailReset (s : State) (k : Nat) : State :=
  let mark (r : MgmtReq) : MgmtReq := if r.src.host = k then { r with discard := true } else r
  let s := { s with mgmt := { s.mgmt with queue := s.mgmt.queue.map mark } }
  let lo := 0x2000000 + 0x8000 * k
  { s with regs := s.regs.keep fun a _ => decide (a < lo) || decide (lo + 0x8000 ≤ a) }

/-- Step 5 of R195: configuration space, BARs and MSI-X table at reset values; the reset is over. -/
def flrEnd (s : State) (k : Nat) : State :=
  let p := upPort s k
  let gen := mefGen s k
  let s := cfgClear s k .mef
  { wrN s (Reg.PCIE_MEF_STATE p) (gen * 256) with pcie := { s.pcie with mef := s.pcie.mef.upd k fun m => { wakeOn := m.wakeOn, turnOff := m.turnOff } } }

/-- The reset is over once no older-generation read is outstanding (R195 steps 4 and 5). -/
def flrTry (s : State) (k : Nat) : State := if inFlr s k && decide ((s.pcie.mef.get k).reads = []) then flrEnd s k else s

/-- A held access of an engine's own for host k, discarded at the reset of its MEF (R438). -/
def ownOf (h : EngHeld) (k : Nat) : Bool :=
  match h with
  | .own a => a.host == k
  | .pkt _ _ => false

/-- The reset procedure of R195 begins; one in progress goes on (R205). -/
def mefReset (s : State) (k : Nat) : State :=
  if inFlr s k then s
  else
    let s := endBar2 (endFences s k) k
    let s := (s.pcie.mef.get k).readWait.foldl (fun s a => a.tag.elim s (hedgeDrop s)) s
    let s := { s with hedge := { s.hedge with heldPkt := s.hedge.heldPkt.filter fun h => !(ownOf h.2 k) } }
    let s := updMef s k fun m => { m with barStop := true, readWait := [], readAgain := [], wrAgain := [] }
    let s := mefStop (wrB s (Reg.PCIE_MEF_STATE (upPort s k)) 4 true) k
    let s := updMef s k fun m => { m with wrAgain := [] }
    flrTry (mailReset (rmeReset s k) k) k

/-- A read that ends by its completion, or by timeout (R192, R193, R408). -/
def readEnds (s : State) (k tag : Nat) (f : State → Bool → MefRd → State) : State :=
  match (s.pcie.mef.get k).reads.find? fun r => r.tag == tag with
  | none => s
  | some r =>
    let old := decide (r.gen ≠ mefGen s k)
    flrTry (f (endRead s k r) old r) k

end Sys2Proof.Machine
end

