-- ==== Sys2Proof/Machine/CfgSpace.lean ====
section
/-! DEFINITION. The configuration space of a host's virtual hierarchy as the host reads it (R177 to R181, R183, R185, R187, R201, R471): for
each structure the bits it may write, those that software cannot change, and those that show the present. Layouts are those of PCI
Express 6.0. -/

namespace Sys2Proof.Machine

open Sys2Proof

/-! ### Functions -/

/-- The port whose link a function shows: the host's upstream port, or the host-assigned port behind a vDSP. -/
def fnPort (s : State) (k : Nat) (f : VFn) : Option Nat :=
  match f with
  | .usp => some (upPort s k)
  | .mef => some (upPort s k)
  | .vdsp j => if (vdspOf s k j).kind = 1 then some (vdspOf s k j).port else none
  | .branch _ => none
  | .branchUp _ => none
  | .scion _ => none

/-- Endpoint functions, with a Type 0 header; ports that face downstream. -/
def isEnd (f : VFn) : Bool :=
  match f with
  | .mef => true
  | .scion _ => true
  | _ => false
def isDown (f : VFn) : Bool :=
  match f with
  | .vdsp _ => true
  | .branch _ => true
  | _ => false

/-- A vDSP's function. -/
def isVdsp (f : VFn) : Bool :=
  match f with
  | .vdsp _ => true
  | _ => false

/-- The structures a function has (R177, R178, R471). -/
def cfgHas (f : VFn) (cap : Nat) : Bool :=
  cap = capHdr || cap = capPcie || cap = capAer || (isEnd f && (cap = capPm || cap = capMsix)) || (f = .mef && cap = capDsn)
    || (isVdsp f && (cap = capAcs || cap = capDpc)) || (!(isEnd f) && cap = capL1ss)

/-- What stands behind a vDSP whose slot channel the seed names (R201). -/
def slotChan (s : State) (k j : Nat) : Option Nat :=
  let b := vdspOf s k j
  if b.kind = 1 && rdB s (Reg.PCIE_CFG b.port) 13 then some (chLead s (rdF s (Reg.PCIE_CFG b.port) 17 14)) else none

/-! ### Identity (R180, R471) -/

/-- Vendor and Device ID of a function, and its class code with Revision ID. -/
def fnId (s : State) (f : VFn) : Word :=
  match f with
  | .usp => 0x91601F5C
  | .vdsp _ => 0x91611F5C
  | .mef => 0x91621F5C
  | .branch _ => 0x91631F5C
  | .branchUp _ => 0x91631F5C
  | .scion sc => w32 ((devInfo s (scDev s sc)).vendor.toNat + (devInfo s (scDev s sc)).device.toNat * 2 ^ 16)
def fnClass (s : State) (f : VFn) : Word :=
  match f with
  | .mef => w32 (0x058000 * 2 ^ 8 + Config.stepping.toNat)
  | .scion sc => w32 ((devInfo s (scDev s sc)).cls.toNat * 2 ^ 8 + (devInfo s (scDev s sc)).rev.toNat)
  | _ => w32 (0x060400 * 2 ^ 8 + Config.stepping.toNat)

/-! ### Base address registers (R183, R471) -/

/-- BAR0 of a scion: its doorbell pages and the MSI-X page, as a power of two (R471). -/
def scionBar (s : State) (sc : Nat) : Nat := ceilPow2 12 (dbEnd s sc + 4096)

/-- The writable bits of a base address register, low word and high word: those above its size. -/
def barMask (n : Nat) (high : Bool) : Word := if n = 0 then 0 else if high then hi32 (2 ^ 64 - n) else lo32 (2 ^ 64 - n)

/-! ### Slots (R201, R202) -/

/-- The largest encodable Slot Power Limit not above a power in mW, as (value, scale): 0 to 239 by 1, 0.1, 0.01 or 0.001 W; from 250 W on
every 25 W up to 600 W. -/
def slotPower (mw : Nat) : Nat × Nat :=
  if 250000 ≤ mw then (0xF0 + min 14 ((mw - 250000) / 25000), 0)
  else ([(1, 100), (2, 10), (3, 1)] : List (Nat × Nat)).foldl (fun b x =>
    let v := min 239 (mw / x.2)
    if b.1 * [1000, 100, 10, 1].getD b.2 1 < v * x.2 then (v, x.1) else b) (min 239 (mw / 1000), 0)

/-- The power of a slot's channels at their limits, in mW. -/
def slotMw (s : State) (c : Nat) : Nat := 12 * ((chGroup s c).map (chLimit s)).sum

/-- Slot Capabilities of a vDSP (R201, R202). -/
def slotCaps (s : State) (k j : Nat) : Word :=
  match slotChan s k j with
  | some c =>
    let x := slotPower (slotMw s c)
    w32 (0x5B + x.1 * 2 ^ 7 + x.2 * 2 ^ 15 + (c + 1) * 2 ^ 19)
  | none => if 2 ≤ (vdspOf s k j).kind then 0x40 else 0

/-- Slot Status of a vDSP (R202). -/
def slotStat (s : State) (k j : Nat) : Nat :=
  let v := s.pcie.vdsp.get (64 * k + j)
  v.attnPress.toNat + v.pwrFault.toNat * 2 + v.presChg.toNat * 8 + v.cmdDone.toNat * 16 + v.presence.toNat * 64 + v.dllChg.toNat * 256

/-! ### What software cannot change -/

/-- A link's present state in a function's Link Status: speed, width, Data Link Layer Link Active. A vDSP with no port of this switch
shows a link while its slot is full. -/
def linkStat (s : State) (k : Nat) (f : VFn) : Nat :=
  match fnPort s k f with
  | some p =>
    let st := Reg.PCIE_STATUS p
    if rdB s st 10 then rdF s st 6 4 + 1 + 2 * 2 ^ rdF s st 8 7 * 2 ^ 4 + (isDown f).toNat * 2 ^ 13 else 0
  | none => match f with
    | .vdsp j => 1 + 2 * 2 ^ 4 + (s.pcie.vdsp.get (64 * k + j)).presence.toNat * 2 ^ 13
    | _ => 1 + 2 * 2 ^ 4 + (isDown f).toNat * 2 ^ 13

/-- The highest rate code and the width code of a function's link (R108, R177). -/
def linkMax (s : State) (k : Nat) (f : VFn) : Nat × Nat :=
  match fnPort s k f with
  | some p => (rdF s (Reg.PCIE_CFG p) 12 10, rdF s (Reg.PCIE_CFG p) 9 8)
  | none => (5, 3)

/-- The header's fixed and present bits. -/
def hdrConst (s : State) (k : Nat) (f : VFn) (off : Nat) : Word :=
  if off = 0 then fnId s f
  else if off = 4 then
    let bme := match f with
      | .mef => mefBme s k
      | .scion sc => scBme s sc
      | _ => false
    let mse := match f with
      | .scion sc => (scionRec s sc).mse
      | _ => false
    w32 (0x00100000 + bme.toNat * 4 + mse.toNat * 2)
  else if off = 8 then fnClass s f
  else if off = 0x0C then (if f = .mef then 0x00800000 else if f = .usp then 0x00810000 else if isEnd f then 0 else 0x00010000)
  else if f = .mef then
    if off = 0x10 then 4 else if off = 0x18 then (if barSize s k 2 = 0 then 0 else 0xC) else if off = 0x20 then 4 else 0
  else match f with
    | .scion sc => if off = 0x10 then 4
      else if off = 0x2C then w32 ((devInfo s (scDev s sc)).ssvid.toNat + (devInfo s (scDev s sc)).ssid.toNat * 2 ^ 16) else 0
    | _ => if off = 0x24 then 0x00010001 else 0

/-- The PCI Express capability's (R177, R178, R201). -/
def pcieConst (s : State) (k : Nat) (f : VFn) (off : Nat) : Word :=
  let m := linkMax s k f
  let typ := if isEnd f then 0 else if isDown f then 6 else 5
  let slot := match f with
    | .vdsp j => (slotChan s k j).isSome || decide (2 ≤ (vdspOf s k j).kind)
    | _ => false
  if off = 0 then w32 (capPcie + (2 + typ * 16 + slot.toNat * 2 ^ 8 + 2 ^ 15) * 2 ^ 16)
  else if off = 4 then w32 (5 + 2 ^ 5 + 2 ^ 15 + (isEnd f).toNat * 2 ^ 28)
  else if off = 8 then w32 ((f = .mef && rdB s (Reg.PCIE_MEF_STATE (upPort s k)) 3).toNat * 2 ^ 21)
  else if off = 0x0C then
    w32 (m.1 + 1 + 2 * 2 ^ m.2 * 2 ^ 4 + 2 * 2 ^ 10 + 3 * 2 ^ 15 + ((isDown f).toNat * 3) * 2 ^ 19 + 2 ^ 22)
  else if off = 0x10 then w32 (linkStat s k f * 2 ^ 16)
  else if off = 0x14 then match f with
    | .vdsp j => slotCaps s k j
    | _ => 0
  else if off = 0x18 then match f with
    | .vdsp j => w32 (slotStat s k j * 2 ^ 16)
    | _ => 0
  else if off = 0x24 then
    w32 ((if f = .mef then 3 else 0) + (isVdsp f).toNat * 2 ^ 5 + (!(isEnd f)).toNat * 2 ^ 6 + 3 * 2 ^ 16 + 3 * 2 ^ 20)
  else if off = 0x2C then w32 (2 ^ (m.1 + 2) - 2 + 3 * 2 ^ 23)
  else if off = 0x30 then match fnPort s k f with
    | some p => w32 ((rdB s (Reg.PCIE_STATUS p) 9).toNat * 2 ^ 26 + (2 ^ rdF s (Reg.PCIE_RETIMERS p) 1 0 - 1) * 2 ^ 22)
    | none => 0
  else 0

/-- DPC's: no root port extensions, software triggering; its status (R177, R198). -/
def dpcConst (s : State) (k : Nat) (f : VFn) (off : Nat) : Word :=
  match f with
  | .vdsp j =>
    let v := s.pcie.vdsp.get (64 * k + j)
    if off = 4 then 0x80 else if off = 8 then w32 (v.dpcTrig.toNat + v.dpcReason * 2) else 0
  | _ => 0

/-- Every structure's fixed and present bits. -/
def cfgConst (s : State) (k : Nat) (f : VFn) (cap off : Nat) : Word :=
  if cap = capHdr then hdrConst s k f off
  else if cap = capPcie then pcieConst s k f off
  else if cap = capPm then
    (if off = 0 then (if f = .mef then 0xC8030001 else 0x00030001)
     else if off = 4 && decide (f = .mef) then w32 (rdF s (Reg.PCIE_MEF_STATE (upPort s k)) 1 0) else 0)
  else if cap = capMsix then
    match f with
    | .scion sc =>
      let n := rdF s (Reg.SCION_S_VEC sc) 17 11
      if off = 0 then w32 (capMsix + (n - 1) * 2 ^ 16) else if off = 4 then w32 (dbEnd s sc) else if off = 8 then w32 (dbEnd s sc + 2048) else 0
    | _ => if off = 0 then w32 (capMsix + 63 * 2 ^ 16) else if off = 4 then 0x000FC004 else if off = 8 then 0x000FE004 else 0
  else if cap = capAer then (if off = 0 then 0x0001 else if off = 0x18 then 0xA0 else 0)
  else if cap = capDsn then
    (if off = 0 then 0x0003 else if off = 4 then lo32 Config.uid.toNat else if off = 8 then hi32 Config.uid.toNat else 0)
  else if cap = capAcs then (if off = 0 then 0x000D else if off = 4 then 0x1F else 0)
  else if cap = capDpc then (if off = 0 then 0x001D else dpcConst s k f off)
  else if cap = capL1ss then (if off = 0 then 0x001E else if off = 4 then 0x00311E1F else 0)
  else 0

/-- The bits left to the implementation. -/
def openMask (cap off : Nat) (f : VFn) : Word :=
  if cap = capHdr then (if off = 0x34 then 0xFF else if off = 0x2C && decide (f = .mef) then 0xFFFFFFFF else 0)
  else if 0x100 ≤ cap then (if off = 0 then 0xFFFF0000 else 0)
  else if cap = capPcie && off = 0x0C then 0xFF000000
  else if off = 0 then 0xFF00 else 0

/-! ### What a host may write -/

/-- The header's writable bits. Bus Master Enable of an endpoint, and Memory Space Enable of a scion, are held elsewhere. -/
def hdrMask (s : State) (k : Nat) (f : VFn) (off : Nat) : Word :=
  if off = 4 then (match f with
    | .mef => 0x0542
    | .scion _ => 0x0540
    | _ => 0x0547)
  else if off = 0x0C then 0xFF
  else if off = 0x3C then (if isEnd f then 0xFF else 0x005F00FF)
  else match f with
    | .mef => if 0x10 ≤ off ∧ off < 0x28 then barMask (barSize s k ((off - 0x10) / 8 * 2)) (decide (off / 4 % 2 = 1)) else 0
    | .scion sc => if 0x10 ≤ off ∧ off < 0x18 then barMask (scionBar s sc) (decide (off = 0x14)) else 0
    | _ => if off = 0x18 then 0x00FFFFFF else if off = 0x1C then 0xF0F0 else if off = 0x20 ∨ off = 0x24 then 0xFFF0FFF0
      else if off = 0x28 ∨ off = 0x2C ∨ off = 0x30 then 0xFFFFFFFF else 0

/-- The PCI Express capability's. -/
def pcieMask (f : VFn) (off : Nat) : Word :=
  if off = 8 then 0x7FFF
  else if off = 0x10 then (if isDown f then 0x0FDB else 0x0FCB)
  else if off = 0x18 then (if isVdsp f then 0x1FFF else 0)
  else if off = 0x28 then (if isEnd f then 0x134F else 0x13E0)
  else if off = 0x30 then 0xFFFF
  else 0

/-- Every structure's writable bits. -/
def cfgMask (s : State) (k : Nat) (f : VFn) (cap off : Nat) : Word :=
  if cap = capHdr then hdrMask s k f off
  else if cap = capPcie then pcieMask f off
  else if cap = capPm then (if off = 4 then (if f = .mef then 0x0100 else 0x0003) else 0)
  else if cap = capMsix then (if off = 0 then 0xC0000000 else 0)
  else if cap = capAer then
    (if off = 8 ∨ off = 0x0C then 0x07FFF030 else if off = 0x14 then 0xF1C1 else if off = 0x18 then 0x140 else 0)
  else if cap = capAcs then (if off = 4 then 0x001F0000 else 0)
  else if cap = capDpc then (if off = 4 then 0x00BF0000 else 0)
  else if cap = capL1ss then (if off = 8 then 0xE3FFFF0F else if off = 0x0C then 0xFB else 0)
  else 0

/-- Bits that are set by events and cleared by writing 1: Device Status, AER status, PME_Status of the MEF. -/
def cfgW1c (f : VFn) (cap off : Nat) : Word :=
  if cap = capPcie && off = 8 then 0x000F0000
  else if cap = capAer then (if off = 4 then 0x07FFF030 else if off = 0x10 then 0xF1C1 else 0)
  else if cap = capPm && off = 4 && decide (f = .mef) then 0x8000
  else 0

/-- Bits of AER that only events set: the First Error Pointer and the logs of header and prefix. -/
def cfgLog (cap off : Nat) : Word :=
  if cap = capAer then (if off = 0x18 then 0x81F else if (0x1C ≤ off ∧ off < 0x2C) ∨ (0x38 ≤ off ∧ off < 0x48) then 0xFFFFFFFF else 0) else 0

/-- A configuration register as its host reads it; one the function does not have reads 0 (R178). While a reset of the MEF runs, its own
registers read at reset values (R189). -/
def cfgRead (s : State) (k : Nat) (f : VFn) (cap off : Nat) : Word :=
  if !(cfgHas f cap) then 0
  else
    let held := cfgMask s k f cap off ||| cfgW1c f cap off ||| cfgLog cap off
    let v := if f = .mef && inFlr s k then cfgReset cap off else cfgV s k f cap off
    (cfgConst s k f cap off &&& ~~~held) ||| (v &&& held) ||| (Config.cfgOpen (fnCode f) cap off &&& openMask cap off f)

end Sys2Proof.Machine
end

