-- ==== Sys2Proof/Machine/Pcie.lean ====
section
/-! DEFINITION. PCI Express ports and the management endpoint function: configuration, interrupts and power management, Bus Master
Enable and resets, links, containment and hot-plug (R93, R174 to R206). -/

namespace Sys2Proof.Machine

open Sys2Proof

/-! ### Ports and their vDSPs -/

/-- Fields of PCIE_STATUS (R207). -/
def setLtssm (s : State) (p n : Nat) : State := wrF s (Reg.PCIE_STATUS p) 3 0 n
def dlUp (s : State) (p : Nat) : Bool := rdB s (Reg.PCIE_STATUS p) 10

/-- The vDSP bound to a host-assigned port, as 64 host + vDSP (R176). -/
def portVdsp (s : State) (p : Nat) : Option Nat := (portVdspOf s p).map fun v => 64 * v.1 + v.2

/-- The host-assigned port behind a vDSP of host k. -/
def vdspPort (s : State) (k j : Nat) : Option Nat := if (vdspOf s k j).kind = 1 then some (vdspOf s k j).port else none

/-- A change in the vDSP of a port. -/
def portNote (s : State) (p : Nat) (f : VdspSt → VdspSt) : State :=
  match portVdsp s p with
  | some k => updVdsp s k f
  | none => s

/-- The data link layer of a port is down: DL_UP clears, the event counts, the vDSP and a lock see it (R202, R206, R458, R520). -/
def dlDown (s : State) (p : Nat) : State :=
  if !(dlUp s p) then s
  else
    let s := wrB (wrB s (Reg.PCIE_STATUS p) 10 false) (Reg.PCIE_STATUS p) 13 false
    let s := (lanesOf s p).foldl (fun s n => wrB s (Reg.LANE_STATUS n) 1 false) s
    let s := count (bump s (Reg.PCIE_DOWN p)) p 21
    lockPortLost (portNote s p fun v => { v with dllChg := true }) p

/-- Every request queued for a port, or issued and not answered, completes with a status; posted ones are discarded; frames in cut-through
toward it are nullified (R198). -/
def portDrain (s : State) (p status : Nat) : State :=
  let cut := s.fwd.cutTo.cells.filter fun c => c.2 == some p
  let s := cut.foldl (fun s c => match s.fwd.staged.get c.1 with
    | some e =>
      let s := updFwd s fun x => { x with staged := x.staged.set c.1 none, cutTo := x.cutTo.set c.1 none }
      completeTo (dropEntry (bump s (Reg.PCIE_NULLIFIED_TX p)) e) e.f status
    | none => s) s
  let s := (List.range 8).foldl (fun s t =>
    let r := takeQueue s p t fun _ => true
    r.1.foldl (fun s e => completeTo (dropEntry s e) e.f status) r.2) s
  let held := s.fwd.tx.get p
  let s := updFwd s fun x => { x with tx := x.tx.set p [] }
  let s := held.foldl (fun s e => completeTo (dropEntry s e) e.f status) s
  let np := s.pcie.npWait.get p
  let s := { s with pcie := { s.pcie with npWait := s.pcie.npWait.set p [] } }
  let s := np.foldl (fun s r => emit s (.cpl r.up r.reqId.toNat r.tag.toNat status false [])) s
  let open_ := s.fwd.cmap.get p
  let s := updFwd s fun x => { x with cmap := x.cmap.set p [] }
  open_.foldl (fun s c =>
    let v := freshBits s 16
    mapComplete v.2 p c c.tcl (cplSpec c.origTag status c.bytes c.low v.1 false false false) false []) s

/-- A cause of DPC as the fault's address gives it, and as DPC Trigger Reason with its extension (PCI Express 6.0). -/
def causeCode : DpcCause → Nat
  | .detected _ _ => 0
  | .message fatal => 2 + fatal.toNat
  | .surpriseDown => 4
  | .software => 5
def dpcReasonOf : DpcCause → Nat
  | .detected _ _ => 0
  | .message fatal => 1 + fatal.toNat
  | .surpriseDown => 0
  | .software => 19

/-- DPC contains a host-assigned port (R198). -/
def contain (s : State) (p : Nat) (c : DpcCause) : State :=
  let s := faultP s 4 0x03 2 p (causeCode c)
  let s := wrB (setLtssm s p 7) (Reg.PCIE_STATUS p) 11 true
  let s := portNote (dlDown s p) p fun v => { v with dpcTrig := true, dpcReason := dpcReasonOf c }
  portDrain s p (dpcStatus s p)

/-- DPC Trigger Status cleared: the port is released and retrains, and the event counts (R198). -/
def release (s : State) (p : Nat) : State :=
  if contained s p && decide (portRole s p = 1) then
    let s := wrB (setLtssm s p 0) (Reg.PCIE_STATUS p) 11 false
    portNote (bump s (Reg.PCIE_DPC_EVENTS p)) p fun v => { v with dpcTrig := false }
  else s

/-- A port retrains toward a rate, at most its limit (R182, R206). -/
def retrain (s : State) (p rate : Nat) : State :=
  let s := { s with pcie := { s.pcie with target := s.pcie.target.set p (min rate (rdF s (Reg.PCIE_CFG p) 12 10) + 1) } }
  if dlUp s p then setLtssm s p 4 else s

/-- Retrain Link on a vDSP; ignored while the port is contained (R182, R205). -/
def vdspRetrain (s : State) (k j : Nat) : State :=
  match vdspPort s k j with
  | none => s
  | some p => if contained s p then s else retrain s p (targetRate s k (.vdsp j))

/-- Link Disable of a vDSP set or cleared: the port goes to Disabled, or trains again (R182). -/
def vdspDisable (s : State) (k j : Nat) (b : Bool) : State :=
  let s := cfgF s k (.vdsp j) capPcie 0x10 4 4 b.toNat
  match vdspPort s k j with
  | none => s
  | some p =>
    let rest := s.pcie.dis.filter fun q => decide (q ≠ p)
    let s := { s with pcie := { s.pcie with dis := if b then p :: rest else rest } }
    if contained s p then s
    else if b then dlDown (setLtssm s p 7) p
    else if rdF s (Reg.PCIE_STATUS p) 3 0 = 7 then setLtssm s p 0 else s

/-! ### Slots behind vDSPs (R202 to R204) -/

/-- A vDSP waits for Command Completed of its channel. -/
def awaitCmd (s : State) (c key : Nat) : State := updChan s c fun x => { x with waiters := x.waiters ++ [key] }

/-- Power Controller off: PERST_N, then the channel off; the link goes with it (R202, R204). -/
def powerOffSlot (s : State) (k j : Nat) : State :=
  let s := cfgF s k (.vdsp j) capPcie 0x18 10 10 1
  match slotChan s k j, vdspPort s k j with
  | some c, some p => turnOff (awaitCmd (if contained s p then s else dlDown (setLtssm s p 0) p) c (64 * k + j)) c
  | _, _ => s

/-- Power Controller on: the channel turns on, held during a brace; a tripped one stays off (R202 to R204). -/
def powerOnSlot (s : State) (k j : Nat) : State :=
  let s := cfgF s k (.vdsp j) capPcie 0x18 10 10 0
  match slotChan s k j with
  | some c =>
    if decide (3 ≤ chState s c ∧ chState s c ≤ 6) then cmdDone (awaitCmd s c (64 * k + j)) c
    else tryTurnOn (awaitCmd s c (64 * k + j)) c
  | none => s

/-- Indicators of a slot driven (R202). -/
def indicate (s : State) (c : Nat) (pwr attn : Bool) : State :=
  if (s.rootSt.chan.get c).ind = (pwr, attn) then s
  else emit (updChan s c fun x => { x with ind := (pwr, attn) }) (.root "indicators" (c * 4 + pwr.toNat * 2 + attn.toNat))

/-- Slot Control of a vDSP written (R202): its indicators follow their fields, on or blinking (1, 2) or off (3), and Power Controller
Control asks for the channel off or on. -/
def slotControl (s : State) (k j : Nat) (v : Word) : State :=
  let lit (old : Bool) (n : Nat) : Bool := if n = 0 then old else decide (n ≠ 3)
  let s := match slotChan s k j with
    | some c => indicate s c (lit (s.rootSt.chan.get c).ind.1 (getF v 9 8)) (lit (s.rootSt.chan.get c).ind.2 (getF v 7 6))
    | none => s
  if getB v 10 then powerOffSlot s k j else powerOnSlot s k j

/-! ### Configuration (R93, R181, R198, R199) -/

/-- DPC of a vDSP triggered by software, or its Trigger Status cleared: the port of a host-assigned device, or the binding alone of a
scion or a bridged device (R198, R199, R460, R481). -/
def dpcSoft (s : State) (k j : Nat) (trigger : Bool) : State :=
  let b := vdspOf s k j
  let mark (s : State) : State := updVdsp s (64 * k + j) fun v => { v with dpcTrig := trigger, dpcReason := if trigger then 19 else 0 }
  let mine := (liveScions s).filter fun sc => decide (scHost s sc = k) && decide (scVdsp s sc = j)
  if b.kind = 1 then
    if trigger then (if contained s b.port then s else contain s b.port .software) else release s b.port
  else if (s.pcie.vdsp.get (64 * k + j)).dpcTrig = trigger then s
  else if b.kind = 2 then
    let s := mark s
    if trigger then brgOrphanVdsp s k j else s
  else if b.kind = 3 then mine.foldl (fun s sc =>
    let s := if trigger then s else updSc s sc fun r => { r with contain := false, byDpc := false }
    scionResetGo s sc false trigger trigger none) (mark s)
  else s

/-- The D-state of a MEF written: D3hot, or back to D0 with the reset of R189; other states are not implemented (R187). -/
def writePmcsr (s : State) (k d : Nat) : State :=
  if d = 3 then setMefD s k 3
  else if d = 0 && decide (mefD s k = 3) then mefReset (bump (setMefD s k 0) (Reg.PCIE_MEF_RESETS (upPort s k))) k
  else s

/-- A Function Level Reset of a MEF asked for: counted; one already running goes on (R195, R205). -/
def mefFlr (s : State) (k : Nat) : State :=
  if inFlr s k then s else mefReset (bump s (Reg.PCIE_MEF_RESETS (upPort s k))) k

/-- What a write to a register of the MEF does beyond it (R181, R184 to R195); `m` are the bits written, `v` their value. -/
def mefEffect (s : State) (k cap off : Nat) (m v : Word) : State :=
  if cap = capHdr && off = 4 && getB m 2 then (if getB v 2 then bmeOn s k else bmeOff s k)
  else if cap = capPcie && off = 8 && getB (m &&& v) 15 then mefFlr s k
  else if cap = capPm && off = 4 && getB m 0 then writePmcsr s k (getF v 1 0)
  else if cap = capMsix && off = 0 then msixPending s k
  else s

/-- What a write to a register of a vDSP does beyond it: Link Control (R182), Slot Control and Slot Status (R202), DPC (R198, R199). -/
def vdspEffect (s : State) (k j cap off : Nat) (m v : Word) (wasDis : Bool) : State :=
  if cap = capPcie && off = 0x10 && getB m 4 then
    let s := if wasDis = getB v 4 then s else vdspDisable s k j (getB v 4)
    if getB v 5 && !(getB v 4) then vdspRetrain s k j else s
  else if cap = capPcie && off = 0x18 then
    let s := if getB m 10 then slotControl s k j v else s
    let clr (b : Bool) (i : Nat) : Bool := b && !(getB (m &&& v) i)
    updVdsp s (64 * k + j) fun x => { x with
      attnPress := clr x.attnPress 16, pwrFault := clr x.pwrFault 17, presChg := clr x.presChg 19, cmdDone := clr x.cmdDone 20
      dllChg := clr x.dllChg 24 }
  else if cap = capDpc && off = 4 && getB (m &&& v) 22 then dpcSoft s k j true
  else if cap = capDpc && off = 8 && getB (m &&& v) 0 then dpcSoft s k j false
  else s

/-- What a write to a register of a scion does beyond it: its enables, a Function Level Reset, MSI-X (R471, R474, R477). -/
def scionEffect (s : State) (sc cap off : Nat) (m v : Word) : State :=
  if cap = capHdr && off = 4 && getB m 2 then
    scionGo (scionPending (wrB (updSc s sc fun r => { r with mse := getB v 1 }) (Reg.SCION_S_STATUS sc) 13 (getB v 2)) sc)
  else if cap = capPcie && off = 8 && getB (m &&& v) 15 then scionResetGo s sc false false false none
  else if cap = capMsix && off = 0 then scionPending s sc
  else s

/-- The bits that byte enables name. -/
def beMask (be : BitVec 4) : Word :=
  w32 (255 * ((be.toNat % 2) + be.toNat / 2 % 2 * 2 ^ 8 + be.toNat / 4 % 2 * 2 ^ 16 + be.toNat / 8 * 2 ^ 24))

/-- A configuration register written by host k (R181): its writable bits, its bits cleared by writing 1, and its effect. A function has no
register of a structure it lacks, D1 and D2 are ignored (R187), and during its reset the MEF's registers keep their reset values (R189). -/
def cfgWrite (s : State) (k : Nat) (f : VFn) (cap off : Nat) (be : BitVec 4) (v : Word) : State :=
  let dOnly := decide (cap = capPm ∧ off = 4) && decide (getF v 1 0 = 1 ∨ getF v 1 0 = 2)
  let m := beMask be &&& (if dOnly then 0xFFFFFFFC else 0xFFFFFFFF)
  if !(cfgHas f cap) || (decide (f = .mef) && inFlr s k) then s
  else
    let old := cfgV s k f cap off
    let s := cfgSet s k f cap off (mergeW old v (cfgMask s k f cap off &&& m) &&& ~~~(v &&& m &&& cfgW1c f cap off))
    match f with
    | .mef => mefEffect s k cap off m v
    | .vdsp j => vdspEffect s k j cap off m v (getB old 4)
    | .scion sc => scionEffect s sc cap off m v
    | .usp => s
    | .branch _ => s
    | .branchUp _ => s

/-- The completion of a configuration request: its Completer ID is what the request named. -/
def cfgCpl (s : State) (p : Nat) (c : CfgIn) (status : Nat) (data : List Word) : State :=
  emit s (.cpl p c.reqId.toNat c.tag.toNat status false data { cplId := BitVec.ofNat 16 (c.bus * 256 + c.dev * 8 + c.fn), bc := 4 })

/-- A configuration request served by a function of the hierarchy. -/
def cfgServe (s : State) (p k : Nat) (f : VFn) (c : CfgIn) : State :=
  match c.wr with
  | some v => cfgCpl (cfgWrite s k f c.cap c.off c.be v) p c 0 []
  | none => cfgCpl s p c 0 [cfgRead s k f c.cap c.off]

/-- A configuration request to what stands behind an empty slot: device 0 reads all ones, all else draws UR (R444). -/
def cfgEmpty (s : State) (p : Nat) (c : CfgIn) (beyond : Bool) : State :=
  if c.wr.isNone && decide (c.dev = 0) && !beyond then cfgCpl s p c 0 [0xFFFFFFFF] else cfgCpl s p c 1 []

/-- A configuration request to a device behind a vDSP: to the port of a host-assigned device, to a scion, or at a contained binding the
status of R198; a bridged device has a command of its own (R443). -/
def cfgBelow (s : State) (p k j : Nat) (beyond : Bool) (c : CfgIn) : State :=
  let b := vdspOf s k j
  if b.kind = 2 then s
  else if (s.pcie.vdsp.get (64 * k + j)).dpcTrig then cfgCpl s p c (if dpcCplCtl s k j then 1 else 4) []
  else if b.kind = 1 then
    if dlUp s b.port then npPush s b.port { up := p, reqId := c.reqId, tag := c.tag, kind := .cfg { c with type1 := beyond } }
    else cfgEmpty s p c beyond
  else match (liveScions s).find? fun sc => decide (scHost s sc = k) && decide (scVdsp s sc = j) && (scionRec s sc).making.isNone with
    | some sc => if beyond || decide (c.dev ≠ 0) || decide (c.fn ≠ 0) then cfgCpl s p c 1 [] else cfgServe s p k (.scion sc) c
    | none => cfgEmpty s p c beyond

/-- CONFIG_REQUEST (R93, R179, R181): Configuration Request Retry Status at whatever port it reaches until the seed step releases it; then
it goes where the hierarchy of the port's host says, and a function answers it with its register or takes the write. -/
def execConfigRequest (p : Nat) (c : CfgIn) (s : State) : Res :=
  if inCloche s then .next s
  else if !s.seed.loaded then .next (cfgCpl s p c 2 [])
  else if portRole s p ≠ 0 || !(isPcie s p) then .next (cfgCpl s p c 1 [])
  else match cfgTo s (portHost s p) c with
    | .fn f => .next (cfgServe s p (portHost s p) f c)
    | .below j beyond => .next (cfgBelow s p (portHost s p) j beyond c)
    | .nothing => .next (cfgCpl s p c 1 [])

/-- A word of the MEF's MSI-X table or pending bits read, or a word of the table written (R183, R185); `o` from 0xF_C000. -/
def msixRead (s : State) (k o : Nat) : Word :=
  let m := s.pcie.mef.get k
  if o < 1024 then (if o % 16 = 12 then w32 (!(bitN m.unmask (o / 16))).toNat else m.table.get (o / 4))
  else if o = 0x2000 then lo32 m.msixPend else if o = 0x2004 then hi32 m.msixPend else 0
def msixWrite (s : State) (k o : Nat) (v : Word) : State :=
  if 1024 ≤ o then s
  else if o % 16 = 12 then msixPending (updMef s k fun m => { m with unmask := setBitN m.unmask (o / 16) (!(v.getLsbD 0)) }) k
  else updMef s k fun m => { m with table := m.table.set (o / 4) v }

/-- What the doorbell area of BAR4 reads (R374, R375): the state of an SQ and of a CQ; every other word is write only or reserved. The fence
registers have a row of their own. -/
def doorbellRead (s : State) (k off : Nat) : Word :=
  let i := off % 0x10000 / 64
  if off < 0x10000 && off % 64 = 4 then
    let q := s.rme.sq.get (1024 * k + i)
    w32 (q.head + q.st * 2 ^ 16)
  else if 0x10000 ≤ off && off < 0x20000 && off % 64 = 8 then
    let c := s.rme.cq.get (1024 * k + i)
    if c.valid then w32 (c.written % 2 ^ c.log2 + c.armed.toNat * 2 ^ 16 + (!(cqRoom c)).toNat * 2 ^ 17) else 0
  else 0

/-- MEF_MEMORY_REQUEST (R184, R195, R374): while the MEF answers, the doorbell states, the MSI-X table and the pending bits of BAR4 are read
and the table written here, and for every other place the request's own row says what it does; else UR, or discarded, and a protected write not landed leaves a fault of kind 5
(R42, R300). -/
def execMefMemoryRequest (host : Nat) (posted : Bool) (bar off : Nat) (prot : Bool) (reqId : BitVec 16) (tag : BitVec 10) (v : Word)
    (s : State) : Res :=
  if mefAnswers s host then
    if bar ≠ 4 || (posted && decide (off < 0xFC000)) || decide (0x20000 ≤ off ∧ off < 0x24000) then .next s
    else if off < 0xFC000 then .next (emit s (.cpl (upPort s host) reqId.toNat tag.toNat 0 false [doorbellRead s host off]))
    else if posted then .next (msixWrite s host (off - 0xFC000) v)
    else .next (emit s (.cpl (upPort s host) reqId.toNat tag.toNat 0 false [msixRead s host (off - 0xFC000)]))
  else if !posted then .next (emit s (.cpl (upPort s host) reqId.toNat tag.toNat 1 false []))
  else if prot then
    let key := reqKey host reqId.toNat
    let ep := eOpen s
    .next (noteReqFree (recFault (recLast (updRec s key fun r => { r with port := upPort s host }) key ep) key ep 5))
  else .next s

/-- MSIX_SEND (R186): a pending message leaves once Bus Master Enable is 1 and its vector unmasked. -/
def execMsixSend (host v : Nat) (s : State) : Res :=
  if bitN (s.pcie.mef.get host).msixPend v && mefBme s host && msixOpen s host v then
    .next (count (emit (updMef s host fun m => { m with msixPend := setBitN m.msixPend v false }) (msixMsg s host v)) (80 + host) 17)
  else .next s

/-- PME_SIGNAL (R188): with PME_En set, UP_WAKE_N while the link is in L2, else a PM_PME message. -/
def execPmeSignal (host : Nat) (s : State) : Res := .next (mefPme s host)

/-- PME_TURN_OFF (R188): answered at once when no posted write is queued, else when the last has left, and within 1 ms. -/
def execPmeTurnOff (host : Nat) (s : State) : Res :=
  .next (turnOffAck (updMef s host fun m => { m with turnOff := some (m.turnOff.getD s.now) }) host)

/-- D3HOT_TO_D0 (R189): D0 at once, with an internal reset by the procedure of R195. -/
def execD3hotToD0 (host : Nat) (s : State) : Res := .next (writePmcsr s host 0)

/-- BME_CLEAR (R192, R205). -/
def execBmeClear (host : Nat) (s : State) : Res := .next (bmeOff s host)

/-- BME_SET (R194). -/
def execBmeSet (host : Nat) (s : State) : Res := .next (bmeOn s host)

/-- MEF_COMPLETION_RECEIVE (R192): used, or of an older generation dropped and counted; its tag is free either way. -/
def execMefCompletionReceive (host tag : Nat) (ok poison : Bool) (data : List Word) (s : State) : Res :=
  .next (readEnds s host tag fun s old r =>
    let o := r.own
    let ok := ok && !r.refused
    if old then
      let s := count (bump s (Reg.PCIE_LATE_CPL (upPort s host))) (80 + host) 19
      if inFlr s host then s else readLost s host o
    else readGives s host o ok poison data)

/-- A read of the MEF timed out: counted, logged in AER (R193). -/
def readTimedOut (s : State) (k : Nat) (old : Bool) (o : MefOwner) : State :=
  let s := reportUnc (bump s (Reg.PCIE_MEF_CTO (upPort s k))) k .mef aerTimeout []
  if inFlr s k then s else if old then readLost s k o else readGives s k o false false []

/-- The MEF's completion timeout by the Completion Timeout Value, in core cycles (R193). A value outside the table counts as the default. -/
def ctoCycles (s : State) (k : Nat) : Nat :=
  if mefCto s k = 1 then 128000 else if mefCto s k = 2 then 12800000 else if mefCto s k = 6 then 256000000 else 64000000

/-- MEF_COMPLETION_TIMEOUT (R193, R408): the timeout in force after the read's issue, its operation fails. -/
def execMefCompletionTimeout (host tag : Nat) (s : State) : Res :=
  match (s.pcie.mef.get host).reads.find? fun r => r.tag == tag with
  | none => .next s
  | some r => .next (readEnds (timeTo s (r.at_ + ctoCycles s host)) host tag fun s old r => readTimedOut s host old r.own)

/-- FUNCTION_LEVEL_RESET (R195, R205). -/
def execFunctionLevelReset (host : Nat) (s : State) : Res := .next (mefFlr s host)

/-- FLR_DRAIN_EXPIRY (R195 step 4): 80 ms after it began, what is still outstanding is timed out, and the reset ends. -/
def execFlrDrainExpiry (host : Nat) (s : State) : Res :=
  if !(inFlr s host) then .next s
  else .next (((s.pcie.mef.get host).reads.map MefRd.tag).foldl (fun s t => readEnds s host t fun s old r => readTimedOut s host old r.own) s)

/-! ### Links (R182, R196, R206) -/

/-- A virtual hierarchy reset: its MEF, its functions, its ports by Hot Reset, its scions, its bridged requests (R196). What stands in a
slot stays present. -/
def hierReset (s : State) (k : Nat) : State :=
  let n := (hostPol s k).vdsps.length
  let s := mefReset s k
  let s := (List.range n).foldl (fun s j =>
    let s := match vdspPort s k j with
      | some p =>
        let s := { s with pcie := { s.pcie with dis := s.pcie.dis.filter fun q => decide (q ≠ p) } }
        let s := wrB (setLtssm (emit s (.pcieMsg p "Hot Reset")) p 9) (Reg.PCIE_STATUS p) 11 false
        portDrain (dlDown s p) p 1
      | none => s
    updVdsp s (64 * k + j) fun v => { presence := v.presence }) s
  let s := cfgClearHost s k
  let s := ((liveScions s).filter fun sc => decide (scHost s sc = k)).foldl (fun s sc => scionResetGo s sc false false false none) s
  brgOrphan s k

/-- UPSTREAM_LINK_DOWN (R196). -/
def execUpstreamLinkDown (host : Nat) (s : State) : Res :=
  let p := upPort s host
  if portRole s p ≠ 0 || !(dlUp s p) then .next s
  else .next (hierReset (dlDown (setLtssm s p 0) p) host)

/-- HOT_RESET (R196). -/
def execHotReset (host : Nat) (s : State) : Res :=
  let p := upPort s host
  if portRole s p ≠ 0 || !(dlUp s p) then .next s
  else .next (hierReset (dlDown (setLtssm s p 9) p) host)

/-- VDSP_RETRAIN_LINK (R182, R205). -/
def execVdspRetrainLink (host j : Nat) (s : State) : Res := .next (vdspRetrain s host j)

/-- VDSP_LINK_DISABLE (R182). -/
def execVdspLinkDisable (host j : Nat) (s : State) : Res := .next (vdspDisable s host j true)

/-- PCIE_LINK_RETRAIN (R182, R206): the manager's write of PCIE_LINK_CTRL; with RETRAIN the port retrains, or is refused. -/
def execPcieLinkRetrain (p : Nat) (v : Word) (s : State) : Res :=
  let s := wrF s (Reg.PCIE_LINK_CTRL p) 3 1 (getF v 3 1)
  if !(getB v 0) || !(isPcie s p) then .next s
  else if portRole s p = 1 || decide (rdF s (Reg.PCIE_CFG p) 12 10 < getF v 3 1) || braced s || contained s p then
    .next (wrF s (Reg.PCIE_LINK_CTRL p) 5 4 2)
  else .next (retrain (wrF s (Reg.PCIE_LINK_CTRL p) 5 4 0) p (getF v 3 1))

/-- What the data link layer's return means for the port's role: held responses and a waiting PME for a host (R188, R452), a target usable
again (R335), presence seen by a vDSP (R202). -/
def dlUpRole (s : State) (p : Nat) : State :=
  let k := portHost s p
  if portRole s p = 0 then
    let m := s.pcie.mef.get k
    let s := if rdN s Reg.GLB_T_LINKS = 0 then wrN s Reg.GLB_T_LINKS (tstamp s / 16000) else s
    let s := updMef s k fun m => { m with pmeWait := false, wakeOn := false }
    let s := if m.wakeOn then emit s (.pin (.upWake k) true) else s
    let s := if m.pmeWait then emit s (.pcieMsg p "PM_PME") else s
    heldGo s k
  else if portRole s p = 3 then
    match targetOf s p with
    | some t => if inService s && decide (t < targetCount s) then wrB s Reg.PFAIL_TARGETS t true else s
    | none => s
  else s

/-- What training found on the lanes of a port: clocks recovered, polarity, taps and receiver codes, stored in the retention SRAM (R109,
R122, R133). -/
def noteLanes (s : State) (p : Nat) (lanes : List LaneEq) : State :=
  let s := (lanesOf s p).foldl (fun s n => wrB s (Reg.LANE_STATUS n) 1 true) s
  let own := lanes.filter fun x => (lanesOf s p).contains x.lane
  let s := own.foldl (fun s x =>
    let s := wrB s (Reg.LANE_STATUS x.lane) 3 x.inverted
    wr (wr s (Reg.LANE_TXEQ x.lane) (x.tx &&& 0x3F3F3F)) (Reg.LANE_RXEQ x.lane) (x.rx &&& 0xFF1F)) s
  let new := (own.map LaneEq.lane).filter fun n => !(s.ret.taps.contains n)
  { s with ret := { s.ret with taps := s.ret.taps ++ new } }

/-- What the link's lower layers counted, and the retimers found (R177, R206). -/
def noteLow (s : State) (p : Nat) (x : LinkLow) : State :=
  let s := (List.range 7).foldl (fun s i => bumpBy s (Reg.PCIE_RX_ERR p + 4 * i) (x.counts.getD i 0)) s
  wrN s (Reg.PCIE_RETIMERS p) (min x.retimers 2)

/-- PCIE_DL_UP (R94, R108, R188, R202, R207): the link is in L0 at a rate, width and mode; a port that is contained, in Disabled or held by a
lane test stays so. The first time since a start it comes up at 2.5 GT/s, and on a downstream port the switch then directs the
equalization to the seed's rate limit. A link at 64.0 GT/s is in FLIT mode. -/
def execPcieDlUp (p : Nat) (rate : BitVec 3) (width : BitVec 2) (flit : Bool) (lanes : List LaneEq) (low : LinkLow) (s : State) : Res :=
  let st := Reg.PCIE_STATUS p
  let cfg := Reg.PCIE_CFG p
  if !(isPcie s p) || contained s p || s.pcie.dis.contains p || inCloche s || !s.seed.loaded
    || (decide (s.start.phase = .steps) && !(linksRun s)) || ((lanesOf s p).any fun n => !(rdB s (Reg.LANE_STATUS n) 6))
    || ((lanesOf s p).any fun n => (s.pg.get (n / 8)).refDown) || inTest s p then .next s
  else
    let was := dlUp s p
    let lim := match s.pcie.target.get p with
      | 0 => rdF s cfg 12 10
      | n + 1 => min n (rdF s cfg 12 10)
    let first := !(s.pcie.beenUp.contains p)
    let r := if first then 0 else min rate.toNat lim
    let s := wrB (wrF (wrF (setLtssm s p 3) st 6 4 r) st 8 7 width.toNat) st 9 (flit || decide (r = 5))
    let s := wrB (wrB (wrB s st 10 true) st 13 false) st 12 (decide (width.toNat < rdF s cfg 9 8) || (!first && decide (r < rdF s cfg 12 10)))
    let s := if s.pcie.target.get p ≠ 0 && decide (portRole s p ≠ 1) then wrF s (Reg.PCIE_LINK_CTRL p) 5 4 1 else s
    let eq := first && decide (portRole s p ≠ 0) && decide (rdF s cfg 12 10 ≠ 0)
    let s := { s with pcie := { s.pcie with
      target := s.pcie.target.set p (if eq then rdF s cfg 12 10 + 1 else 0), beenUp := if first then s.pcie.beenUp ++ [p] else s.pcie.beenUp } }
    let s := if eq then emit s (.pcieMsg p "Directed Speed Change") else s
    let s := (lanesOf s p).foldl (fun s n => wrF s (Reg.LANE_RATE n) 2 0 r) (noteLow (noteLanes s p lanes) p low)
    .next (dlUpRole (if was then s else portNote s p fun v => { v with dllChg := true }) p)

/-- UP_WAKE_PULSE_EXPIRY (R188): UP_WAKE_N is released after 100 ms; the PM_PME still waits for the link. -/
def execUpWakePulseExpiry (host : Nat) (s : State) : Res :=
  if (s.pcie.mef.get host).wakeOn then
    .next (emit (updMef s host fun m => { m with wakeOn := false }) (.pin (.upWake host) true))
  else .next s

/-! ### Containment and hot-plug (R198 to R204) -/

/-- DPC of a port's vDSP acts on a cause (R198): an unmasked uncorrectable error or an error message, as DPC Trigger Enable selects by
severity, 1 fatal only and 2 both (PRESUMED, log entry 26); Surprise Down and software always. -/
def dpcActs (s : State) (p : Nat) (c : DpcCause) : Bool :=
  match portVdspOf s p with
  | none => false
  | some (k, j) =>
    let e := dpcEnable s k j
    let sel (fatal : Bool) : Bool := e = 2 || (e = 1 && fatal)
    match c with
    | .detected bit _ => !(aerMasked s k (.vdsp j) bit) && sel (aerFatal s k (.vdsp j) bit)
    | .message fatal => sel fatal
    | .surpriseDown => true
    | .software => true

/-- An error of a host-assigned port (R200): in the AER of its vDSP and as a message on the host's upstream port; a message from below is
passed on. -/
def reportError (s : State) (p : Nat) (c : DpcCause) : State :=
  match portVdspOf s p, c with
  | some (k, j), .detected bit hdr => reportUnc s k (.vdsp j) bit hdr
  | some (k, j), .surpriseDown => reportUnc s k (.vdsp j) aerSurpriseDown []
  | some (k, _), .message fatal => emit s (.pcieMsg (upPort s k) (if fatal then "ERR_FATAL" else "ERR_NONFATAL"))
  | _, _ => s

/-- The AER Uncorrectable Error Status of a port's vDSP, the address of its fault (R514). -/
def aerStatus (s : State) (p : Nat) : Nat := ((portVdspOf s p).map fun v => (cfgV s v.1 (.vdsp v.2) capAer 4).toNat).getD 0

/-- A trigger event on a downstream port: a host-assigned port is contained, or the error only reported; on a flush target's port, its
target is lost (R335); a shareable port's scions are contained (R198 to R200). -/
def portTrigger (s : State) (p : Nat) (c : DpcCause) : State :=
  let reason := causeCode c
  if portRole s p = 1 then
    let s := reportError s p c
    if dpcActs s p c then contain s p c else faultP s 4 0x02 2 p (aerStatus s p)
  else if portRole s p = 2 then sharedTrigger (dlDown s p) p
  else if portRole s p = 3 then
    let s := dlDown (setLtssm (faultP s 4 0x03 2 p reason) p 0) p
    match targetOf s p with
    | some t =>
      if s.pfail.commit.isSome then moverStop s t else faultP (wrB s Reg.PFAIL_TARGETS t false) 9 0x01 2 p t
    | none => s
  else dlDown (setLtssm (faultP s 4 0x03 2 p reason) p 0) p

/-- A PCI Express link that goes down by itself: an upstream one resets its hierarchy, another is a Surprise Down (R196, R198). -/
def linkLost (s : State) (p : Nat) : State :=
  if !(dlUp s p) then setLtssm s p 0
  else if portRole s p = 0 then hierReset (dlDown (setLtssm s p 0) p) (portHost s p)
  else portTrigger s p .surpriseDown

/-- DPC_TRIGGER (R198 to R200). -/
def execDpcTrigger (p : Nat) (c : DpcCause) (s : State) : Res :=
  if !(isPcie s p) || contained s p || portRole s p = 0 then .next s else .next (portTrigger s p c)

/-- DPC_RELEASE (R198): DPC Trigger Status cleared by the host. -/
def execDpcRelease (p : Nat) (s : State) : Res := .next (release s p)

/-- POWER_CONTROLLER_OFF (R202, R204). -/
def execPowerControllerOff (host j : Nat) (s : State) : Res := .next (powerOffSlot s host j)

/-- POWER_CONTROLLER_ON (R202 to R204). -/
def execPowerControllerOn (host j : Nat) (s : State) : Res := .next (powerOnSlot s host j)

end Sys2Proof.Machine
end

