-- ==== Sys2Proof/Machine/Lanes.lean ====
section
/-! DEFINITION. Lanes and port groups: reference clocks, rate matching, test loops, error injection and margining (R106 to R131). -/

namespace Sys2Proof.Machine

open Sys2Proof

/-- A port group's state changed. -/
def updPg (s : State) (k : Nat) (f : PgSt → PgSt) : State := { s with pg := s.pg.upd k f }

/-- Mode of a port group and of a lane: 0 unused, 1 PCI Express, 2 Nozan (R132, R135). -/
def pgMode (s : State) (k : Nat) : Nat := rdF s (Reg.PG_STATUS k) 1 0
def laneMode (s : State) (n : Nat) : Nat := rdF s (Reg.LANE_CFG n) 1 0
def lanePort (s : State) (n : Nat) : Nat := rdF s (Reg.LANE_CFG n) 8 2

/-! ### Reference clocks (R110 to R112) -/

/-- An x16 port spans PG2j and this group PG2j+1, whose lanes then run from the PLL of PG2j, its own reference ignored (R111). -/
def slaved (s : State) (k : Nat) : Bool := rdB s (Reg.PG_STATUS k) 6

/-- The groups a reference serves (R111). -/
def refGroups (s : State) (k : Nat) : List Nat := if k % 2 = 0 && slaved s (k + 1) then [k, k + 1] else [k]

/-- A group's own reference counts: the group is used, and no other PLL drives it (R107, R111, R112). -/
def ownRef (s : State) (k : Nat) : Bool := decide (pgMode s k ≠ 0) && !(slaved s k)

/-- The lanes of a group. -/
def pgLanes (k : Nat) : List Nat := (List.range 8).map fun i => 8 * k + i

/-- The ports with a lane in some of the groups. -/
def pgPorts (s : State) (ks : List Nat) : List Nat :=
  ((ks.flatMap pgLanes).filter fun n => decide (laneMode s n ≠ 0)).foldl (fun l n =>
    if l.contains (lanePort s n) then l else l ++ [lanePort s n]) []

/-- A port goes down with its reference (R112). -/
def refPortDown (s : State) (k p : Nat) : State :=
  let s := faultP s 2 0x01 2 p k
  if isNoz s p then
    let s := if nzState s p = 2 || nzState s p = 3 || nzState s p = 4 then memberDown s p 5 else if nzState s p = 1 then setNz s p 5 else s
    updMember s p fun m => { m with refDown := true, retryWait := false, signal := false }
  else if isPcie s p then linkLost s p
  else s

/-- A reference lost, or outside its limits: every lane it serves idle, its ports down (R112). -/
def refLost (s : State) (k : Nat) : State :=
  let gs := refGroups s k
  if (s.pg.get k).refDown || !(ownRef s k) then s
  else
    let s := bump s (Reg.PG_REF_LOSS k)
    let s := gs.foldl (fun s g => wrB (updPg s g fun x => { x with refDown := true }) (Reg.PG_STATUS g) 4 false) s
    let s := (gs.flatMap pgLanes).foldl (fun s n => prbsUnlock (wrF s (Reg.LANE_STATUS n) 2 1 0) n 0) s
    (pgPorts s gs).foldl (fun s p => refPortDown s k p) s

/-- PG_REF_EDGE_LOSS (R111, R112): no edge for 2 µs, of a reference that counts. -/
def execPgRefEdgeLoss (k : Nat) (s : State) : Res :=
  if ownRef s k then .next (refLost (wrB s (Reg.PG_STATUS k) 3 false) k) else .next s

/-- PG_REF_WINDOW (R112): the readings of a 1 ms window; a mean offset beyond 350 ppm, or on Nozan a variation above 1,000 ppm, counts as
loss. -/
def execPgRefWindow (k : Nat) (offset spread : BitVec 16) (s : State) : Res :=
  if !(ownRef s k) then .next s
  else
    let s := wrF (wrF s (Reg.PG_REF_PPM k) 15 0 offset.toNat) (Reg.PG_REF_SPREAD k) 15 0 spread.toNat
    let s := wrB s (Reg.PG_STATUS k) 3 true
    let wide := decide (pgMode s k = 2) && decide (1000 < spread.toNat)
    let s := if wide then wrB s (Reg.PG_STATUS k) 5 true else s
    if wide || decide (3500 < offset.toInt) || decide (offset.toInt < -3500) then .next (refLost s k) else .next s

/-- PG_REF_RESTORED (R112): 10 ms within limits, and the PLL locked again: the ports begin link training. -/
def execPgRefRestored (k : Nat) (s : State) : Res :=
  if !(s.pg.get k).refDown || !(ownRef s k) then .next s
  else
    let gs := refGroups s k
    let s := gs.foldl (fun s g => updPg (wrB (wrB s (Reg.PG_STATUS g) 4 true) (Reg.PG_STATUS g) 5 false) g fun x => { x with refDown := false }) s
    let s := wrB s (Reg.PG_STATUS k) 3 true
    .next ((pgPorts s gs).foldl (fun s p =>
      if isNoz s p then
        let s := updMember s p fun m => { m with refDown := false }
        beginTraining s p
      else s) s)

/-! ### Rate matching (R119 to R121) -/

/-- A Nozan port transmits symbols: it trains, is up, or runs a reset. -/
def nzSends (s : State) (p : Nat) : Bool := isNoz s p && decide (1 ≤ nzState s p) && decide (nzState s p ≤ 3) && !(s.member.get p).refDown

/-- ALN_TRANSMIT (R119): K28.5 and three K28.0 on every lane. -/
def execAlnTransmit (p : Nat) (s : State) : Res := if nzSends s p then .next (alnSend s p) else .next s

/-- The lowest number of a list. -/
def lowest (l : List Nat) : Nat := l.foldl min (l.headD 0)

/-- The bit position of a lane's K28.5 in an ALN (R117): lock after 3 sets at one position; a locked lane moves to another only when 3
consecutive sets stand there, counts the move, and has then lost its lock (DEDUCED, log entry 98). -/
def alignStep (s : State) (n pos : Nat) : State :=
  let l := s.lane.get n
  if rdB s (Reg.LANE_STATUS n) 2 then
    if pos = l.alnPos then updLane s n fun l => { l with alnOther := none }
    else
      let k := match l.alnOther with
        | some (a, k) => if a = pos then k + 1 else 1
        | none => 1
      if k < 3 then updLane s n fun l => { l with alnOther := some (pos, k) }
      else
        let s := updLane s n fun l => { l with alnPos := pos, alnOther := none, alnSeen := 0 }
        wrB (bump s (Reg.LANE_REALIGN n)) (Reg.LANE_STATUS n) 2 false
  else
    let k := if pos = l.alnPos then l.alnSeen + 1 else 1
    let s := updLane s n fun l => { l with alnPos := pos, alnSeen := k }
    if 3 ≤ k then wrB s (Reg.LANE_STATUS n) 2 true else s

/-- The fill of every lane of a port changed by a number of symbols, within its 8 symbols (R120). -/
def moveFill (s : State) (z : List (Nat × Int)) : State :=
  z.foldl (fun s x => updLane s x.1 fun l => { l with fill := (min 8 (max 0 ((l.fill : Int) + x.2))).toNat }) s

/-- ALN_RECEIVE (R117, R119, R120): `g` are the set's groups (`inFrame` when a frame's symbols around it bring them too, which then count
there), `drift` how each lane's fill moved since the last ALN, `at_` where each lane's K28.5 stood. One decision, for every lane. -/
def execAlnReceive (p : Nat) (g : LaneGroups) (inFrame : Bool) (drift : List Int) (at_ : List Nat) (s : State) : Res :=
  match isNoz s p, (lanesOf s p).head? with
  | true, some l0 =>
    let r := receiveGroups s p g
    let lanes := receiveLanes s p
    let s := (lanes.zip at_).foldl (fun s x => alignStep s x.1 x.2) (if inFrame then s else r.2)
    let s := moveFill s (lanes.zip drift)
    let f := lowest (lanes.map fun n => (s.lane.get n).fill)
    if f < 3 then .next (bumpF (moveFill s (lanes.map fun n => (n, 1))) (Reg.LANE_EB_ADJ l0) 15 0 1)
    else if 5 < f && r.1.all fun l => decide (3 ≤ l.countP fun x => x == kFIL) then
      .next (bumpF (moveFill s (lanes.map fun n => (n, -1))) (Reg.LANE_EB_ADJ l0) 31 16 1)
    else .next s
  | _, _ => .next s

/-- ELASTIC_BUFFER_SLIP (R121): the next symbol of the lane is an error marker, and the buffer is recentred. -/
def execElasticBufferSlip (lane : Nat) (s : State) : Res :=
  let s := updLane s lane fun l => { l with fill := 4, slipped := true }
  .next (faultP (wrB s (Reg.LANE_STATUS lane) 5 true) 2 0x02 1 (lanePort s lane) lane)

/-! ### Lane tests (R123 to R128) -/

/-- A lane's port lets a test run (R123): the group is unused, the lane belongs to no port, or the port is in detect, which is step 1 of
training without a signal (R162), or down; a port held by a test on another lane is. -/
def testMay (s : State) (n : Nat) : Bool :=
  let p := lanePort s n
  if pgMode s (n / 8) = 0 || !((lanesOf s p).contains n) then true
  else if isNoz s p then
    decide (nzState s p = 0 ∨ nzState s p = 5) || (decide (nzState s p = 1) && decide (trainStep s p = 1) && !(s.member.get p).signal)
  else !(dlUp s p) && decide (rdF s (Reg.PCIE_STATUS p) 3 0 = 0 ∨ rdF s (Reg.PCIE_STATUS p) 3 0 = 7)

/-- A test's rate suits the lane's mode and limit, and its loop the mode (R127, R134). -/
def testForm (s : State) (n : Nat) (v : Word) : Bool :=
  let r := getF v 5 3
  let m := laneMode s n
  let rate := if m = 0 then true else (if m = 1 then decide (r < 6) else decide (6 ≤ r)) && decide (r ≤ rdF s (Reg.LANE_CFG n) 15 13)
  rate && decide (getF v 7 6 ≠ 3) && !(decide (getF v 7 6 = 2) && decide (m = 1))

/-- A write of LANE_TEST_CTRL refused. -/
def testRefuse (s : State) (n : Nat) : State := wrB s (Reg.LANE_TEST_STATUS n) 2 true

/-- The port of a lane under test is held in detect (R123). -/
def holdPort (s : State) (n : Nat) : State :=
  let p := lanePort s n
  if !((lanesOf s p).contains n) then s
  else if isNoz s p then updMember (setNz s p 0) p fun m => { m with retryWait := true, downAt := some (m.downAt.getD s.now) }
  else if isPcie s p then setLtssm s p 0
  else s

/-- The first symbols of a pattern as the lane sends them: bits, at 64.0 GT/s PAM4 levels (R124). -/
def patternHead (v : Word) : List Nat :=
  let b := prbsStart (getF v 2 1) 64
  if getF v 5 3 = 5 then (List.range 32).map fun i => pam4 (b.getD (2 * i) false) (b.getD (2 * i + 1) false)
  else b.map Bool.toNat

/-- The generator starts from its all-ones state: on the pins, or inside the serdes with the pins idle; CHECK_ONLY leaves the transmitter
idle (R124, R127, R134). -/
def startGenerator (s : State) (n : Nat) (v : Word) : State :=
  let near := decide (getF v 7 6 = 1)
  let s := if near || getB v 8 then emit s (.laneIdle n) else s
  if getB v 8 then s else emit s (.pattern n near (patternHead v))

/-- A test starts with cleared counters and status; the clearing of REFUSED, ABORTED and LOCK_LOSSES then is the model's (DESIGN CHOICE,
log entry 99). -/
def testBegin (s : State) (n : Nat) (v : Word) : State :=
  let s := wrF (wrN (holdPort s n) (Reg.LANE_TEST_STATUS n) 1) (Reg.LANE_RATE n) 2 0 (getF v 5 3)
  startGenerator (wr64 (wr64 s (Reg.LANE_PRBS_BITS_LO n) 0) (Reg.LANE_PRBS_ERRS_LO n) 0) n v

/-- A test stops: the generator at its next bit, what was compared counted (R125, R128). LANE_RATE keeps the test's rate (DESIGN CHOICE, log
entry 99). -/
def testEnd (s : State) (n : Nat) : State := emit (wrF (prbsEnd s n 0) (Reg.LANE_TEST_STATUS n) 1 0 0) (.laneIdle n)

/-- A write of LANE_TEST_CTRL (R123, R127, R128, R134): refused, or stored, and a test or a loop starts or stops. -/
def testWrite (s : State) (n : Nat) (v : Word) : State :=
  let ctl := Reg.LANE_TEST_CTRL n
  let st := Reg.LANE_TEST_STATUS n
  let running := rdB s st 0
  if !(testMay s n) || !(testForm s n v) || (running && getB v 0 && decide (getF v 2 1 ≠ rdF s ctl 2 1)) then testRefuse s n
  else
    let s := if running && !(getB v 0) then testEnd s n else s
    let s := wrB (wrN s ctl (getF v 8 0)) st 2 false
    let s := wrB s (Reg.LANE_STATUS n) 7 (getB v 0 || decide (getF v 7 6 ≠ 0))
    if !running && getB v 0 then testBegin s n v
    else if getF v 7 6 ≠ 0 then holdPort s n
    else s

/-- LANE_TEST_START (R123, R124, R127, R128): the manager's write of LANE_TEST_CTRL. -/
def execLaneTestStart (lane : Nat) (v : Word) (s : State) : Res := .next (testWrite s lane v)

/-- LANE_TEST_STOP (R128): the manager's write of LANE_TEST_CTRL with ENABLE = 0. -/
def execLaneTestStop (lane : Nat) (v : Word) (s : State) : Res := .next (testWrite s lane (setB v 0 false))

/-- 64 error-free bits follow the bits that loaded the checker's register (R125). -/
def prbsSync (pattern : Nat) (bits : List Bool) : Bool :=
  let d := (prbsTaps pattern).1
  decide (d + 64 ≤ bits.length) && decide (prbsErrors pattern (bits.take d).reverse ((bits.drop d).take 64) = 0)

/-- PRBS_CHECKER_LOCK (R125, R127): the bits received, in order; a lane in the near-end loop receives its own pattern, one in the far-end loop
sends what it receives again. Not while the reference is lost (R128). -/
def execPrbsCheckerLock (lane : Nat) (bits : List Bool) (s : State) : Res :=
  let ctl := Reg.LANE_TEST_CTRL lane
  let s := if rdF s ctl 7 6 = 2 then emit s (.loopBits lane bits) else s
  let got := if rdF s ctl 7 6 = 1 && !(rdB s ctl 8) then prbsStart (rdF s ctl 2 1) 128 else bits
  if rdB s (Reg.LANE_TEST_STATUS lane) 0 && !(rdB s (Reg.LANE_TEST_STATUS lane) 1) && !(s.pg.get (lane / 8)).refDown
      && prbsSync (rdF s ctl 2 1) got then
    .next (updLane (wrB s (Reg.LANE_TEST_STATUS lane) 1 true) lane fun l => { l with cmpAt := some s.now })
  else .next s

/-- PRBS_LOCK_LOSS (R125): the last 256 bits compared at most, true where one was in error; with 16 or more the lock is lost. -/
def execPrbsLockLoss (lane : Nat) (bits : List Bool) (s : State) : Res :=
  let n := bits.countP id
  if rdB s (Reg.LANE_TEST_STATUS lane) 0 && decide (bits.length ≤ 256) && decide (16 ≤ n) then .next (prbsUnlock s lane n) else .next s

/-- One transmitted bit inverted; a lane that hears itself finds it in error (R126, R127). -/
def injectBit (s : State) (n : Nat) : State :=
  let s := emit s (.inject n)
  if rdF s (Reg.LANE_TEST_CTRL n) 7 6 = 1 && rdB s (Reg.LANE_TEST_STATUS n) 1 then
    wr64 s (Reg.LANE_PRBS_ERRS_LO n) (satAdd (2 ^ 48 - 1) (rd64 s (Reg.LANE_PRBS_ERRS_LO n)) 1)
  else s

/-- INJECT_SHOT (R126): one bit inverted; on a lane in service not within 1 µs of the last. -/
def execInjectShot (lane : Nat) (s : State) : Res :=
  let soon := match (s.lane.get lane).lastShot with
    | some t => decide (s.now < t + 1600)
    | none => false
  if !(rdB s (Reg.LANE_TEST_STATUS lane) 0) && soon then .next s
  else .next (injectBit (updLane s lane fun x => { x with lastShot := some s.now }) lane)

/-- INJECT_RATE_TICK (R126): only in rate mode, during a PRBS test, with an exponent of 10 to 40. -/
def execInjectRateTick (lane : Nat) (s : State) : Res :=
  let c := Reg.LANE_INJ_CTRL lane
  if rdB s c 1 && rdB s (Reg.LANE_TEST_STATUS lane) 0 && decide (10 ≤ rdF s c 13 8) && decide (rdF s c 13 8 ≤ 40) then
    .next (injectBit s lane)
  else .next s

/-! ### Margining (R129 to R131) -/

/-- MARGIN_START (R130, R131): the manager's write of LANE_MARGIN_CTRL; BUSY while a link command holds the sampler. A START while the
manager's margin runs begins it anew (DESIGN CHOICE, log entry 99). -/
def execMarginStart (lane : Nat) (v : Word) (s : State) : Res :=
  let c := Reg.LANE_MARGIN_CTRL lane
  let st := Reg.LANE_MARGIN_STATUS lane
  let most := if getF v 2 1 < 2 then 32 else 64
  if !(getB v 0) then .next (wrF s c 15 1 (getF v 15 1))
  else if (s.lane.get lane).linkHolds then .next (wrF s st 2 0 4)
  else if most < getF v 9 3 || decide (getF v 15 10 = 0) then .next s
  else .next (wrN (wrF (wrF s c 15 1 (getF v 15 1)) st 2 0 1) (Reg.LANE_MARGIN_COUNT lane) 0)

/-- MARGIN_DONE (R130): `errs` have reached LIMIT, or 2^20 bits are compared without; `blocks` counts 2^10 bits. A reading of neither leaves
the margin running. -/
def execMarginDone (lane errs blocks : Nat) (s : State) : Res :=
  let limit := rdF s (Reg.LANE_MARGIN_CTRL lane) 15 10
  let done := (decide (errs = limit) && decide (blocks ≤ 1024)) || (decide (errs < limit) && decide (blocks = 1024))
  if rdF s (Reg.LANE_MARGIN_STATUS lane) 2 0 = 1 && done then
    .next (wrN (wrF s (Reg.LANE_MARGIN_STATUS lane) 2 0 2) (Reg.LANE_MARGIN_COUNT lane) (errs + blocks * 64))
  else .next s

/-- The sampler of a lane goes to its link: the manager's margin ends PREEMPTED (R131). -/
def linkTakes (s : State) (n : Nat) (step : Bool × Bool × Nat) : State :=
  let s := updLane s n fun x => { x with linkHolds := true, linkStep := some step }
  if rdF s (Reg.LANE_MARGIN_STATUS n) 2 0 = 1 then wrF s (Reg.LANE_MARGIN_STATUS n) 2 0 3 else s

/-- The capability values of R129: kinds of margining (voltage; up and down, left and right apart; sample rate; own sampler), voltage
steps, timing steps, largest timing offset in % of a UI, largest voltage offset in 10 mV, lanes at once less one. The encoding is PCI
Express's (PRESUMED, log entry 100); the sample rates of kinds 5 and 6 are free. -/
def marginCap (s : State) (n k : Nat) : Nat × State :=
  match k with
  | 0 => (0x1F, s)
  | 1 => (64, s)
  | 2 => (32, s)
  | 3 => (50, s)
  | 4 => (16, s)
  | 7 => (portLanes s (lanePort s n) - 1, s)
  | _ => let v := freshBits s 6; (v.1.toNat, v.2)

/-- The answer to a step: too many errors above the limit, else margining, with the errors counted, at 64.0 GT/s those of the worst eye
(R129). -/
def marginAnswer (limit : Nat) (eyes : List Nat) : Nat :=
  let worst := min 63 (eyes.foldl max 0)
  if limit < worst then worst else 0x80 + worst

/-- LINK_MARGIN_COMMAND (R129, R131): a PCI Express link at 16.0 GT/s or above margins one of its lanes; `eyes` are the errors its sampler
counts, one number for each eye. Steps beyond the maximum are refused. -/
def execLinkMarginCommand (lane : Nat) (c : MarginCmd) (eyes : List Nat) (s : State) : Res :=
  let l := s.lane.get lane
  let reply (s : State) (v : Nat) : Res := .next (emit s (.marginReply lane v))
  let step (max_ : Nat) (x : Bool × Bool × Nat) : Res :=
    if max_ < x.2.2 then reply s 0xC0 else reply (linkTakes s lane x) (marginAnswer l.linkLimit eyes)
  if laneMode s lane ≠ 1 || !(dlUp s (lanePort s lane)) || rdF s (Reg.LANE_RATE lane) 2 0 < 3 then .next s
  else match c with
    | .capability k => let v := marginCap s lane k; reply v.2 v.1
    | .errorLimit n => reply (updLane s lane fun x => { x with linkLimit := n % 64 }) (0xC0 + n % 64)
    | .normal => reply (updLane s lane fun x => { x with linkHolds := false, linkStep := none }) 0x0F
    | .clearLog => reply s 0x55
    | .timing right n => step 32 (false, right, n)
    | .voltage up n => step 64 (true, up, n)

end Sys2Proof.Machine
end

