-- ==== Sys2Proof/Machine/Faults.lean ====
section
/-! DEFINITION. The fault collection, ERR_N, the counter bank's OVF bits and the harvest port (R511 to R530). -/

namespace Sys2Proof.Machine

open Sys2Proof

/-- What a fault's own unit keeps of it: an uncorrectable error of management SRAM spoils the firmware held there (R70), and one of a link or
descriptor memory is counted (R225, R245), one of the page bitmap takes the landing buffer out of service (R276), and a hedge slot whose copy is uncorrectable refuses everything with
reason 7 until the copy is rewritten (R437). -/
def faultMark (s : State) (f : FaultSrc) : State :=
  if f.unit = 17 && f.code = 2 then { s with ret := { s.ret with firmware := none } }
  else if f.unit = 6 && f.code = 6 then bumpF s Reg.BUF_LINK_ERR 31 16 1
  else if f.unit = 8 && f.code = 3 && landServes s then bufferOut s
  else if f.unit = 13 && f.code = 4 then { s with hedge := { s.hedge with bad := s.hedge.bad ++ [(f.addr.toNat, 7)] } }
  else s

/-- FAULT_ARRIVAL (R515, R516). -/
def execFaultArrival (f : FaultSrc) (s : State) : Res :=
  let s := faultMark s f
  .next (recordFault s f)

/-- The level of the ERR_N output: low while the rootstock die holds it, in the pulse, and while HELD with LEVEL 1 (R517, R518). -/
def errNHigh (s : State) : Bool :=
  let st := rdF s Reg.FLT_STATUS 3 2
  !(rdB s Reg.FLT_STATUS 4) && (decide (st = 0) || (decide (st = 2) && !(rdB s Reg.FLT_ERRN_CTRL 0)))

/-- ERR_N follows its state: released in IDLE, LEVEL in HELD (R517). -/
def errN (s : State) (st : Nat) : State :=
  let s := wrF s Reg.FLT_STATUS 3 2 st
  emit s (.pin .errN (errNHigh s))

/-- ERR_N_PULSE_END (R517): 4 µs after the pulse began or later: HELD, or IDLE when CLEAR was written during the pulse. -/
def execErrNPulseEnd (s : State) : Res :=
  if rdF s Reg.FLT_STATUS 3 2 ≠ 1 then .next s
  else
    let s := timeTo s (s.flt.pulseAt + 6400)
    .next (errN { s with flt := { s.flt with clearDue := false } } (if s.flt.clearDue then 0 else 2))

/-- ERR_N_CLEAR (R517): back to IDLE, at the end of a pulse in progress. -/
def execErrNClear (s : State) : Res :=
  if rdF s Reg.FLT_STATUS 3 2 = 1 then .next { s with flt := { s.flt with clearDue := true } }
  else if rdF s Reg.FLT_STATUS 3 2 = 2 then .next (errN s 0)
  else .next s

/-- FAULT_RECORD_CLEAR (R515): VALID and OVERFLOW clear. -/
def execFaultRecordClear (unit : Nat) (s : State) : Res := .next (fltStatus (wrF s (Reg.FLT_REC_INFO unit) 1 0 0))

/-- COUNTER_OVF_CLEAR (R519): the manager's write of 1; a wrap in the same cycle keeps OVF set. -/
def execCounterOvfClear (g j : Nat) (wraps : Bool) (s : State) : Res := .next (wrB s (Reg.CNT_LIVE_HI g j) 31 wraps)

/-! ### The harvest port (R525 to R529) -/

/-- The harvest port changed. -/
def updHv (s : State) (f : HvstSt → HvstSt) : State := { s with hvst := f s.hvst }

/-- A flow-control set was recognised: the receiver is locked, and the time of loss starts anew (R526). -/
def flowSet (s : State) : State := updHv (wrB s Reg.HVST_STATUS 2 true) fun h => { h with setAt := s.now }

/-- XOFF_RECEIVE (R526): no further record starts; a LOST port stays LOST. -/
def execXoffReceive (s : State) : Res :=
  if !s.hvst.running then .next s
  else
    let s := count (bump (flowSet s) Reg.HVST_XOFF) 126 8
    .next (if rdF s Reg.HVST_STATUS 1 0 = 0 then s else wrF s Reg.HVST_STATUS 1 0 3)

/-- XON_RECEIVE (R526): records start again. -/
def execXonReceive (s : State) : Res :=
  if !s.hvst.running then .next s else .next (hvGo (wrF (flowSet s) Reg.HVST_STATUS 1 0 2))

/-- HARVEST_FLOW_LOST_EXPIRY (R526): 100 µs without a set: LOST, with one fault. -/
def execHarvestFlowLostExpiry (s : State) : Res :=
  if !s.hvst.running || decide (rdF s Reg.HVST_STATUS 1 0 = 0) then .next s
  else .next (faultU (bump (wrB (wrF (timeTo s (s.hvst.setAt + 160000)) Reg.HVST_STATUS 1 0 0) Reg.HVST_STATUS 2 false) Reg.HVST_LOST) 18 0x01 2 0)

/-- HARVEST_RECORD_END (R526, R527): the record has left; the next starts. -/
def execHarvestRecordEnd (s : State) : Res :=
  match s.hvst.sending with
  | none => .next s
  | some r =>
    let n := r.bytes.length
    let s := wrF s Reg.HVST_FILL 16 0 (rdF s Reg.HVST_FILL 16 0 - n)
    let s := countBy (count (bump s Reg.HVST_SENT) 126 0) 126 1 n
    let s := bumpBy s Reg.HVST_BYTES ((s.hvst.rem + n) / 64)
    let s := updHv (wrB s Reg.HVST_STATUS 3 false) fun h => { h with sending := none, rem := (h.rem + n) % 64 }
    .next (hvGo s)

/-- HARVEST_DROP_EXPIRY (R529): a DROP record at most once per ms, after drops. -/
def execHarvestDropExpiry (s : State) : Res :=
  if s.hvst.drops.sum = 0 || !s.hvst.running then .next s
  else
    let s := timeTo s (s.hvst.dropAt.elim 0 fun t => t + 1600000)
    let body := (s.hvst.drops.take 5).flatMap (leBytes 4)
    let room := decide (rdF s Reg.HVST_FILL 16 0 + 36 ≤ 65536)
    let s := hvOffer s 0 6 body
    .next (if room then updHv s fun h => { h with drops := [0, 0, 0, 0, 0, 0], dropAt := some s.now } else s)

/-- The groups that COUNTERS records report. -/
def hvGroups (s : State) : List Nat := (List.range 128).filter fun g => rdB s (Reg.HVST_CNT_GROUPS (g / 32)) (g % 32)

/-- The live counters as they stand (R522). -/
def cntCopy (s : State) : Tab Word :=
  s.regs.keep fun a _ => decide (Reg.CNT_LIVE_LO 0 0 ≤ a) && decide (a < Reg.CNT_LIVE_LO 128 0) && decide ((a - Reg.CNT_LIVE_LO 0 0) % 16 < 8)

/-- HARVEST_SNAPSHOT_EXPIRY (R529): every CNT_PERIOD ms a harvest snapshot, or a skip while the last one's records are not all queued. -/
def execHarvestSnapshotExpiry (s : State) : Res :=
  if !s.hvst.running || decide (rdF s Reg.HVST_CFG 31 16 = 0) then .next s
  else
    let s := timeTo s (s.hvst.snapAt + rdF s Reg.HVST_CFG 31 16 * 1600000)
    let s := updHv s fun h => { h with snapAt := s.now }
    if s.hvst.toQueue ≠ [] then .next (count (bump s Reg.HVST_SNAP_SKIP) 126 9)
  else .next (updHv s fun h => { h with snapNo := h.snapNo + 1, shadow := cntCopy s, toQueue := hvGroups s })

end Sys2Proof.Machine
end

