-- ==== Sys2Proof/Machine/MgmtOps.lean ====
section
/-! DEFINITION. The management core's shared operations: the form of a request as it enters the queue (R537 to R539), the views
(R542) and the attestation report (R545). -/

namespace Sys2Proof.Machine

open Sys2Proof

/-! ### The form of a request (R537, R538) -/

/-- A word of which every bit is in use. -/
def anyW : Word := 0xFFFFFFFF

/-- The words that follow the header of a code, each with the bits its field uses; none for a code not in R539. The number of words
of a HEDGE_RULE follows its group's count. -/
def bodyMasks (ws : List Word) (code : Nat) : Option (List Word) :=
  match code with
  | 0x0001 => some []
  | 0x0002 => some [anyW, anyW]
  | 0x0101 => some (List.replicate 16 anyW)
  | 0x0102 => some [anyW]
  | 0x0103 => some (List.replicate 65 anyW)
  | 0x0104 => some []
  | 0x0201 => some []
  | 0x0202 => some [anyW]
  | 0x0203 => some [anyW, 1]
  | 0x0204 => some []
  | 0x0205 => some []
  | 0x0206 => some [anyW]
  | 0x0207 => some [anyW, anyW, anyW, anyW, anyW, 0xFFFFF, 1]
  | 0x0301 => some ([anyW, anyW] ++
      (List.replicate (min 8 (ws.getD 2 0).toNat) [anyW, anyW, anyW, anyW, anyW, 0xF]).flatten)
  | 0x0302 => some [anyW, 1, anyW, anyW, anyW, anyW, anyW, anyW, anyW]
  | 0x0303 => some []
  | 0x0304 => some [anyW, anyW, anyW, anyW, 1]
  | 0x0401 => some [anyW]
  | 0x0402 => some [anyW]
  | 0x0403 => some [anyW]
  | 0x0501 => some [anyW, anyW, anyW, anyW, 0xFFFFF, 1]
  | 0x0502 => some [anyW]
  | 0x0503 => some [anyW, anyW, anyW, anyW, anyW, 0xFFFFF]
  | 0x0504 => some [anyW, anyW, anyW, anyW, 0xFFFFF]
  | 0x0505 => some [1, anyW]
  | 0x0506 => some [1]
  | 0x0507 => some [anyW, 0xFFF, 0xFFFFF]
  | 0x0508 => some [anyW]
  | 0x0509 => some [anyW, anyW, anyW, anyW, anyW, 0xFFFFF, anyW, anyW, 0xFFF]
  | 0x050A => some [anyW]
  | 0x0601 => some (List.replicate 9 anyW)
  | 0x0602 => some [anyW]
  | 0x0603 => some [anyW]
  | 0x0604 => some [anyW, anyW, anyW, 1]
  | 0x0605 => some [anyW, anyW, anyW, anyW, anyW, anyW, anyW, anyW, 0xFFFFF, 1]
  | 0x0606 => some [anyW]
  | 0x0607 => some [anyW]
  | 0x0701 => some (List.replicate 8 anyW)
  | _ => none

/-- What is wrong with a request's words, as the status it draws: 1 UNKNOWN_CODE, 3 MALFORMED for a LENGTH other than the code's or a
1 in an unused bit (R538, R540). -/
def formStatus (ws : List Word) : Option Nat :=
  let h := ws.getD 0 0
  match bodyMasks ws (getF h 15 0) with
  | none => some 0x01
  | some ms =>
    if getF h 25 16 ≠ ms.length || ws.length ≠ ms.length + 1 then some 0x03
    else if (ws.tail.zip ms).any fun x => decide (x.1 &&& ~~~x.2 ≠ 0) then some 0x03
    else none

/-- The source of a queued request with the TAG of its header word. -/
def reqSrcOf (r : MgmtReq) : ReqSrc := { r.src with tag := BitVec.ofNat 6 (getF (r.words.getD 0 0) 31 26) }

/-- A request whose words are in no form of R539 is answered at its turn, which a brace puts off (R67, R540, R548). -/
def refuseForm (s : State) (r : MgmtReq) : State :=
  match formStatus r.words with
  | none => s
  | some st => if r.begun || !(awaitsTurn s r) || !(turnOf s r.src) then s else reply s (reqSrcOf r) (reqCode r) st []

/-- The queued requests of no form whose turn has come are answered, in the order of the queue. -/
def refuseForms (s : State) : State := s.mgmt.queue.foldl refuseForm s

/-- A request enters the one queue (R67). -/
def enterQueue (s : State) (src : ReqSrc) (ws : List Word) : State :=
  let r : MgmtReq := { src := src, words := ws }
  refuseForms (mgmtCount { s with mgmt := { s.mgmt with queue := s.mgmt.queue ++ [r] } })

/-- The words a mailbox's request buffer holds: the header and the words it counts, as far as the buffer reaches (R535, R537). -/
def bufferWords (s : State) (host slot : Nat) : List Word :=
  let n := min 255 (getF (rd s (Reg.MB_REQ_BUF host slot 0)) 25 16)
  (List.range (n + 1)).map fun i => rd s (Reg.MB_REQ_BUF host slot i)

/-! ### Views (R542) -/

/-- The 16 words of a view entry. -/
def entry16 (ws : List Word) : List Word := (ws ++ List.replicate 16 0).take 16

/-- One entry for each region of this switch, and each landing key a host of it holds. DESIGN CHOICE: the spec gives registrations
no register layout. -/
def viewRegions (s : State) : List ViewEntry :=
  (s.rme.regions.cells.filter fun c => decide (c.2.st ≠ 0) && !c.2.landing).map (fun c =>
    { kind := 1, owner := c.2.owner, id := keyOf s c.1, words := entry16 [w32 (keyOf s c.1), w32 c.2.st, w32 (c.2.perm + c.2.peers * 16), w32 c.2.peerSw,
        lo32 c.2.base, hi32 c.2.base, lo32 c.2.len, hi32 c.2.len] })
  ++ s.rme.landKeys.map fun l =>
    { kind := 1, owner := l.host, id := l.key, words := entry16 [w32 l.key, w32 (if l.draining then 2 else 1), 0x100, w32 l.home,
        0, 0, lo32 l.len, hi32 l.len] }

/-- One entry for each live scion: its registers (R486). -/
def viewScions (s : State) : List ViewEntry :=
  (liveScions s).map fun sc => { kind := 2, owner := scHost s sc, id := sc
                                 words := (List.range 16).map fun i => rd s (Reg.SCION_S_STATUS sc + 4 * i) }

/-- One entry for each connection that is not FREE: its number and the start of its context (R385). -/
def viewConns (s : State) : List ViewEntry :=
  (s.rme.ctx.cells.filter fun c => decide (c.2.st ≠ 0)).map fun c =>
    { kind := 3, owner := connHost c.1, id := c.1, words := entry16 (w32 c.1 :: ctxWords c.2) }

/-- One entry for each queue: its number, bit 31 for a CQ, its base, size, the CQ or vector, head and tail. -/
def viewQueues (s : State) : List ViewEntry :=
  (s.rme.sq.cells.filter fun c => decide (c.2.st ≠ 0)).map (fun c =>
    { kind := 4, owner := c.1 / 1024, id := c.1 % 1024, words := entry16 [w32 (c.1 % 1024), lo32 c.2.base, hi32 c.2.base, w32 c.2.log2, w32 c.2.cq,
        w32 c.2.head, w32 c.2.tail] })
  ++ (s.rme.cq.cells.filter fun c => c.2.valid).map fun c =>
    { kind := 4, owner := c.1 / 1024, id := c.1 % 1024 + 2 ^ 31, words := entry16 [w32 (c.1 % 1024 + 2 ^ 31), lo32 c.2.base, hi32 c.2.base, w32 c.2.log2,
        w32 c.2.vec, w32 c.2.head, w32 c.2.written] }

/-- One entry for each valid active peer window: its registers (R438). -/
def viewWindows (s : State) : List ViewEntry :=
  (hostsOf s).flatMap fun k => ((List.range 32).filter fun w => rdB s (Reg.HEDGE_PW_CTRL k 0 w) 0).map fun w =>
    { kind := 5, owner := k, id := w, words := entry16 (w32 w :: (List.range 7).map fun i => rd s (Reg.HEDGE_PW_SRC_BASE_LO k 0 w + 4 * i)) }

/-- One entry for each counter slot mapped: the slot and its group. -/
def viewSlots (s : State) : List ViewEntry :=
  s.mgmt.slots.cells.map fun c => { kind := 6, owner := c.1 / 64, id := c.2 - 1, words := entry16 [w32 (c.1 % 64), w32 (c.2 - 1)] }

/-- Every view taken afresh (R542). -/
def refreshViews (s : State) : State :=
  let vs := viewRegions s ++ viewScions s ++ viewConns s ++ viewQueues s ++ viewWindows s ++ viewSlots s
  { s with mgmt := { s.mgmt with views := vs, viewSeq := rdN s Reg.GLB_SNAP_SEQ, viewAt := s.now } }

/-! ### Counters (R521) -/

/-- The right of host k for a counter group: 0 none, 1 read, 2 map. The manager reads every group (R521). -/
def counterRight (s : State) (k g : Nat) : Nat :=
  let r := ((s.seed.policy.rights.find? fun x => x.1 == k && x.2.1 == g).map fun x => x.2.2).getD 0
  if k = mgr s then max 1 r else r

/-- The body of a COUNTERS record from live values (R529, R539). -/
def counterWords (s : State) (g : Nat) : List Word :=
  w32 s.hvst.snapNo :: w32 g :: (List.range 32).flatMap fun j => [rd s (Reg.CNT_LIVE_LO g j), rd s (Reg.CNT_LIVE_HI g j)]

/-! ### Attestation (R544 to R546) -/

/-- The bytes of a 256-bit value in the order the spec lays it out, byte 0 first (R53, R75, R538). -/
def bytes32 (v : BitVec 256) : List Byte := leBytes 32 v.toNat

/-- A byte string in words (R538). -/
def byteWords : List Byte → List Word
  | a :: b :: c :: d :: rest => w32 (a.toNat + b.toNat * 2 ^ 8 + c.toNat * 2 ^ 16 + d.toNat * 2 ^ 24) :: byteWords rest
  | _ => []

/-- The 68-byte attestation public key: the OID of XMSS-SHAKE256_20_256, the root, the public seed (R50, R544). -/
def attestPub (s : State) : List Byte := leBytes 4 0x12 ++ leBytes 64 (Config.attestKey s.root.attSecret).toNat

/-- GLB_ID (R101). -/
def glbId : Nat := 0x9160 + Config.stepping.toNat * 2 ^ 16

/-- The signed region of a report for leaf i (R545). -/
def reportBytes (s : State) (nonce : BitVec 256) (leaf : Nat) : List Byte :=
  leBytes 4 0x54414E58 ++ leBytes 2 1 ++ leBytes 2 3144 ++ bytes32 nonce ++ leBytes 8 Config.uid.toNat ++ leBytes 4 glbId
  ++ leBytes 2 (swId s) ++ leBytes 1 (rdF s Reg.MGMT_ATTEST_COUNT 6 0) ++ leBytes 1 (rdF s Reg.GLB_START_STATUS 5 4)
  ++ leBytes 4 leaf ++ leBytes 4 (rdN s Reg.SEED_VERSION) ++ leBytes 4 (rdN s Reg.SEED_COUNTER) ++ leBytes 4 (rdN s Reg.PFAIL_FLUSH_COUNT)
  ++ leBytes 4 (rdN s Reg.FWD_START_NO) ++ leBytes 4 (rdN s Reg.SEED_FUSE_STATE)
  ++ ((List.range 8).flatMap fun i => leBytes 4 (rdN s (Reg.SEED_HEAD_DIGEST i))) ++ bytes32 s.seed.policy.firmware
  ++ leBytes 8 (seOf s) ++ leBytes 4 (rdN s Reg.GLB_SNAP_SEQ) ++ leBytes 4 (rdN s Reg.GLB_RESET_CAUSE) ++ List.replicate 96 0

/-- The whole report (R545). -/
def report (s : State) (nonce : BitVec 256) (leaf : Nat) : List Byte :=
  let m := reportBytes s nonce leaf
  m ++ attestPub s ++ leBytes 2820 (Config.xmssSign s.root.attSecret leaf m).toNat

end Sys2Proof.Machine
end

