-- ==== Sys2Proof/Machine/Mgmt.lean ====
section
/-! DEFINITION. Mailboxes, MCTP, status, views, provisioning, counters and attestation (R534 to R546). -/

namespace Sys2Proof.Machine

open Sys2Proof

/-- The management core runs, from its ROM or its firmware (R549). -/
def mgmtRuns (s : State) : Bool := decide (rdF s Reg.MGMT_STATUS 1 0 ≠ 0)

/-! ### Mailboxes and MCTP (R536, R541) -/

/-- MB_RING (R184, R536): the request enters the queue with the words the buffer holds now; a RING while BUSY or READY is 1 is ignored,
sets OVERRUN and counts. -/
def execMbRing (host slot : Nat) (s : State) : Res :=
  if !(mefAnswers s host) || !(mgmtRuns s) || 32 ≤ host || 4 ≤ slot then .next s
  else if rdF s (Reg.MB_STATUS host slot) 1 0 ≠ 0 then
    .next (bump (wrB s (Reg.MB_STATUS host slot) 2 true) Reg.MGMT_OVERRUN)
  else
    let s := count (wrB s (Reg.MB_STATUS host slot) 0 true) (80 + host) 20
    .next (enterQueue s { host := host, slot := slot } (bufferWords s host slot))

/-- MB_ACK (R184, R536): READY clears. -/
def execMbAck (host slot : Nat) (s : State) : Res :=
  if !(mefAnswers s host) || 32 ≤ host || 4 ≤ slot then .next s else .next (wrB s (Reg.MB_STATUS host slot) 1 false)

/-- MCTP_REQUEST (R541): a request of the board management controller enters the same queue; up to four may be in progress. -/
def execMctpRequest (slot : Nat) (words : List Word) (s : State) : Res :=
  if !(mgmtRuns s) || 4 ≤ (s.mgmt.queue.filter fun r => r.src.host == bmc).length then .next s
  else .next (enterQueue s { host := bmc, slot := slot } words)

/-- SET_ENDPOINT_ID (R541): the Endpoint ID the bus owner assigns. -/
def execSetEndpointId (eid : Byte) (s : State) : Res := .next { s with mgmt := { s.mgmt with eid := eid } }

/-! ### Status and views (R539, R542) -/

/-- GET_STATUS (R539). -/
def execGetStatus (q : ReqSrc) (s : State) : Res :=
  .next (serve s q 0x0001 { h := true, b := true } true true fun s => reply s q 0x0001 0
    [ rd s Reg.GLB_START_STATUS, rd s Reg.GLB_START_FAIL, rd s Reg.SEED_STATUS, rd s Reg.SEED_FAIL_A, rd s Reg.SEED_FAIL_B,
      rd s Reg.SEED_FUSE_STATE, rd s Reg.GLB_SWITCH_ID ])

/-- VIEW (R542): up to 60 entries of a kind from FIRST on, of the issuer's own host or of every host for the manager, as of the
last snapshot, after the word that counts them (R538). -/
def execView (q : ReqSrc) (kind first : Nat) (s : State) : Res :=
  .next (serve s q 0x0002 { h := true } false true fun s =>
    if kind = 0 || 6 < kind then reply s q 0x0002 0x03 []
    else
      let es := s.mgmt.views.filter fun v => v.kind == kind && (v.owner == q.host || decide (q.host = mgr s))
      let es := (es.drop first).take 60
      reply s q 0x0002 0 (w32 es.length :: es.flatMap ViewEntry.words))

/-! ### Provisioning (R53, R544) -/

/-- PROVISION (R53, R544): both key hashes and the attestation secret drawn are fused, then PROVISIONED; the reply is the
attestation public key. After PROVISIONED is set it draws STATE. -/
def execProvision (q : ReqSrc) (h0 h1 : BitVec 256) (secret : BitVec 256) (s : State) : Res :=
  .next (serve s q 0x0101 { b := true } true false fun s =>
    if s.root.provisioned then reply s q 0x0101 0x07 []
    else
      let s := { s with root := { s.root with keyHash0 := h0, keyHash1 := h1, attSecret := secret, provisioned := true } }
      let s := wrB s Reg.SEED_FUSE_STATE 0 true
      reply s q 0x0101 0 (byteWords (attestPub s)))

/-! ### Counters (R521) -/

/-- COUNTER_READ (R521, R539). -/
def execCounterRead (q : ReqSrc) (g : Nat) (s : State) : Res :=
  .next (serve s q 0x0401 { h := true, b := true } false true fun s =>
    if 128 ≤ g then reply s q 0x0401 0x03 []
    else if q.host ≠ bmc && counterRight s q.host g = 0 then reply s q 0x0401 0x02 []
    else reply s q 0x0401 0 (counterWords s g))

/-- The slot bits of host k's view (R550). -/
def noteSlotsOf (s : State) (k : Nat) : State :=
  let bit (lo n : Nat) : Nat := ((List.range n).map fun i => if s.mgmt.slots.get (64 * k + lo + i) = 0 then 0 else 2 ^ i).sum
  wrN (wrN s (Reg.VIEW_SLOTS_LO k) (bit 0 32)) (Reg.VIEW_SLOTS_HI k) (bit 32 16)

/-- COUNTER_MAP (R521, R534, R539): the group's page at the lowest free counter slot, whose view offset is the reply. -/
def execCounterMap (q : ReqSrc) (g : Nat) (s : State) : Res :=
  .next (serve s q 0x0402 { h := true } false false fun s =>
    if 128 ≤ g then reply s q 0x0402 0x03 []
    else if counterRight s q.host g < 2 then reply s q 0x0402 0x02 []
    else match (List.range 48).find? fun i => decide (s.mgmt.slots.get (64 * q.host + i) = 0) with
      | none => reply s q 0x0402 0x06 []
      | some i =>
        let s := { s with mgmt := { s.mgmt with slots := s.mgmt.slots.set (64 * q.host + i) (g + 1) } }
        reply (noteSlotsOf s q.host) q 0x0402 0 [w32 (0x10000 + i * 0x1000)])

/-- COUNTER_UNMAP (R521, R548): the group's page leaves the host's view. -/
def execCounterUnmap (q : ReqSrc) (g : Nat) (s : State) : Res :=
  .next (serve s q 0x0403 { h := true } false false fun s =>
    if 128 ≤ g then reply s q 0x0403 0x03 []
    else
      let mine := (List.range 48).filter fun i => decide (s.mgmt.slots.get (64 * q.host + i) = g + 1)
      if mine = [] then notFound s q 0x0403 6 g
      else
        let s := mine.foldl (fun s i => { s with mgmt := { s.mgmt with slots := s.mgmt.slots.set (64 * q.host + i) 0 } }) s
        reply (noteSlotsOf s q.host) q 0x0403 0 [])

/-! ### Attestation (R545, R546) -/

/-- The leaf counter of the monotonic block shown (R549). -/
def noteLeaf (s : State) : State := wrN s Reg.MGMT_ATTEST_LEAF s.root.attLeaf

/-- ATTEST (R546): the leaf counter's advance is asked for; STATE before provisioning (R548), ATTEST_LIMIT at the last leaf or
once 64 reports were signed at this start. -/
def execAttest (q : ReqSrc) (nonce : BitVec 256) (s : State) : Res :=
  if s.mgmt.attWait.isSome then .next s
  else .next (serve s q 0x0701 { h := true, b := true } false true fun s =>
    if !s.root.provisioned then reply s q 0x0701 0x07 []
    else if s.root.attLeaf = 2 ^ 20 || 64 ≤ rdF s Reg.MGMT_ATTEST_COUNT 6 0 then reply s q 0x0701 0x0A []
    else emit { s with mgmt := { s.mgmt with attWait := some (q, nonce), attAt := s.now } } (.root "leaf counter advance" s.root.attLeaf))

/-- ATTEST_LEAF_CONFIRM (R546): the advance is durable; the switch signs with the leaf it read and releases the report. -/
def execAttestLeafConfirm (s : State) : Res :=
  match s.mgmt.attWait with
  | none => .next s
  | some (q, nonce) =>
    let leaf := s.root.attLeaf
    let s := { s with mgmt := { s.mgmt with attWait := none }, root := { s.root with attLeaf := leaf + 1 } }
    let s := bumpF (noteLeaf s) Reg.MGMT_ATTEST_COUNT 6 0 1
    .next (reply s q 0x0701 0 (byteWords (report s nonce leaf)))

/-- ATTEST_LEAF_TIMEOUT (R546): 1 ms after the advance was asked for nothing is signed. Whether the counter advanced before its confirmation was lost is open: a free
value. -/
def execAttestLeafTimeout (s : State) : Res :=
  match s.mgmt.attWait with
  | none => .next s
  | some (q, _) =>
    let v := freshBits (timeTo s (s.mgmt.attAt + 1600000)) 1
    let s := v.2
    let s := { s with mgmt := { s.mgmt with attWait := none }, root := { s.root with attLeaf := s.root.attLeaf + v.1.toNat } }
    .next (reply (noteLeaf s) q 0x0701 0x0B [])

end Sys2Proof.Machine
end

