-- ==== Sys2Proof/Machine/PolicyOps.lean ====
section
/-! DEFINITION. The consistency checks of R64 on the policy that a copy's sections spell: ports and lanes (R25, R106, R155, R174), hosts
and quotas (R66), homes and regions (R268), discovery (R215), slots (R340), bank and ledger (R258, R355), QoS (R237 to R239, R246, R250,
R254), counters (R521), envelopes (R65, R426, R435, R453), devices (R467) and the legacy pair; and the bytes of the sections whose layout
the spec gives: IDENT, SLOTS and the hedge part of ENVELOPES. -/

namespace Sys2Proof.Machine

open Sys2Proof

/-- Bytes as a number, the first least significant. -/
def leVal : List Byte → Nat
  | [] => 0
  | b :: bs => b.toNat + 256 * leVal bs

/-- n bytes of a section from an offset on, as a number. -/
def leAt (bs : List Byte) (off n : Nat) : Nat := leVal ((bs.drop off).take n)

/-- The value a policy loads into a register. -/
def loadedValue (p : Config.Policy) (a : Nat) : Word := ((p.regs.find? fun r => r.1 == a).map Prod.snd).getD 0

/-- A field of the value a policy loads into a register. -/
def polF (p : Config.Policy) (a hi lo : Nat) : Nat := getF (loadedValue p a) hi lo

/-- A bit of the value a policy loads into a register. -/
def polB (p : Config.Policy) (a i : Nat) : Bool := getB (loadedValue p a) i

/-! ### Identity (R64) -/

/-- The switch ID and leader list of an IDENT section, none when it breaks its layout or a leader lies in another cluster (R64). -/
def identOf (bs : List Byte) : Option (Nat × List Nat) :=
  let id := leVal (bs.take 2)
  let n := (bs.getD 2 0).toNat
  let at_ (i : Nat) : Nat := leVal ((bs.drop (4 + 2 * i)).take 2)
  let ok := decide (bs.length = 20 ∧ id < 4096 ∧ 1 ≤ n ∧ n ≤ 8 ∧ bs.getD 3 0 = 0)
    && (List.range n).all (fun i => decide (at_ i / 64 = id / 64))
    && (List.range 8).all fun i => decide (i < n) || decide (at_ i = 0)
  if ok then some (id, (List.range n).map at_) else none

/-! ### Slots (R340) -/

/-- The 16 entries of a SLOTS section; none when it is not 64 bytes long. -/
def slotEntries (bs : List Byte) : Option (List Nat) :=
  if bs.length = 64 then some ((List.range 16).map fun c => leAt bs (4 * c) 4) else none

/-- An entry inside its ranges: LIMIT 0-47, TIMER 0-6, zero above bit 19, at most 3.00 A on class S (R340). -/
def slotEntryOk (e : Nat) : Bool :=
  decide (e / 2 % 64 ≤ 47) && decide (e / 2 ^ 8 % 8 ≤ 6) && decide (e < 2 ^ 20) && (decide (e / 2 ^ 7 % 2 = 1) || decide (e / 2 % 64 ≤ 11))

/-- PAIRED stands on both of channels 2j and 2j + 1 or on neither; a pair agrees in every field but USED and is of class L (R340). -/
def slotPairOk (a b : Nat) : Bool :=
  (decide (a / 2 ^ 11 % 2 = 0) && decide (b / 2 ^ 11 % 2 = 0)) || (decide (a / 2 = b / 2) && decide (a / 2 ^ 7 % 2 = 1))

/-- The entries of a SLOTS section pass R340, and each used one names a port that the copy defines (R64). -/
def slotsOk (p : Config.Policy) (es : List Nat) : Bool :=
  es.all slotEntryOk && ((List.range 8).all fun j => slotPairOk (es.getD (2 * j) 0) (es.getD (2 * j + 1) 0))
    && es.all fun e => decide (e % 2 = 0) || p.pciePorts.contains (e / 2 ^ 13 % 128)

/-! ### The hedge part of ENVELOPES (R426) -/

/-- An entry of the hedge part (R426). -/
structure EnvEntry where
  unit   : Nat
  slot   : Nat
  perm   : Nat
  zero   : Nat
  remote : Nat
  base   : Nat
  limit  : Nat
  envLo  : Nat
  envHi  : Nat
  deriving DecidableEq, Repr

/-- Entry i of a hedge part. -/
def envEntry (bs : List Byte) (i : Nat) : EnvEntry :=
  let f (o n : Nat) : Nat := leAt bs (4 + 40 * i + o) n
  { unit := f 0 1, slot := f 1 1, perm := f 2 1, zero := f 3 1, remote := f 4 4, base := f 8 8, limit := f 16 8, envLo := f 24 8
    envHi := f 32 8 }

/-- The entries of a hedge part: a 4-byte count and 40 bytes each; none when it ends before them. -/
def envEntries (bs : List Byte) : Option (List EnvEntry) :=
  if decide (4 ≤ bs.length) && decide (4 + 40 * leAt bs 0 4 ≤ bs.length) then some ((List.range (leAt bs 0 4)).map (envEntry bs)) else none

/-- The port of a policy is the upstream port of a host. -/
def polUpstream (p : Config.Policy) (q : Nat) : Bool := p.pciePorts.contains q && decide (polF p (Reg.PCIE_CFG q) 2 0 = 0)

/-- The slots that no request changes, whatever their envelope (R420). -/
def fixedPlace (p : Config.Policy) (u k : Nat) : Bool :=
  decide (88 ≤ u ∧ u ≤ 95) || (decide (k = 112) && (polUpstream p u || p.nzPorts.contains u)) || (decide (k = 113) && polUpstream p u)

/-- The copy defines a port (R64). -/
def polPort (p : Config.Policy) (q : Nat) : Bool := p.pciePorts.contains q || p.nzPorts.contains q

/-- An entry keeps the rules of R426: it names a port that the copy defines where it names one (R64), it names no slot that the hardware fixes, its initial permission lies within the envelope's, and P
stands on no slot below 112 (R419). -/
def envOk (p : Config.Policy) (e : EnvEntry) : Bool :=
  let init := e.perm % 16
  decide (e.unit ≤ 96 ∧ e.slot ≤ 113 ∧ e.zero = 0) && (decide (80 ≤ e.unit) || polPort p e.unit) && (decide (80 ≤ e.slot) || polPort p e.slot) && decide (init &&& e.perm / 16 = init)
    && !(fixedPlace p e.unit e.slot)
    && (decide (112 ≤ e.slot) || decide (e.perm / 16 < 8))
    && (if decide (80 ≤ e.slot ∧ e.slot ≤ 111) then decide (e.remote < 2 ^ 19) else decide (e.remote = 0))
    && (if init = 0 then decide (e.base = 0 ∧ e.limit = 0)
        else decide (e.base % 64 = 0 ∧ e.limit % 64 = 0 ∧ e.base ≤ e.limit ∧ e.envLo ≤ e.base ∧ e.limit ≤ e.envHi))

/-- No slot has two entries. -/
def envDistinct : List EnvEntry → Bool
  | [] => true
  | e :: es => (es.all fun x => decide (x.unit ≠ e.unit ∨ x.slot ≠ e.slot)) && envDistinct es

/-- The registers an entry loads: the envelope, and the initial slot, which is valid when its permission is not empty (R426, R439). -/
def envRegs (e : EnvEntry) : List (Nat × Word) :=
  let init := e.perm % 16
  let s := Reg.HEDGE_S_BASE_LO e.unit e.slot
  let m := Reg.HEDGE_E_BASE_LO e.unit e.slot
  [(s, lo32 e.base), (s + 4, hi32 e.base), (s + 8, lo32 e.limit), (s + 12, hi32 e.limit),
    (s + 16, w32 (if init = 0 then 0 else 1 + init * 2)),
    (s + 20, if decide (80 ≤ e.slot ∧ e.slot ≤ 111) then w32 (e.remote + 2 ^ 31) else 0),
    (m, lo32 e.envLo), (m + 4, hi32 e.envLo), (m + 8, lo32 e.envHi), (m + 12, hi32 e.envHi), (m + 16, w32 (e.perm / 16))]

/-- The registers of hedge slots and their envelopes. -/
def isHedgeSlotReg (a : Nat) : Bool := decide (Reg.HEDGE_S_BASE_LO 0 0 ≤ a ∧ a < Reg.HEDGE_STATUS)

/-- A policy with the SLOTS entries and the hedge part of the copy's own bytes in its registers. -/
def withSections (p : Config.Policy) (slots : List Nat) (es : List EnvEntry) : Config.Policy :=
  let own := (p.regs.filter fun r => !(isHedgeSlotReg r.1) && !((List.range 16).any fun c => decide (r.1 = Reg.ROOT_CH_CFG c)))
  { p with regs := own ++ (List.range 16).map (fun c => (Reg.ROOT_CH_CFG c, w32 (slots.getD c 0))) ++ es.flatMap envRegs }

/-! ### Ports and lanes (R25, R106, R155, R174) -/

/-- The lanes of a port. -/
def portWidth (p : Config.Policy) (q : Nat) : Nat :=
  if p.nzPorts.contains q then 4 * 2 ^ polF p (Reg.NZL_CFG q) 1 0 else 2 * 2 ^ polF p (Reg.PCIE_CFG q) 9 8

/-- A port lies on lanes of its own mode, from a lane that its width divides, each with the port's number and its position (R25, R106,
R132). -/
def portPlaced (p : Config.Policy) (mode q : Nat) : Bool :=
  let w := portWidth p q
  decide (q < 80 ∧ 2 * q % w = 0 ∧ 2 * q + w ≤ 160 ∧ w ≤ 16)
    && (List.range w).all fun i =>
      let c := polF p (Reg.LANE_CFG (2 * q + i))
      decide (c 1 0 = mode) && decide (c 8 2 = q) && decide (c 12 9 = i)

/-- Every lane of a port group runs in the group's one mode: unused, PCI Express or Nozan (R64, R106). -/
def groupOk (p : Config.Policy) (k : Nat) : Bool :=
  let m := polF p (Reg.PG_STATUS k) 1 0
  decide (m < 3) && (List.range 8).all fun i => decide (polF p (Reg.LANE_CFG (8 * k + i)) 1 0 = m)

/-- No lane belongs to two ports. -/
def lanesApart (p : Config.Policy) : List Nat → Bool
  | [] => true
  | q :: qs => (qs.all fun r => decide (2 * q + portWidth p q ≤ 2 * r ∨ 2 * r + portWidth p r ≤ 2 * q)) && lanesApart p qs

/-- The partition of a host in a policy. -/
def polHost (p : Config.Policy) (k : Nat) : Option Config.HostPol := (p.hosts.find? fun h => h.1 == k).map Prod.snd

/-- A PCI Express port: a defined role and rate, and a host that the copy defines (R64, R174, R175). -/
def pciePortOk (p : Config.Policy) (q : Nat) : Bool :=
  let role := polF p (Reg.PCIE_CFG q) 2 0
  let h := polHost p (polF p (Reg.PCIE_CFG q) 7 3)
  portPlaced p 1 q && decide (role ≤ 4) && decide (polF p (Reg.PCIE_CFG q) 12 10 ≤ 5)
    && (decide (role ≠ 0) || h.elim false fun x => decide (x.upPort = q)) && (decide (role ≠ 1) || h.isSome)

/-- A Nozan port: its partner in a link pair names it, with equal width and rate limit (R155). -/
def nzPortOk (p : Config.Policy) (q : Nat) : Bool :=
  let c := Reg.NZL_CFG q
  let r := polF p c 10 4
  portPlaced p 2 q && (!(polB p c 3) || (decide (r ≠ q) && p.nzPorts.contains r && polB p (Reg.NZL_CFG r) 3
    && decide (polF p (Reg.NZL_CFG r) 10 4 = q) && decide (polF p (Reg.NZL_CFG r) 2 0 = polF p c 2 0)))

/-- The ports of a copy. -/
def portsOk (p : Config.Policy) : Bool :=
  p.pciePorts.all (pciePortOk p) && p.nzPorts.all (nzPortOk p) && lanesApart p (p.pciePorts ++ p.nzPorts) && (List.range 20).all (groupOk p)

/-! ### Hosts, quotas, homes and regions (R66, R175, R176, R268) -/

/-- A landing quota in pages: 0 or a power of two from 1 MiB to 2 GiB (R64). -/
def quotaOk (q : Nat) : Bool := decide (q = 0) || (List.range 12).any fun i => decide (q = 2 ^ (8 + i))

/-- A vDSP is bound to exactly one thing (R176): a host-assigned port of its host, a device on another switch behind a remote slot, or a
scion position. -/
def vdspOk (p : Config.Policy) (k : Nat) (b : Config.VdspBind) : Bool :=
  decide (1 ≤ b.kind ∧ b.kind ≤ 3)
    && (decide (b.kind ≠ 1) || (p.pciePorts.contains b.port && decide (polF p (Reg.PCIE_CFG b.port) 7 0 = 1 + 8 * k)))
    && (decide (b.kind ≠ 2) || decide (80 ≤ b.slot ∧ b.slot ≤ 111))

/-- A range of a peer window envelope: 4 KiB aligned, not empty, of a device: behind a port that the copy defines, or a remote slot (R64,
R435). -/
def pwRangeOk (p : Config.Policy) (r : Nat × Nat × Nat) : Bool :=
  decide (r.1 ≤ 111 ∧ r.2.1 % 4096 = 0 ∧ r.2.2 % 4096 = 0 ∧ r.2.1 ≤ r.2.2) && (decide (80 ≤ r.1) || p.pciePorts.contains r.1)

/-- The remote slots that the hosts of a copy name each have an entry of the hedge part (R64, R426): a bridged vDSP's in its host's
upstream unit names its device, and a peer window's target stands in some unit. -/
def remotesOk (p : Config.Policy) (es : List EnvEntry) : Bool :=
  p.hosts.all fun h =>
    (h.2.vdsps.all fun b => decide (b.kind ≠ 2)
      || es.any fun e => decide (e.unit = h.2.upPort ∧ e.slot = b.slot ∧ e.remote = b.sw + b.port * 2 ^ 12))
    && h.2.pwRanges.all fun r => decide (r.1 < 80) || es.any fun e => decide (e.slot = r.1)

/-- A host partition: its upstream port, its vDSPs, quota, home and envelopes; `id` is the switch ID. -/
def hostOk (p : Config.Policy) (id : Nat) (h : Nat × Config.HostPol) : Bool :=
  let x := h.2
  decide (h.1 < 32) && p.pciePorts.contains x.upPort && decide (polF p (Reg.PCIE_CFG x.upPort) 7 0 = 8 * h.1)
    && decide (x.vdsps.length ≤ 64) && x.vdsps.all (vdspOk p h.1) && quotaOk x.quota
    && (decide (x.quota = 0) || decide (x.homeSw / 64 = id / 64 ∧ x.region < 32 ∧ x.basePage % x.quota = 0 ∧ x.basePage + x.quota ≤ 2 ^ 19))
    && decide (x.maxRegions ≤ 65536 ∧ x.maxAreas ≤ 16 ∧ x.kinds < 16) && x.pwRanges.all (pwRangeOk p)

/-- The hosts of a copy: 1 to 32, each once, exactly one of them the manager, quotas of at most 2 GiB together (R64, R66). -/
def hostsOk (p : Config.Policy) (id : Nat) : Bool :=
  decide (1 ≤ p.hosts.length ∧ p.hosts.length ≤ 32) && p.hosts.all (hostOk p id) && (p.hosts.any fun h => h.1 == p.manager)
    && decide ((p.hosts.map Prod.fst).eraseDups.length = p.hosts.length)
    && decide ((p.hosts.map fun h => h.2.quota).sum ≤ 2 ^ 19)

/-- The regions in use of a policy, each with its first page and the page after its last. -/
def polRegions (p : Config.Policy) : List (Nat × Nat × Nat) :=
  ((List.range 32).filter fun r => polB p (Reg.LAND_REGION_CFG r) 31).map fun r =>
    let b := polF p (Reg.LAND_REGION_BASE r) 18 0
    (r, b, b + 2 ^ polF p (Reg.LAND_REGION_CFG r) 21 17)

/-- A region's size is a quota's, the origin host's own where that host is local, and its base page a multiple of it; it lies inside the
landing buffer (R268). -/
def regionOk (p : Config.Policy) (id : Nat) (x : Nat × Nat × Nat) : Bool :=
  let n := x.2.2 - x.2.1
  decide (2 ^ 8 ≤ n ∧ x.2.1 % n = 0 ∧ x.2.2 ≤ 2 ^ 19)
    && (decide (polF p (Reg.LAND_REGION_CFG x.1) 11 0 ≠ id)
      || (polHost p (polF p (Reg.LAND_REGION_CFG x.1) 16 12)).elim false fun h => decide (h.quota = n))

/-- Regions never overlap. -/
def regionsApart : List (Nat × Nat × Nat) → Bool
  | [] => true
  | x :: xs => (xs.all fun y => decide (x.2.2 ≤ y.2.1 ∨ y.2.2 ≤ x.2.1)) && regionsApart xs

/-- The LANDING section: regions, the member bitmap, and 1 to 8 flush targets, each on a port of that role (R64, R268). -/
def landingOk (p : Config.Policy) (id : Nat) : Bool :=
  (polRegions p).all (regionOk p id) && regionsApart (polRegions p) && decide (p.members < 2 ^ 64)
    && decide (1 ≤ p.targets ∧ p.targets ≤ 8)
    && (List.range 8).all fun t =>
      if t < p.targets then polB p (Reg.PFAIL_TGT_CFG t) 7 && p.pciePorts.contains (polF p (Reg.PFAIL_TGT_CFG t) 6 0)
        && decide (polF p (Reg.PCIE_CFG (polF p (Reg.PFAIL_TGT_CFG t) 6 0)) 2 0 = 3)
      else !(polB p (Reg.PFAIL_TGT_CFG t) 7)

/-- The discovery policy: permitted Nozan ports, neighbours on them, 1 to 4 paths (R64, R215). -/
def discoveryOk (p : Config.Policy) : Bool :=
  p.nzPorts = [] || (decide (1 ≤ polF p Reg.FWD_DISC_CFG 2 0 ∧ polF p Reg.FWD_DISC_CFG 2 0 ≤ 4)
    && (p.permitted.all fun q => p.nzPorts.contains q) && p.neighbours.all fun n => p.nzPorts.contains n.1 && decide (n.2 < 4096))

/-! ### Bank, ledger and QoS (R237, R239, R246, R250, R254, R258, R355) -/

/-- The bank's values inside their ranges, IDIS at least P_FLUSH / (ETA × VMIN) (R258, R355). -/
def bankOk (p : Config.Policy) : Bool :=
  let f0 := polF p Reg.ROOT_BANK_CFG0
  let g0 := polF p Reg.QOS_LEDGER_PARAM0
  let g1 := polF p Reg.QOS_LEDGER_PARAM1
  let cells := f0 4 0
  let top := f0 16 5
  let vmin := f0 28 17
  let idis := polF p Reg.ROOT_BANK_CFG1 7 3
  decide (1 ≤ cells ∧ cells ≤ 16 ∧ 500 ≤ top ∧ top ≤ 4000 ∧ top ≤ cells * 250 ∧ 500 ≤ vmin ∧ 2 * vmin ≤ top)
    && decide (5 ≤ idis ∧ idis ≤ 30 ∧ g1 8 0 * 100000 ≤ idis * g0 25 16 * vmin)
    && decide (10 ≤ g0 15 0 ∧ 500 ≤ g0 25 16 ∧ g0 25 16 ≤ 950)
    && decide (1 ≤ g1 8 0 ∧ g1 8 0 ≤ 400 ∧ 1 ≤ g1 19 9 ∧ g1 19 9 ≤ 2000 ∧ 1 ≤ g1 29 20 ∧ g1 29 20 ≤ 1000)

/-- The VC of a class. -/
def polVc (p : Config.Policy) (t : Nat) : Nat := polF p Reg.QOS_TC_VC (2 * t + 1) (2 * t)

/-- Classes rise with their VC, and every VC has one (R246). -/
def classesOk (p : Config.Policy) : Bool :=
  ((List.range 7).all fun t => decide (polVc p t ≤ polVc p (t + 1))) && (List.range 4).all fun v => (List.range 8).any fun t => decide (polVc p t = v)

/-- A PCI Express port maps every TC of every VC to a class of that VC (R246). -/
def mapOk (p : Config.Policy) (q : Nat) : Bool :=
  (List.range 4).all fun v => (List.range 8).all fun i => decide (polVc p (polF p (Reg.QOS_MAP_VC q v) (3 * i + 2) (3 * i)) = v)

/-- A meter that is on has rates and buckets inside their ranges (R250). -/
def meterOk (p : Config.Policy) (q t : Nat) : Bool :=
  let m := polF p (Reg.QOS_M_MODE q t) 1 0
  let cir := polF p (Reg.QOS_M_CIR q t) 20 0
  decide (m = 0) || (decide (m ≤ 2) && decide (1 ≤ cir ∧ cir ≤ polF p (Reg.QOS_M_PIR q t) 20 0)
    && decide (65 ≤ polF p (Reg.QOS_M_CBS q t) 17 0 ∧ 65 ≤ polF p (Reg.QOS_M_PBS q t) 17 0))

/-- A queue's shaper and mark threshold inside their ranges (R237, R254). -/
def queueOk (p : Config.Policy) (q t : Nat) : Bool :=
  decide (1 ≤ polF p (Reg.QOS_SH_RATE q t) 20 0 ∧ 65 ≤ polF p (Reg.QOS_SH_SIZE q t) 17 0)
    && decide (8 ≤ polF p (Reg.FWD_Q_CFG q t) 13 0)

/-- The drop curve of a colour (R239). -/
def curveOk (p : Config.Policy) (a : Nat) : Bool := decide (polF p a 13 0 < polF p a 27 14)

/-- The QOS section (R64). -/
def qosOk (p : Config.Policy) : Bool :=
  let ps := p.pciePorts ++ p.nzPorts
  classesOk p && p.pciePorts.all (mapOk p) && (ps.all fun q => (List.range 8).all fun t => meterOk p q t && queueOk p q t)
    && (p.pciePorts.all fun q => !(polB p (Reg.FWD_PORT_FLAGS q) 1))
    && decide (1 ≤ polF p Reg.FWD_WRED_WEIGHT 3 0) && curveOk p Reg.FWD_WRED_GREEN && curveOk p Reg.FWD_WRED_YELLOW && curveOk p Reg.FWD_WRED_RED

/-! ### Counters, devices, bridge (R453, R467, R521) -/

/-- A right: of a host that the copy defines (R64); none, read or map; of the groups of hosts only its own, of the last none (R521). -/
def rightOk (p : Config.Policy) (r : Nat × Nat × Nat) : Bool :=
  (polHost p r.1).isSome && (decide (r.2.2 = 0) || (decide (r.2.2 ≤ 2) && decide (r.2.1 < 127) && (decide (r.2.1 < 80 ∨ 112 ≤ r.2.1) || decide (r.2.1 = 80 + r.1))))

/-- A shareable device: its port, its pool of 1 to 512 scions, its highest rate, and envelopes of hosts that the copy defines (R467). -/
def deviceOk (p : Config.Policy) (d : Nat × Config.DevPol) : Bool :=
  let x := d.2
  decide (d.1 < 64) && p.pciePorts.contains x.port && decide (polF p (Reg.PCIE_CFG x.port) 2 0 = 2)
    && decide (1 ≤ x.scions ∧ x.scions ≤ 512 ∧ 100 ≤ x.rateMax ∧ x.rateMax < 2 ^ 21) && x.hosts.all fun h => (polHost p h.1).isSome

/-- The devices of a copy: at most 64, with at most 2,048 scions (R26). -/
def devicesOk (p : Config.Policy) : Bool :=
  decide (p.devs.length ≤ 64) && p.devs.all (deviceOk p) && decide ((p.devs.map fun d => d.2.scions).sum ≤ 2048)

/-- The bridge table's far ports and the legacy pair name what the copy defines (R64, R453). -/
def bridgeOk (p : Config.Policy) (id : Nat) : Bool :=
  ((List.range 256).all fun i => !(polB p (Reg.BRG_T_SRC i) 31) || p.pciePorts.contains (polF p (Reg.BRG_T_SRC i) 23 17))
    && (!(polB p Reg.BRG_LEGACY 31) || ((polHost p (polF p Reg.BRG_LEGACY 4 0)).isSome
      && (decide (polF p Reg.BRG_LEGACY 16 5 ≠ id) || p.pciePorts.contains (polF p Reg.BRG_LEGACY 23 17))))

/-- Every check of R64 on a policy of switch `id`; `consistent` is the verdict on what the decoded policy does not show: the length and
the encodings of the sections whose layout the spec does not give. -/
def policyOk (p : Config.Policy) (id : Nat) : Bool :=
  p.consistent && portsOk p && hostsOk p id && landingOk p id && discoveryOk p && bankOk p && qosOk p && p.rights.all (rightOk p) && devicesOk p
    && bridgeOk p id

end Sys2Proof.Machine
end

