-- ==== Sys2Proof/Machine/SeedOps.lean ====
section
/-! DEFINITION. Reading a copy of the seed image: its head (R50, R51, R54), its sections (R55, R57, R58), the consistency checks (R64),
the choice of a copy (R61, R70), and the loading of its policy (R62 step 6). -/

namespace Sys2Proof.Machine

open Sys2Proof

/-! ### The head block (R50 to R54) -/

/-- A field of a copy: offset and size. -/
def copyField (s : State) (c off n : Nat) : Nat := leVal (flashBytes s (copyBase c + off) n)

def headLength (s : State) (c : Nat) : Nat := copyField s c 0x08 4
def headVersion (s : State) (c : Nat) : Nat := copyField s c 0x0C 4
def headFloor (s : State) (c : Nat) : Nat := copyField s c 0x10 4
def headKeySlot (s : State) (c : Nat) : Nat := copyField s c 0x14 1
def headFlags (s : State) (c : Nat) : Nat := copyField s c 0x15 1
def headSections (s : State) (c : Nat) : Nat := copyField s c 0x16 2

/-- The signed region of a head, bytes 0x0000-0x0FFF (R50). -/
def signedRegion (s : State) (c : Nat) : List Byte := flashBytes s (copyBase c) 0x1000

/-- The head digest: SHAKE256 of the signed region (R69). -/
def headDigest (s : State) (c : Nat) : BitVec 256 := Config.shake256 (signedRegion s c)

/-- The signature length of a supported parameter set (R54). -/
def sigLength (oid : Nat) : Option Nat :=
  match oid with
  | 0x10 => some 2500
  | 0x11 => some 2692
  | 0x12 => some 2820
  | _ => none

/-- A directory entry (R51). -/
structure DirEnt where
  typ    : Nat
  flags  : Nat
  off    : Nat
  len    : Nat
  zero   : Nat
  digest : Nat
  deriving DecidableEq, Repr

/-- Entry i of a copy's directory. -/
def dirEnt (s : State) (c i : Nat) : DirEnt :=
  let f (o n : Nat) : Nat := copyField s c (0x40 + 48 * i + o) n
  { typ := f 0 2, flags := f 2 2, off := f 4 4, len := f 8 4, zero := f 12 4, digest := f 16 32 }

/-- The entries in use. -/
def dirOf (s : State) (c : Nat) : List DirEnt := (List.range (headSections s c)).map (dirEnt s c)

/-- An entry obeys R51 in a copy of LENGTH `len`. -/
def dirEntOk (len : Nat) (e : DirEnt) : Bool :=
  decide (e.flags = 0 ∧ e.zero = 0 ∧ e.off % 4096 = 0 ∧ 0x2000 ≤ e.off ∧ 1 ≤ e.len ∧ e.off + e.len ≤ len)

/-- No two sections overlap and no TYPE appears twice (R52). -/
def dirApart : List DirEnt → Bool
  | [] => true
  | e :: es => (es.all fun x => decide (x.typ ≠ e.typ) && (decide (x.off + x.len ≤ e.off) || decide (e.off + e.len ≤ x.off))) && dirApart es

/-- The head fields of R54 step 1. -/
def headFieldsOk (s : State) (c : Nat) : Bool :=
  decide (copyField s c 0 4 = 0x44534E58 ∧ copyField s c 4 2 = 1 ∧ copyField s c 6 2 = 0x9160 ∧ headLength s c % 4096 = 0
    ∧ headLength s c ≤ 16777216 ∧ headFloor s c ≤ headVersion s c ∧ headKeySlot s c ≤ 1 ∧ headFlags s c < 4
    ∧ 1 ≤ headSections s c ∧ headSections s c ≤ 64)

/-- The key hash of a slot, and whether it is programmed and not revoked (R53). -/
def slotHash (s : State) (k : Nat) : BitVec 256 := if k = 0 then s.root.keyHash0 else s.root.keyHash1
def slotRevoked (s : State) (k : Nat) : Bool := if k = 0 then s.root.revoked0 else s.root.revoked1

/-- The signature verifies under PUBKEY (R54 step 5). -/
def sigOk (s : State) (c : Nat) : Bool :=
  match sigLength (copyField s c 0x1000 4) with
  | none => false
  | some n => Config.xmssVerify (flashBytes s (copyBase c + 0x1000) 68) (flashBytes s (copyBase c + 0x1044) n) (signedRegion s c)

/-- The directory obeys R54 step 6. -/
def dirOk (s : State) (c : Nat) : Bool :=
  (dirOf s c).all (dirEntOk (headLength s c)) && dirApart (dirOf s c)
    && decide (copyField s c (0x40 + 48 * headSections s c) (48 * (64 - headSections s c)) = 0)

/-- A burst that failed twice lies in a copy's head block, or in its sections (R48). -/
def headReadBad (s : State) (c : Nat) : Bool := s.seed.readErr.any fun a => decide (a / 2 ^ 24 = c ∧ a % 2 ^ 24 < 0x2000)
def bodyReadBad (s : State) (c : Nat) : Bool := s.seed.readErr.any fun a => decide (a / 2 ^ 24 = c ∧ 0x2000 ≤ a % 2 ^ 24)

/-- The failure code of a copy's head, 0 when it passes (R54, R77); `hashOnly` skips steps 2 to 5 (R70). -/
def headCode (s : State) (c : Nat) (hashOnly : Bool) : Nat :=
  if headReadBad s c then 0x2
  else if !(headFieldsOk s c) then 0x3
  else if !hashOnly && (sigLength (copyField s c 0x1000 4)).isNone then 0x4
  else if !hashOnly && (decide (slotHash s (headKeySlot s c) = 0) || slotRevoked s (headKeySlot s c)) then 0x5
  else if !hashOnly && decide (Config.shake256 (flashBytes s (copyBase c + 0x1000) 68) ≠ slotHash s (headKeySlot s c)) then 0x6
  else if !hashOnly && !(sigOk s c) then 0x7
  else if !(dirOk s c) then 0xD
  else 0x0

/-- The code of a head with the rollback check of R59. -/
def copyCode (s : State) (c : Nat) (hashOnly : Bool) : Nat :=
  let h := headCode s c hashOnly
  if h ≠ 0 then h else if headVersion s c < s.root.seedCounter then 0x8 else 0

/-! ### The sections (R55, R57, R58, R64) -/

/-- The bytes of a section. -/
def sectionBytes (s : State) (c : Nat) (e : DirEnt) : List Byte := flashBytes s (copyBase c + e.off) e.len

/-- The FIRMWARE section's digest in a copy's directory. -/
def firmwareDigest (s : State) (c : Nat) : BitVec 256 :=
  BitVec.ofNat 256 (((dirOf s c).find? fun e => e.typ == 0x000C).map DirEnt.digest |>.getD 0)

/-- The management firmware held in SRAM is the copy's (R70). -/
def firmwareHeld (s : State) (c : Nat) : Bool := s.start.warm && decide (s.ret.firmware = some (firmwareDigest s c))

/-- Every section read matches its digest (R55); the firmware held in SRAM is not read (R70). -/
def digestsOk (s : State) (c : Nat) : Bool :=
  (dirOf s c).all fun e => (e.typ == 0x000C && firmwareHeld s c) || decide ((Config.shake256 (sectionBytes s c e)).toNat = e.digest)

/-- The section types every copy holds (R57). -/
def requiredTypes : List Nat := [0x01, 0x02, 0x03, 0x06, 0x07, 0x08, 0x09, 0x0A, 0x0C]

/-- Whether a copy holds a section of a type. -/
def hasType (s : State) (c t : Nat) : Bool := (dirOf s c).any fun e => e.typ == t

/-- No required section is missing and every TYPE is known (R58); what needs no decoding. -/
def typesOk (s : State) (c : Nat) : Bool :=
  requiredTypes.all (hasType s c) && (dirOf s c).all fun e => decide (1 ≤ e.typ ∧ e.typ ≤ 0x0D)

/-- A device port that is shareable exists (R57). -/
def policyShares (p : Config.Policy) : Bool :=
  p.pciePorts.any fun q => ((p.regs.find? fun r => r.1 == Reg.PCIE_CFG q).map fun r => getF r.2 2 0) == some 2

/-- The bytes of a copy's section of a type, where it has one. -/
def sectionOf (s : State) (c typ : Nat) : Option (List Byte) := ((dirOf s c).find? fun e => e.typ == typ).map (sectionBytes s c)

/-- The slot entries of a copy: without a SLOTS section every channel is unused (R340). -/
def copySlots (s : State) (c : Nat) : Option (List Nat) := ((sectionOf s c 0x0005).map slotEntries).getD (some (List.replicate 16 0))

/-- The hedge entries of a copy. -/
def copyEnvs (s : State) (c : Nat) : Option (List EnvEntry) :=
  (sectionOf s c 0x0008).bind fun bs => envEntries (bs.drop (Config.hedgePart bs))

/-- The management firmware is at most 8 MiB (R64). -/
def firmwareFits (s : State) (c : Nat) : Bool := (dirOf s c).all fun e => decide (e.typ ≠ 0x000C) || decide (e.len ≤ 2 ^ 23)

/-- What of a copy the switch decodes: every section but FIRMWARE, each with bytes that have matched their digest (R55, R70). -/
def policyBytes (s : State) (c : Nat) : List (Nat × List Byte) :=
  ((dirOf s c).filter fun e => decide (e.typ ≠ 0x000C)).map fun e => (e.typ, sectionBytes s c e)

/-- The policy of a copy whose head passed, or the code of its failure (R61). -/
def copyPolicy (s : State) (c : Nat) : Nat × Config.Policy :=
  if bodyReadBad s c then (0x2, {})
  else if !(digestsOk s c) then (0x9, {})
  else if !(typesOk s c) then (0xA, {})
  else
    match (sectionOf s c 0x0003).bind identOf, copySlots s c, copyEnvs s c,
        Config.decodePolicy (policyBytes s c) with
    | some (id, ls), some slots, some es, some p =>
      if (p.nzPorts ≠ [] && !(hasType s c 0x0004)) || (policyShares p && !(hasType s c 0x000B)) then (0xA, {})
      else if !(policyOk p id && slotsOk p slots && es.all (envOk p) && envDistinct es && remotesOk p es && firmwareFits s c) then (0xB, {})
      else (0, { withSections p slots es with
        switchId := id, leaders := ls, firmware := firmwareDigest s c, allowUpdate := bitN (headFlags s c) 1 })
    | _, _, _, _ => (0xB, {})

/-! ### Choosing a copy (R61, R70) -/

/-- The result of a seed step: the copy in use with its policy, both failure codes, and how it was found. -/
structure Chosen where
  copy     : Option (Nat × Config.Policy) := none
  failA    : Nat := 0
  failB    : Nat := 0
  fallback : Bool := false
  hashOnly : Bool := false
  ranAll   : Bool := false
  deriving DecidableEq, Repr

/-- The first of the candidates that succeeds, with the codes of those that failed. -/
def tryCopies (s : State) (a b : Nat) : List Nat → Bool → Chosen
  | [], fb => { failA := a, failB := b, fallback := fb, ranAll := true }
  | c :: cs, fb =>
    let r := copyPolicy s c
    if r.1 = 0 then { copy := some (c, r.2), failA := a, failB := b, fallback := fb, ranAll := true }
    else tryCopies s (if c = 0 then r.1 else a) (if c = 0 then b else r.1) cs true

/-- R61: both heads, then the acceptable copy of higher VERSION first, copy A first when they are equal. -/
def chooseCopy (s : State) : Chosen :=
  let a := copyCode s 0 false
  let b := copyCode s 1 false
  let order := if headVersion s 1 ≤ headVersion s 0 then [0, 1] else [1, 0]
  tryCopies s a b (order.filter fun c => decide ((if c = 0 then a else b) = 0)) false

/-- The retained copy's head digest and the seed counter are those retained (R70). -/
def retainedSame (s : State) : Bool :=
  decide (headDigest s s.root.retCopy = s.root.retDigest) && decide (s.root.seedCounter = s.root.retCounter)

/-- R70: a warm start tries the retained copy, whose signature it checks only when the digest or the counter changed; when it fails, R61
is applied as at a cold start. The other copy's head is not read when it succeeds, and its failure code reads 0. DESIGN CHOICE, log entry
102: R77 gives a code only for a head that was read. -/
def chooseWarm (s : State) : Chosen :=
  let c := s.root.retCopy
  let h := copyCode s c (retainedSame s)
  let r := if h ≠ 0 then (h, {}) else copyPolicy s c
  if r.1 = 0 then { copy := some (c, r.2), hashOnly := retainedSame s }
  else chooseCopy s

/-! ### Loading (R62 step 6) -/

/-- A slot's entry loaded: at a warm start a channel whose entry changed is turned off first and takes the new one then (R354). -/
def loadSlot (s : State) (c : Nat) (v : Word) : State :=
  if s.start.warm && (chOn s c || decide (chState s c = 3)) && decide (rd s (Reg.ROOT_CH_CFG c) ≠ v) then
    let s := turnOff (updChan s c fun x => { x with newCfg := some v }) c
    if (s.rootSt.chan.get c).gateDue then s else applyCfg s c
  else takeEntry s c v

/-- Every shaper begins at S (R254). -/
def loadShapers (s : State) : State :=
  (List.range 640).foldl (fun s k => wrF s (Reg.QOS_SH_TOKENS (k / 8) (k % 8)) 24 0 (64 * rdF s (Reg.QOS_SH_SIZE (k / 8) (k % 8)) 17 0)) s

/-- The shared pool: the cells that no reservation takes (R228). -/
def loadShared (s : State) : State :=
  let kept := 4096 + ((s.seed.policy.nzPorts ++ s.seed.policy.pciePorts).map fun p =>
    ((List.range (if isNoz s p then 4 else 3)).map (reserveOf s p)).sum).sum
  wrN (wrN s Reg.BUF_SHARED (131072 - kept)) Reg.BUF_SHARED_FREE (131072 - kept)

/-- The identity page of each host (R550). -/
def loadViews (s : State) : State :=
  (List.range 32).foldl (fun s k => wrN s (Reg.VIEW_ID k) (k + (decide (k = mgr s)).toNat * 2 ^ 5 + swId s * 2 ^ 6)) s

/-- A fixed slot of a hedge unit, with the permissions its CTRL gives (R420, R440). -/
def fixedSlot (s : State) (u k base size ctrl : Nat) : State :=
  wrN (wr64 (wr64 s (Reg.HEDGE_S_BASE_LO u k) base) (Reg.HEDGE_S_LIMIT_LO u k) (base + size - 64)) (Reg.HEDGE_S_CTRL u k) ctrl

/-- The first page of the regions of this home and the page after the last. -/
def regionSpan (s : State) : Nat × Nat :=
  (regionList s).foldl (fun x r => (min x.1 (regionBase s r), max x.2 (regionBase s r + regionSize s r))) (2 ^ 19, 0)

/-- The size of the larger of a MEF's BAR0 and BAR4, whose offsets slot 113 covers (R183, R416). -/
def mefSpan (s : State) (k : Nat) : Nat := if k = mgr s then 2 ^ 26 else 2 ^ 20

/-- The fixed slots (R420): of an upstream port's unit, 112 covers its host's landing region with P alone and 113 its MEF's BARs with R
and W; 112 of a Nozan port's unit covers every region of this home with P alone; 112 of a flush target's unit the whole landing buffer
with R. -/
def loadFixed (s : State) : State :=
  let s := (hostsOf s).foldl (fun s k =>
    let s := fixedSlot s (upPort s k) 113 0 (mefSpan s k) 0x27
    if quota s k = 0 then s else fixedSlot s (upPort s k) 112 (winBase s k * 4096) (quota s k * 4096) 0x31) s
  let h := regionSpan s
  let s := s.seed.policy.nzPorts.foldl (fun s p =>
    if h.2 ≤ h.1 then s else fixedSlot s p 112 (h.1 * 4096) ((h.2 - h.1) * 4096) 0x31) s
  (List.range s.seed.policy.targets).foldl (fun s t => fixedSlot s (88 + t) 112 0 (2 ^ 31) 0x23) s

/-- The policy loaded into the units (R62 step 6); a group PG2j+1 under an x16 port shows SLAVED (R111); the hedge then shows its tables loaded and its envelope table locked (R425, R426). -/
def loadPolicy (s : State) (p : Config.Policy) : State :=
  let s := { s with seed := { s.seed with policy := p, loaded := true } }
  let rows := p.regs.filter fun r => !((List.range 16).any fun c => decide (r.1 = Reg.ROOT_CH_CFG c))
  let s := rows.foldl (fun s r => wr s r.1 r.2) s
  let s := (List.range 10).foldl (fun s j => wrB s (Reg.PG_STATUS (2 * j + 1)) 6 (decide ((lanesOf s (8 * j)).length = 16))) s
  let s := wrN s Reg.GLB_SWITCH_ID p.switchId
  let s := wrF s Reg.LAND_CFG 13 8 (p.switchId % 64)
  let s := wrF s Reg.PFAIL_TARGETS 11 8 p.targets
  let s := (List.range 16).foldl (fun s c => loadSlot s c (loadedValue p (Reg.ROOT_CH_CFG c))) s
  wrF (loadFixed (loadViews (loadShared (loadShapers s)))) Reg.HEDGE_STATUS 1 0 3

/-- What the SEED registers show of the copy in use (R75, R76). -/
def noteSeed (s : State) (ch : Chosen) (c : Nat) : State :=
  let s := wrN s Reg.SEED_ACTIVE (c + headKeySlot s c * 2)
  let s := wrN (wrN (wrN s Reg.SEED_VERSION (headVersion s c)) Reg.SEED_FLOOR (headFloor s c)) Reg.SEED_COUNTER s.root.seedCounter
  let s := wrN (wrN s Reg.SEED_BUILD_ID_LO (copyField s c 0x18 4)) Reg.SEED_BUILD_ID_HI (copyField s c 0x1C 4)
  let d := (headDigest s c).toNat
  let s := (List.range 8).foldl (fun s i => wrN s (Reg.SEED_HEAD_DIGEST i) (d / 2 ^ (32 * i))) s
  wrN s Reg.SEED_STATUS (4 + ch.hashOnly.toNat * 2 ^ 3 + (firmwareHeld s c).toNat * 2 ^ 4 + ch.fallback.toNat * 2 ^ 5)

/-- The fuses shown (R75). -/
def noteFuses (s : State) : State :=
  wrN s Reg.SEED_FUSE_STATE (s.root.provisioned.toNat + s.root.revoked0.toNat * 2 + s.root.revoked1.toNat * 4)

end Sys2Proof.Machine
end

