-- ==== Sys2Proof/Machine/Seed.lean ====
section
/-! DEFINITION. The seed update: SEED_BEGIN, SEED_WRITE, SEED_END and what the flash answers (R63, R65, R71, R73, R541). -/

namespace Sys2Proof.Machine

open Sys2Proof

/-- The seed step ended without loading a copy: any copy may be written then (R63, R541). -/
def seedOpen (s : State) : Bool := decide (s.start.phase = .seedStopped)

/-- A seed update request is inside its envelope (R65, R71): with no copy in use every one; else only the manager's, while the copy in use
carries ALLOW_UPDATE. -/
def seedMay (s : State) (q : ReqSrc) : Bool := seedOpen s || (decide (q.host = mgr s) && s.seed.policy.allowUpdate)

/-- A seed update request is served (R539, R541): by the boot ROM only once no copy was loaded and only for the board management
controller (R63), by the firmware in service inside its envelope; it waits while the flash still works on one before it (R67). -/
def seedServe (s : State) (q : ReqSrc) (code : Nat) (f : State → State) : State :=
  if s.seed.updPending.isSome then s
  else serve s q code { m := !(seedOpen s), b := true } (seedOpen s) false fun s =>
    if !(seedOpen s) && !(inService s) then reply s q code 0x07 []
    else if !(seedMay s q) then reply s q code 0x04 []
    else f s

/-- SEED_BEGIN (R71, R541): the copy is erased; in service the copy named must not be in use. -/
def execSeedBegin (q : ReqSrc) (copy : Nat) (s : State) : Res :=
  .next (seedServe s q 0x0102 fun s =>
    if 2 ≤ copy then reply s q 0x0102 0x03 []
    else if !(seedOpen s) && decide (rdF s Reg.SEED_ACTIVE 0 0 = copy) then reply s q 0x0102 0x04 []
    else
      let s := eraseCopy (wrN s Reg.SEED_UPDATE_STATUS 1) copy
      emit { s with seed := { s.seed with updCopy := copy, updPending := some q, held := [] } } (.flash "erase copy" (copyBase copy)))

/-- An update that the flash failed stops (R540). -/
def seedFail (s : State) (q : ReqSrc) (code : Nat) : State :=
  let s := { s with seed := { s.seed with updPending := none, held := [], headOp := none, programming := none } }
  reply (wrF s Reg.SEED_UPDATE_STATUS 1 0 3) q code 0x09 []

/-- SEED_ERASE_DONE (R71): the erase ends and SEED_BEGIN is answered. -/
def execSeedEraseDone (ok : Bool) (s : State) : Res :=
  match s.seed.updPending with
  | none => .next s
  | some q =>
    if rdF s Reg.SEED_UPDATE_STATUS 1 0 ≠ 1 then .next s
    else if !ok then .next (seedFail s q 0x0102)
    else .next (reply { wrF s Reg.SEED_UPDATE_STATUS 1 0 2 with seed := { s.seed with updPending := none } } q 0x0102 0x00 [])

/-- A page goes to the flash (R71). -/
def programPage (s : State) (off : Nat) (bs : List Byte) : State :=
  let a := copyBase s.seed.updCopy + off
  emit { s with seed := { s.seed with programming := some (a, bs) } } (.flash "program page" a)

/-- SEED_WRITE (R71): a page outside the head block is programmed and answered then; a page of the head block is held in management
SRAM. -/
def execSeedWrite (q : ReqSrc) (off : Nat) (data : List Word) (s : State) : Res :=
  .next (seedServe s q 0x0103 fun s =>
    if off % 256 ≠ 0 || 2 ^ 24 ≤ off || data.length ≠ 64 then reply s q 0x0103 0x03 []
    else if rdF s Reg.SEED_UPDATE_STATUS 1 0 ≠ 2 then reply s q 0x0103 0x07 []
    else
      let bs := data.flatMap fun w => leBytes 4 w.toNat
      if off < 0x2000 then
        reply { s with seed := { s.seed with held := (s.seed.held.filter fun x => x.1 ≠ off) ++ [(off, bs)] } } q 0x0103 0x00 []
      else programPage { s with seed := { s.seed with updPending := some q } } off bs)

/-- The head block's page of one of its 32 program operations; a page never written stays erased. -/
def headPage (s : State) (i : Nat) : List Byte :=
  ((s.seed.held.find? fun x => x.1 == 256 * i).map Prod.snd).getD (List.replicate 256 0xFF)

/-- SEED_END (R71): the head block is programmed in 32 operations, from offset 0x1F00 down to 0x0000. -/
def execSeedEnd (q : ReqSrc) (s : State) : Res :=
  .next (seedServe s q 0x0104 fun s =>
    if rdF s Reg.SEED_UPDATE_STATUS 1 0 ≠ 2 then reply s q 0x0104 0x07 []
    else programPage { s with seed := { s.seed with updPending := some q, headOp := some 31 } } 0x1F00 (headPage s 31))

/-- SEED_PROGRAM_DONE (R71): the page stands in the flash and is counted; the next head operation begins, or the request is answered. -/
def execSeedProgramDone (ok : Bool) (s : State) : Res :=
  match s.seed.programming, s.seed.updPending with
  | some (a, bs), some q =>
    if !ok then .next (seedFail (tearPage s) q (if s.seed.headOp.isSome then 0x0104 else 0x0103))
    else
      let s := bumpF (flashPut s a bs) Reg.SEED_UPDATE_STATUS 31 8 1
      let s := { s with seed := { s.seed with programming := none } }
      match s.seed.headOp with
      | none => .next (reply { s with seed := { s.seed with updPending := none } } q 0x0103 0x00 [])
      | some (i + 1) => .next (programPage { s with seed := { s.seed with headOp := some i } } (256 * i) (headPage s i))
      | some 0 =>
        let s := { s with seed := { s.seed with updPending := none, headOp := none, held := [] } }
        .next (reply (wrF s Reg.SEED_UPDATE_STATUS 1 0 0) q 0x0104 0x00 [])
  | _, _ => .next s

end Sys2Proof.Machine
end

