-- ==== Sys2Proof/Machine/Starts.lean ====
section
/-! DEFINITION. Resets and starts: the causes (R79), retention (R83), the cold, warm and resume step tables (R84 to R92), the watchdog
(R547), the internal link (R23), and the global snapshot (R105, R522, R524). -/

namespace Sys2Proof.Machine

open Sys2Proof

/-! ### The internal link and the supply (R23, R518, R556) -/

/-- INTERNAL_LINK_SILENT (R23, R518): after 1 ms the switch die counts as dead; the rootstock die drives ERR_N and keeps every slot. -/
def execInternalLinkSilent (s : State) : Res :=
  if s.root.dieDead || decide (s.start.phase = .off ∨ s.start.phase = .asleep) || !s.root.railsOn then .next s
  else .next (emit (bump (wrB { s with root := { s.root with dieDead := true } } Reg.FLT_STATUS 4 true) Reg.ROOT_LINK_LOSS) (.pin .errN false))

/-- The internal link speaks again: ERR_N is held 4 µs longer (R518), and turn-ons that waited proceed (R354). -/
def linkBack (s : State) : State :=
  if s.root.dieDead then retryTurnOn { s with root := { s.root with dieDead := false, errHold := some s.now } } else s

/-- ROOTSTOCK_ACTION_REQUEST (R23, R202): the rootstock die takes a slot's on or off command, its indicators, or a heartbeat. -/
def execRootstockActionRequest (act : RootAct) (s : State) : Res :=
  let s := linkBack s
  match act with
  | .slotOn c => .next (if 16 ≤ c then s else tryTurnOn s (chLead s c))
  | .slotOff c => .next (if 16 ≤ c then s else turnOff s (chLead s c))
  | .indicators c pwr attn => .next (if 16 ≤ c then s else updChan s c fun x => { x with ind := (pwr, attn) })
  | .heartbeat => .next s

/-- What the rootstock die keeps without its supply: fuses and the monotonic counter block (R53, R58, R82). -/
def rootLost (r : RootRec) : RootRec :=
  { powered := false, keyHash0 := r.keyHash0, keyHash1 := r.keyHash1, revoked0 := r.revoked0, revoked1 := r.revoked1
    provisioned := r.provisioned, attSecret := r.attSecret, seedCounter := r.seedCounter, attLeaf := r.attLeaf
    flushCounter := r.flushCounter, startCounter := r.startCounter }

/-- VAUX_FALL (R556, R82): the rootstock die's reset is asserted: everything but fuses, monotonic counters and the flash is lost. -/
def execVauxFall (s : State) : Res :=
  if s.start.phase = .off then .next s
  else
    let s := dropAttest (stopSeedUpdate s)
    let s := (List.range 16).foldl (fun s c => if chOn s c then chCut s c 2 else s) s
    .next { State.reset with
      regs := .empty, pending := s.pending, out := s.out, now := s.now, t0 := s.t0, free := s.free
      root := rootLost s.root, seed := { flash := s.seed.flash }, start := { phase := .off } }

/-- VAUX_RISE (R556, R79): after 1 ms above 3.00 V the reset is released and a cold start begins. -/
def execVauxRise (s : State) : Res :=
  if s.start.phase = .off then .next (newStart { s with root := { s.root with powered := true } } false true false 1) else .next s

/-! ### Reset causes (R79, R83, R86, R547) -/

/-- SYS_RST_ASSERT (R79): a low of at least 1 µs resets the switch. -/
def execSysRstAssert (lowNs : Nat) (selfRefresh : BitVec 4) (s : State) : Res :=
  if lowNs < 1000 then .next s else .next (warmCause s 3 selfRefresh.toNat)

/-- RETENTION_WINDOW_EXPIRY (R83): 4 µs passed, so no valid record exists, and the reset goes on. -/
def execRetentionWindowExpiry (s : State) : Res :=
  match s.start.retCause with
  | none => .next s
  | some c =>
    if s.start.phase = .retain then .next (resetNow { s with ret := { s.ret with land := none } } (c % 16) (decide (16 ≤ c)))
    else .next s

/-- WARM_RESET (R86, R539): answered OK; VC1 credits are withheld from then on. During a brace the rootstock die holds the cause back, and
the request stays in the queue (R98, R548). -/
def execWarmReset (q : ReqSrc) (s : State) : Res :=
  if braceHolds s then
    .next (if mayIssue s q { m := true, b := true } && rdB s Reg.MGMT_STATUS 1 then warmCause s 4 0 else s)
  else
    .next (serve s q 0x0201 { m := true, b := true } false false fun s =>
      let s := reply s q 0x0201 0x00 []
      { s with start := { s.start with quiesce := some (s.start.quiesce.getD s.now) } })

/-- One epoch period in core cycles (R280). -/
def epochPeriod (s : State) : Nat := (rdF s Reg.LAND_CFG 7 0 + 1) * 400

/-- WARM_QUIESCE_DONE (R86): the highest landed epoch is at most SE, or four periods and 20 µs have passed. -/
def execWarmQuiesceDone (selfRefresh : BitVec 4) (s : State) : Res :=
  match s.start.quiesce with
  | none => .next s
  | some t =>
    let s := if epLe (s.land.highest.getD (seOf s)) (seOf s) then s else timeTo s (t + 4 * epochPeriod s + 32000)
    let t := warmCause { s with start := { s.start with quiesce := none } } 4 selfRefresh.toNat
    .next (if braceHolds s then releaseCredits t else t)

/-- WATCHDOG_EXPIRY (R547): 500 ms ± 5 ms without a kick: an F fault, and a warm-type reset. -/
def execWatchdogExpiry (selfRefresh : BitVec 4) (s : State) : Res :=
  if !(rdB s Reg.MGMT_STATUS 1) then .next s
  else
    let s := timeTo s (s.mgmt.kicked + 792000000)
    let s := faultU (wrB s Reg.MGMT_WDOG 1 true) 17 0x03 3 0
    .next (warmCause { s with mgmt := { s.mgmt with kicked := s.now } } 5 selfRefresh.toNat)

/-- WATCHDOG_KICK (R547). -/
def execWatchdogKick (s : State) : Res :=
  if rdB s Reg.MGMT_STATUS 1 then .next { s with mgmt := { s.mgmt with kicked := s.now } } else .next s

/-- WARM_START_DEADLINE (R81): 400 ms after its t0 a warm start not in service has failed; its time is kept. -/
def execWarmStartDeadline (s : State) : Res :=
  if inWarmStart s && !s.start.failed then
    let s := warmFail (timeTo s (s.t0 + 640000000))
    .next (wrF { s with start := { s.start with failed := true } } Reg.GLB_WARM_FAILS 1 0 (min 3 (recentFails s)))
  else .next s

/-! ### Start steps (R84, R85, R87) -/

/-- The first failure of a start is recorded with its number, and raised (R85, R101, R104). -/
def startFail (s : State) (code n : Nat) : State :=
  let s := if rdF s Reg.GLB_START_FAIL 3 0 = 0 then wrN s Reg.GLB_START_FAIL (code + n % 256 * 16) else s
  faultU s 0 0x01 2 (rdN s Reg.GLB_START_FAIL)

/-- The next step begins (R102). -/
def stepTo (s : State) (n : Nat) : State := wrF s Reg.GLB_START_STATUS 3 0 n

/-- Step 1 of a cold start (R84, R85, R341, R363): the bank check, the isolation test from 5 V on, and the straps after a power-on
reset. -/
def bankCheck (s : State) (failed : Bool) (r : StepReadings) : State :=
  let sum := r.cells.sum
  let iso := decide (5000 ≤ sum)
  let isoOk := decide (max r.isoA r.isoB + 1000 ≤ sum)
  let bad := failed || disagree r.bankA r.bankB || (r.cells.any fun v => decide (2750 ≤ v)) || ntcBad r.ntcA || ntcBad r.ntcB
  let s := wrN s Reg.ROOT_BANK_V (min 65535 r.bankA + min 65535 r.bankB * 2 ^ 16)
  let s := wrF s Reg.ROOT_CELL_SUM 15 0 (min 65535 sum)
  let s := wrF s Reg.ROOT_ISO_TEST 1 0 (if !iso then 3 else if isoOk then 1 else 2)
  let s := if iso && !isoOk then wrF s Reg.ROOT_BANK_LAST 3 0 0xB else s
  let s := if s.start.por then
      (List.range 16).foldl (fun s c => wrB s (Reg.ROOT_CH_STATUS c) 11 (bitN r.straps.toNat c)) s
    else s
  let s := wrN s Reg.PFAIL_FLUSH_COUNT s.root.flushCounter
  let fails := bad || (iso && !isoOk)
  let s := { s with start := { s.start with bankBad := fails } }
  let s := wrB s Reg.ROOT_BANK_STATUS 9 fails
  if fails then startFail s 1 0 else s

/-- Steps 2 and 3 fail, or a rail of step 1 of the warm table: every rail off for 1 s, three tries in all, then the rails stay off (R85).
What the switch die retained is lost with them. -/
def railFail (s : State) (n : Nat) : State :=
  let tries := s.root.retries + 1
  let s := railsCut { s with root := { s.root with retries := tries, railsOn := false } }
  let s := { s with ret := {}, land := {} }
  if 3 ≤ tries then emit { s with start := { s.start with phase := .railsFailed } } (.root "regulator failure reported over MCTP" n)
  else { s with start := { s.start with phase := .railWait } }

/-- REGULATOR_RETRY_WAIT_EXPIRY (R85): step 2 again. -/
def execRegulatorRetryWaitExpiry (s : State) : Res :=
  if s.start.phase = .railWait then
    .next (railsUp (stepTo { s with start := { s.start with phase := .steps } } (if s.start.warm then 1 else 2)))
  else .next s

/-- The oscillator and every PLL run (R505, R507). -/
def clocksUp (s : State) : State := wrN s Reg.PWR_CLK_STATUS 0x3F

/-- The shared buffer's allocator is cleared at every start (R226). -/
def bufCleared (s : State) : State := wrB s Reg.BUF_STATUS 0 true

/-- The boot ROM runs from the release of the logic until the firmware is loaded (R541, R549). -/
def romRuns (s : State) : State := wrB s Reg.MGMT_STATUS 0 true

/-- The seed step ends without a copy: the switch stops, unprovisioned or failed, with every slot channel off and the bank not charged
(R53, R63); `ran` says that R61 ran over both copies (R102). -/
def seedStop (s : State) (state a b : Nat) (ran : Bool) : State :=
  let s := wrN (wrN (wrN s Reg.SEED_FAIL_A a) Reg.SEED_FAIL_B b) Reg.SEED_STATUS state
  let s := wrB s Reg.GLB_START_STATUS 11 ran
  let s := (List.range 16).foldl (fun s c =>
    if chLead s c = c && (chOn s c || decide (chState s c = 3)) then turnOff s c else s) s
  noteCharger { s with start := { s.start with phase := .seedStopped }, root := { s.root with seedFailedSince := true } }

/-- The seed step begins: the flash is reset for 10 µs, and after 1 ms its SFDP is read (R47). -/
def flashReset (s : State) : State :=
  emit (emit (emit s (.pin .seedReset false)) (.pin .seedReset true)) (.flash "read SFDP in 1S-1S-1S at 25 MHz" 0)

/-- 8D-8D-8D mode is entered with what the xSPI table gives, before the first head is read (R47, R76). -/
def flashEnter (s : State) : State :=
  if rdF s Reg.SEED_STATUS 2 0 = 0 then emit (wrF s Reg.SEED_STATUS 2 0 1) (.flash "enter 8D-8D-8D at 200 MHz" 0) else s

/-- The harvest port starts at the end of the seed step when it is enabled (R525). -/
def harvestStart (s : State) : State :=
  if rdB s Reg.HVST_CFG 0 then
    { wrF s Reg.HVST_STATUS 1 0 1 with hvst := { s.hvst with running := true, setAt := s.now, snapAt := s.now } }
  else s

/-- The seed step ends with a copy in use: its policy is loaded, the firmware runs, the charger and the harvest port may start, slots
with AUTO_ON turn on (R62, R75, R547). -/
def seedLoaded (s : State) (ch : Chosen) (c : Nat) (p : Config.Policy) (next : Nat) : State :=
  let s := noteSeed s ch c
  let s := loadPolicy s p
  let s := wrN (wrN s Reg.SEED_FAIL_A ch.failA) Reg.SEED_FAIL_B ch.failB
  let s := wrB s Reg.GLB_START_STATUS 11 (ch.fallback || (s.start.warm && ch.ranAll))
  let s := if ch.fallback then startFail s 4 0 else s
  let s := if s.start.warm && !(firmwareHeld s c) then startFail s 7 7 else s
  let s := { s with ret := { s.ret with firmware := some p.firmware }, mgmt := { s.mgmt with kicked := s.now } }
  let s := wrB (wrB s Reg.MGMT_STATUS 0 false) Reg.MGMT_STATUS 1 true
  let s := wrN s Reg.GLB_T_SEED (tstamp s / 16000)
  let s := noteCharger (harvestStart s)
  let s := (List.range 16).foldl (fun s c =>
    if chUsed s c && chLead s c = c && chAuto s c && decide (chState s c = 2) then tryTurnOn s c else s) s
  stepTo s next

/-- The seed step (R53, R61, R62, R70, R77): flash unusable, unprovisioned, no copy, or the copy in use. The flash is opened first, so that
one that is unusable is reported as such before the fuses are looked at (DESIGN CHOICE, log entry 103: R47 and R53 each stop the step). -/
def seedStep (s : State) (flashOk : Bool) (next : Nat) : State :=
  let s := noteFuses s
  if !flashOk then seedStop s 5 1 1 false
  else
    let s := flashEnter s
    if !s.root.provisioned then seedStop s 6 0xC 0xC false
    else
      let ch := if s.start.warm then chooseWarm s else chooseCopy s
      match ch.copy with
      | none => seedStop s 5 ch.failA ch.failB true
      | some (c, p) => seedLoaded s ch c p next

/-- The lanes of the ports are powered and calibrated, but those that failed, the PLLs of the used groups lock, and every other lane stays
powered down (R85, R87, R107, R122, R135); PERST_N held over a warm start is released at the
start of training (R354), START is set (R216), and every Nozan port trains with its session (R88, R162). -/
def calibrated (s : State) (bad : List Nat) (r : StepReadings) (next : Nat) : State :=
  let lanes := portedLanes s
  let s := lanes.foldl (fun s n => wrB (wrB s (Reg.LANE_STATUS n) 0 true) (Reg.LANE_STATUS n) 6 (!(bad.contains n))) s
  let s := { s with ret := { s.ret with lanes := lanes.filter fun n => !(bad.contains n) } }
  let s := (List.range 20).foldl (fun s k =>
    if rdF s (Reg.PG_STATUS k) 1 0 ≠ 0 && !(s.pg.get k).refDown then wrB s (Reg.PG_STATUS k) 4 true else s) s
  let s := bad.foldl (fun s n => startFail (faultP s 2 0x03 2 (lanePort s n) n) 5 (lanePort s n)) s
  let s := if s.start.warm then
      (List.range 16).foldl (fun s c =>
        if decide (chState s c = 6) && chLead s c = c && rdB s (Reg.ROOT_CH_STATUS c) 7 then setPerst s c false else s) s
    else s
  let s := wrN s Reg.FWD_START_NO s.root.startCounter
  let s := r.session.foldl (fun s x => if isNoz s x.1 then wrF s (Reg.NZL_SESSION x.1) 15 0 x.2.toNat else s) s
  let s := stepTo s next
  s.seed.policy.nzPorts.foldl (fun s p =>
    let kept := s.start.warm && (lanesOf s p).all fun n => s.ret.taps.contains n
    beginTraining (updMember s p fun m => { m with tapsOk := kept }) p) s

/-- The link step ends: every shareable device whose port has trained is taken over (R466). -/
def linksDone (s : State) (r : StepReadings) (next : Nat) : State :=
  stepTo (r.devices.foldl deviceTake s) next

/-- SE retained and E_open as a start sets them (R82, R283). -/
def setEpochs (s : State) (se : Option Nat) : State :=
  let s := wr64 s Reg.LAND_SEALED_EPOCH_LO (se.getD 0)
  let s := wr64 s Reg.LAND_OPEN_EPOCH_LO ((se.map fun e => epAdd e 1).getD 1)
  updLand s fun l => { l with retSE := se }

/-- A flush record block's fields, when it is valid and unconsumed: STATE, FLUSH_ID, CUT (R329, R333). -/
def recordOf (bs : List Byte) : Option (Nat × Nat × Nat) :=
  let f (o n : Nat) : Nat := leVal ((bs.drop o).take n)
  if bs.length = 4096 && f 0 4 = 0x52464E58 && f 4 2 = 1 && f 0xFFC 4 = crc32 (bs.take 0xFFC) && f 0xFF0 4 ≠ 0x534E4F43
    && 1 ≤ f 6 2 && f 6 2 ≤ 3 then some (f 6 2, f 8 4, f 0x10 6) else none

/-- The class of a target's record, with FLUSH_ID and CUT (R333): 1 DONE, 2 DONE_PARTIAL, 3 STARTED, 5 missing, 0 none. An unconsumed record
is shown as what it is also where the flag names another FLUSH_ID, so that the start is a resume start and the manager sees it (R90, R92).
DEDUCED, log entry 107. -/
def recordClass (s : State) (bs : List Byte) : Nat × Nat × Nat :=
  match recordOf bs with
  | some (st, id, cut) => ((if st = 2 then 1 else if st = 3 then 2 else 3), id, cut)
  | none => if s.root.flushFlag then (5, 0, 0) else (0, 0, 0)

/-- What any target's class holds closed (R333, R337), and the ledger that follows. -/
def noteRecords (s : State) : State :=
  let hold := recordsHold s
  noteAdmit (noteLedger (wrB (wrB s Reg.PFAIL_STATUS 7 hold) Reg.GLB_START_STATUS 10 hold))

/-- One target's class shown (R333); a target unreadable, unusable or missing its record is reported. -/
def setRecord (s : State) (t cls id cut : Nat) : State :=
  let s := wrF s (Reg.PFAIL_REC_STATE t) 3 0 cls
  let s := wr64 (wrN s (Reg.PFAIL_REC_FLUSH_ID t) id) (Reg.PFAIL_REC_CUT_LO t) cut
  if cls = 4 then startFail (faultP s 9 0x02 2 (rdF s (Reg.PFAIL_TGT_CFG t) 6 0) t) 6 t
  else if cls = 6 then faultP s 9 0x02 2 (rdF s (Reg.PFAIL_TGT_CFG t) 6 0) t
  else s

/-- A target is initialised (R325), and its mover's slot for the drive's port covers the drive's queue doorbells with R and W (R420): the
address that the switch gave the drive's BAR0 and the drive's doorbell stride are open, so base and size are free. -/
def enableTarget (s : State) (t : Nat) : State :=
  let s := wrB s Reg.PFAIL_TARGETS t true
  let b := freshBits s 57
  let n := freshBits b.2 16
  fixedSlot n.2 (88 + t) (rdF s (Reg.PFAIL_TGT_CFG t) 6 0) (b.1.toNat * 64) (n.1.toNat * 64 + 64) 0x27

/-- One target's state after the landing resume step (R90, R91, R325, R333). -/
def readTarget (s : State) (r : StepReadings) (t : Nat) : State :=
  if rdF s (Reg.PFAIL_REC_STATE t) 3 0 = 4 then s
  else if r.unready.contains t then setRecord s t 4 0 0
  else if r.unusable.contains t then setRecord s t 6 0 0
  else
    let c := recordClass s (((r.records.find? fun x => x.1 == t).map Prod.snd).getD [])
    setRecord (enableTarget s t) t c.1 c.2.1 c.2.2

/-- FLUSH_TARGET_WAIT_EXPIRY (R91): the target is unreadable. -/
def execFlushTargetWaitExpiry (t : Nat) (s : State) : Res :=
  if s.start.phase = .steps && !s.start.warm && decide (startStep s = 9) && decide (t < targetCount s) then
    .next (setRecord s t 4 0 0)
  else .next s

/-- Service begins (R59, R60, R69, R80, R81, R82, R84 step 10): the seed counter and revoke bit advance, the record of the copy in use
is retained, the flush-committed flag of a cold start clears; the switch asks the leader to include it (R298). -/
def beginService (s : State) (step : Nat) : State :=
  let c := rdF s Reg.SEED_ACTIVE 0 0
  let counter := max s.root.seedCounter (rdN s Reg.SEED_FLOOR)
  let revoke := bitN (headFlags s c) 0 && rdB s Reg.SEED_ACTIVE 1 && !s.root.revoked0
  let s := wrB s Reg.SEED_STATUS 6 (decide (s.root.seedCounter < counter) || revoke)
  let root := { s.root with
    seedCounter := counter, revoked0 := s.root.revoked0 || revoke, retCopy := c, retDigest := headDigest s c, retCounter := counter
    reachedService := true, seedFailedSince := false, flushedSince := false
    flushFlag := s.root.flushFlag && s.start.warm, warmFails := if s.start.warm then s.root.warmFails else [] }
  let s := noteFuses (wrN { s with root := root, start := { s.start with phase := .service } } Reg.SEED_COUNTER counter)
  let s := wrB (stepTo s step) Reg.GLB_START_STATUS 7 true
  let s := wrN s Reg.GLB_T_SERVICE (tstamp s / 16000)
  let s := noteRecords s
  if s.land.noLeader then s else sendRejoin s

/-- A brace in P3 takes effect at the end of the exit (R499): C_m is the retained SE as a local cut, and the brace limit starts; after a
switchover the flush begins. -/
def p3BraceGo (s : State) : State :=
  if s.pwr.p3Brace = 0 then s
  else
    let n := s.pwr.p3Brace
    let s := braceStart (updPwr (wrB s Reg.PFAIL_STATUS 3 true) fun x => { x with p3Brace := 0 })
    let s := holdCut (updPf s fun x => { x with ownH := some (seOf s) }) (seOf s) true false 0xFFFF 0
    if n = 2 then updPf (commit s false false false) fun x => { x with commit := x.commit.map fun c => { c with bankDue := false } }
    else s

/-- The cold landing resume step (R90 to R92, R325, R333): records classed and exposed, an empty buffer, the retained SE. -/
def landingCold (s : State) (r : StepReadings) : State :=
  let s := updPf s fun x => { x with mdts := r.mdts, recs := r.records }
  let s := (flushTargets s).foldl (fun s t => readTarget s r t) s
  let cls := (flushTargets s).map fun t => rdF s (Reg.PFAIL_REC_STATE t) 3 0
  let resume := cls.any fun c => decide (1 ≤ c ∧ c ≤ 3)
  let s := if resume then msix (wrF s Reg.GLB_START_STATUS 5 4 2) (mgr s) 3 else s
  let s := setEpochs s s.root.retSE
  let s := wrB s Reg.LAND_STATUS 0 (!s.start.badDram)
  p3BraceGo (beginService s 10)

/-- The warm landing step (R87 step 8, R89): the buffer kept with the SE of its record, or empty and the discard reported; without a
valid record LAND_RET_HIGH reads 0 (DESIGN CHOICE, log entry 108). The flush targets are initialised again (R325). -/
def landingWarm (s : State) (r : StepReadings) : State :=
  let s := updPf s fun x => { x with mdts := r.mdts }
  let s := (flushTargets s).foldl (fun s t =>
    if r.unready.contains t || r.unusable.contains t then s else enableTarget s t) s
  let retained := s.ret.land
  let high := (retained.map fun x => x.2.1).getD 0
  let se := match retained with
    | some x => some x.1
    | none => s.root.retSE
  let s := wr64 (wr64 s Reg.LAND_RET_SE_LO (se.getD 0)) Reg.LAND_RET_HIGH_LO high
  let keep := s.start.keeps
  let s := if keep then
      updLand (wrN s Reg.LAND_PAGES s.land.page.cells.length) fun l => { l with kept := true, highest := some high }
    else
      startFail (updLand s fun l => { l with word := .empty, page := .empty, relPend := .empty }) 8 0
  let s := setEpochs s se
  let s := wrB (wrB s Reg.LAND_STATUS 4 keep) Reg.GLB_START_STATUS 9 keep
  let s := wrB s Reg.LAND_STATUS 0 (!s.start.badDram)
  p3BraceGo (beginService s 9)

/-- The retained training of the DRAM channels, or new training where it fails, and the landing retention record and bitmap, which count as
SEALED = 0 where their check fails (R82, R87 step 3): the bitmap stays only with a SEALED record and no channel trained anew. -/
def selfRefreshExit (s : State) (r : StepReadings) : State :=
  let s := if r.unready = [] then s else startFail s 7 6
  let s := if s.ret.land.isSome && !(r.badItems.contains 8) then s
    else startFail { s with ret := { s.ret with land := none } } 7 8
  let s := if s.ret.bitmapOk && !(r.badItems.contains 9) then s
    else startFail { s with ret := { s.ret with bitmapOk := false } } 7 9
  let keep := ((s.ret.land.map fun x => x.2.2).getD false) && s.ret.bitmapOk && r.unready = []
  let s := if keep then s else updLand s fun l => { l with page := .empty, relPend := .empty }
  { s with start := { s.start with keeps := keep } }

/-- Channels that fail DRAM training put the landing buffer out of service (R85 step 4). -/
def dramTrained (s : State) (bad : List Nat) : State :=
  let s := bad.foldl (fun s n => startFail s 3 n) { s with start := { s.start with badDram := bad ≠ [] } }
  { s with ret := { s.ret with drams := (List.range 4).filter fun n => !(bad.contains n) } }

/-- The channels, lanes or targets a step reports as failed. -/
def failList (r : StepResult) (l : List Nat) : List Nat :=
  match r with
  | .ready => l
  | .failed n => if l.contains n then l else n :: l

/-- Whether a step ended ready. -/
def isReady : StepResult → Bool
  | .ready => true
  | .failed _ => false

/-- Every regulator shows power-good (R84 step 2, R87 step 1). -/
def railsGood (s : State) : Bool := railsDone s && railOrder.all fun c => rdB s (Reg.PWR_RAIL_STATUS c.1) 16

/-- The first item of the rootstock die's record of which a check failed: items 1 to 4 of R82 stand under its one CRC-32. -/
def badRecord (r : StepReadings) : Option Nat := r.badItems.find? fun n => decide (1 ≤ n ∧ n ≤ 4)

/-- What is left of the rootstock die's record when its CRC-32 fails (R80, R82): no copy, SE 0, no flush flag, no failed warm starts. -/
def recordLost (s : State) : State :=
  { s with root := { s.root with
    retCopy := 0, retDigest := 0, retCounter := 0, retSE := none, flushFlag := false, warmFails := [], reachedService := false } }

/-- Step 1 of a warm start finds the retained record bad: the start is cold instead (R78, R80, R82), the same start by its number and
cause. -/
def coldInstead (s : State) (item : Nat) : State :=
  let cause := rdN s Reg.GLB_RESET_CAUSE
  let s := recordLost { s with root := { s.root with startCounter := (s.root.startCounter + 2 ^ 32 - 1) % 2 ^ 32 } }
  startFail (newStart s false false true cause) 7 item

/-- The record is checked at step 1 of a cold start too, where the rootstock die kept its supply (R82). -/
def recordCheck (s : State) (r : StepReadings) : State :=
  match badRecord r with
  | some n => if s.start.por then s else startFail (recordLost s) 7 n
  | none => s

/-- One step of the cold step table ends (R84, R85). -/
def coldStep (s : State) (r : StepResult) (rd : StepReadings) : State :=
  match startStep s with
  | 1 => railsUp (stepTo (bankCheck (recordCheck s rd) (!(isReady r)) rd) 2)
  | 2 => match r with
    | .ready =>
      if railsGood s then
        let s := { s with root := { s.root with railsOn := true } }
        stepTo (if s.root.retries = 0 then s else startFail s 2 0) 3
      else s
    | .failed n => railFail s n
  | 3 => match r with
    | .ready => stepTo (clocksUp s) 4
    | .failed n => railFail s n
  | 4 => stepTo (dramTrained (bufCleared s) (failList r rd.unready)) 5
  | 5 => if isReady r then stepTo (flashReset (romRuns s)) 6 else s
  | 6 => seedStep s (isReady r) 7
  | 7 => calibrated s (failList r rd.unready) rd 8
  | 8 => linksDone s rd 9
  | 9 => landingCold s rd
  | _ => s

/-- One step of the warm step table ends (R87). A step with no failure defined in R85 does not end when it fails. -/
def warmStep (s : State) (r : StepResult) (rd : StepReadings) : State :=
  match startStep s with
  | 1 => match badRecord rd with
    | some n => coldInstead s n
    | none => if isReady r && railsGood s then
      stepTo (clocksUp (wrN { s with root := { s.root with railsOn := true } } Reg.PFAIL_FLUSH_COUNT s.root.flushCounter)) 2
    else s
  | 2 => if isReady r then stepTo (bufCleared s) 3 else s
  | 3 => match r with
    | .ready => stepTo (selfRefreshExit s rd) 4
    | .failed n => stepTo (dramTrained (selfRefreshExit s { rd with unready := n :: rd.unready }) [n]) 4
  | 4 => if isReady r then stepTo (flashReset (romRuns s)) 5 else s
  | 5 => seedStep s (isReady r) 6
  | 6 =>
    let s := if rd.unready = [] then s else startFail s 7 5
    let s := { s with ret := { s.ret with
      lanes := s.ret.lanes.filter fun n => !(rd.unready.contains n), taps := s.ret.taps.filter fun n => !(rd.unready.contains n) } }
    calibrated s (failList r rd.unusable) rd 7
  | 7 => linksDone s rd 8
  | 8 => landingWarm s rd
  | _ => s

/-- START_STEP_READY (R84, R87): the step now running ends, and the next begins. During a brace the start waits (R97). -/
def execStartStepReady (r : StepResult) (rd : StepReadings) (s : State) : Res :=
  if s.start.phase ≠ .steps || s.pfail.braceAt.isSome then .next s
  else .next (if s.start.warm then warmStep s r rd else coldStep s r rd)

/-! ### Flash bursts (R48) -/

/-- The seed step runs. -/
def inSeedStep (s : State) : Bool :=
  decide (s.start.phase = .steps) && decide (startStep s = if s.start.warm then 5 else 6)

/-- The last 4 KiB block of the sections that the switch reads of a copy (R48, R70). -/
def lastBlock (s : State) (c : Nat) : Nat :=
  copyBase c + ((dirOf s c).filter fun e => !(e.typ == 0x000C && firmwareHeld s c)).foldl
    (fun m e => max m (e.off + (e.len - 1) / 4096 * 4096)) 0

/-- SEED_BURST_DONE (R48, R62, R76): the burst's data is hashed and used; SEED_STATUS shows whether heads or sections are read, and the
consistency checks once a copy's last block is there. DESIGN CHOICE, log entry 104: a copy is read in rising order of address. -/
def execSeedBurstDone (flashAddr : Nat) (s : State) : Res :=
  if inSeedStep s then
    let s := flashEnter { s with seed := { s.seed with repeated := s.seed.repeated.filter fun a => a ≠ flashAddr } }
    .next (wrF s Reg.SEED_STATUS 2 0
      (if flashAddr % 2 ^ 24 < 0x2000 then 1 else if flashAddr / 4096 * 4096 = lastBlock s (flashAddr / 2 ^ 24) then 3 else 2))
  else .next s

/-- SEED_BURST_TIMEOUT (R48): counted and repeated once; a repeat that fails marks the copy. -/
def execSeedBurstTimeout (flashAddr : Nat) (s : State) : Res :=
  if !(inSeedStep s) then .next s
  else
    let s := bump (flashEnter s) Reg.SEED_FLASH_ERR
    if s.seed.repeated.contains flashAddr then
      .next { s with seed := { s.seed with
        repeated := s.seed.repeated.filter (fun a => a ≠ flashAddr), readErr := s.seed.readErr ++ [flashAddr] } }
    else
      let s := faultU s 1 0x01 1 flashAddr
      .next (emit { s with seed := { s.seed with repeated := s.seed.repeated ++ [flashAddr] } } (.flash "read again" flashAddr))

/-! ### Records and targets (R91, R92) -/

/-- A target's record block with the consumed mark at 0xFF0 and its CRC (R92, R329). -/
def consumedWords (s : State) (t : Nat) : List Word :=
  let bs := ((s.pfail.recs.find? fun x => x.1 == t).map Prod.snd).getD []
  let body := bs.take 0xFF0 ++ leBytes 4 0x534E4F43 ++ List.replicate 8 0
  (List.range 1023).map (fun i => w32 (leAt body (4 * i) 4)) ++ [w32 (crc32 body)]

/-- RECORD_CONSUME (R91, R92): the consumed mark is written to every target that holds an unconsumed record; every hold ends. -/
def execRecordConsume (q : ReqSrc) (s : State) : Res :=
  .next (serve s q 0x0205 { m := true } false false fun s =>
    let cls (t : Nat) : Nat := rdF s (Reg.PFAIL_REC_STATE t) 3 0
    let held := (flushTargets s).filter fun t => decide (1 ≤ cls t ∧ cls t ≤ 3)
    if !(inService s) then reply s q 0x0205 0x07 []
    else if held.any fun t => !(targetReady s t) then reply s q 0x0205 0x0B []
    else
      let s := held.foldl (fun s t =>
        setRecord (emit s (.nvme t "write" (targetBase s t) 1 (consumedWords s t))) t 0 0 0) s
      let s := updPf s fun x => { x with acked := flushTargets s }
      reply (noteRecords s) q 0x0205 0x00 [])

/-- TARGET_ACK (R91): an unreadable, unusable or missing target's hold ends. -/
def execTargetAck (q : ReqSrc) (t : Nat) (s : State) : Res :=
  .next (serve s q 0x0206 { m := true } false false fun s =>
    if 8 ≤ t then reply s q 0x0206 0x03 []
    else if targetCount s ≤ t then reply s q 0x0206 0x08 []
    else if !(inService s) || decide (rdF s (Reg.PFAIL_REC_STATE t) 3 0 < 4) then reply s q 0x0206 0x07 []
    else
      let s := updPf s fun x => { x with acked := if x.acked.contains t then x.acked else x.acked ++ [t] }
      reply (noteRecords s) q 0x0206 0x00 [])

/-! ### Snapshots (R105, R522 to R524, R542) -/

/-- Where the image keeps a unit register that a snapshot copies (R524), none for every other address. -/
def imageAddr (a : Nat) : Option Nat :=
  let put (base lo hi img : Nat) : Option Nat := if base + lo ≤ a && a ≤ base + hi then some (0x1E00000 + img + (a - base - lo)) else none
  let meter : Option Nat :=
    if decide (0xB10000 ≤ a ∧ a < 0xB1A000 ∧ 0x40 ≤ a % 0x200 ∧ a % 0x200 < 0x1C0)
        && decide (0x14 ≤ (a % 0x200 - 0x40) % 0x30 ∧ (a % 0x200 - 0x40) % 0x30 ≤ 0x1C) then some (0x1E90000 + (a - 0xB10000))
    else none
  [ put 0xA00000 0x014 0x038 0x80014, put 0xC00000 0x008 0x014 0x81008, put 0xC00000 0x040 0x068 0x81040,
    put 0xB00000 0x0028 0x0028 0x82028, meter,
    put 0x1000000 0x0010 0x0028 0xA0010, put 0x1000000 0x1000 0x17FF 0xA1000, put 0x1000000 0x2000 0x27FF 0xA2000,
    put 0x1400000 0x100004 0x100018 0xB0004, put 0x1400000 0x101000 0x10283F 0xB1000, put 0x1400000 0x190000 0x1901FF 0xB9000,
    put 0x1600000 0x010 0x034 0xC0010,
    put 0x1800000 0x004 0x004 0xD0004, put 0x1800000 0x1000 0x1FFF 0xD1000, put 0x1800000 0x10000 0x2FFFF 0xE0000 ].findSome? id

/-- Whether an address is a shadow value or an image word of the CNT unit. -/
def inShadow (a : Nat) : Bool :=
  decide (0x1E80000 ≤ a ∧ a < 0x1F00000) || decide (0x1E00000 ≤ a ∧ a < 0x1E80000 ∧ a % 0x1000 < 0x200 ∧ 8 ≤ a % 16)

/-- Where a global snapshot copies a register to: a counter to its shadow, a unit register to the image. -/
def copyAddr (a : Nat) : Option Nat :=
  if decide (0x1E00000 ≤ a ∧ a < 0x1E80000 ∧ a % 0x1000 < 0x200 ∧ a % 16 < 8) then some (a + 8) else imageAddr a

/-- The visible shadow bank and the image as a snapshot leaves them (R522, R524). -/
def shadowCopy (s : State) : State :=
  let old := s.regs.keep fun a _ => !(inShadow a)
  { s with regs := s.regs.cells.foldl (fun t c => match copyAddr c.1 with
      | some a => t.set a c.2
      | none => t) old }

/-- A global snapshot starts unless one is busy: the counters and unit registers are copied at once (R105). -/
def snapshotGo (s : State) : State :=
  if rdB s Reg.GLB_SNAP_STATUS 0 then s else wrB (shadowCopy s) Reg.GLB_SNAP_STATUS 0 true

/-- SNAPSHOT_TAKE (R105). -/
def execSnapshotTake (s : State) : Res := .next (snapshotGo s)

/-- SNAPSHOT_COMPLETE (R105, R542): the sequence number advances and every view is refreshed. -/
def execSnapshotComplete (s : State) : Res :=
  if rdB s Reg.GLB_SNAP_STATUS 0 then
    .next (refreshViews (wrN (wrB s Reg.GLB_SNAP_STATUS 0 false) Reg.GLB_SNAP_SEQ (rdN s Reg.GLB_SNAP_SEQ + 1)))
  else .next s

/-- VIEW_AGE_SNAPSHOT (R542): once the oldest view is 1 s old. -/
def execViewAgeSnapshot (s : State) : Res :=
  .next (snapshotGo (timeTo s (s.mgmt.viewAt + 1600000000)))

end Sys2Proof.Machine
end

