-- ==== Sys2Proof/Machine/Power.lean ====
section
/-! DEFINITION. Power states (R488 to R499), voltage changes and AVS (R500 to R503), the clock checks (R506), and the thermal diodes (R565,
R566). -/

namespace Sys2Proof.Machine

open Sys2Proof

/-! ### P1 (R489) -/

/-- No frame is received or queued, no engine holds work, and no port transmits (R489). -/
def coreIdle (s : State) : Bool :=
  s.fwd.passed.cells = [] && s.fwd.staged.cells = [] && s.fwd.queue.cells = [] && s.fwd.tx.cells = [] && s.fwd.metHold.cells = []
    && s.fwd.toLand = [] && s.land.input = [] && s.rme.msgs = [] && s.rme.missq = [] && s.brg.txns = []

/-- P1_IDLE_EXPIRY (R489): 2 µs idle in P0 enter P1, while P1_EN is 1. -/
def execP1IdleExpiry (s : State) : Res :=
  if rdB s Reg.PWR_CTRL 4 && decide (rdF s Reg.PWR_STATE 2 0 = 0) && inService s && decide (s.pwr.req = 0) && !(braced s) && coreIdle s then
    let s := count (bump (wrF s Reg.PWR_STATE 2 0 1) Reg.PWR_P1_ENTRIES) 114 3
    .next (updPwr s fun x => { x with p1At := s.now })
  else .next s

/-- The clocks run again, and the time in P1 is counted in whole microseconds (R489, R508). -/
def leaveP1 (s : State) : State :=
  if rdF s Reg.PWR_STATE 2 0 = 1 then
    let n := s.pwr.p1Rem + (s.now - s.pwr.p1At)
    bumpBy (updPwr (wrF s Reg.PWR_STATE 2 0 0) fun x => { x with p1Rem := n % 1600 }) Reg.PWR_P1_TIME (n / 1600)
  else s

/-- P1_EXIT (R489). -/
def execP1Exit (s : State) : Res := .next (leaveP1 s)

/-! ### Entering P2, P3 and P4 (R490 to R493) -/

/-- The entry may go on after the quiesce: nothing landed lies above SE (R490). -/
def sealedAll (s : State) : Bool := epLe (s.land.highest.getD (seOf s)) (seOf s)

/-- The quiesce of R86 is over: nothing landed lies above SE, or four periods and 20 µs have passed. -/
def quiesceOver (s : State) : Bool := sealedAll s || decide (s.pwr.reqAt + 4 * epochPeriod s + 32000 ≤ s.now)

/-- The bank holds what a flush needs with 100 ms of P_FLUSH set aside, for every written page (R490). -/
def bankCovers (s : State) : Bool :=
  match samplePair s with
  | none => false
  | some v =>
    let p := rdF s Reg.QOS_LEDGER_PARAM1 8 0
    let fixed := 400000000 * p * (rdF s Reg.QOS_LEDGER_PARAM1 29 20 + 1000)
    let e := ledgerEnergy s v
    decide (fixed ≤ e) && decide (rdN s Reg.LAND_PAGES ≤ (e - fixed) * 524288 / (4000000000 * p * rdF s Reg.QOS_LEDGER_PARAM1 19 9))

/-- Every port that was up is in L1 or asleep (R491). -/
def portsAsleep (s : State) : Bool :=
  (s.seed.policy.nzPorts.all fun p => !(nzUp s p)) && s.seed.policy.pciePorts.all fun p => !(dlUp s p) || decide (rdF s (Reg.PCIE_STATUS p) 3 0 = 5)

/-- SLEEP_REQ on every Nozan port that is up, and L1 begun on every downstream port whose host has enabled it (R491). -/
def sleepPorts (s : State) : State :=
  let s := s.seed.policy.nzPorts.foldl sleepRequest s
  s.seed.policy.pciePorts.foldl (fun s p =>
    let on := (portVdspOf s p).any fun v => getB (cfgV s v.1 (.vdsp v.2) capPcie 0x10) 1
    if dlUp s p && on && rdF s (Reg.PCIE_STATUS p) 3 0 = 3 then emit s (.pcieMsg p "PM_Active_State_Request_L1") else s) s

/-- Every link in electrical idle (R492). -/
def linksIdle (s : State) : State :=
  let s := s.seed.policy.nzPorts.foldl (fun s p => if nzUp s p then setNz (memberDown s p 3) p 0 else setNz s p 0) s
  s.seed.policy.pciePorts.foldl (fun s p => setLtssm (dlDown s p) p 0) s

/-- The rails of P3 lowered in the reverse order, VDD_SRAM to its retention value (R492, R500). -/
def railsP3 : List (Nat × Nat) := [(2, 0), (3, 0), (1, 600), (0, 0)]

/-- The rails of P4, all off in the reverse order (R493, R500). -/
def railsP4 : List (Nat × Nat) := [(5, 0), (4, 0), (2, 0), (3, 0), (1, 0), (0, 0)]

/-- The entry's next phase. -/
def entryPhase (s : State) (n : Nat) : State := updPwr s fun x => { x with phase := n }

/-- The landing retention record of a P3 entry (R83, R492). -/
def retainP3 (s : State) : State :=
  if s.pwr.sr = 15 then retainRecord s else { s with ret := { s.ret with land := none } }

/-- The entry goes on after the quiesce, or is refused (R490 to R492). -/
def quiesceEnd (s : State) : State :=
  if !(sealedAll s) then abortEntry s 3
  else if s.pwr.req = 2 then sleepPorts (entryPhase s 2)
  else if bankCovers s then pmbusAsk (linksIdle (retainP3 (entryPhase s 2))) railsP3
  else abortEntry s 3

/-- The entry goes on as far as it can: the quiesce ends, every port sleeps, or every rail is down (R491 to R493). -/
def entryPump (s : State) : State :=
  let s := if s.pwr.phase = 1 && quiesceOver s then quiesceEnd s else s
  if s.pwr.phase = 2 && (if s.pwr.req = 2 then portsAsleep s else railsDone s) then entryPhase s 3 else s

/-- A P4 entry: every slot off with PERST_N asserted, the charger stopped, every rail off (R493). -/
def enterP4 (s : State) : State :=
  let s := (List.range 16).foldl (fun s c => if chLead s c = c then turnOff s c else s) s
  let s := if rdB s Reg.ROOT_BANK_STATUS 0 then emit (wrB s Reg.ROOT_BANK_STATUS 0 false) (.pin .chgEn false) else s
  entryPump (pmbusAsk (entryPhase s 2) railsP4)

/-- A request for P2, P3 or P4 by the manager or the board management controller (R490). -/
def powerGo (s : State) (target : Nat) (q : Option ReqSrc) (sr : Nat) : State :=
  let s := leaveP1 s
  let refuse (n : Nat) : State := powerReply (setResult s n) q n
  if s.pwr.req ≠ 0 || target < 2 || 4 < target || braced s || !(inService s) then refuse 2
  else if target = 4 && (decide (rdN s Reg.LAND_PAGES ≠ 0) || (List.range 32).any fun r => decide (rdN s (Reg.QOS_HOST_PEND r) ≠ 0)) then refuse 3
  else
    let s := setResult (wrF s Reg.PWR_STATE 5 3 target) 0
    let s := updPwr s fun x => { x with req := target, phase := 1, reqAt := s.now, q := q, sr := sr }
    if target = 4 then enterP4 s else entryPump s

/-- TARGET and P1_EN of PWR_CTRL as a write with GO leaves them (R510). -/
def pwrCtrl (s : State) (target : Nat) (p1En : Bool) : State :=
  wrB (wrF s Reg.PWR_CTRL 3 1 target) Reg.PWR_CTRL 4 p1En

/-- PWR_CTRL_GO_P2 (R490, R491). -/
def execPwrCtrlGoP2 (p1En : Bool) (s : State) : Res := .next (powerGo (pwrCtrl s 2 p1En) 2 none 0)

/-- PWR_CTRL_GO_P3 (R490, R492). -/
def execPwrCtrlGoP3 (p1En : Bool) (selfRefresh : BitVec 4) (s : State) : Res :=
  .next (powerGo (pwrCtrl s 3 p1En) 3 none selfRefresh.toNat)

/-- PWR_CTRL_GO_P4 (R490, R493). -/
def execPwrCtrlGoP4 (p1En : Bool) (s : State) : Res := .next (powerGo (pwrCtrl s 4 p1En) 4 none 0)

/-- POWER_STATE (R490, R539): the board management controller's request. -/
def execPowerState (q : ReqSrc) (target : Nat) (selfRefresh : BitVec 4) (s : State) : Res :=
  .next (serve s q 0x0202 { b := true } false false fun s =>
    if target < 2 || 4 < target then reply s q 0x0202 0x03 [] else powerGo s target (some q) selfRefresh.toNat)

/-- SLEEP_ACK_RECEIVE (R168, R491): electrical idle with the PLLs and the sequence state kept; the entry into P2 may go on. -/
def execSleepAckReceive (p : Nat) (g : LaneGroups) (s : State) : Res :=
  sameSet s p g 0x09 fun s _ _ =>
    if nzUp s p && (s.member.get p).sleepReq then
      entryPump (setNz (updMember s p fun m => { m with sleepReq := false, signal := false }) p 4)
    else s

/-- SLEEP_NAK_RECEIVE (R168, R490): the port stays up, and the entry into P2 that asked ends with result 4. -/
def execSleepNakReceive (p : Nat) (g : LaneGroups) (s : State) : Res :=
  sameSet s p g 0x0A fun s _ _ =>
    if (s.member.get p).sleepReq then
      let s := updMember s p fun m => { m with sleepReq := false }
      if s.pwr.req = 2 then abortEntry s 4 else s
    else s

/-- PCIE_L1_ENTRY (R207, R491): a port that is up reaches L1, or with `sub` a substate of it; the entry into P2 may go on. -/
def execPcieL1Entry (p : Nat) (sub : Bool) (s : State) : Res :=
  if isPcie s p && dlUp s p && inService s then .next (entryPump (wrB (setLtssm s p 5) (Reg.PCIE_STATUS p) 13 sub)) else .next s

/-- P2_L1_WAIT_EXPIRY (R490): a port not in L1 100 ms after the request ends the entry with result 4. -/
def execP2L1WaitExpiry (p : Nat) (s : State) : Res :=
  if s.pwr.req = 2 && s.pwr.phase = 2 && isPcie s p && dlUp s p
      && decide (rdF s (Reg.PCIE_STATUS p) 3 0 ≠ 5) then .next (abortEntry (timeTo s (s.pwr.reqAt + 160000000)) 4)
  else .next s

/-! ### Leaving P2, P3 and P4 (R495 to R499) -/

/-- A source may wake the switch from a state (R495): a slot with SLOT_WAKE_EN and not in P4, a brace or a trip in P2 and P3 only. -/
def wakes (s : State) (st code n : Nat) : Bool :=
  if code = 1 || code = 2 || code = 4 then true
  else if code = 3 then decide (st ≠ 4) && rdB s Reg.PWR_WAKE_CFG 2 && decide (n < 16) && rdB s (Reg.ROOT_CH_STATUS n) 7
  else if code = 5 || code = 6 then decide (st ≠ 4)
  else false

/-- PWR_LAST_WAKE records the source of an exit (R495, R508). -/
def noteWake (s : State) (st code n : Nat) : State := wrN s Reg.PWR_LAST_WAKE (code + st * 2 ^ 4 + n % 256 * 2 ^ 7)

/-- The exit from P2 (R497 to R499): PLLs run, the landing DRAM leaves self-refresh with its contents, ports leave L1 or sleep; a brace of
the own input follows the exit. -/
def exitP2 (s : State) : State :=
  let q := s.pwr.q
  let due := s.pwr.p3Brace
  let s := wakePorts (entryOver (clocksUp { s with start := { s.start with phase := .service } }))
  let s := updLand (updPwr s fun x => { x with p3Brace := 0 }) fun l => { l with kept := true }
  let s := powerReply (noteLeft s 2) q 1
  if rdB s Reg.PFAIL_STATUS 3 then
    let s := ownBrace s
    if due = 2 then
      updPf (commit (sendCommit s false) false false false) fun x => { x with commit := x.commit.map fun c => { c with bankDue := false } }
    else s
  else s

/-- The switch leaves P2, P3 or P4 by its exit (R497). -/
def wakeUp (s : State) (code n : Nat) : State :=
  let st := s.pwr.asleep
  if st = 2 then exitP2 (noteWake s st code n)
  else if st = 3 then noteWake (exitReset s 4) st code n
  else noteWake (noteLeft (newStart s false false false 2) st) st code n

/-- The clocks that still run in a state: SYS_XTAL and the harvest PLL in P2, none of the switch die's in P3 and P4 (R488). -/
def asleepClocks (st : Nat) : Nat := if st = 2 then 0x21 else 0

/-- STATE_ENTRY_COMPLETE (R488, R496): the switch is in the state; a level event that came in the last 8 cycles takes it out at once. -/
def execStateEntryComplete (waiting : Option (Nat × Nat)) (s : State) : Res :=
  if s.pwr.phase ≠ 3 then .next s
  else
    let st := s.pwr.req
    let s := updPwr { s with start := { s.start with phase := .asleep } } fun x => { x with phase := 0, asleep := st }
    let s := wrN s Reg.PWR_CLK_STATUS (asleepClocks st)
    let s := if st = 2 then bumpF s Reg.PWR_SLEEP_ENTRIES 15 0 1
      else if st = 3 then bumpF s Reg.PWR_SLEEP_ENTRIES 31 16 1 else s
    let s := if st = 2 then s else { s with root := { s.root with railsOn := false } }
    match waiting with
    | some (code, n) =>
      if wakes s st code n && !(code = 4 && rdB s Reg.PWR_WAKE_CFG 0) then .next (wakeUp s code n) else .next s
    | none => .next s

/-- WAKE_EVENT (R495 to R499): asleep, the switch leaves its state; an entry ends with result 5, or 2 for a brace (R507), unless the event
falls into the last 8 cycles, where an edge is lost and a level is seen at completion. -/
def execWakeEvent (code n : Nat) (lastCycles : Bool) (s : State) : Res :=
  if s.pwr.asleep ≠ 0 then
    if wakes s s.pwr.asleep code n then .next (wakeUp s code n) else .next s
  else if s.pwr.req = 0 || (lastCycles && decide (s.pwr.phase = 3)) || !(wakes s s.pwr.req code n) then .next s
  else .next (abortEntry s (if code = 5 then 2 else 5))

/-- What the power states do with time: the entry goes on, and a wake the rootstock die has seen takes effect. -/
def powerTick (s : State) : State :=
  match s.pwr.wakeDue with
  | some (code, n) => if s.pwr.asleep = 0 then s else wakeUp s code n
  | none => entryPump s

/-! ### AVS (R502) -/

/-- VDD_CORE is held at its last acknowledged value (R502, R503). -/
def avsHeld (s : State) : Bool :=
  braced s || inCloche s || decide (s.pwr.req ≠ 0) || decide (s.pwr.asleep ≠ 0) || s.pwr.avsFixed

/-- The next step of at most 10 mV toward the value asked for, at least 100 µs after the last (R502). -/
def avsStep (s : State) : State :=
  let now_ := railSet s 0
  let next := if now_ < s.pwr.avs then min s.pwr.avs (now_ + 10) else max s.pwr.avs (now_ - 10)
  if avsHeld s || decide (next = now_) || decide (s.now < s.pwr.avsAt + 160000) || !(railsDone s) then s
  else pmbusAsk (updPwr s fun x => { x with avsAt := s.now }) [(0, next)]

/-- AVS runs from the end of step 5 of a start on (R502). -/
def avsRuns (s : State) : Bool :=
  inService s || (decide (s.start.phase = .steps) && decide ((if s.start.warm then 4 else 5) < startStep s))

/-- AVS_EVALUATION_EXPIRY (R502): the first of a start comes after step 5, each later one 10 ms after the last; the ring oscillators are read, and the value asked for follows, within 0.65 to 0.85 V in 5 mV units. The spec
gives no rule from code to value: the value is free. -/
def execAvsEvaluationExpiry (osc : BitVec 10) (s : State) : Res :=
  if !(avsRuns s) then .next s
  else
    let s := match s.pwr.evalAt with
      | some t => timeTo s (t + 16000000)
      | none => s
    let s := wrF (updPwr s fun x => { x with evalAt := some s.now }) Reg.PWR_AVS 19 10 osc.toNat
    if avsHeld s then .next s
    else
      let v := freshBits s 8
      .next (avsStep (updPwr v.2 fun x => { x with avs := 650 + 5 * (v.1.toNat % 41) }))

/-- AVS_STEP_EXPIRY (R502). -/
def execAvsStepExpiry (s : State) : Res := if avsRuns s then .next (avsStep (timeTo s (s.pwr.avsAt + 160000))) else .next s

/-! ### Voltage changes (R501, R503) -/

/-- READ_VOUT lies within the tolerance of a target: 3 %, VDD_IO 5 % (R500). -/
def inTolerance (rail target mv : Nat) : Bool :=
  decide (100 * (max target mv - min target mv) ≤ (if rail = 5 then 5 else 3) * target)

/-- A change is acknowledged (R501): a rail turned off by the write alone; any other with READ_VOUT in tolerance and POWER_GOOD# of
STATUS_WORD, its bit 11, clear. PRESUMED, PMBus: the place of the bit. -/
def changeGood (rail target mv status : Nat) : Bool :=
  decide (target = 0) || (inTolerance rail target mv && !(bitN status 11))

/-- PMBUS_CHANGE_ACK (R501): the change is acknowledged, and the next may follow. -/
def execPmbusChangeAck (rail : Nat) (mv status : BitVec 16) (s : State) : Res :=
  match s.rootSt.rails.busy with
  | none => .next s
  | some c =>
    if c.1 ≠ rail then .next s
    else
      let s := wrN s (Reg.PWR_RAIL_V rail) mv.toNat
      let s := wrF s (Reg.PWR_RAIL_STATUS rail) 15 0 status.toNat
      let s := wrB s (Reg.PWR_RAIL_STATUS rail) 16 (decide (c.2 ≠ 0) && !(bitN status.toNat 11))
      if !(changeGood rail c.2 mv.toNat status.toNat) then .next s
      else
        let s := wrB (wrN s (Reg.PWR_RAIL_SET rail) c.2) (Reg.PWR_RAIL_STATUS rail) 17 false
        let s := if rail = 0 && c.2 ≠ 0 then wrF s Reg.PWR_AVS 9 0 c.2 else s
        .next (entryPump (pmbusGo (updRails s fun x => { x with busy := none, again := false })))

/-- A start's rails rise: step 2 of the cold table, or step 1 of the warm one. -/
def railStep (s : State) : Bool :=
  decide (s.start.phase = .steps) && decide (startStep s = if s.start.warm then 1 else 2)

/-- PMBUS_ACK_TIMEOUT (R503, R85): 0.8 ms without an acknowledgement: the change is repeated once; then the start step fails, or the failure
is counted and raised, the rail stays, AVS is held for VDD_CORE, and an entry into P2 or P3 ends with result 2. -/
def execPmbusAckTimeout (rail : Nat) (s : State) : Res :=
  match s.rootSt.rails.busy with
  | none => .next s
  | some c =>
    if c.1 ≠ rail then .next s
    else
    let s := timeTo s (s.rootSt.rails.at_ + 1280000)
    if !s.rootSt.rails.again then .next (emit (updRails s fun x => { x with again := true, at_ := s.now }) (.pmbus c.1 c.2))
    else if railStep s then .next (railFail s rail)
    else
      let s := wrB (count (bump s Reg.PWR_PMBUS_ERR) 114 4) (Reg.PWR_RAIL_STATUS rail) 17 true
      let s := faultU s 16 0x03 2 rail
      let s := if rail = 0 then updPwr s fun x => { x with avsFixed := true } else s
      let s := updRails s fun x => { x with busy := none, again := false }
      if s.pwr.req = 2 || s.pwr.req = 3 then .next (abortEntry (updRails s fun x => { x with queue := [] }) 2)
      else .next (entryPump (pmbusGo s))

/-! ### Clocks (R506) -/

/-- A clock is lost (R506): SYS_XTAL (0), the core, DRAM or management PLL raise an F fault; the seed PLL outside the seed step and the harvest
PLL a U fault, and stop only their unit. -/
def clockLost (s : State) (n : Nat) : State :=
  if 6 ≤ n || s.start.phase = .off || s.start.phase = .asleep || !(rdB s Reg.PWR_CLK_STATUS n) then s
  else
    let s := count (bump (wrB s Reg.PWR_CLK_STATUS n false) Reg.PWR_CLK_FAULT) 114 5
    if n ≤ 3 then faultU s 16 0x01 3 (rdN s Reg.PWR_CLK_STATUS)
    else if n = 4 then (if inSeedStep s then s else faultU (endSeedUpdate s) 16 0x02 2 (rdN s Reg.PWR_CLK_STATUS))
    else
      let s := wrF { s with hvst := { s.hvst with running := false, sending := none } } Reg.HVST_STATUS 1 0 0
      faultU (wrB s Reg.HVST_STATUS 3 false) 16 0x02 2 (rdN s Reg.PWR_CLK_STATUS)

/-- CLOCK_CHECK_TICK (R506): every 100 µs SYS_XTAL is checked against the rootstock RC. -/
def execClockCheckTick (xtalOk : Bool) (s : State) : Res := if xtalOk then .next s else .next (clockLost s 0)

/-- PLL_LOCK_LOSS (R506): 0 SYS_XTAL, 1 core, 2 DRAM, 3 management, 4 seed, 5 harvest. -/
def execPllLockLoss (n : Nat) (s : State) : Res := .next (clockLost s n)

/-! ### The thermal diodes (R565, R566) -/

/-- The time a condition has held since. -/
def since (now : Nat) (old : Option Nat) (holds : Bool) : Option Nat := if holds then some (old.getD now) else none

/-- THERMAL_READING (R565, R566): the four switch-die readings in °C; THERM_N asserted from 110 °C on and released below 105 °C. -/
def execThermalReading (degs : List Int) (s : State) : Res :=
  let die := degs.take 4
  let any_ := die.any fun d => decide (110 ≤ d)
  let low := die.all fun d => decide (d < 105)
  let t := s.rootSt.therm
  let on := any_ || (t.asserted && !low)
  let hot := (List.range die.length).filterMap fun i =>
    if 120 ≤ die.getD i 0 then some (i, ((t.hot.find? fun h => h.1 == i).map Prod.snd).getD s.now) else none
  let s := if on = t.asserted then s else emit s (.pin .thermN (!on))
  let below := since s.now t.below (!any_)
  let cool := since s.now t.cool (die.all fun d => decide (d < 90))
  .next (notePf (updTherm s fun x => { x with hot := hot, below := below, cool := cool, asserted := on }))

/-- THERMAL_BRACE_EXPIRY (R566): a switch-die reading at 120 °C for 10 ms braces the switch as its own input does. -/
def execThermalBraceExpiry (s : State) : Res :=
  if s.rootSt.therm.hot = [] || s.rootSt.therm.brace || s.root.dieDead || s.pfail.commit.isSome || s.start.phase = .off then .next s
  else
    let s := timeTo s (s.rootSt.therm.hot.foldl (fun m h => min m h.2) s.now + 16000000)
    let s := updTherm s fun x => { x with brace := true }
    let good := decide (11400 < rdF s Reg.PFAIL_INPUT 15 0)
    let s := updPf s fun x => { x with riseAt := if good && x.riseAt.isNone then some s.now else x.riseAt }
    if s.pwr.asleep ≠ 0 then .next (wakeSeen (warnAll (wrB s Reg.PFAIL_STATUS 3 true) true) 5 0)
    else if rdB s Reg.PFAIL_STATUS 3 then .next (notePf s)
    else .next (ownBrace s)

/-- THERMAL_COOL_EXPIRY (R566): after a thermal flush, 10 s below 90 °C allow the cold start. -/
def execThermalCoolExpiry (s : State) : Res :=
  match s.rootSt.therm.cool with
  | some t => if s.rootSt.therm.flush && !s.root.railsOn then .next (flushRestart (timeTo s (t + 16000000000))) else .next s
  | none => .next s

end Sys2Proof.Machine
end

