-- ==== Sys2Proof/Machine/Registers.lean ====
section
/-! DEFINITION. Register access over BAR0 (R6 to R14, R534): which register an offset names, what it reads, what a write does to its
fields, the read latch and the write holding of a pair. -/

namespace Sys2Proof.Machine

open Sys2Proof

/-! ### Addresses (R5, R534) -/

/-- The register an offset of host k's view names, as its address in the manager's map, and whether it may be written (R534): a counter
slot's page is read only. -/
def viewAddr (s : State) (k off : Nat) : Option (Nat × Bool) :=
  if off < 0x1000 then some (0x3000000 + 0x40000 * k + off, true)
  else if off < 0x2000 then some (Reg.LAND_FENCE_LO k + (off - 0x1000), true)
  else if off < 0x2020 then some (Reg.FLT_HOST_INFO k + (off - 0x2000), true)
  else if 0x4000 ≤ off ∧ off < 0xC000 then some (Reg.MB_CTRL k 0 + (off - 0x4000), true)
  else if 0x10000 ≤ off ∧ off < 0x40000 then
    match s.mgmt.slots.get (64 * k + (off / 0x1000 - 16)) with
    | 0 => none
    | n + 1 => some (Reg.CNT_LIVE_LO n 0 + off % 0x1000, false)
  else none

/-- The register an offset of a host's BAR0 names: the manager's map holds the view of every host from 0x300_0000 on, and any other host
has its own view only (R5, R534). -/
def barAddr (s : State) (host off : Nat) : Option (Nat × Bool) :=
  if host ≠ mgr s then viewAddr s host off
  else if 0x3000000 ≤ off then (if off < 0x3800000 then viewAddr s ((off - 0x3000000) / 0x40000) (off % 0x40000) else none)
  else some (off, true)

/-- The row of the register an offset names, with its address; none where no register stands (R6). -/
def barRow (s : State) (host off : Nat) : Option (Nat × Bool × RegRow) :=
  (barAddr s host off).bind fun a => (rowOf a.1).map fun r => (a.1, a.2, r)

/-! ### Reading -/

/-- The word of a trellis pair: an entry that no switch ever had reads as unreachable once the table is written (R213, R218). -/
def trellisWord (s : State) (a : Nat) : Word :=
  let lo := a / 8 * 8
  if rdB s Reg.FWD_STATUS 0 && decide (rd64 s lo = 0) then (if a = lo then lo32 entryNone else hi32 entryNone) else rd s a

/-- The registers whose reading is a measurement that no command of the table carries: rail and bank currents (R366, R508). Each reading is
free, below the bound given here. -/
def freeRange (a : Nat) : Nat :=
  if a = Reg.ROOT_BANK_I then 2 ^ 16
  else if decide (Reg.PWR_RAIL_I 0 ≤ a ∧ a < Reg.PWR_RAIL_I 6) && decide (a % 0x10 = 8) then 2 ^ 16
  else 0

/-- A lane's registers that move while it works, brought up to the read: the counts of a locked checker (R125), and the receiver codes of a
lane in service, which go on adapting to what is open (R122). -/
def liveLane (s : State) (a : Nat) : State :=
  let n := (a - Reg.LANE_STATUS 0) / 0x1000
  let off := a % 0x1000
  if !(decide (Reg.LANE_STATUS 0 ≤ a) && decide (n < 160)) then s
  else if 0x110 ≤ off ∧ off < 0x120 then prbsCatch s n 0
  else if off = 0x010 && rdB s (Reg.LANE_STATUS n) 1 then
    let v := freshBits s 13
    wrN v.2 (Reg.LANE_RXEQ n) (v.1.toNat % 32 + v.1.toNat / 32 * 256)
  else s

/-- Unit and slot of a hedge register of the tables at `base`: the words CTRL and PERM. -/
def hedgeWord (base a : Nat) : Option (Nat × Nat) :=
  let d := a - base
  if decide (base ≤ a) && decide (d % 0x20 = 0x10) && decide (d / 0x1000 < 97) && decide (d % 0x1000 / 0x20 < 114)
  then some (d / 0x1000, d % 0x1000 / 0x20) else none

/-- FIXED of a slot, 0 until the tables are loaded (R420, R440): a slot the hardware sets, or one whose envelope permits nothing. -/
def slotFixed (s : State) (x : Nat × Nat) : Bool :=
  rdB s Reg.HEDGE_STATUS 0 && (fixedPlace s.seed.policy x.1 x.2 || decide (rdF s (Reg.HEDGE_E_PERM x.1 x.2) 3 0 = 0))

/-- What a register reads whose value follows from others: identity, time, snapshot number, AVS held, the engines' status, the trellis
(R101, R414, R420, R502, R511, R523, R550). -/
def computedWord (s : State) (a : Nat) : Option Word :=
  if a = Reg.GLB_ID then some (w32 glbId)
  else if a = Reg.GLB_UID_LO then some (lo32 Config.uid.toNat)
  else if a = Reg.GLB_UID_HI then some (hi32 Config.uid.toNat)
  else if a = Reg.FLT_NOW_LO then some (lo32 (tstamp s))
  else if a = Reg.FLT_NOW_HI then some (hi32 (tstamp s))
  else if a = Reg.RME_STATUS then some (rmeStatus s)
  else if a = Reg.PWR_AVS then some (setB (rd s a) 20 (avsHeld s))
  else if decide (Reg.FWD_TRELLIS_LO 0 ≤ a ∧ a < Reg.FWD_TRELLIS_LO 4096) then some (trellisWord s a)
  else if decide (Reg.CNT_LIVE_LO 0 0 ≤ a ∧ a < Reg.CNT_LIVE_LO 128 0) && decide (a % 0x1000 = 0x200) then some (rd s Reg.GLB_SNAP_SEQ)
  else if decide (0x3000000 ≤ a) && decide (a % 0x40000 = 4) then some (w32 glbId)
  else if decide (0x3000000 ≤ a) && decide (a % 0x40000 = 8) then some (rd s Reg.GLB_SNAP_SEQ)
  else if let some x := hedgeWord 0x1400000 a then some (setB (rd s a) 5 (slotFixed s x))
  else (hedgeWord 0x1480000 a).map fun x => setB (rd s a) 4 (slotFixed s x)

/-- A register read: its value, and the state once an RC field has cleared or a free reading was drawn (R12). -/
def readReg (s : State) (a : Nat) (r : RegRow) : Word × State :=
  let s := liveLane s a
  match freeRange a with
  | 0 => match computedWord s a with
    | some w => (w, s)
    | none => (rd s a, wr s a (rd s a &&& ~~~(w32 r.rc)))
  | n =>
    let v := freshBits s 32
    (w32 (v.1.toNat % n), v.2)

/-- The word at an offset of a host's BAR0: 0 where no register stands (R6). -/
def readAt (s : State) (host off : Nat) : Word × State :=
  match barRow s host off with
  | some (a, _, r) => readReg s a r
  | none => (0, s)

/-- The words of a read leave for their requester. -/
def answer (s : State) (host req off : Nat) (ws : List Word) : State := emit s (.regData host req off ws)

/-! ### Latches (R8, R9) -/

/-- A requester's read latch. -/
def setLatch (s : State) (host req : Nat) (v : Option (Nat × Word)) : State :=
  { s with access := { s.access with latch := s.access.latch.set (host * 65536 + req) v } }

/-- A read of a host's FENCE register is a durability fence (R299). -/
def fenceAt (s : State) (host req a : Nat) (wide : Bool) : State :=
  takeFence s host { reqId := reqKey host req, target := 0, wide := wide, req := req, off := a }

/-- The offset is a host's FENCE pair. -/
def isFence (a : Nat) : Bool := decide (Reg.LAND_FENCE_LO 0 ≤ a ∧ a < Reg.LAND_FENCE_LO 32) && decide (a % 0x1000 = 0)

/-- The offset is a host's RELEASE pair. -/
def isRelease (a : Nat) : Bool := decide (Reg.LAND_FENCE_LO 0 ≤ a ∧ a < Reg.LAND_FENCE_LO 32) && decide (a % 0x1000 = 8)

/-- PAIR_LO_READ (R8, R184): the value is returned and the pair's _HI is latched for the requester; of the FENCE pair it is a fence, which
latches when it completes (R299). -/
def execPairLoRead (host req off : Nat) (s : State) : Res :=
  .next (mefAnswered s host req fun s => match barRow s host off with
    | none => answer s host req off [0]
    | some (a, _, r) =>
      if isFence a then fenceAt s host req a false
      else
        let lo := readReg s a r
        let hi := (computedWord lo.2 (a + 4)).getD (rd lo.2 (a + 4))
        let s := if r.pair = 1 then setLatch lo.2 host req (some (a, hi)) else lo.2
        answer s host req off [lo.1])

/-- PAIR_HI_READ (R8, R184): the latched half, which is released, or the current value. -/
def execPairHiRead (host req off : Nat) (s : State) : Res :=
  .next (mefAnswered s host req fun s => match barRow s host off with
    | none => answer s host req off [0]
    | some (a, _, r) =>
      let now := readReg s a r
      match s.access.latch.get (host * 65536 + req) with
      | some (b, v) =>
        if r.pair = 2 && b + 4 = a then answer (setLatch s host req none) host req off [v] else answer now.2 host req off [now.1]
      | none => answer now.2 host req off [now.1])

/-- The two words at an offset, as an 8-byte read returns them: an RC field clears after both were read (R6, R13). -/
def wideRead (s : State) (host req off : Nat) : State :=
  let x := readAt s host off
  let y := readAt x.2 host (off + 4)
  answer y.2 host req off [x.1, y.1]

/-- RC_FIELD_READ (R12, R13, R184): the value is returned and its RC fields clear; an 8-byte read clears after both halves were returned. -/
def execRcFieldRead (host req off : Nat) (wide : Bool) (s : State) : Res :=
  .next (mefAnswered s host req fun s =>
    let x := readAt s host off
    if wide then wideRead s host req off else answer x.2 host req off [x.1])

/-! ### Writing (R10 to R14) -/

/-- The fields of a register after a write by their access codes: RW bits take the value, W1C bits written 1 clear unless the data path
sets them in the same cycle, all others stay (R11, R12, R14). -/
def fieldsAfter (r : RegRow) (old v collide : Word) : Word :=
  let clear := v &&& ~~~collide &&& w32 r.w1c
  mergeW old v (w32 r.rw) &&& ~~~clear

/-- The context of the connection that RME_CONN_SEL names is copied into the view (R413). -/
def connView (s : State) (v : Word) : State :=
  let c := ctxOf s (getF v 19 0)
  if c.st = 0 then wrN s Reg.RME_CONN_VIEW_STATUS 3
  else wrN (wrWords s (Reg.RME_CONN_VIEW 0) ((ctxWords c).take 48)) Reg.RME_CONN_VIEW_STATUS 2

/-- The actions of WO and RW fields that no row of their own carries: RME_CONN_SEL.GO (R413), HEDGE_U_FAULT_CLR (R439), the LEVEL of ERR_N
while held (R517), and a request for no power state (R510). -/
def writeAct (s : State) (a : Nat) (v : Word) : State :=
  if a = Reg.RME_CONN_SEL then (if getB v 31 then connView s v else s)
  else if a = Reg.FLT_ERRN_CTRL then (if rdF s Reg.FLT_STATUS 3 2 = 2 then errN s 2 else s)
  else if a = Reg.PWR_CTRL then
    (if getB v 0 && (decide (getF v 3 1 < 2) || decide (4 < getF v 3 1)) then setResult s 2 else s)
  else if decide (Reg.HEDGE_U_FAULT_CLR 0 ≤ a ∧ a < Reg.HEDGE_U_FAULT_CLR 97) && decide (a % 0x40 = Reg.HEDGE_U_FAULT_CLR 0 % 0x40) then
    (if getB v 0 then wrF s (a - 0x18) 2 1 0 else s)
  else s

/-- Registers whose writes rows of their own carry whole: LANE_TEST_CTRL (R134), OVF of a counter (R519). -/
def ownRow (a : Nat) : Bool :=
  decide (Reg.LANE_TEST_CTRL 0 ≤ a ∧ a < Reg.LANE_TEST_CTRL 160) && decide (a % 0x1000 = 0x100)
    || decide (Reg.CNT_LIVE_LO 0 0 ≤ a ∧ a < Reg.CNT_LIVE_LO 128 0)

/-- A register written by the access codes of its fields, with the actions it has. -/
def writeReg (s : State) (a : Nat) (r : RegRow) (v collide : Word) : State :=
  if ownRow a then s else writeAct (wr s a (fieldsAfter r (rd s a) v collide)) a v

/-- A word written to a register that is no half of a pair; discarded where none stands (R6). -/
def plainWrite (s : State) (host off : Nat) (v collide : Word) : State :=
  match barRow s host off with
  | some (a, w, r) => if w && decide (r.pair = 0) then writeReg s a r v collide else s
  | none => s

/-- REGISTER_WRITE (R6, R11, R12, R14, R184): a write to a register that is no half of a pair. `collide` are the W1C bits the data path sets in
this cycle. -/
def execRegisterWrite (host off : Nat) (v collide : Word) (s : State) : Res :=
  .next (mefWritten s host fun s => plainWrite s host off v collide)

/-- PAIR_LO_WRITE (R10, R184): kept in the requester's write holding, the register unchanged. -/
def execPairLoWrite (host req off : Nat) (v : Word) (s : State) : Res :=
  .next (mefWritten s host fun s => match barRow s host off with
    | some (a, w, r) =>
      if w && decide (r.pair = 1) then
        { s with access := { s.access with hold := s.access.hold.set (host * 65536 + req) (some (a, v)) } }
      else s
    | none => s)

/-- A whole 64-bit value written to the pair at `a` (R10). -/
def writePair (s : State) (host req a : Nat) (lo hi : Word) : State :=
  if isRelease a then releaseGo s host req (lo.toNat + hi.toNat * 2 ^ 32)
  else match rowOf a, rowOf (a + 4) with
    | some r, some q => writeReg (writeReg s a r lo 0) (a + 4) q hi 0
    | _, _ => s

/-- PAIR_HI_WRITE (R10, R184): combined with the holding of the same pair, or with the current _LO, the value is applied and the holding
released. -/
def execPairHiWrite (host req off : Nat) (v : Word) (s : State) : Res :=
  .next (mefWritten s host fun s => match barRow s host off with
    | some (a, w, r) =>
      if w && decide (r.pair = 2) then
        let lo := heldHalf s host req (a - 4) (rd s (a - 4))
        writePair (dropHold s host req) host req (a - 4) lo v
      else s
    | none => s)

/-- PAIR_WIDE_ACCESS (R7, R9, R10, R184): an 8-byte aligned access to a pair reads or writes both halves in one step; no latch or holding
changes. DESIGN CHOICE (log entry 88): an 8-byte access to two words that are no pair is an access to each word, and a write of it leaves
a half of a pair as it was. -/
def execPairWideAccess (host req off : Nat) (w : Option DWord) (s : State) : Res :=
  let pair := match barRow s host off with
    | some (a, ok, r) => if r.pair = 1 && off % 8 = 0 then some (a, ok) else none
    | none => none
  match pair, w with
  | some (a, _), none => .next (mefAnswered s host req fun s => if isFence a then fenceAt s host req a true else wideRead s host req off)
  | some (a, ok), some v => .next (mefWritten s host fun s => if ok then writePair s host req a (lo32 v.toNat) (hi32 v.toNat) else s)
  | none, none => .next (mefAnswered s host req fun s => wideRead s host req off)
  | none, some v =>
    .next (mefWritten s host fun s => plainWrite (plainWrite s host off (lo32 v.toNat) 0) host (off + 4) (hi32 v.toNat) 0)

/-- BAR0_MALFORMED_ACCESS (R7, R184): not aligned to 4 bytes, or not 4 or 8 bytes long: Completer Abort, counted, and a C fault in the zone of
the host's upstream port (R514). The row carries no tag: its completion is shown with tag 0 (DESIGN CHOICE, log entry 89). -/
def execBar0MalformedAccess (host req off len : Nat) (s : State) : Res :=
  if off % 4 = 0 && (len = 4 || len = 8) then .next s
  else .next (mefAnswered s host req fun s =>
    faultP (bump (emit s (.cpl (upPort s host) req 0 4 false [])) Reg.MGMT_BAD_ACCESS) 17 0x01 1 (upPort s host) off)

end Sys2Proof.Machine
end

