-- ==== Sys2Proof/Machine/Dispatch.lean ====
section
/-! DEFINITION. One arm for each command: a call of its meaning. -/

namespace Sys2Proof.Machine

open Sys2Proof

/-- The effect of a command on everything but the queue. -/
def exec (i : Instr) (s : State) : Host.Outcome State Fault Refusal :=
  match i with
  | .bar0MalformedAccess host req off len => Sys2Proof.Machine.execBar0MalformedAccess host req off len s
  | .pairLoRead host req off => Sys2Proof.Machine.execPairLoRead host req off s
  | .pairHiRead host req off => Sys2Proof.Machine.execPairHiRead host req off s
  | .pairLoWrite host req off v => Sys2Proof.Machine.execPairLoWrite host req off v s
  | .pairHiWrite host req off v => Sys2Proof.Machine.execPairHiWrite host req off v s
  | .pairWideAccess host req off wr => Sys2Proof.Machine.execPairWideAccess host req off wr s
  | .rcFieldRead host req off wide => Sys2Proof.Machine.execRcFieldRead host req off wide s
  | .registerWrite host off v collide => Sys2Proof.Machine.execRegisterWrite host off v collide s
  | .internalLinkSilent => Sys2Proof.Machine.execInternalLinkSilent s
  | .rootstockActionRequest act => Sys2Proof.Machine.execRootstockActionRequest act s
  | .vauxRise => Sys2Proof.Machine.execVauxRise s
  | .vauxFall => Sys2Proof.Machine.execVauxFall s
  | .sysRstAssert lowNs selfRefresh => Sys2Proof.Machine.execSysRstAssert lowNs selfRefresh s
  | .retentionWindowExpiry => Sys2Proof.Machine.execRetentionWindowExpiry s
  | .warmReset q => Sys2Proof.Machine.execWarmReset q s
  | .warmQuiesceDone selfRefresh => Sys2Proof.Machine.execWarmQuiesceDone selfRefresh s
  | .watchdogExpiry selfRefresh => Sys2Proof.Machine.execWatchdogExpiry selfRefresh s
  | .watchdogKick => Sys2Proof.Machine.execWatchdogKick s
  | .warmStartDeadline => Sys2Proof.Machine.execWarmStartDeadline s
  | .startStepReady r rd => Sys2Proof.Machine.execStartStepReady r rd s
  | .regulatorRetryWaitExpiry => Sys2Proof.Machine.execRegulatorRetryWaitExpiry s
  | .seedBurstDone flashAddr => Sys2Proof.Machine.execSeedBurstDone flashAddr s
  | .seedBurstTimeout flashAddr => Sys2Proof.Machine.execSeedBurstTimeout flashAddr s
  | .flushTargetWaitExpiry t => Sys2Proof.Machine.execFlushTargetWaitExpiry t s
  | .recordConsume q => Sys2Proof.Machine.execRecordConsume q s
  | .targetAck q t => Sys2Proof.Machine.execTargetAck q t s
  | .snapshotTake => Sys2Proof.Machine.execSnapshotTake s
  | .snapshotComplete => Sys2Proof.Machine.execSnapshotComplete s
  | .viewAgeSnapshot => Sys2Proof.Machine.execViewAgeSnapshot s
  | .seedBegin q copy => Sys2Proof.Machine.execSeedBegin q copy s
  | .seedEraseDone ok => Sys2Proof.Machine.execSeedEraseDone ok s
  | .seedWrite q off data => Sys2Proof.Machine.execSeedWrite q off data s
  | .seedEnd q => Sys2Proof.Machine.execSeedEnd q s
  | .seedProgramDone ok => Sys2Proof.Machine.execSeedProgramDone ok s
  | .pgRefEdgeLoss k => Sys2Proof.Machine.execPgRefEdgeLoss k s
  | .pgRefWindow k offset spread => Sys2Proof.Machine.execPgRefWindow k offset spread s
  | .pgRefRestored k => Sys2Proof.Machine.execPgRefRestored k s
  | .alnTransmit p => Sys2Proof.Machine.execAlnTransmit p s
  | .alnReceive p g inFrame drift at_ => Sys2Proof.Machine.execAlnReceive p g inFrame drift at_ s
  | .elasticBufferSlip lane => Sys2Proof.Machine.execElasticBufferSlip lane s
  | .laneTestStart lane v => Sys2Proof.Machine.execLaneTestStart lane v s
  | .laneTestStop lane v => Sys2Proof.Machine.execLaneTestStop lane v s
  | .prbsCheckerLock lane bits => Sys2Proof.Machine.execPrbsCheckerLock lane bits s
  | .prbsLockLoss lane bits => Sys2Proof.Machine.execPrbsLockLoss lane bits s
  | .injectShot lane => Sys2Proof.Machine.execInjectShot lane s
  | .injectRateTick lane => Sys2Proof.Machine.execInjectRateTick lane s
  | .marginStart lane v => Sys2Proof.Machine.execMarginStart lane v s
  | .marginDone lane errs blocks => Sys2Proof.Machine.execMarginDone lane errs blocks s
  | .linkMarginCommand lane c eyes => Sys2Proof.Machine.execLinkMarginCommand lane c eyes s
  | .dataFrameReceive p g => Sys2Proof.Machine.execDataFrameReceive p g s
  | .lcfReceive p g => Sys2Proof.Machine.execLcfReceive p g s
  | .lcfAckDelayExpiry p => Sys2Proof.Machine.execLcfAckDelayExpiry p s
  | .lcfPeriodExpiry p => Sys2Proof.Machine.execLcfPeriodExpiry p s
  | .nakRepeatExpiry p => Sys2Proof.Machine.execNakRepeatExpiry p s
  | .replayTimerExpiry p => Sys2Proof.Machine.execReplayTimerExpiry p s
  | .dataFrameTransmit p => Sys2Proof.Machine.execDataFrameTransmit p s
  | .laneLockLossTimeout lane => Sys2Proof.Machine.execLaneLockLossTimeout lane s
  | .downIdleExpiry p => Sys2Proof.Machine.execDownIdleExpiry p s
  | .sequenceHoldExpiry p session => Sys2Proof.Machine.execSequenceHoldExpiry p session s
  | .signalPresent p => Sys2Proof.Machine.execSignalPresent p s
  | .trainingStepDone p lanesUp inverted skew => Sys2Proof.Machine.execTrainingStepDone p lanesUp inverted skew s
  | .trainingStepTimeout p skew => Sys2Proof.Machine.execTrainingStepTimeout p skew s
  | .trainingRetryExpiry p => Sys2Proof.Machine.execTrainingRetryExpiry p s
  | .laneSetReceive p g => Sys2Proof.Machine.execLaneSetReceive p g s
  | .peerSwReceive p g => Sys2Proof.Machine.execPeerSwReceive p g s
  | .peerPortReceive p g => Sys2Proof.Machine.execPeerPortReceive p g s
  | .sessionReceive p g => Sys2Proof.Machine.execSessionReceive p g s
  | .presetReqReceive p g => Sys2Proof.Machine.execPresetReqReceive p g s
  | .presetAckReceive p g => Sys2Proof.Machine.execPresetAckReceive p g s
  | .presetAdaptExpiry p eye => Sys2Proof.Machine.execPresetAdaptExpiry p eye s
  | .readyReceive p g newSession => Sys2Proof.Machine.execReadyReceive p g newSession s
  | .nzlResetGo p v => Sys2Proof.Machine.execNzlResetGo p v s
  | .bringupResetBegin p => Sys2Proof.Machine.execBringupResetBegin p s
  | .lrsReceive p g => Sys2Proof.Machine.execLrsReceive p g s
  | .lrsAckTimeout p => Sys2Proof.Machine.execLrsAckTimeout p s
  | .sleepReqReceive p g => Sys2Proof.Machine.execSleepReqReceive p g s
  | .sleepAckReceive p g => Sys2Proof.Machine.execSleepAckReceive p g s
  | .sleepNakReceive p g => Sys2Proof.Machine.execSleepNakReceive p g s
  | .wakeReceive p => Sys2Proof.Machine.execWakeReceive p s
  | .wakeSendEnd p => Sys2Proof.Machine.execWakeSendEnd p s
  | .configRequest p c => Sys2Proof.Machine.execConfigRequest p c s
  | .mefMemoryRequest host posted bar off prot reqId tag v => Sys2Proof.Machine.execMefMemoryRequest host posted bar off prot reqId tag v s
  | .msixSend host v => Sys2Proof.Machine.execMsixSend host v s
  | .pmeSignal host => Sys2Proof.Machine.execPmeSignal host s
  | .pmeTurnOff host => Sys2Proof.Machine.execPmeTurnOff host s
  | .d3hotToD0 host => Sys2Proof.Machine.execD3hotToD0 host s
  | .bmeClear host => Sys2Proof.Machine.execBmeClear host s
  | .bmeSet host => Sys2Proof.Machine.execBmeSet host s
  | .mefCompletionReceive host tag ok poison data => Sys2Proof.Machine.execMefCompletionReceive host tag ok poison data s
  | .mefCompletionTimeout host tag => Sys2Proof.Machine.execMefCompletionTimeout host tag s
  | .functionLevelReset host => Sys2Proof.Machine.execFunctionLevelReset host s
  | .flrDrainExpiry host => Sys2Proof.Machine.execFlrDrainExpiry host s
  | .upstreamLinkDown host => Sys2Proof.Machine.execUpstreamLinkDown host s
  | .hotReset host => Sys2Proof.Machine.execHotReset host s
  | .vdspRetrainLink host j => Sys2Proof.Machine.execVdspRetrainLink host j s
  | .vdspLinkDisable host j => Sys2Proof.Machine.execVdspLinkDisable host j s
  | .pcieLinkRetrain p v => Sys2Proof.Machine.execPcieLinkRetrain p v s
  | .dpcTrigger p c => Sys2Proof.Machine.execDpcTrigger p c s
  | .dpcRelease p => Sys2Proof.Machine.execDpcRelease p s
  | .powerControllerOff host j => Sys2Proof.Machine.execPowerControllerOff host j s
  | .powerControllerOn host j => Sys2Proof.Machine.execPowerControllerOn host j s
  | .tlpReceive p t => Sys2Proof.Machine.execTlpReceive p t s
  | .frameHeaderKnown p h checksAgree fc parity => Sys2Proof.Machine.execFrameHeaderKnown p h checksAgree fc parity s
  | .ingressVerdict p good flip addrFlip wordIdx parity late => Sys2Proof.Machine.execIngressVerdict p good flip addrFlip wordIdx parity late s
  | .egressFrameBoundary p flip addrFlip wordIdx parity fc => Sys2Proof.Machine.execEgressFrameBoundary p flip addrFlip wordIdx parity fc s
  | .nonpostedIssue p reqId tag srcSw srcPort => Sys2Proof.Machine.execNonpostedIssue p reqId tag srcSw srcPort s
  | .deviceCompletionReceive p c => Sys2Proof.Machine.execDeviceCompletionReceive p c s
  | .linkStateReceive p origin start seq adj => Sys2Proof.Machine.execLinkStateReceive p origin start seq adj s
  | .discoveryQuietExpiry => Sys2Proof.Machine.execDiscoveryQuietExpiry s
  | .discoveryPartialExpiry => Sys2Proof.Machine.execDiscoveryPartialExpiry s
  | .adjacencyDownExpiry p => Sys2Proof.Machine.execAdjacencyDownExpiry p s
  | .meterTokenTick => Sys2Proof.Machine.execMeterTokenTick s
  | .shaperRefill => Sys2Proof.Machine.execShaperRefill s
  | .shaper q p t rate size fill => Sys2Proof.Machine.execShaper q p t rate size fill s
  | .bankVoltageSample a b validA validB => Sys2Proof.Machine.execBankVoltageSample a b validA validB s
  | .ledgerSample => Sys2Proof.Machine.execLedgerSample s
  | .admitReceive region originHost openB held deficit block allow => Sys2Proof.Machine.execAdmitReceive region originHost openB held deficit block allow s
  | .admitHoldoffExpiry region => Sys2Proof.Machine.execAdmitHoldoffExpiry region s
  | .admitRepeatExpiry => Sys2Proof.Machine.execAdmitRepeatExpiry s
  | .protectedWriteIngress p host reqId off len beOk release data poison tc => Sys2Proof.Machine.execProtectedWriteIngress p host reqId off len beOk release data poison tc s
  | .vc1InputArrive p flip addrFlip wordIdx parity => Sys2Proof.Machine.execVc1InputArrive p flip addrFlip wordIdx parity s
  | .writeLanded => Sys2Proof.Machine.execWriteLanded s
  | .epochTimerExpiry => Sys2Proof.Machine.execEpochTimerExpiry s
  | .markerReceive p e catchup => Sys2Proof.Machine.execMarkerReceive p e catchup s
  | .markerSend p => Sys2Proof.Machine.execMarkerSend p s
  | .lossReceive e reqId srcPort kind home n => Sys2Proof.Machine.execLossReceive e reqId srcPort kind home n s
  | .reportReceive child e sent landed lost bitmap maxSe term update => Sys2Proof.Machine.execReportReceive child e sent landed lost bitmap maxSe term update s
  | .unattrWaitExpiry e => Sys2Proof.Machine.execUnattrWaitExpiry e s
  | .clusterSealPeriodExpiry => Sys2Proof.Machine.execClusterSealPeriodExpiry s
  | .clusterSealReceive e set term unattr leader => Sys2Proof.Machine.execClusterSealReceive e set term unattr leader s
  | .failoverTimeout => Sys2Proof.Machine.execFailoverTimeout s
  | .claimReceive sw se term => Sys2Proof.Machine.execClaimReceive sw se term s
  | .memberRemovalExpiry m => Sys2Proof.Machine.execMemberRemovalExpiry m s
  | .rejoinReceive sw se eOpen kept => Sys2Proof.Machine.execRejoinReceive sw se eOpen kept s
  | .includeReceive eJoin set term clusterSe => Sys2Proof.Machine.execIncludeReceive eJoin set term clusterSe s
  | .regionLostReceive se region host => Sys2Proof.Machine.execRegionLostReceive se region host s
  | .durabilityFence host reqId wide => Sys2Proof.Machine.execDurabilityFence host reqId wide s
  | .fenceTimeout host => Sys2Proof.Machine.execFenceTimeout host s
  | .connFenceRead host reqId idx wide => Sys2Proof.Machine.execConnFenceRead host reqId idx wide s
  | .bar2Read host reqId tag off len => Sys2Proof.Machine.execBar2Read host reqId tag off len s
  | .bar2ReadAbort host => Sys2Proof.Machine.execBar2ReadAbort host s
  | .landRelease host req hi => Sys2Proof.Machine.execLandRelease host req hi s
  | .patrolRead w flip addrFlip => Sys2Proof.Machine.execPatrolRead w flip addrFlip s
  | .landDiagGo v flip => Sys2Proof.Machine.execLandDiagGo v flip s
  | .dramChannelFail c => Sys2Proof.Machine.execDramChannelFail c s
  | .inputDip mv => Sys2Proof.Machine.execInputDip mv s
  | .braceQualified => Sys2Proof.Machine.execBraceQualified s
  | .braceReceive sender fromLeader id term own se => Sys2Proof.Machine.execBraceReceive sender fromLeader id term own se s
  | .pendDrained => Sys2Proof.Machine.execPendDrained s
  | .highReceive child h id term bitmap => Sys2Proof.Machine.execHighReceive child h id term bitmap s
  | .cutDeadlineExpiry => Sys2Proof.Machine.execCutDeadlineExpiry s
  | .localCutExpiry => Sys2Proof.Machine.execLocalCutExpiry s
  | .cutReceive c id term partial_ leader bitmap => Sys2Proof.Machine.execCutReceive c id term partial_ leader bitmap s
  | .inputRise mv => Sys2Proof.Machine.execInputRise mv s
  | .standDownQualified => Sys2Proof.Machine.execStandDownQualified s
  | .recoveredReceive sender id => Sys2Proof.Machine.execRecoveredReceive sender id s
  | .standDownReceive c id term => Sys2Proof.Machine.execStandDownReceive c id term s
  | .switchoverLevel => Sys2Proof.Machine.execSwitchoverLevel s
  | .braceLimitExpiry => Sys2Proof.Machine.execBraceLimitExpiry s
  | .commitReceive c id term sender cause => Sys2Proof.Machine.execCommitReceive c id term sender cause s
  | .flushCommandComplete t idx ok => Sys2Proof.Machine.execFlushCommandComplete t idx ok s
  | .flushTargetStall t => Sys2Proof.Machine.execFlushTargetStall t s
  | .inputGoodHoldExpiry => Sys2Proof.Machine.execInputGoodHoldExpiry s
  | .bankAtVmin => Sys2Proof.Machine.execBankAtVmin s
  | .flushTargetLinkDown t => Sys2Proof.Machine.execFlushTargetLinkDown t s
  | .pfailReadGo v => Sys2Proof.Machine.execPfailReadGo v s
  | .pfailReadDone ok data => Sys2Proof.Machine.execPfailReadDone ok data s
  | .imageCopy q t lba cnt addr pasid => Sys2Proof.Machine.execImageCopy q t lba cnt addr pasid s
  | .prsntAssert c => Sys2Proof.Machine.execPrsntAssert c s
  | .prsntDeassert c => Sys2Proof.Machine.execPrsntDeassert c s
  | .seatingComplete c => Sys2Proof.Machine.execSeatingComplete c s
  | .preTurnOnCheckDone c => Sys2Proof.Machine.execPreTurnOnCheckDone c s
  | .preTurnOnCheckTimeout c => Sys2Proof.Machine.execPreTurnOnCheckTimeout c s
  | .gateThresholdExpiry c => Sys2Proof.Machine.execGateThresholdExpiry c s
  | .outputReachesPgLevel c => Sys2Proof.Machine.execOutputReachesPgLevel c s
  | .pgWindowComplete c => Sys2Proof.Machine.execPgWindowComplete c s
  | .noRampExpiry c => Sys2Proof.Machine.execNoRampExpiry c s
  | .perstReleaseExpiry c => Sys2Proof.Machine.execPerstReleaseExpiry c s
  | .limitEntry c => Sys2Proof.Machine.execLimitEntry c s
  | .limitExit c countedUs => Sys2Proof.Machine.execLimitExit c countedUs s
  | .outOfLimitReset c => Sys2Proof.Machine.execOutOfLimitReset c s
  | .faultTimerExpiry c => Sys2Proof.Machine.execFaultTimerExpiry c s
  | .fastComparatorTrip c => Sys2Proof.Machine.execFastComparatorTrip c s
  | .monitorAdcReading c ma vout => Sys2Proof.Machine.execMonitorAdcReading c ma vout s
  | .cooldownExpiry c => Sys2Proof.Machine.execCooldownExpiry c s
  | .attentionButtonPress c => Sys2Proof.Machine.execAttentionButtonPress c s
  | .prsntAbsentExpiry c => Sys2Proof.Machine.execPrsntAbsentExpiry c s
  | .gateRemovalExpiry c => Sys2Proof.Machine.execGateRemovalExpiry c s
  | .offStateDrainExpiry c below => Sys2Proof.Machine.execOffStateDrainExpiry c below s
  | .offStateOutputHigh c => Sys2Proof.Machine.execOffStateOutputHigh c s
  | .slotPower q c on => Sys2Proof.Machine.execSlotPower q c on s
  | .cellReading mv => Sys2Proof.Machine.execCellReading mv s
  | .ntcReading a b => Sys2Proof.Machine.execNtcReading a b s
  | .chargerCurrentLow => Sys2Proof.Machine.execChargerCurrentLow s
  | .cellOvervoltageTrip idx => Sys2Proof.Machine.execCellOvervoltageTrip idx s
  | .bankOvervoltageTrip => Sys2Proof.Machine.execBankOvervoltageTrip s
  | .bankRiseChargerOff => Sys2Proof.Machine.execBankRiseChargerOff s
  | .reverseCurrentTrip => Sys2Proof.Machine.execReverseCurrentTrip s
  | .dischargeOvercurrentTrip => Sys2Proof.Machine.execDischargeOvercurrentTrip s
  | .protectionAutoClear code => Sys2Proof.Machine.execProtectionAutoClear code s
  | .bankClear q => Sys2Proof.Machine.execBankClear q s
  | .rcClockFault dev => Sys2Proof.Machine.execRcClockFault dev s
  | .xtalLoss => Sys2Proof.Machine.execXtalLoss s
  | .sqTailWrite host sq v => Sys2Proof.Machine.execSqTailWrite host sq v s
  | .cqHeadWrite host cq v => Sys2Proof.Machine.execCqHeadWrite host cq v s
  | .cqArmWrite host cq v => Sys2Proof.Machine.execCqArmWrite host cq v s
  | .wqeFetchDone host sq w => Sys2Proof.Machine.execWqeFetchDone host sq w s
  | .cqeWrite host cq => Sys2Proof.Machine.execCqeWrite host cq s
  | .rmePacketSend eng conn => Sys2Proof.Machine.execRmePacketSend eng conn s
  | .rmeWriteReceive eng k => Sys2Proof.Machine.execRmeWriteReceive eng k s
  | .readReqReceive eng k => Sys2Proof.Machine.execReadReqReceive eng k s
  | .readRespReceive eng k => Sys2Proof.Machine.execReadRespReceive eng k s
  | .ctrlReceive eng k => Sys2Proof.Machine.execCtrlReceive eng k s
  | .rmeAckReceive conn cum status errPsn marked covered bitmap srcSw poison => Sys2Proof.Machine.execRmeAckReceive conn cum status errPsn marked covered bitmap srcSw poison s
  | .nakListReceive conn cum status psns poison => Sys2Proof.Machine.execNakListReceive conn cum status psns poison s
  | .landedReceive conn status entries poison => Sys2Proof.Machine.execLandedReceive conn status entries poison s
  | .clAckReceive eng srcSw msgId received status result poison => Sys2Proof.Machine.execClAckReceive eng srcSw msgId received status result poison s
  | .rmeAckDelayExpiry conn => Sys2Proof.Machine.execRmeAckDelayExpiry conn s
  | .nakListExpiry conn psn => Sys2Proof.Machine.execNakListExpiry conn psn s
  | .rtoExpiry conn => Sys2Proof.Machine.execRtoExpiry conn s
  | .rateIncreaseExpiry conn => Sys2Proof.Machine.execRateIncreaseExpiry conn s
  | .landedReportExpiry srcSw conn => Sys2Proof.Machine.execLandedReportExpiry srcSw conn s
  | .clResendExpiry eng msgId => Sys2Proof.Machine.execClResendExpiry eng msgId s
  | .clAckDelayExpiry eng key => Sys2Proof.Machine.execClAckDelayExpiry eng key s
  | .clEntryExpiry eng key => Sys2Proof.Machine.execClEntryExpiry eng key s
  | .contextFillDone conn slot readOk ep => Sys2Proof.Machine.execContextFillDone conn slot readOk ep s
  | .contextSpillDone conn => Sys2Proof.Machine.execContextSpillDone conn s
  | .compostAdd q pos base log2 pasid => Sys2Proof.Machine.execCompostAdd q pos base log2 pasid s
  | .compostRemove q pos => Sys2Proof.Machine.execCompostRemove q pos s
  | .sqCreate q base log2 cq tc pasid => Sys2Proof.Machine.execSqCreate q base log2 cq tc pasid s
  | .cqCreate q base log2 vec pasid => Sys2Proof.Machine.execCqCreate q base log2 vec pasid s
  | .queueDestroy q isCq n => Sys2Proof.Machine.execQueueDestroy q isCq n s
  | .connCreate q prot => Sys2Proof.Machine.execConnCreate q prot s
  | .connConnect q conn peerSw peerConn => Sys2Proof.Machine.execConnConnect q conn peerSw peerConn s
  | .connClose q conn => Sys2Proof.Machine.execConnClose q conn s
  | .regRegion q landing base len pasid perm peers peerSw => Sys2Proof.Machine.execRegRegion q landing base len pasid perm peers peerSw s
  | .revokeRegion q key => Sys2Proof.Machine.execRevokeRegion q key s
  | .regionOutstandingZero idx => Sys2Proof.Machine.execRegionOutstandingZero idx s
  | .regionQueryExpiry key => Sys2Proof.Machine.execRegionQueryExpiry key s
  | .connCloseExpiry host => Sys2Proof.Machine.execConnCloseExpiry host s
  | .hedgeRule q unit es => Sys2Proof.Machine.execHedgeRule q unit es s
  | .hedgeInflightDrained unit => Sys2Proof.Machine.execHedgeInflightDrained unit s
  | .hedgeHoldExpiry unit => Sys2Proof.Machine.execHedgeHoldExpiry unit s
  | .hedgeRetryExpiry unit => Sys2Proof.Machine.execHedgeRetryExpiry unit s
  | .pwSet q w valid srcBase srcLimit tgtBase target => Sys2Proof.Machine.execPwSet q w valid srcBase srcLimit tgtBase target s
  | .pwCommit q => Sys2Proof.Machine.execPwCommit q s
  | .bridgeRequest r => Sys2Proof.Machine.execBridgeRequest r s
  | .bridgeFrameReceive srcSw r => Sys2Proof.Machine.execBridgeFrameReceive srcSw r s
  | .bridgeFarIssue p => Sys2Proof.Machine.execBridgeFarIssue p s
  | .bridgeResponseReceive r => Sys2Proof.Machine.execBridgeResponseReceive r s
  | .bridgeTimeout btag => Sys2Proof.Machine.execBridgeTimeout btag s
  | .bridgeBusyRetryExpiry btag => Sys2Proof.Machine.execBridgeBusyRetryExpiry btag s
  | .bridgeResponseStall btag => Sys2Proof.Machine.execBridgeResponseStall btag s
  | .legacyMrdlk r => Sys2Proof.Machine.execLegacyMrdlk r s
  | .memRdLkReceive srcSw r => Sys2Proof.Machine.execMemRdLkReceive srcSw r s
  | .legacyUnlock => Sys2Proof.Machine.execLegacyUnlock s
  | .unlockReceive srcSw r => Sys2Proof.Machine.execUnlockReceive srcSw r s
  | .lockBackoffExpiry => Sys2Proof.Machine.execLockBackoffExpiry s
  | .lockIdleExpiry => Sys2Proof.Machine.execLockIdleExpiry s
  | .scionCreate q dev vdsp dbCount vecCount queues cells rate size evVec => Sys2Proof.Machine.execScionCreate q dev vdsp dbCount vecCount queues cells rate size evVec s
  | .scionReset q sc => Sys2Proof.Machine.execScionReset q sc s
  | .scionRemove q sc => Sys2Proof.Machine.execScionRemove q sc s
  | .scionShape q sc rate size fill => Sys2Proof.Machine.execScionShape q sc rate size fill s
  | .dirtyStart q sc base log2 bufA bufB pasid => Sys2Proof.Machine.execDirtyStart q sc base log2 bufA bufB pasid s
  | .dirtyStop q sc => Sys2Proof.Machine.execDirtyStop q sc s
  | .dirtySync q sc => Sys2Proof.Machine.execDirtySync q sc s
  | .dirtyWordFill sc wordIdx data => Sys2Proof.Machine.execDirtyWordFill sc wordIdx data s
  | .scionQuiesced sc => Sys2Proof.Machine.execScionQuiesced sc s
  | .scionQuiesceTimeout sc => Sys2Proof.Machine.execScionQuiesceTimeout sc s
  | .scionTagHoldExpiry sc tag => Sys2Proof.Machine.execScionTagHoldExpiry sc tag s
  | .scionHostRequest sc off t => Sys2Proof.Machine.execScionHostRequest sc off t s
  | .scionDeviceRequest p t => Sys2Proof.Machine.execScionDeviceRequest p t s
  | .scionDeviceMsix p v => Sys2Proof.Machine.execScionDeviceMsix p v s
  | .scionQueueWaitExpiry sc => Sys2Proof.Machine.execScionQueueWaitExpiry sc s
  | .sharedPortTrigger p => Sys2Proof.Machine.execSharedPortTrigger p s
  | .sharedPortRetrainExpiry p ok => Sys2Proof.Machine.execSharedPortRetrainExpiry p ok s
  | .p1IdleExpiry => Sys2Proof.Machine.execP1IdleExpiry s
  | .p1Exit => Sys2Proof.Machine.execP1Exit s
  | .pwrCtrlGoP2 p1En => Sys2Proof.Machine.execPwrCtrlGoP2 p1En s
  | .pwrCtrlGoP3 p1En selfRefresh => Sys2Proof.Machine.execPwrCtrlGoP3 p1En selfRefresh s
  | .pwrCtrlGoP4 p1En => Sys2Proof.Machine.execPwrCtrlGoP4 p1En s
  | .powerState q target selfRefresh => Sys2Proof.Machine.execPowerState q target selfRefresh s
  | .stateEntryComplete waiting => Sys2Proof.Machine.execStateEntryComplete waiting s
  | .wakeEvent code n lastCycles => Sys2Proof.Machine.execWakeEvent code n lastCycles s
  | .avsEvaluationExpiry osc => Sys2Proof.Machine.execAvsEvaluationExpiry osc s
  | .avsStepExpiry => Sys2Proof.Machine.execAvsStepExpiry s
  | .pmbusChangeAck rail mv status => Sys2Proof.Machine.execPmbusChangeAck rail mv status s
  | .pmbusAckTimeout rail => Sys2Proof.Machine.execPmbusAckTimeout rail s
  | .clockCheckTick xtalOk => Sys2Proof.Machine.execClockCheckTick xtalOk s
  | .pllLockLoss n => Sys2Proof.Machine.execPllLockLoss n s
  | .thermalReading degs => Sys2Proof.Machine.execThermalReading degs s
  | .thermalBraceExpiry => Sys2Proof.Machine.execThermalBraceExpiry s
  | .thermalCoolExpiry => Sys2Proof.Machine.execThermalCoolExpiry s
  | .faultArrival f => Sys2Proof.Machine.execFaultArrival f s
  | .errNPulseEnd => Sys2Proof.Machine.execErrNPulseEnd s
  | .errNClear => Sys2Proof.Machine.execErrNClear s
  | .faultRecordClear unit => Sys2Proof.Machine.execFaultRecordClear unit s
  | .counterOvfClear g j wraps => Sys2Proof.Machine.execCounterOvfClear g j wraps s
  | .xoffReceive => Sys2Proof.Machine.execXoffReceive s
  | .xonReceive => Sys2Proof.Machine.execXonReceive s
  | .harvestFlowLostExpiry => Sys2Proof.Machine.execHarvestFlowLostExpiry s
  | .harvestRecordEnd => Sys2Proof.Machine.execHarvestRecordEnd s
  | .harvestDropExpiry => Sys2Proof.Machine.execHarvestDropExpiry s
  | .harvestSnapshotExpiry => Sys2Proof.Machine.execHarvestSnapshotExpiry s
  | .mbRing host slot => Sys2Proof.Machine.execMbRing host slot s
  | .mbAck host slot => Sys2Proof.Machine.execMbAck host slot s
  | .mctpRequest slot words => Sys2Proof.Machine.execMctpRequest slot words s
  | .getStatus q => Sys2Proof.Machine.execGetStatus q s
  | .view q kind first => Sys2Proof.Machine.execView q kind first s
  | .provision q h0 h1 secret => Sys2Proof.Machine.execProvision q h0 h1 secret s
  | .counterRead q g => Sys2Proof.Machine.execCounterRead q g s
  | .counterMap q g => Sys2Proof.Machine.execCounterMap q g s
  | .counterUnmap q g => Sys2Proof.Machine.execCounterUnmap q g s
  | .attest q nonce => Sys2Proof.Machine.execAttest q nonce s
  | .attestLeafConfirm => Sys2Proof.Machine.execAttestLeafConfirm s
  | .attestLeafTimeout => Sys2Proof.Machine.execAttestLeafTimeout s
  | .pcieDlUp p rate width flit lanes low => Sys2Proof.Machine.execPcieDlUp p rate width flit lanes low s
  | .pcieL1Entry p sub => Sys2Proof.Machine.execPcieL1Entry p sub s
  | .p2L1WaitExpiry p => Sys2Proof.Machine.execP2L1WaitExpiry p s
  | .rcClockRestored => Sys2Proof.Machine.execRcClockRestored s
  | .setEndpointId eid => Sys2Proof.Machine.execSetEndpointId eid s
  | .bringupMemberDownExpiry p => Sys2Proof.Machine.execBringupMemberDownExpiry p s
  | .upWakePulseExpiry host => Sys2Proof.Machine.execUpWakePulseExpiry host s

end Sys2Proof.Machine
end

