-- ==== Sys2Proof/Machine/Flags.lean ====
section
/-! DEFINITION. The flags that follow from the state of several units: full service (R94, R101, R102), and ERR_N after the switch die has
answered again (R518). -/

namespace Sys2Proof.Machine

open Sys2Proof

/-- Every Nozan port that is up has left the reduced mode of bring-up (R94, R166). -/
def nozanFull (s : State) : Bool :=
  s.seed.policy.nzPorts.all fun p => !(nzUp s p) || !(s.member.get p).bringup

/-- Every PCI Express port that is up runs at its seed's rate limit (R94). -/
def pcieFull (s : State) : Bool :=
  s.seed.policy.pciePorts.all fun p => !(dlUp s p) || decide (rdF s (Reg.PCIE_STATUS p) 6 4 = rdF s (Reg.PCIE_CFG p) 12 10)

/-- The bank stands at its top voltage, and the ledger admits every region's full size (R94). -/
def ledgerFull (s : State) : Bool :=
  rdB s Reg.ROOT_BANK_STATUS 1 && (samplePair s).any fun v => decide (sizeSum s ≤ ledgerAllow s v)

/-- FULL of GLB_START_STATUS, and the time it was reached, once every service is full (R94, R101, R102). -/
def noteFull (s : State) : State :=
  if inService s && !(rdB s Reg.GLB_START_STATUS 8) && nozanFull s && pcieFull s && ledgerFull s then
    wrN (wrB s Reg.GLB_START_STATUS 8 true) Reg.GLB_T_FULL (tstamp s / 16000)
  else s

/-- The rootstock die holds ERR_N for 4 µs after the switch die answered again (R518). -/
def errRelease (s : State) : State :=
  match s.root.errHold with
  | some t =>
    if !s.root.dieDead && decide (t + 6400 ≤ s.now) then
      let s := wrB { s with root := { s.root with errHold := none } } Reg.FLT_STATUS 4 false
      emit s (.pin .errN (errNHigh s))
    else s
  | none => s

end Sys2Proof.Machine
end

