-- ==== Sys2Proof/Machine/Tick.lean ====
section
/-! DEFINITION. One core cycle with no command waiting: what time alone brings about and no row of the table carries. -/

namespace Sys2Proof.Machine

open Sys2Proof

/-- One core cycle passes (R511): PME_TO_Ack at its limit (R188), the harvest port's sample and counter records (R241, R529), ERR_N (R518),
the power states (R490 to R499), requests of no known form that a brace put off (R540, R548), full service (R94). DESIGN CHOICE,
log entry 1. -/
def tick (s : State) : State :=
  noteFull (refuseForms (powerTick (errRelease (cntOut (sampleOut (pmeLate { s with now := s.now + 1 }))))))

end Sys2Proof.Machine
end

