-- ==== Sys2Proof/WellFormed.lean ====
section
/-! DEFINITION. Well-formed commands: every index an event carries names something the switch has. The values a host writes or asks
for are not restricted here: what the spec says of a value out of range is the command's effect. -/

namespace Sys2Proof

/-- What an operand of a command names. -/
inductive Use where
  /-- A host partition, 0-31 (R24, R65). -/
  | host (k : Nat)
  /-- A port, 0-79 (R24). -/
  | port (p : Nat)
  /-- A lane, 0-159 (R24). -/
  | lane (n : Nat)
  /-- A port group with its reference clock, 0-19 (R112). -/
  | group (k : Nat)
  /-- A slot channel of the rootstock die, 0-15 (R338). -/
  | channel (c : Nat)
  /-- A cell of the bank, 0-15 (R355). -/
  | cell (i : Nat)
  /-- A channel of the landing buffer, 0-3 (R272). -/
  | dram (c : Nat)
  /-- A flush target, 0-7 (R325). -/
  | target (t : Nat)
  /-- A landing region, 0-31 (R269). -/
  | region (r : Nat)
  /-- A member of the cluster, 0-63 (R278). -/
  | member (m : Nat)
  /-- A switch ID, 12 bits (R24). -/
  | switch (w : Nat)
  /-- A word index of the landing buffer, 26 bits (R272). -/
  | word (w : Nat)
  /-- A remote memory engine, 0-7 (R370). -/
  | engine (e : Nat)
  /-- A connection number, 20 bits (R370). -/
  | conn (n : Nat)
  /-- A connection of a host, its number without the host (R380). -/
  | hostConn (i : Nat)
  /-- A send or completion queue of a host, 0-1023 (R374). -/
  | queue (n : Nat)
  /-- An entry of the region table, 0-262143 (R402). -/
  | entry (i : Nat)
  /-- A hedge unit, 0-96 (R415). -/
  | hedge (u : Nat)
  /-- A tag of the near bridge, 10 bits (R445). -/
  | btag (b : Nat)
  /-- A scion, 0-2047 (R513). -/
  | scion (s : Nat)
  /-- A transaction tag, 10 bits (R178). -/
  | tag (t : Nat)
  /-- A regulator rail, 0-5 (R500). -/
  | rail (r : Nat)
  /-- A clock: SYS_XTAL or a PLL, 0-5 (R506). -/
  | clock (n : Nat)
  /-- A unit with a fault record, 0-18 (R514, R515). -/
  | record (u : Nat)
  /-- A counter group, 0-127 (R520). -/
  | group128 (g : Nat)
  /-- A counter of a group, 0-31 (R520). -/
  | counter (j : Nat)
  /-- A byte address of the seed flash within the two copies (R49). -/
  | flash (a : Nat)
  /-- A virtual downstream port of a host, 0-63 (R179). -/
  | vdsp (j : Nat)
  /-- An MSI-X vector of a MEF, 0-63 (R185). -/
  | vector (v : Nat)
  /-- A vector of a shareable device MSI-X table, 0-2047 (R463). -/
  | devVector (v : Nat)
  /-- A requester ID, 16 bits (R178). -/
  | requester (r : Nat)
  /-- A mailbox slot of a host, 0-3 (R535). -/
  | mailbox (m : Nat)
  /-- An MCTP message slot of the board management controller, 0-3 (R541). -/
  | mctp (m : Nat)
  /-- A sender of management requests: a host and its mailbox slot, or the board management controller as host 32 (R539). -/
  | src (q : ReqSrc)
  deriving DecidableEq, Repr

/-- The thing named exists. -/
def Use.ok : Use → Bool
  | .host k => decide (k < 32)
  | .port p => decide (p < 80)
  | .lane n => decide (n < 160)
  | .group k => decide (k < 20)
  | .channel c => decide (c < 16)
  | .cell i => decide (i < 16)
  | .dram c => decide (c < 4)
  | .target t => decide (t < 8)
  | .region r => decide (r < 32)
  | .member m => decide (m < 64)
  | .switch w => decide (w < 4096)
  | .word w => decide (w < 2 ^ 26)
  | .engine e => decide (e < 8)
  | .conn n => decide (n < 2 ^ 20)
  | .hostConn i => decide (i < 2 ^ 15)
  | .queue n => decide (n < 1024)
  | .entry i => decide (i < 2 ^ 18)
  | .hedge u => decide (u < 97)
  | .btag b => decide (b < 1024)
  | .scion s => decide (s < 2048)
  | .tag t => decide (t < 1024)
  | .rail r => decide (r < 6)
  | .clock n => decide (n < 6)
  | .record u => decide (u < 19)
  | .group128 g => decide (g < 128)
  | .counter j => decide (j < 32)
  | .flash a => decide (a < 2 ^ 25)
  | .vdsp j => decide (j < 64)
  | .vector v => decide (v < 64)
  | .devVector v => decide (v < 2048)
  | .requester r => decide (r < 65536)
  | .mailbox m => decide (m < 4)
  | .mctp m => decide (m < 4)
  | .src q => decide (q.host < 33) && decide (q.slot < 4)

/-- What the operands of a command name. -/
def Instr.uses : Instr → List Use
  | .bar0MalformedAccess host req _ _ => [.host host, .requester req]
  | .pairLoRead host req _ => [.host host, .requester req]
  | .pairHiRead host req _ => [.host host, .requester req]
  | .pairLoWrite host req _ _ => [.host host, .requester req]
  | .pairHiWrite host req _ _ => [.host host, .requester req]
  | .pairWideAccess host req _ _ => [.host host, .requester req]
  | .rcFieldRead host req _ _ => [.host host, .requester req]
  | .registerWrite host _ _ _ => [.host host]
  | .internalLinkSilent => []
  | .rootstockActionRequest _ => []
  | .vauxRise => []
  | .vauxFall => []
  | .sysRstAssert _ _ => []
  | .retentionWindowExpiry => []
  | .warmReset q => [.src q]
  | .warmQuiesceDone _ => []
  | .watchdogExpiry _ => []
  | .watchdogKick => []
  | .warmStartDeadline => []
  | .startStepReady _ _ => []
  | .regulatorRetryWaitExpiry => []
  | .seedBurstDone flashAddr => [.flash flashAddr]
  | .seedBurstTimeout flashAddr => [.flash flashAddr]
  | .flushTargetWaitExpiry t => [.target t]
  | .recordConsume q => [.src q]
  | .targetAck q _ => [.src q]
  | .snapshotTake => []
  | .snapshotComplete => []
  | .viewAgeSnapshot => []
  | .seedBegin q _ => [.src q]
  | .seedEraseDone _ => []
  | .seedWrite q _ _ => [.src q]
  | .seedEnd q => [.src q]
  | .seedProgramDone _ => []
  | .pgRefEdgeLoss k => [.group k]
  | .pgRefWindow k _ _ => [.group k]
  | .pgRefRestored k => [.group k]
  | .alnTransmit p => [.port p]
  | .alnReceive p _ _ _ _ => [.port p]
  | .elasticBufferSlip lane => [.lane lane]
  | .laneTestStart lane _ => [.lane lane]
  | .laneTestStop lane _ => [.lane lane]
  | .prbsCheckerLock lane _ => [.lane lane]
  | .prbsLockLoss lane _ => [.lane lane]
  | .injectShot lane => [.lane lane]
  | .injectRateTick lane => [.lane lane]
  | .marginStart lane _ => [.lane lane]
  | .marginDone lane _ _ => [.lane lane]
  | .linkMarginCommand lane _ _ => [.lane lane]
  | .dataFrameReceive p _ => [.port p]
  | .lcfReceive p _ => [.port p]
  | .lcfAckDelayExpiry p => [.port p]
  | .lcfPeriodExpiry p => [.port p]
  | .nakRepeatExpiry p => [.port p]
  | .replayTimerExpiry p => [.port p]
  | .dataFrameTransmit p => [.port p]
  | .laneLockLossTimeout lane => [.lane lane]
  | .downIdleExpiry p => [.port p]
  | .sequenceHoldExpiry p _ => [.port p]
  | .signalPresent p => [.port p]
  | .trainingStepDone p lanesUp inverted _ => [.port p] ++ lanesUp.map .lane ++ inverted.map .lane
  | .trainingStepTimeout p _ => [.port p]
  | .trainingRetryExpiry p => [.port p]
  | .laneSetReceive p _ => [.port p]
  | .peerSwReceive p _ => [.port p]
  | .peerPortReceive p _ => [.port p]
  | .sessionReceive p _ => [.port p]
  | .presetReqReceive p _ => [.port p]
  | .presetAckReceive p _ => [.port p]
  | .presetAdaptExpiry p _ => [.port p]
  | .readyReceive p _ _ => [.port p]
  | .nzlResetGo p _ => [.port p]
  | .bringupResetBegin p => [.port p]
  | .lrsReceive p _ => [.port p]
  | .lrsAckTimeout p => [.port p]
  | .sleepReqReceive p _ => [.port p]
  | .sleepAckReceive p _ => [.port p]
  | .sleepNakReceive p _ => [.port p]
  | .wakeReceive p => [.port p]
  | .wakeSendEnd p => [.port p]
  | .configRequest p _ => [.port p]
  | .mefMemoryRequest host _ _ _ _ _ _ _ => [.host host]
  | .msixSend host v => [.host host, .vector v]
  | .pmeSignal host => [.host host]
  | .pmeTurnOff host => [.host host]
  | .d3hotToD0 host => [.host host]
  | .bmeClear host => [.host host]
  | .bmeSet host => [.host host]
  | .mefCompletionReceive host tag _ _ _ => [.host host, .tag tag]
  | .mefCompletionTimeout host tag => [.host host, .tag tag]
  | .functionLevelReset host => [.host host]
  | .flrDrainExpiry host => [.host host]
  | .upstreamLinkDown host => [.host host]
  | .hotReset host => [.host host]
  | .vdspRetrainLink host j => [.host host, .vdsp j]
  | .vdspLinkDisable host j => [.host host, .vdsp j]
  | .pcieLinkRetrain p _ => [.port p]
  | .dpcTrigger p _ => [.port p]
  | .dpcRelease p => [.port p]
  | .powerControllerOff host j => [.host host, .vdsp j]
  | .powerControllerOn host j => [.host host, .vdsp j]
  | .tlpReceive p _ => [.port p]
  | .frameHeaderKnown p _ _ _ _ => [.port p]
  | .ingressVerdict p _ _ _ _ _ _ => [.port p]
  | .egressFrameBoundary p _ _ _ _ _ => [.port p]
  | .nonpostedIssue p _ _ _ _ => [.port p]
  | .deviceCompletionReceive p _ => [.port p]
  | .linkStateReceive p _ _ _ _ => [.port p]
  | .discoveryQuietExpiry => []
  | .discoveryPartialExpiry => []
  | .adjacencyDownExpiry p => [.port p]
  | .meterTokenTick => []
  | .shaperRefill => []
  | .shaper q _ _ _ _ _ => [.src q]
  | .bankVoltageSample _ _ _ _ => []
  | .ledgerSample => []
  | .admitReceive region originHost _ _ _ _ _ => [.region region, .host originHost]
  | .admitHoldoffExpiry region => [.region region]
  | .admitRepeatExpiry => []
  | .protectedWriteIngress p host _ _ _ _ _ _ _ _ => [.port p, .host host]
  | .vc1InputArrive p _ _ _ _ => [.port p]
  | .writeLanded => []
  | .epochTimerExpiry => []
  | .markerReceive p _ _ => [.port p]
  | .markerSend p => [.port p]
  | .lossReceive _ _ _ _ _ _ => []
  | .reportReceive child _ _ _ _ _ _ _ _ => [.switch child]
  | .unattrWaitExpiry _ => []
  | .clusterSealPeriodExpiry => []
  | .clusterSealReceive _ _ _ _ _ => []
  | .failoverTimeout => []
  | .claimReceive _ _ _ => []
  | .memberRemovalExpiry m => [.member m]
  | .rejoinReceive _ _ _ _ => []
  | .includeReceive _ _ _ _ => []
  | .regionLostReceive _ region host => [.region region, .host host]
  | .durabilityFence host _ _ => [.host host]
  | .fenceTimeout host => [.host host]
  | .connFenceRead host _ i _ => [.host host, .hostConn i]
  | .bar2Read host _ _ _ _ => [.host host]
  | .bar2ReadAbort host => [.host host]
  | .landRelease host req _ => [.host host, .requester req]
  | .patrolRead w _ _ => [.word w]
  | .landDiagGo _ _ => []
  | .dramChannelFail c => [.dram c]
  | .inputDip _ => []
  | .braceQualified => []
  | .braceReceive _ _ _ _ _ _ => []
  | .pendDrained => []
  | .highReceive child _ _ _ _ => [.switch child]
  | .cutDeadlineExpiry => []
  | .localCutExpiry => []
  | .cutReceive _ _ _ _ _ _ => []
  | .inputRise _ => []
  | .standDownQualified => []
  | .recoveredReceive _ _ => []
  | .standDownReceive _ _ _ => []
  | .switchoverLevel => []
  | .braceLimitExpiry => []
  | .commitReceive _ _ _ _ _ => []
  | .flushCommandComplete t _ _ => [.target t]
  | .flushTargetStall t => [.target t]
  | .inputGoodHoldExpiry => []
  | .bankAtVmin => []
  | .flushTargetLinkDown t => [.target t]
  | .pfailReadGo _ => []
  | .pfailReadDone _ _ => []
  | .imageCopy q _ _ _ _ _ => [.src q]
  | .prsntAssert c => [.channel c]
  | .prsntDeassert c => [.channel c]
  | .seatingComplete c => [.channel c]
  | .preTurnOnCheckDone c => [.channel c]
  | .preTurnOnCheckTimeout c => [.channel c]
  | .gateThresholdExpiry c => [.channel c]
  | .outputReachesPgLevel c => [.channel c]
  | .pgWindowComplete c => [.channel c]
  | .noRampExpiry c => [.channel c]
  | .perstReleaseExpiry c => [.channel c]
  | .limitEntry c => [.channel c]
  | .limitExit c _ => [.channel c]
  | .outOfLimitReset c => [.channel c]
  | .faultTimerExpiry c => [.channel c]
  | .fastComparatorTrip c => [.channel c]
  | .monitorAdcReading c _ _ => [.channel c]
  | .cooldownExpiry c => [.channel c]
  | .attentionButtonPress c => [.channel c]
  | .prsntAbsentExpiry c => [.channel c]
  | .gateRemovalExpiry c => [.channel c]
  | .offStateDrainExpiry c _ => [.channel c]
  | .offStateOutputHigh c => [.channel c]
  | .slotPower q _ _ => [.src q]
  | .cellReading _ => []
  | .ntcReading _ _ => []
  | .chargerCurrentLow => []
  | .cellOvervoltageTrip i => [.cell i]
  | .bankOvervoltageTrip => []
  | .bankRiseChargerOff => []
  | .reverseCurrentTrip => []
  | .dischargeOvercurrentTrip => []
  | .protectionAutoClear _ => []
  | .bankClear q => [.src q]
  | .rcClockFault _ => []
  | .xtalLoss => []
  | .sqTailWrite host sq _ => [.host host, .queue sq]
  | .cqHeadWrite host cq _ => [.host host, .queue cq]
  | .cqArmWrite host cq _ => [.host host, .queue cq]
  | .wqeFetchDone host sq _ => [.host host, .queue sq]
  | .cqeWrite host cq => [.host host, .queue cq]
  | .rmePacketSend eng conn => [.engine eng, .conn conn]
  | .rmeWriteReceive eng _ => [.engine eng]
  | .readReqReceive eng _ => [.engine eng]
  | .readRespReceive eng _ => [.engine eng]
  | .ctrlReceive eng _ => [.engine eng]
  | .rmeAckReceive conn _ _ _ _ _ _ _ _ => [.conn conn]
  | .nakListReceive conn _ _ _ _ => [.conn conn]
  | .landedReceive conn _ _ _ => [.conn conn]
  | .clAckReceive eng _ _ _ _ _ _ => [.engine eng]
  | .rmeAckDelayExpiry conn => [.conn conn]
  | .nakListExpiry conn _ => [.conn conn]
  | .rtoExpiry conn => [.conn conn]
  | .rateIncreaseExpiry conn => [.conn conn]
  | .landedReportExpiry srcSw conn => [.switch srcSw, .conn conn]
  | .clResendExpiry eng _ => [.engine eng]
  | .clAckDelayExpiry eng _ => [.engine eng]
  | .clEntryExpiry eng _ => [.engine eng]
  | .contextFillDone conn _ _ _ => [.conn conn]
  | .contextSpillDone conn => [.conn conn]
  | .compostAdd q _ _ _ _ => [.src q]
  | .compostRemove q _ => [.src q]
  | .sqCreate q _ _ _ _ _ => [.src q]
  | .cqCreate q _ _ _ _ => [.src q]
  | .queueDestroy q _ _ => [.src q]
  | .connCreate q _ => [.src q]
  | .connConnect q _ _ _ => [.src q]
  | .connClose q _ => [.src q]
  | .regRegion q _ _ _ _ _ _ _ => [.src q]
  | .revokeRegion q _ => [.src q]
  | .regionOutstandingZero idx => [.entry idx]
  | .regionQueryExpiry _ => []
  | .connCloseExpiry host => [.host host]
  | .hedgeRule q _ _ => [.src q]
  | .hedgeInflightDrained unit => [.hedge unit]
  | .hedgeHoldExpiry unit => [.hedge unit]
  | .hedgeRetryExpiry unit => [.hedge unit]
  | .pwSet q _ _ _ _ _ _ => [.src q]
  | .pwCommit q => [.src q]
  | .bridgeRequest _ => []
  | .bridgeFrameReceive _ _ => []
  | .bridgeFarIssue p => [.port p]
  | .bridgeResponseReceive _ => []
  | .bridgeTimeout btag => [.btag btag]
  | .bridgeBusyRetryExpiry btag => [.btag btag]
  | .bridgeResponseStall btag => [.btag btag]
  | .legacyMrdlk _ => []
  | .memRdLkReceive _ _ => []
  | .legacyUnlock => []
  | .unlockReceive _ _ => []
  | .lockBackoffExpiry => []
  | .lockIdleExpiry => []
  | .scionCreate q _ _ _ _ _ _ _ _ _ => [.src q]
  | .scionReset q _ => [.src q]
  | .scionRemove q _ => [.src q]
  | .scionShape q _ _ _ _ => [.src q]
  | .dirtyStart q _ _ _ _ _ _ => [.src q]
  | .dirtyStop q _ => [.src q]
  | .dirtySync q _ => [.src q]
  | .dirtyWordFill sc _ _ => [.scion sc]
  | .scionQuiesced sc => [.scion sc]
  | .scionQuiesceTimeout sc => [.scion sc]
  | .scionTagHoldExpiry sc tag => [.scion sc, .tag tag]
  | .scionHostRequest sc _ _ => [.scion sc]
  | .scionDeviceRequest p _ => [.port p]
  | .scionDeviceMsix p v => [.port p, .devVector v]
  | .scionQueueWaitExpiry sc => [.scion sc]
  | .sharedPortTrigger p => [.port p]
  | .sharedPortRetrainExpiry p _ => [.port p]
  | .p1IdleExpiry => []
  | .p1Exit => []
  | .pwrCtrlGoP2 _ => []
  | .pwrCtrlGoP3 _ _ => []
  | .pwrCtrlGoP4 _ => []
  | .powerState q _ _ => [.src q]
  | .stateEntryComplete _ => []
  | .wakeEvent _ _ _ => []
  | .avsEvaluationExpiry _ => []
  | .avsStepExpiry => []
  | .pmbusChangeAck rail _ _ => [.rail rail]
  | .pmbusAckTimeout rail => [.rail rail]
  | .clockCheckTick _ => []
  | .pllLockLoss n => [.clock n]
  | .thermalReading _ => []
  | .thermalBraceExpiry => []
  | .thermalCoolExpiry => []
  | .faultArrival _ => []
  | .errNPulseEnd => []
  | .errNClear => []
  | .faultRecordClear unit => [.record unit]
  | .counterOvfClear g j _ => [.group128 g, .counter j]
  | .xoffReceive => []
  | .xonReceive => []
  | .harvestFlowLostExpiry => []
  | .harvestRecordEnd => []
  | .harvestDropExpiry => []
  | .harvestSnapshotExpiry => []
  | .mbRing host slot => [.host host, .mailbox slot]
  | .mbAck host slot => [.host host, .mailbox slot]
  | .mctpRequest slot _ => [.mctp slot]
  | .getStatus q => [.src q]
  | .view q _ _ => [.src q]
  | .provision q _ _ _ => [.src q]
  | .counterRead q _ => [.src q]
  | .counterMap q _ => [.src q]
  | .counterUnmap q _ => [.src q]
  | .attest q _ => [.src q]
  | .attestLeafConfirm => []
  | .attestLeafTimeout => []
  | .pcieDlUp p _ _ _ _ _ => [.port p]
  | .pcieL1Entry p _ => [.port p]
  | .p2L1WaitExpiry p => [.port p]
  | .rcClockRestored => []
  | .setEndpointId _ => []
  | .bringupMemberDownExpiry p => [.port p]
  | .upWakePulseExpiry host => [.host host]

/-- A well-formed command: everything its operands name exists. -/
def Instr.wf (c : Instr) : Bool := c.uses.all Use.ok

end Sys2Proof
end

