-- ==== Sys2Proof/Safety.lean ====
section
/-! DEFINITION. What counts as a safe run, and the conditions on a state that the statements name. -/

namespace Sys2Proof.Machine

open Sys2Proof

/-- A step is safe when it answers a next state: it stops on no fault and on no refusal. -/
def Runs (s : State) : Prop := ∃ t, step s = .next t

/-- The fuses that PROVISION writes once read blank until it has written them (R53, R544). -/
def FusesBlank (s : State) : Prop :=
  s.root.provisioned = false → s.root.keyHash0 = 0 ∧ s.root.keyHash1 = 0 ∧ s.root.attSecret = 0

/-- The four fuses that PROVISION writes are the same in two states (R53, R544). -/
def SameFuses (s t : State) : Prop :=
  t.root.provisioned = s.root.provisioned ∧ t.root.keyHash0 = s.root.keyHash0 ∧ t.root.keyHash1 = s.root.keyHash1 ∧
    t.root.attSecret = s.root.attSecret

/-- The management core serves a request of a code and a source now: no brace, its turn in the queue, an issuer of the table of R539, the
firmware running, and for scions, peer windows and registrations the switch in service (R548, R67, R541, R94). -/
def Served (s : State) (q : ReqSrc) (code : Nat) (i : Issuers) : Prop :=
  braced s = false ∧ turnOf s q = true ∧ mayIssue s q i = true ∧ rdB s Reg.MGMT_STATUS 1 = true ∧
    (serviceCode code = true → inService s = true)

/-- A register whose reading is the word it holds: neither a free reading, nor one computed from other state, nor one that moves while its
lane works. -/
def PlainReg (a : Nat) : Prop := freeRange a = 0 ∧ (∀ s : State, computedWord s a = none) ∧ ∀ s : State, liveLane s a = s

/-- The seed unit takes a request of this source: none is being carried out, no brace, its turn in the queue, and either the seed step
ended without a copy and the board management controller asks, or the switch is in service, the manager asks and the seed image allows
updates (R65, R67, R71, R541). -/
def SeedServed (s : State) (q : ReqSrc) : Prop :=
  s.seed.updPending = none ∧ braced s = false ∧ turnOf s q = true ∧
    ((seedOpen s = true ∧ q.host = bmc) ∨
      (seedOpen s = false ∧ inService s = true ∧ q.host = mgr s ∧ mgr s < 32 ∧ s.seed.policy.allowUpdate = true ∧
        rdB s Reg.MGMT_STATUS 1 = true))

/-- A request of the table of R539: its source, its code, who may issue it, whether the boot ROM serves it (R541) and whether it is
served during a brace (R548). -/
structure Request where
  src : ReqSrc
  code : Nat
  who : Issuers
  rom : Bool := false
  brace : Bool := false
  deriving DecidableEq, Repr

/-- The request that a command is, but for the three of the seed unit, which R541 treats apart. -/
def requestOf : Instr → Option Request
  | .getStatus q => some { src := q, code := 0x0001, who := { h := true, b := true }, rom := true, brace := true }
  | .view q _ _ => some { src := q, code := 0x0002, who := { h := true }, brace := true }
  | .provision q _ _ _ => some { src := q, code := 0x0101, who := { b := true }, rom := true }
  | .warmReset q => some { src := q, code := 0x0201, who := { m := true, b := true } }
  | .powerState q _ _ => some { src := q, code := 0x0202, who := { b := true } }
  | .slotPower q _ _ => some { src := q, code := 0x0203, who := { m := true, b := true } }
  | .bankClear q => some { src := q, code := 0x0204, who := { m := true } }
  | .recordConsume q => some { src := q, code := 0x0205, who := { m := true } }
  | .targetAck q _ => some { src := q, code := 0x0206, who := { m := true } }
  | .imageCopy q _ _ _ _ _ => some { src := q, code := 0x0207, who := { m := true } }
  | .hedgeRule q _ _ => some { src := q, code := 0x0301, who := { m := true } }
  | .pwSet q _ _ _ _ _ _ => some { src := q, code := 0x0302, who := { h := true } }
  | .pwCommit q => some { src := q, code := 0x0303, who := { h := true } }
  | .shaper q _ _ _ _ _ => some { src := q, code := 0x0304, who := { m := true } }
  | .counterRead q _ => some { src := q, code := 0x0401, who := { h := true, b := true }, brace := true }
  | .counterMap q _ => some { src := q, code := 0x0402, who := { h := true } }
  | .counterUnmap q _ => some { src := q, code := 0x0403, who := { h := true } }
  | .compostAdd q _ _ _ _ => some { src := q, code := 0x0501, who := { h := true } }
  | .compostRemove q _ => some { src := q, code := 0x0502, who := { h := true } }
  | .sqCreate q _ _ _ _ _ => some { src := q, code := 0x0503, who := { h := true } }
  | .cqCreate q _ _ _ _ => some { src := q, code := 0x0504, who := { h := true } }
  | .queueDestroy q _ _ => some { src := q, code := 0x0505, who := { h := true } }
  | .connCreate q _ => some { src := q, code := 0x0506, who := { h := true } }
  | .connConnect q _ _ _ => some { src := q, code := 0x0507, who := { h := true } }
  | .connClose q _ => some { src := q, code := 0x0508, who := { h := true } }
  | .regRegion q _ _ _ _ _ _ _ => some { src := q, code := 0x0509, who := { h := true } }
  | .revokeRegion q _ => some { src := q, code := 0x050A, who := { h := true } }
  | .scionCreate q _ _ _ _ _ _ _ _ _ => some { src := q, code := 0x0601, who := { h := true } }
  | .scionReset q _ => some { src := q, code := 0x0602, who := { h := true, m := true } }
  | .scionRemove q _ => some { src := q, code := 0x0603, who := { h := true, m := true } }
  | .scionShape q _ _ _ _ => some { src := q, code := 0x0604, who := { h := true } }
  | .dirtyStart q _ _ _ _ _ _ => some { src := q, code := 0x0605, who := { h := true } }
  | .dirtyStop q _ => some { src := q, code := 0x0606, who := { h := true } }
  | .dirtySync q _ => some { src := q, code := 0x0607, who := { h := true } }
  | .attest q _ => some { src := q, code := 0x0701, who := { h := true, b := true }, brace := true }
  | _ => none

/-- What a served request does: its own effect on the state. -/
theorem serve_of_served (s : State) (q : ReqSrc) (code : Nat) (i : Issuers) (rom brace : Bool) (f : State → State)
    (h : Served s q code i) : serve s q code i rom brace f = f (beginReq s q) := by
  obtain ⟨h1, h2, h3, h4, h5⟩ := h
  cases h6 : serviceCode code <;> simp_all [serve]

/-- What a request in service leaves as it was: all but the queue of the management core. -/
theorem beginReq_eq (s : State) (q : ReqSrc) :
    beginReq s q = { s with mgmt := { s.mgmt with queue := (beginReq s q).mgmt.queue } } := by
  unfold beginReq
  split <;> rfl

/-- What a request that the seed unit takes does: its own effect on the state. -/
theorem seedServe_of_served (s : State) (q : ReqSrc) (code : Nat) (f : State → State) (h : SeedServed s q)
    (hc : serviceCode code = false) : seedServe s q code f = f (beginReq s q) := by
  obtain ⟨h1, h2, h3, h4⟩ := h
  have e := beginReq_eq s q
  rcases h4 with ⟨a, b⟩ | ⟨a, b, c, d, g, k⟩
  · have a' : seedOpen (beginReq s q) = true := by rw [e]; exact a
    simp [seedServe, serve, h1, h2, h3, a, a', b, mayIssue, seedMay, hc]
  · have a' : seedOpen (beginReq s q) = false := by rw [e]; exact a
    have b' : inService (beginReq s q) = true := by rw [e]; exact b
    have m' : mgr (beginReq s q) = mgr s := by rw [e]; rfl
    have g' : (beginReq s q).seed.policy.allowUpdate = true := by rw [e]; exact g
    have q' : mgr s ≠ bmc := by simp only [bmc]; omega
    simp [seedServe, serve, h1, h2, h3, a, a', b, b', c, q', m', g', k, mayIssue, seedMay, hc]

end Sys2Proof.Machine
end

