-- ==== Sys2Proof/Certificates/Slice0/Obligations.lean ====
section
/-! DEFINITION. The statements about this model, for the provers: each is one Prop. -/

set_option linter.unusedVariables false

open Sys2Proof
open Sys2Proof.Machine

/-- For every command c and state s: a step of s with c put at the front of its queue is exec of c on s, and a step of any state whose queue begins with c is exec of c on that state with the rest of the queue. The order of the queue, first in first out, is the model's form of "each step whole and indivisible". -/
def Obligations.StepRunsFrontCommand : Prop :=
  (∀ (c : Instr) (s : State), step { s with pending := c :: s.pending } = exec c s) ∧
  (∀ (c : Instr) (rest : List Instr) (s : State), s.pending = c :: rest → step s = exec c { s with pending := rest })

/-- The model's own choice (log entry 1, DESIGN CHOICE): on an empty queue a step lets one core cycle pass. It answers the tick of the state, whose time is one higher, whose queue is still empty and whose fuses are as they were. -/
def Obligations.IdleStepIsOneCoreCycle : Prop :=
  ∀ s : State, s.pending = [] → step s = .next (tick s) ∧ (tick s).now = s.now + 1 ∧ (tick s).pending = [] ∧ SameFuses s (tick s)

/-- The rows of spec/opcode_table.json give no bits (log entry 2), so decodeTableWord answers none for every word, and withFetchWord leaves every state as it is. -/
def Obligations.TableWordsSpellNoCommand : Prop :=
  (∀ nbits w : Nat, decodeTableWord nbits w = none) ∧ (∀ (s : State) (nbits w : Nat), s.withFetchWord nbits w = s)

/-- The state after power-on reset: GLB_START_STATUS shows a start in step 1, GLB_RESET_CAUSE shows POWER_ON, FLT_CMASK masks every unit, PFAIL_INPUT_MIN, BUF_FREE, LAND_REQ_FREE, PWR_CTRL and PWR_AVS hold the Cold values of their tables, PFAIL_STATUS shows no brace, SEED_STATUS, MGMT_STATUS and HVST_STATUS read 0, no fuse is written, and no command waits. Where the spec gives the Cold value, it is that; the queue is the model's own field. -/
def Obligations.ResetIsColdStart : Prop :=
  rd State.reset Reg.GLB_START_STATUS = 1 ∧ rd State.reset Reg.GLB_RESET_CAUSE = 1 ∧ rd State.reset Reg.FLT_CMASK = 0x7FFFF ∧
  rd State.reset Reg.PFAIL_INPUT_MIN = 0xFFFF ∧ rd State.reset Reg.BUF_FREE = 0x20000 ∧ rd State.reset Reg.LAND_REQ_FREE = 0x1000 ∧
  rd State.reset Reg.PWR_CTRL = 0x10 ∧ rd State.reset Reg.PWR_AVS = 0x2EE ∧ braced State.reset = false ∧
  rd State.reset Reg.SEED_STATUS = 0 ∧ rd State.reset Reg.MGMT_STATUS = 0 ∧ rd State.reset Reg.HVST_STATUS = 0 ∧
  State.reset.root.provisioned = false ∧ FusesBlank State.reset ∧ State.reset.pending = []

/-- For every command and every state exec answers a next state, never a fault or a refusal: a command whose conditions do not hold leaves the state as the rules say. It leaves the queue behind it as it was, and the time never falls (it passes in ticks, and in the rows that end a wait, log entries 1 and 3). Hence every step of every state answers a next state. -/
def Obligations.EveryCommandCompletes : Prop :=
  (∀ (c : Instr) (s : State), ∃ t, exec c s = .next t ∧ t.pending = s.pending ∧ s.now ≤ t.now) ∧ (∀ s : State, Runs s)

/-- For every state s and next state t of a step: the queue of t is the queue of s without its front; the time of t is at least the time of s, and one more where the queue was empty. No command adds to the queue, removes from it or reorders it. -/
def Obligations.QueueIsFirstInFirstOut : Prop :=
  ∀ s t : State, step s = .next t → t.pending = s.pending.tail ∧ s.now ≤ t.now ∧ (s.pending = [] → t.now = s.now + 1)

/-- Over every command, every tick and every state: if a step of s answers t, then the key-hash fuses, the attestation secret and their lock are the same in t as in s, or the front command was a PROVISION, the fuses were not yet provisioned, and they now hold exactly the values that this request carried. No other of the 323 commands, no start, reset, power loss or seed update reaches them (the fuses of R53 and R544). -/
def Obligations.OnlyProvisionWritesFuses : Prop :=
  ∀ s t : State, step s = .next t →
    SameFuses s t ∨
    ∃ (q : ReqSrc) (h0 h1 secret : BitVec 256) (rest : List Instr), s.pending = .provision q h0 h1 secret :: rest ∧
      s.root.provisioned = false ∧ t.root.provisioned = true ∧ t.root.keyHash0 = h0 ∧ t.root.keyHash1 = h1 ∧ t.root.attSecret = secret

/-- From every state in which the fuses are provisioned, after any number of steps the fuses are as they were: whatever commands wait, including further PROVISION requests, power losses, cold starts and seed updates (R53 and R544: the fuses are written once). -/
def Obligations.ProvisionedFusesNeverChange : Prop :=
  ∀ (n : Nat) (s t : State), s.root.provisioned = true → Host.Core.run core n s = .next t → SameFuses s t

/-- For every state in which unprovisioned fuses read zero, every step, whatever its command, answers a next state in which this holds again. State.reset satisfies it (ResetIsColdStart). -/
def Obligations.BlankFusesInvariant : Prop :=
  ∀ s t : State, FusesBlank s → step s = .next t → FusesBlank t

/-- For every host whose function answers (R184), every requester, offset and value: where the offset names no register, (1) each 4-byte read answers the one word 0 and changes nothing else; (2) each 4-byte write leaves the whole state as it is; (3) where neither word of an 8-byte access names a register, the read answers two words 0, by either row, and the write leaves the state as it is. -/
def Obligations.UnmappedAccessHasNoEffect : Prop :=
  (∀ (s : State) (host req off : Nat), mefAnswers s host = true → barRow s host off = none →
    exec (.pairLoRead host req off) s = .next (emit s (.regData host req off [0])) ∧
    exec (.pairHiRead host req off) s = .next (emit s (.regData host req off [0])) ∧
    exec (.rcFieldRead host req off false) s = .next (emit s (.regData host req off [0]))) ∧
  (∀ (s : State) (host req off : Nat) (v collide : Word), mefAnswers s host = true → barRow s host off = none →
    exec (.registerWrite host off v collide) s = .next s ∧
    exec (.pairLoWrite host req off v) s = .next s ∧
    exec (.pairHiWrite host req off v) s = .next s) ∧
  (∀ (s : State) (host req off : Nat) (d : DWord), mefAnswers s host = true → barRow s host off = none → barRow s host (off + 4) = none →
    exec (.pairWideAccess host req off none) s = .next (emit s (.regData host req off [0, 0])) ∧
    exec (.rcFieldRead host req off true) s = .next (emit s (.regData host req off [0, 0])) ∧
    exec (.pairWideAccess host req off (some d)) s = .next s)

/-- For every host, requester, offset and length where the offset is not a multiple of 4 or the length is neither 4 nor 8: (1) where the function answers, the completion leaves toward the host's upstream port with tag 0 (the model's, entry 89), Completer Abort status (4) and no data, MGMT_BAD_ACCESS rises by one up to its end, the C fault 0x01 of unit 17 arrives in the zone of that port with the offset as its address (faultP), and nothing else changes; (2) where it does not answer, an Unsupported Request completion leaves (status 1) and nothing else changes. -/
def Obligations.MalformedAccessIsAborted : Prop :=
  (∀ (s : State) (host req off len : Nat), mefAnswers s host = true → (off % 4 ≠ 0 ∨ (len ≠ 4 ∧ len ≠ 8)) →
    exec (.bar0MalformedAccess host req off len) s =
      .next (faultP (bump (emit s (.cpl (upPort s host) req 0 4 false [])) Reg.MGMT_BAD_ACCESS) 17 0x01 1 (upPort s host) off)) ∧
  (∀ (s : State) (host req off len : Nat), mefAnswers s host = false → (off % 4 ≠ 0 ∨ (len ≠ 4 ∧ len ≠ 8)) →
    exec (.bar0MalformedAccess host req off len) s = .next (emit s (.cpl (upPort s host) req 0 1 false [])))

/-- For every host whose function answers (clauses 1 to 5) and every offset that holds the register at address a. (1) PAIR_LO_READ of any register but a FENCE answers the reading of it (readReg: RC fields clear); of a _LO it latches for this requester the address and the word its _HI then shows; (2) of a _LO without RC bits, both halves plain: it answers its word, latches (a, the word of the _HI), and every register, every other latch and every write holding stays; (3) of a FENCE it is a durability fence of 4 bytes (fenceAt); (4) PAIR_HI_READ while this requester holds the latch (a, v) of that pair answers v and releases the latch, and nothing else changes; (5) in every other case it answers the reading of the register; (6) a host whose function does not answer gets an Unsupported Request completion for either, and nothing else changes. -/
def Obligations.PairReadsLatchTheHighHalf : Prop :=
  (∀ (s : State) (host req off a : Nat) (w : Bool) (r : RegRow), mefAnswers s host = true → barRow s host off = some (a, w, r) →
    isFence a = false →
    exec (.pairLoRead host req off) s = .next (answer
      (if r.pair = 1 then setLatch (readReg s a r).2 host req (some (a, (computedWord (readReg s a r).2 (a + 4)).getD (rd (readReg s a r).2 (a + 4))))
        else (readReg s a r).2) host req off [(readReg s a r).1])) ∧
  (∀ (s : State) (host req off a : Nat) (w : Bool) (r : RegRow), mefAnswers s host = true → barRow s host off = some (a, w, r) →
    isFence a = false → PlainReg a → PlainReg (a + 4) → r.rc = 0 → r.pair = 1 →
    ∃ t, exec (.pairLoRead host req off) s = .next t ∧ t.out = s.out ++ [.regData host req off [rd s a]] ∧
      t.access.latch = s.access.latch.set (host * 65536 + req) (some (a, rd s (a + 4))) ∧ t.access.hold = s.access.hold ∧
      (∀ b, rd t b = rd s b)) ∧
  (∀ (s : State) (host req off a : Nat) (w : Bool) (r : RegRow), mefAnswers s host = true → barRow s host off = some (a, w, r) →
    isFence a = true → exec (.pairLoRead host req off) s = .next (fenceAt s host req a false)) ∧
  (∀ (s : State) (host req off a : Nat) (w : Bool) (r : RegRow) (v : Word), mefAnswers s host = true → barRow s host off = some (a + 4, w, r) →
    r.pair = 2 → s.access.latch.get (host * 65536 + req) = some (a, v) →
    exec (.pairHiRead host req off) s = .next (answer (setLatch s host req none) host req off [v])) ∧
  (∀ (s : State) (host req off a : Nat) (w : Bool) (r : RegRow), mefAnswers s host = true → barRow s host off = some (a, w, r) →
    (r.pair ≠ 2 ∨ ∀ b v, s.access.latch.get (host * 65536 + req) = some (b, v) → b + 4 ≠ a) →
    exec (.pairHiRead host req off) s = .next (answer (readReg s a r).2 host req off [(readReg s a r).1])) ∧
  (∀ (s : State) (host req off : Nat), mefAnswers s host = false →
    exec (.pairLoRead host req off) s = .next (emit s (.cpl (upPort s host) req 0 1 false [])) ∧
    exec (.pairHiRead host req off) s = .next (emit s (.cpl (upPort s host) req 0 1 false [])))

/-- For every host whose function answers (clauses 1 to 6) and every offset that holds the register at address a. (1) PAIR_LO_WRITE of a _LO that may be written keeps (a, v) as the holding of this requester and changes nothing else; (2) PAIR_HI_WRITE of the _HI of the pair at a: with a holding (a, lo) the holding is released and the pair takes lo and v (writePair), without one it takes the _LO half that the register holds; (3) either row at a register that may not be written, or is not that half of a pair, changes nothing; (4) an 8-byte aligned write of a _LO that may be written applies both halves at once, and latches and holdings are not looked at; (5) such a read answers both words (wideRead), of a FENCE it is a durability fence of 8 bytes; (6) at two words that are no aligned pair a read answers both words, and a write is a write of each word (entry 88); (7) a host whose function does not answer: its writes change nothing, and its 8-byte read gets an Unsupported Request completion. -/
def Obligations.PairWritesApplyAsAWhole : Prop :=
  (∀ (s : State) (host req off a : Nat) (r : RegRow) (v : Word), mefAnswers s host = true → barRow s host off = some (a, true, r) → r.pair = 1 →
    exec (.pairLoWrite host req off v) s =
      .next { s with access := { s.access with hold := s.access.hold.set (host * 65536 + req) (some (a, v)) } }) ∧
  (∀ (s : State) (host req off a : Nat) (r : RegRow) (v : Word), mefAnswers s host = true → barRow s host off = some (a + 4, true, r) → r.pair = 2 →
    (∀ lo, s.access.hold.get (host * 65536 + req) = some (a, lo) →
      exec (.pairHiWrite host req off v) s =
        .next (writePair { s with access := { s.access with hold := s.access.hold.set (host * 65536 + req) none } } host req a lo v)) ∧
    (s.access.hold.get (host * 65536 + req) = none →
      ∃ t, exec (.pairHiWrite host req off v) s = .next (writePair t host req a (rd s a) v) ∧ t.regs = s.regs)) ∧
  (∀ (s : State) (host req off a : Nat) (w : Bool) (r : RegRow) (v : Word), mefAnswers s host = true → barRow s host off = some (a, w, r) →
    ((w = false ∨ r.pair ≠ 1) → exec (.pairLoWrite host req off v) s = .next s) ∧
    ((w = false ∨ r.pair ≠ 2) → exec (.pairHiWrite host req off v) s = .next s)) ∧
  (∀ (s : State) (host req off a : Nat) (r : RegRow) (d : DWord), mefAnswers s host = true → barRow s host off = some (a, true, r) → r.pair = 1 →
    off % 8 = 0 → exec (.pairWideAccess host req off (some d)) s = .next (writePair s host req a (lo32 d.toNat) (hi32 d.toNat))) ∧
  (∀ (s : State) (host req off a : Nat) (w : Bool) (r : RegRow), mefAnswers s host = true → barRow s host off = some (a, w, r) → r.pair = 1 →
    off % 8 = 0 → exec (.pairWideAccess host req off none) s = .next (if isFence a then fenceAt s host req a true else wideRead s host req off)) ∧
  (∀ (s : State) (host req off a : Nat) (w : Bool) (r : RegRow) (d : DWord), mefAnswers s host = true → barRow s host off = some (a, w, r) →
    (r.pair ≠ 1 ∨ off % 8 ≠ 0) →
    exec (.pairWideAccess host req off none) s = .next (wideRead s host req off) ∧
    exec (.pairWideAccess host req off (some d)) s =
      .next (plainWrite (plainWrite s host off (lo32 d.toNat) 0) host (off + 4) (hi32 d.toNat) 0)) ∧
  (∀ (s : State) (host req off : Nat) (v : Word) (d : DWord), mefAnswers s host = false →
    exec (.pairLoWrite host req off v) s = .next s ∧ exec (.pairHiWrite host req off v) s = .next s ∧
    exec (.pairWideAccess host req off (some d)) s = .next s ∧
    exec (.pairWideAccess host req off none) s = .next (emit s (.cpl (upPort s host) req 0 1 false [])))

/-- For every host whose function answers, every register that may be written and is no half of a pair, every value and every bit i of its W1C bits: (1) where the bit is set and the data path sets it in this cycle (collide), it is set after the write; (2) where the data path does not set it, and the register is not one whose writes rows of their own carry (ownRow), it is clear after a write of 1 and keeps its value at a write of 0. -/
def Obligations.SetBeatsClearInOneCycle : Prop :=
  (∀ (s : State) (host off a : Nat) (r : RegRow) (v collide : Word) (i : Nat), mefAnswers s host = true →
    barRow s host off = some (a, true, r) → r.pair = 0 →
    i < 32 → getB (w32 r.w1c) i = true → getB (w32 r.rw) i = false → getB collide i = true → rdB s a i = true →
    ∃ t, exec (.registerWrite host off v collide) s = .next t ∧ rdB t a i = true) ∧
  (∀ (s : State) (host off a : Nat) (r : RegRow) (v collide : Word) (i : Nat), mefAnswers s host = true →
    barRow s host off = some (a, true, r) → r.pair = 0 →
    i < 32 → getB (w32 r.w1c) i = true → getB (w32 r.rw) i = false → getB collide i = false → ownRow a = false →
    ∃ t, exec (.registerWrite host off v collide) s = .next t ∧ rdB t a i = (rdB s a i && !getB v i))

/-- For every host whose function answers: (1) a 4-byte read (RC_FIELD_READ) of any register answers its reading (readReg); of a plain one it answers the word as it stood and leaves the register with its RC bits cleared, every other register, the latches and the holdings unchanged; (2) an 8-byte read of two plain registers (RC_FIELD_READ, and PAIR_WIDE_ACCESS of a pair that is no FENCE) answers both words as they stood before it, and leaves both with their RC bits cleared, every other register, the latches and the holdings unchanged. -/
def Obligations.ReadClearsOnlyAfterReturn : Prop :=
  (∀ (s : State) (host req off a : Nat) (w : Bool) (r : RegRow), mefAnswers s host = true → barRow s host off = some (a, w, r) →
    exec (.rcFieldRead host req off false) s = .next (answer (readReg s a r).2 host req off [(readReg s a r).1]) ∧
    (PlainReg a → ∃ t, exec (.rcFieldRead host req off false) s = .next t ∧ t.out = s.out ++ [.regData host req off [rd s a]] ∧
      rd t a = rd s a &&& ~~~(w32 r.rc) ∧ (∀ b, b ≠ a → rd t b = rd s b) ∧ t.access = s.access)) ∧
  (∀ (s : State) (host req off a b : Nat) (w x : Bool) (r q : RegRow) (c : Instr), mefAnswers s host = true →
    barRow s host off = some (a, w, r) → barRow s host (off + 4) = some (b, x, q) → a ≠ b → PlainReg a → PlainReg b →
    (c = .rcFieldRead host req off true ∨ c = .pairWideAccess host req off none ∧ r.pair = 1 ∧ off % 8 = 0 ∧ isFence a = false) →
    ∃ t, exec c s = .next t ∧ t.out = s.out ++ [.regData host req off [rd s a, rd s b]] ∧
      rd t a = rd s a &&& ~~~(w32 r.rc) ∧ rd t b = rd s b &&& ~~~(w32 q.rc) ∧ (∀ d, d ≠ a → d ≠ b → rd t d = rd s d) ∧
      t.access = s.access)

/-- From every state. (1) SYS_RST_N low for less than 1 µs changes nothing; low for longer it is cause 3 (warmCause); (2) a cause outside a brace and the cloche, with the switch neither off nor in P2 to P4, first stops the lane tests and margins (stopTests); where all four DRAM channels confirm self-refresh, the retention record is written and the start follows at once (resetNow); (3) with a channel that does not confirm, the 4 µs of retention run first; a cause while they run joins them; (4) during a brace or the cloche the cause is held and the first one is kept; (5) the end of the 4 µs starts the switch without a landing record; with no window running it changes nothing; (6) the watchdog, 495 ms or more after the last kick while firmware runs, sets EXPIRED_LAST, raises MGMT fault 0x03 of class F and is cause 5; a kick restarts its count; with no firmware either changes nothing; (7) VAUX rising from the off state begins a cold start with cause POWER_ON (newStart); in any other state it changes nothing. -/
def Obligations.ResetCausesBeginTheirStart : Prop :=
  (∀ (s : State) (ns : Nat) (r : BitVec 4),
    (ns < 1000 → exec (.sysRstAssert ns r) s = .next s) ∧ (1000 ≤ ns → exec (.sysRstAssert ns r) s = .next (warmCause s 3 r.toNat))) ∧
  (∀ (s t : State) (c : Nat), s.start.phase ≠ .off → s.pwr.asleep = 0 → braceHolds s = false → inCloche s = false →
    t = stopTests s → t.start.phase ≠ .retain → warmCause s c 15 = resetNow (retainRecord t) c false) ∧
  (∀ (s t : State) (c r : Nat), s.start.phase ≠ .off → s.pwr.asleep = 0 → braceHolds s = false → inCloche s = false → t = stopTests s →
    (t.start.phase ≠ .retain → r ≠ 15 → warmCause s c r = { t with start := { t.start with phase := .retain, retCause := some c } }) ∧
    (t.start.phase = .retain → warmCause s c r = t)) ∧
  (∀ (s : State) (c r : Nat), s.start.phase ≠ .off → s.pwr.asleep = 0 → (braceHolds s = true ∨ inCloche s = true) →
    warmCause s c r = { s with root := { s.root with heldCause := some (s.root.heldCause.getD c) } }) ∧
  (∀ s : State,
    (∀ c, s.start.retCause = some c → s.start.phase = .retain →
      exec .retentionWindowExpiry s = .next (resetNow { s with ret := { s.ret with land := none } } (c % 16) (decide (16 ≤ c)))) ∧
    ((s.start.retCause = none ∨ s.start.phase ≠ .retain) → exec .retentionWindowExpiry s = .next s)) ∧
  (∀ (s : State) (r : BitVec 4),
    (rdB s Reg.MGMT_STATUS 1 = true →
      (∃ f, f = faultU (wrB (timeTo s (s.mgmt.kicked + 792000000)) Reg.MGMT_WDOG 1 true) 17 0x03 3 0 ∧
        exec (.watchdogExpiry r) s = .next (warmCause { f with mgmt := { f.mgmt with kicked := f.now } } 5 r.toNat)) ∧
      exec .watchdogKick s = .next { s with mgmt := { s.mgmt with kicked := s.now } }) ∧
    (rdB s Reg.MGMT_STATUS 1 = false → exec (.watchdogExpiry r) s = .next s ∧ exec .watchdogKick s = .next s)) ∧
  (∀ s : State,
    (s.start.phase = .off → exec .vauxRise s = .next (newStart { s with root := { s.root with powered := true } } false true false 1)) ∧
    (s.start.phase ≠ .off → exec .vauxRise s = .next s))

/-- From every state that is not off, with no leaf advance and no seed update in progress: the loss of VAUX answers the off state with no register left, every slot off, no landing word, no retention record and no reset history, while the key-hash fuses, their lock, the attestation secret, the revocations, the seed, leaf, flush and start counters and every byte of the flash are as they were. In the off state it changes nothing. -/
def Obligations.VauxLossKeepsOnlyFusesCountersAndFlash : Prop :=
  ∀ s : State, (s.start.phase = .off → exec .vauxFall s = .next s) ∧
    (s.start.phase ≠ .off → s.mgmt.attWait = none → rdF s Reg.SEED_UPDATE_STATUS 1 0 = 0 →
    ∃ t, exec .vauxFall s = .next t ∧ t.start.phase = .off ∧ t.regs = .empty ∧ t.land = {} ∧ t.ret = {} ∧ t.rootSt = {} ∧
      t.root.powered = false ∧ t.root.warmFails = [] ∧ t.root.heldCause = none ∧ t.seed.flash = s.seed.flash ∧ SameFuses s t ∧
      t.root.seedCounter = s.root.seedCounter ∧ t.root.attLeaf = s.root.attLeaf ∧ t.root.flushCounter = s.root.flushCounter ∧
      t.root.startCounter = s.root.startCounter ∧ t.root.revoked0 = s.root.revoked0 ∧ t.root.revoked1 = s.root.revoked1)

/-- From every state; t is the state with the request begun (beginReq). (1) a served WARM_RESET outside a brace is answered OK, and the quiescence begins at the present time unless one runs already; (2) during a brace one from an issuer with firmware running is cause 4, which the rootstock die holds, and stays queued; any other changes nothing; (3) the quiescence ends at once where the highest landed epoch is at most SE, else four epoch periods and 20 µs after its beginning, and cause 4 follows; withheld credits are returned where a brace holds the cause; (4) with no quiescence its row changes nothing; (5) a warm start not in service 400 ms after its t0, and not yet counted, has failed: its time is kept (warmFail) and GLB_WARM_FAILS shows the recent ones, at most 3; elsewhere the deadline changes nothing; (6) after the wait of a failed rail step the rails come up again from step 2 of a cold start, step 1 of a warm one; elsewhere the row changes nothing. -/
def Obligations.WarmResetRequestAndDeadline : Prop :=
  (∀ (s t : State) (q : ReqSrc), Served s q 0x0201 { m := true, b := true } → braceHolds s = false → t = reply (beginReq s q) q 0x0201 0x00 [] →
    exec (.warmReset q) s = .next { t with start := { t.start with quiesce := some (t.start.quiesce.getD t.now) } }) ∧
  (∀ (s : State) (q : ReqSrc), braceHolds s = true →
    exec (.warmReset q) s = .next (if mayIssue s q { m := true, b := true } && rdB s Reg.MGMT_STATUS 1 then warmCause s 4 0 else s)) ∧
  (∀ (s u t : State) (r : BitVec 4) (b : Nat), s.start.quiesce = some b →
    u = (if epLe (s.land.highest.getD (seOf s)) (seOf s) then s else timeTo s (b + 4 * epochPeriod s + 32000)) →
    t = warmCause { u with start := { u.start with quiesce := none } } 4 r.toNat →
    exec (.warmQuiesceDone r) s = .next (if braceHolds u then releaseCredits t else t)) ∧
  (∀ (s : State) (r : BitVec 4), s.start.quiesce = none → exec (.warmQuiesceDone r) s = .next s) ∧
  (∀ s t : State, t = warmFail (timeTo s (s.t0 + 640000000)) →
    (inWarmStart s = true → s.start.failed = false → exec .warmStartDeadline s =
      .next (wrF { t with start := { t.start with failed := true } } Reg.GLB_WARM_FAILS 1 0 (min 3 (recentFails t)))) ∧
    ((inWarmStart s = false ∨ s.start.failed = true) → exec .warmStartDeadline s = .next s)) ∧
  (∀ s : State,
    (s.start.phase = .railWait → exec .regulatorRetryWaitExpiry s =
      .next (railsUp (stepTo { s with start := { s.start with phase := .steps } } (if s.start.warm then 1 else 2)))) ∧
    (s.start.phase ≠ .railWait → exec .regulatorRetryWaitExpiry s = .next s))

/-- From every state. (1) START_STEP_READY while a start runs and no brace does carries out the step of the cold or the warm table (coldStep, warmStep); else it changes nothing; (2) a finished burst of the seed step is no repeat any more, and SEED_STATUS shows heads (1, below 0x2000 of a copy), checks (3, the last block read) or sections (2); (3) one that times out counts in SEED_FLASH_ERR; the first time SEED fault 0x01 of class C arrives with its address and it is read again, the second time its address is marked unreadable; (4) outside the seed step both change nothing; (5) in step 9 of a cold start a flush target whose wait ends is recorded as unreadable (class 4); elsewhere the row changes nothing; (6) the rootstock die, whose link speaks again (linkBack), carries out a slot's on or off command at the leading channel of its pair, sets its two indicators, or takes a heartbeat; a command naming no channel does nothing more; (7) after 1 ms of silence while alive, powered and neither off nor asleep, the switch die counts as dead: FLT_STATUS bit 4 is set, ROOT_LINK_LOSS counts, ERR_N is driven low and nothing else changes; elsewhere the row changes nothing; (8) a snapshot begins on command or once the oldest view is 1 s old (snapshotGo); its end clears the busy bit, advances GLB_SNAP_SEQ by one and refreshes the views. -/
def Obligations.StartStepsSeedReadsAndRootstock : Prop :=
  (∀ (s : State) (r : StepResult) (rd : StepReadings),
    (s.start.phase = .steps → s.pfail.braceAt = none →
      exec (.startStepReady r rd) s = .next (if s.start.warm then warmStep s r rd else coldStep s r rd)) ∧
    ((s.start.phase ≠ .steps ∨ s.pfail.braceAt ≠ none) → exec (.startStepReady r rd) s = .next s)) ∧
  (∀ (s t : State) (a : Nat), inSeedStep s = true →
    t = flashEnter { s with seed := { s.seed with repeated := s.seed.repeated.filter fun b => b ≠ a } } →
    exec (.seedBurstDone a) s = .next (wrF t Reg.SEED_STATUS 2 0
      (if a % 2 ^ 24 < 0x2000 then 1 else if a / 4096 * 4096 = lastBlock t (a / 2 ^ 24) then 3 else 2))) ∧
  (∀ (s t u : State) (a : Nat), inSeedStep s = true → t = bump (flashEnter s) Reg.SEED_FLASH_ERR → u = faultU t 1 0x01 1 a →
    (t.seed.repeated.contains a = false → exec (.seedBurstTimeout a) s =
      .next (emit { u with seed := { u.seed with repeated := u.seed.repeated ++ [a] } } (.flash "read again" a))) ∧
    (t.seed.repeated.contains a = true → exec (.seedBurstTimeout a) s =
      .next { t with seed := { t.seed with repeated := t.seed.repeated.filter (fun b => b ≠ a), readErr := t.seed.readErr ++ [a] } })) ∧
  (∀ (s : State) (a : Nat), inSeedStep s = false → exec (.seedBurstDone a) s = .next s ∧ exec (.seedBurstTimeout a) s = .next s) ∧
  (∀ (s : State) (k : Nat),
    (s.start.phase = .steps → s.start.warm = false → startStep s = 9 → k < targetCount s →
      exec (.flushTargetWaitExpiry k) s = .next (setRecord s k 4 0 0)) ∧
    ((s.start.phase ≠ .steps ∨ s.start.warm = true ∨ startStep s ≠ 9 ∨ targetCount s ≤ k) → exec (.flushTargetWaitExpiry k) s = .next s)) ∧
  (∀ s t : State, t = linkBack s →
    (∀ c, exec (.rootstockActionRequest (.slotOn c)) s = .next (if 16 ≤ c then t else tryTurnOn t (chLead t c))) ∧
    (∀ c, exec (.rootstockActionRequest (.slotOff c)) s = .next (if 16 ≤ c then t else turnOff t (chLead t c))) ∧
    (∀ c p a, exec (.rootstockActionRequest (.indicators c p a)) s = .next (if 16 ≤ c then t else updChan t c fun x => { x with ind := (p, a) })) ∧
    exec (.rootstockActionRequest .heartbeat) s = .next t) ∧
  (∀ s : State,
    (s.root.dieDead = false → s.start.phase ≠ .off → s.start.phase ≠ .asleep → s.root.railsOn = true → exec .internalLinkSilent s =
      .next (emit (bump (wrB { s with root := { s.root with dieDead := true } } Reg.FLT_STATUS 4 true) Reg.ROOT_LINK_LOSS) (.pin .errN false))) ∧
    ((s.root.dieDead = true ∨ s.start.phase = .off ∨ s.start.phase = .asleep ∨ s.root.railsOn = false) → exec .internalLinkSilent s = .next s)) ∧
  (∀ s : State, exec .snapshotTake s = .next (snapshotGo s) ∧
    exec .viewAgeSnapshot s = .next (snapshotGo (timeTo s (s.mgmt.viewAt + 1600000000))) ∧
    (rdB s Reg.GLB_SNAP_STATUS 0 = true → exec .snapshotComplete s =
      .next (refreshViews (wrN (wrB s Reg.GLB_SNAP_STATUS 0 false) Reg.GLB_SNAP_SEQ (rdN s Reg.GLB_SNAP_SEQ + 1)))) ∧
    (rdB s Reg.GLB_SNAP_STATUS 0 = false → exec .snapshotComplete s = .next s))

/-- For a served request; t is the state with it begun (beginReq). (1) RECORD_CONSUME in service: with every target ready that holds an unconsumed record (class 1 to 3), the block with its consumed mark is written to each of them (consumedWords), each is set to class 0, every target is acknowledged and the answer is OK; with one not ready the answer is DEVICE_ERROR and nothing else changes; (2) TARGET_ACK of a target above 7 is answered MALFORMED, of none the seed names NOT_FOUND; (3) of one that is unreadable, unusable or missing its record (class 4 or more), in service, it is acknowledged once and the answer is OK; (4) either request out of service, and TARGET_ACK of a target of class 0 to 3, is answered STATE. -/
def Obligations.FlushRecordsAreConsumedOnRequest : Prop :=
  (∀ (s t u : State) (q : ReqSrc) (held : List Nat), Served s q 0x0205 { m := true } → t = beginReq s q → inService t = true →
    held = ((flushTargets t).filter fun k => decide (1 ≤ rdF t (Reg.PFAIL_REC_STATE k) 3 0 ∧ rdF t (Reg.PFAIL_REC_STATE k) 3 0 ≤ 3)) →
    u = held.foldl (fun s k => setRecord (emit s (.nvme k "write" (targetBase s k) 1 (consumedWords s k))) k 0 0 0) t →
    ((held.any fun k => !(targetReady t k)) = false →
      exec (.recordConsume q) s = .next (reply (noteRecords (updPf u fun x => { x with acked := flushTargets u })) q 0x0205 0x00 [])) ∧
    ((held.any fun k => !(targetReady t k)) = true → exec (.recordConsume q) s = .next (reply t q 0x0205 0x0B []))) ∧
  (∀ (s t : State) (q : ReqSrc) (k : Nat), Served s q 0x0206 { m := true } → t = beginReq s q →
    (8 ≤ k → exec (.targetAck q k) s = .next (reply t q 0x0206 0x03 [])) ∧
    (k < 8 → targetCount t ≤ k → exec (.targetAck q k) s = .next (reply t q 0x0206 0x08 []))) ∧
  (∀ (s t : State) (q : ReqSrc) (k : Nat), Served s q 0x0206 { m := true } → t = beginReq s q → k < 8 → k < targetCount t → inService t = true →
    4 ≤ rdF t (Reg.PFAIL_REC_STATE k) 3 0 →
    exec (.targetAck q k) s = .next (reply (noteRecords (updPf t fun x =>
      { x with acked := if x.acked.contains k then x.acked else x.acked ++ [k] })) q 0x0206 0x00 [])) ∧
  (∀ (s t : State) (q : ReqSrc) (k : Nat), t = beginReq s q →
    (Served s q 0x0205 { m := true } → inService t = false → exec (.recordConsume q) s = .next (reply t q 0x0205 0x07 [])) ∧
    (Served s q 0x0206 { m := true } → k < 8 → k < targetCount t → (inService t = false ∨ rdF t (Reg.PFAIL_REC_STATE k) 3 0 < 4) →
      exec (.targetAck q k) s = .next (reply t q 0x0206 0x07 [])))

/-- From every state. A group's own reference counts (ownRef) where the group is used and not slaved. (1) Loss of edges of a reference that counts clears REF_PRESENT and takes the reference away (refLost); of any other it changes nothing; (2) the end of a 1 ms window shows mean offset, spread and REF_PRESENT; within 350 ppm (3500 in 0.1 ppm), and in a Nozan group with a spread of at most 1,000 ppm, nothing more happens; a Nozan group's larger spread sets SPREAD_FAULT, and that or a larger offset takes the reference away; where the reference does not count nothing changes; (3) a restored reference that counts and was down locks the PLL, clears the spread fault and ends the down of every group it clocks, shows REF_PRESENT, and starts training of the Nozan ports on them; else it changes nothing; (4) a Nozan port that sends puts K28.5 and three K28.0 on every lane (alnSend), any other nothing; (5) on a received ALN the groups are checked unless a frame brings them (receiveGroups), each lane's alignment and fill follow (alignStep, moveFill), and the port decides once by its lowest fill: below 3 it inserts on every lane and counts, above 5, where each lane has three K28.0, it deletes and counts, else it does neither; a port with no lanes, or not Nozan, ignores it; (6) (the ALN of such a port changes nothing); (7) a slip of the elastic buffer recentres the fill at 4, makes the lane's next symbol an error marker, sets EB_SLIP and raises fault 0x02 of class C in the zone of the lane's port. -/
def Obligations.LaneClocksAndAlignment : Prop :=
  (∀ (s : State) (k : Nat),
    (ownRef s k = true → exec (.pgRefEdgeLoss k) s = .next (refLost (wrB s (Reg.PG_STATUS k) 3 false) k)) ∧
    (ownRef s k = false → exec (.pgRefEdgeLoss k) s = .next s)) ∧
  (∀ (s t : State) (k : Nat) (offset spread : BitVec 16),
    t = wrB (wrF (wrF s (Reg.PG_REF_PPM k) 15 0 offset.toNat) (Reg.PG_REF_SPREAD k) 15 0 spread.toNat) (Reg.PG_STATUS k) 3 true →
    (ownRef s k = true → (pgMode t k ≠ 2 ∨ spread.toNat ≤ 1000) → -3500 ≤ offset.toInt → offset.toInt ≤ 3500 →
      exec (.pgRefWindow k offset spread) s = .next t) ∧
    (ownRef s k = true → (pgMode t k ≠ 2 ∨ spread.toNat ≤ 1000) → (offset.toInt < -3500 ∨ 3500 < offset.toInt) →
      exec (.pgRefWindow k offset spread) s = .next (refLost t k)) ∧
    (ownRef s k = true → pgMode t k = 2 → 1000 < spread.toNat →
      exec (.pgRefWindow k offset spread) s = .next (refLost (wrB t (Reg.PG_STATUS k) 5 true) k)) ∧
    (ownRef s k = false → exec (.pgRefWindow k offset spread) s = .next s)) ∧
  (∀ (s t : State) (k : Nat),
    t = wrB ((refGroups s k).foldl (fun s g => updPg (wrB (wrB s (Reg.PG_STATUS g) 4 true) (Reg.PG_STATUS g) 5 false) g
      fun x => { x with refDown := false }) s) (Reg.PG_STATUS k) 3 true →
    ((s.pg.get k).refDown = true → ownRef s k = true → exec (.pgRefRestored k) s = .next ((pgPorts t (refGroups s k)).foldl (fun s p =>
      if isNoz s p then beginTraining (updMember s p fun m => { m with refDown := false }) p else s) t)) ∧
    (((s.pg.get k).refDown = false ∨ ownRef s k = false) → exec (.pgRefRestored k) s = .next s)) ∧
  (∀ (s : State) (p : Nat), (nzSends s p = true → exec (.alnTransmit p) s = .next (alnSend s p)) ∧
    (nzSends s p = false → exec (.alnTransmit p) s = .next s)) ∧
  (∀ (s t u : State) (p l0 f : Nat) (g : LaneGroups) (inFrame : Bool) (drift : List Int) (at_ : List Nat),
    isNoz s p = true → (lanesOf s p).head? = some l0 →
    t = ((receiveLanes s p).zip at_).foldl (fun s x => alignStep s x.1 x.2) (if inFrame then s else (receiveGroups s p g).2) →
    u = moveFill t ((receiveLanes s p).zip drift) → f = lowest ((receiveLanes s p).map fun n => (u.lane.get n).fill) →
    (f < 3 → exec (.alnReceive p g inFrame drift at_) s =
      .next (bumpF (moveFill u ((receiveLanes s p).map fun n => (n, 1))) (Reg.LANE_EB_ADJ l0) 15 0 1)) ∧
    (5 < f → (∀ l ∈ (receiveGroups s p g).1, 3 ≤ l.countP fun x => x == kFIL) → exec (.alnReceive p g inFrame drift at_) s =
      .next (bumpF (moveFill u ((receiveLanes s p).map fun n => (n, -1))) (Reg.LANE_EB_ADJ l0) 31 16 1)) ∧
    (3 ≤ f → (f ≤ 5 ∨ ∃ l ∈ (receiveGroups s p g).1, (l.countP fun x => x == kFIL) < 3) →
      exec (.alnReceive p g inFrame drift at_) s = .next u)) ∧
  (∀ (s : State) (p : Nat) (g : LaneGroups) (inFrame : Bool) (drift : List Int) (at_ : List Nat),
    (isNoz s p = false ∨ lanesOf s p = []) → exec (.alnReceive p g inFrame drift at_) s = .next s) ∧
  (∀ (s : State) (lane : Nat), exec (.elasticBufferSlip lane) s =
    .next (faultP (wrB (updLane s lane fun l => { l with fill := 4, slipped := true }) (Reg.LANE_STATUS lane) 5 true) 2 0x02 1
      (lanePort (updLane s lane fun l => { l with fill := 4, slipped := true }) lane) lane))

/-- From every state. (1) A write of LANE_TEST_CTRL that may not take effect (the lane's port is in use, its rate or loop does not suit the lane, or it would change the pattern of a running test) only sets REFUSED; a LANE_TEST_STOP is such a write with ENABLE = 0; (2) any other stores bits 8:0 and clears REFUSED, and IN_TEST shows a test or a loop; with ENABLE on a lane without a test it then starts one (testBegin); with ENABLE = 0 on one with a test that ends first (testEnd); unless a test starts, a loop holds the port in detect; (3) the checker sees the lane's bits, or the lane's own pattern in the near loop, and locks after 64 without an error in a running test whose reference is not lost; in the far loop the bits are sent again; (4) 16 errors or more in the last 256 bits of a running test lose the lock (prbsUnlock); fewer change nothing; (5) a shot inverts one bit (injectBit), on a lane without a test not within 1 µs of the last; the rate tick does so only in rate mode, during a test, with an exponent of 10 to 40; (6) a margin write without START takes its fields; with START on a sampler its link holds it shows BUSY, with offset and dwell in range it runs with count 0, out of range it is ignored; the errors at LIMIT, or 1,024 blocks below it, end it with both counts shown, no other reading does; (7) a link margin command on a PCI Express lane whose link is up at 16.0 GT/s or above is answered (marginReply): a capability, the error limit it sets, normal settings, which free the sampler, a cleared log, and a step, which takes the sampler (linkTakes) or is refused beyond 32 in time or 64 in voltage; on any other lane it has no effect. -/
def Obligations.LaneTestsInjectionAndMargin : Prop :=
  (∀ (s : State) (n : Nat) (v : Word),
    ((testMay s n = false ∨ testForm s n v = false ∨
        (rdB s (Reg.LANE_TEST_STATUS n) 0 = true ∧ getB v 0 = true ∧ getF v 2 1 ≠ rdF s (Reg.LANE_TEST_CTRL n) 2 1)) →
      exec (.laneTestStart n v) s = .next (wrB s (Reg.LANE_TEST_STATUS n) 2 true)) ∧
    exec (.laneTestStop n v) s = exec (.laneTestStart n (setB v 0 false)) s) ∧
  (∀ (s t : State) (n : Nat) (v : Word), testMay s n = true → testForm s n v = true →
    (rdB s (Reg.LANE_TEST_STATUS n) 0 = false ∨ getB v 0 = false ∨ getF v 2 1 = rdF s (Reg.LANE_TEST_CTRL n) 2 1) →
    t = wrB (wrB (wrN (if rdB s (Reg.LANE_TEST_STATUS n) 0 && !(getB v 0) then testEnd s n else s) (Reg.LANE_TEST_CTRL n) (getF v 8 0))
      (Reg.LANE_TEST_STATUS n) 2 false) (Reg.LANE_STATUS n) 7 (getB v 0 || decide (getF v 7 6 ≠ 0)) →
    (rdB s (Reg.LANE_TEST_STATUS n) 0 = false → getB v 0 = true → exec (.laneTestStart n v) s = .next (testBegin t n v)) ∧
    ((rdB s (Reg.LANE_TEST_STATUS n) 0 = true ∨ getB v 0 = false) →
      exec (.laneTestStart n v) s = .next (if getF v 7 6 ≠ 0 then holdPort t n else t))) ∧
  (∀ (s t : State) (n : Nat) (bits got : List Bool), t = (if rdF s (Reg.LANE_TEST_CTRL n) 7 6 = 2 then emit s (.loopBits n bits) else s) →
    got = (if rdF t (Reg.LANE_TEST_CTRL n) 7 6 = 1 && !(rdB t (Reg.LANE_TEST_CTRL n) 8) then prbsStart (rdF t (Reg.LANE_TEST_CTRL n) 2 1) 128 else bits) →
    exec (.prbsCheckerLock n bits) s = .next (
      if rdB t (Reg.LANE_TEST_STATUS n) 0 && !(rdB t (Reg.LANE_TEST_STATUS n) 1) && !(t.pg.get (n / 8)).refDown
          && prbsSync (rdF t (Reg.LANE_TEST_CTRL n) 2 1) got then
        updLane (wrB t (Reg.LANE_TEST_STATUS n) 1 true) n fun l => { l with cmpAt := some t.now } else t)) ∧
  (∀ (s : State) (n : Nat) (bits : List Bool), bits.length ≤ 256 →
    (rdB s (Reg.LANE_TEST_STATUS n) 0 = true → 16 ≤ bits.countP id → exec (.prbsLockLoss n bits) s = .next (prbsUnlock s n (bits.countP id))) ∧
    ((rdB s (Reg.LANE_TEST_STATUS n) 0 = false ∨ bits.countP id < 16) → exec (.prbsLockLoss n bits) s = .next s)) ∧
  (∀ (s : State) (n : Nat),
    ((rdB s (Reg.LANE_TEST_STATUS n) 0 = true ∨ ∀ b, (s.lane.get n).lastShot = some b → b + 1600 ≤ s.now) →
      exec (.injectShot n) s = .next (injectBit (updLane s n fun x => { x with lastShot := some s.now }) n)) ∧
    (∀ b, rdB s (Reg.LANE_TEST_STATUS n) 0 = false → (s.lane.get n).lastShot = some b → s.now < b + 1600 →
      exec (.injectShot n) s = .next s) ∧
    exec (.injectRateTick n) s = .next (if rdB s (Reg.LANE_INJ_CTRL n) 1 && rdB s (Reg.LANE_TEST_STATUS n) 0 &&
      decide (10 ≤ rdF s (Reg.LANE_INJ_CTRL n) 13 8) && decide (rdF s (Reg.LANE_INJ_CTRL n) 13 8 ≤ 40) then injectBit s n else s)) ∧
  (∀ (s : State) (n : Nat) (v : Word),
    (getB v 0 = false → exec (.marginStart n v) s = .next (wrF s (Reg.LANE_MARGIN_CTRL n) 15 1 (getF v 15 1))) ∧
    (getB v 0 = true → (s.lane.get n).linkHolds = true → exec (.marginStart n v) s = .next (wrF s (Reg.LANE_MARGIN_STATUS n) 2 0 4)) ∧
    (getB v 0 = true → (s.lane.get n).linkHolds = false → exec (.marginStart n v) s = .next (
      if (if getF v 2 1 < 2 then 32 else 64) < getF v 9 3 || decide (getF v 15 10 = 0) then s else
        wrN (wrF (wrF s (Reg.LANE_MARGIN_CTRL n) 15 1 (getF v 15 1)) (Reg.LANE_MARGIN_STATUS n) 2 0 1) (Reg.LANE_MARGIN_COUNT n) 0)) ∧
    (∀ errs blocks, exec (.marginDone n errs blocks) s = .next (
      if rdF s (Reg.LANE_MARGIN_STATUS n) 2 0 = 1 ∧ ((errs = rdF s (Reg.LANE_MARGIN_CTRL n) 15 10 ∧ blocks ≤ 1024) ∨
          (errs < rdF s (Reg.LANE_MARGIN_CTRL n) 15 10 ∧ blocks = 1024)) then
        wrN (wrF s (Reg.LANE_MARGIN_STATUS n) 2 0 2) (Reg.LANE_MARGIN_COUNT n) (errs + blocks * 64) else s))) ∧
  (∀ (s : State) (n : Nat) (c : MarginCmd) (eyes : List Nat),
    (laneMode s n = 1 → dlUp s (lanePort s n) = true → 3 ≤ rdF s (Reg.LANE_RATE n) 2 0 →
      (∀ k, exec (.linkMarginCommand n (.capability k) eyes) s = .next (emit (marginCap s n k).2 (.marginReply n (marginCap s n k).1))) ∧
      (∀ l, exec (.linkMarginCommand n (.errorLimit l) eyes) s =
        .next (emit (updLane s n fun x => { x with linkLimit := l % 64 }) (.marginReply n (0xC0 + l % 64)))) ∧
      exec (.linkMarginCommand n .normal eyes) s =
        .next (emit (updLane s n fun x => { x with linkHolds := false, linkStep := none }) (.marginReply n 0x0F)) ∧
      exec (.linkMarginCommand n .clearLog eyes) s = .next (emit s (.marginReply n 0x55)) ∧
      (∀ r k, exec (.linkMarginCommand n (.timing r k) eyes) s = .next (if 32 < k then emit s (.marginReply n 0xC0)
        else emit (linkTakes s n (false, r, k)) (.marginReply n (marginAnswer (s.lane.get n).linkLimit eyes)))) ∧
      (∀ u k, exec (.linkMarginCommand n (.voltage u k) eyes) s = .next (if 64 < k then emit s (.marginReply n 0xC0)
        else emit (linkTakes s n (true, u, k)) (.marginReply n (marginAnswer (s.lane.get n).linkLimit eyes))))) ∧
    ((laneMode s n ≠ 1 ∨ dlUp s (lanePort s n) = false ∨ rdF s (Reg.LANE_RATE n) 2 0 < 3) → exec (.linkMarginCommand n c eyes) s = .next s))

/-- From every state, for every form of the commands of lane n: (1) PRBS_CHECKER_LOCK, PRBS_LOCK_LOSS, INJECT_SHOT, INJECT_RATE_TICK, MARGIN_START, MARGIN_DONE and LINK_MARGIN_COMMAND answer a next state in which every register outside the 4 KiB page of lane n, the record of every other lane and every other field of the state but the outputs and the free-value counter are unchanged; (2) LANE_TEST_START and LANE_TEST_STOP likewise, but that the state register (NZL_STATUS or PCIE_STATUS) and the record of the port that the lane belongs to, which a test holds in detect, may change too; (3) the outputs that any of them adds are inverted bits, a pattern, an idle transmitter, looped bits or a margin answer of lane n. -/
def Obligations.LaneCommandsStayInTheirLane : Prop :=
  (∀ (c : Instr) (n : Nat),
    ((∃ b, c = .prbsCheckerLock n b) ∨ (∃ b, c = .prbsLockLoss n b) ∨ c = .injectShot n ∨ c = .injectRateTick n ∨
      (∃ v, c = .marginStart n v) ∨ (∃ e b, c = .marginDone n e b) ∨ (∃ m e, c = .linkMarginCommand n m e)) →
    ∀ s : State, ∃ t, exec c s = .next t ∧ t = { s with regs := t.regs, lane := t.lane, out := t.out, free := t.free } ∧
      (∀ a, a / 0x1000 ≠ 0x200 + n → rd t a = rd s a) ∧ (∀ m, m ≠ n → t.lane.get m = s.lane.get m)) ∧
  (∀ (c : Instr) (n : Nat), ((∃ v, c = .laneTestStart n v) ∨ (∃ v, c = .laneTestStop n v)) →
    ∀ s : State, ∃ t, exec c s = .next t ∧
      t = { s with regs := t.regs, lane := t.lane, member := t.member, out := t.out, free := t.free } ∧
      (∀ a, a / 0x1000 ≠ 0x200 + n → a ≠ Reg.NZL_STATUS (lanePort s n) → a ≠ Reg.PCIE_STATUS (lanePort s n) → rd t a = rd s a) ∧
      (∀ m, m ≠ n → t.lane.get m = s.lane.get m) ∧ (∀ m, m ≠ lanePort s n → t.member.get m = s.member.get m)) ∧
  (∀ (c : Instr) (n : Nat),
    ((∃ v, c = .laneTestStart n v) ∨ (∃ v, c = .laneTestStop n v) ∨ (∃ b, c = .prbsCheckerLock n b) ∨ (∃ b, c = .prbsLockLoss n b) ∨
      c = .injectShot n ∨ c = .injectRateTick n ∨ (∃ v, c = .marginStart n v) ∨ (∃ e b, c = .marginDone n e b) ∨
      (∃ m e, c = .linkMarginCommand n m e)) →
    ∀ s : State, ∃ t l, exec c s = .next t ∧ t.out = s.out ++ l ∧
      ∀ x ∈ l, x = .inject n ∨ x = .laneIdle n ∨ (∃ a b, x = .pattern n a b) ∨ (∃ b, x = .loopBits n b) ∨ ∃ v, x = .marginReply n v)

/-- From every state. (1) A fault's arrival first does what its own unit keeps of it (faultMark) and then records it (recordFault); (2) of a fault, management SRAM's uncorrectable error (unit 17, code 2) drops the firmware held there, a link-memory error (unit 6, code 6) counts, an uncorrectable page bitmap (unit 8, code 3) takes the landing buffer out while it serves, an uncorrectable hedge slot (unit 13, code 4) refuses with reason 7; a fault of no such unit and code leaves the state; (3) the pulse lasts 4 µs at least: its end moves ERR_N to HELD, or to IDLE where CLEAR came during it; with no pulse nothing changes; (4) CLEAR during the pulse is kept for its end; in HELD it moves ERR_N to IDLE at once; else it changes nothing; (5) FAULT_RECORD_CLEAR clears VALID and OVERFLOW of that unit and renews ANY_F and ANY_U (fltStatus); (6) COUNTER_OVF_CLEAR clears OVF, which a wrap in the same cycle sets again. -/
def Obligations.ErrNPulseAndHold : Prop :=
  (∀ (s : State) (f : FaultSrc), exec (.faultArrival f) s = .next (recordFault (faultMark s f) f)) ∧
  (∀ (s : State) (f : FaultSrc),
    (f.unit = 17 → f.code = 2 → faultMark s f = { s with ret := { s.ret with firmware := none } }) ∧
    (f.unit = 6 → f.code = 6 → faultMark s f = bumpF s Reg.BUF_LINK_ERR 31 16 1) ∧
    (f.unit = 8 → f.code = 3 → faultMark s f = if landServes s then bufferOut s else s) ∧
    (f.unit = 13 → f.code = 4 → faultMark s f = { s with hedge := { s.hedge with bad := s.hedge.bad ++ [(f.addr.toNat, 7)] } }) ∧
    (¬ (f.unit = 17 ∧ f.code = 2) → ¬ (f.unit = 6 ∧ f.code = 6) → ¬ (f.unit = 8 ∧ f.code = 3) → ¬ (f.unit = 13 ∧ f.code = 4) →
      faultMark s f = s)) ∧
  (∀ (s t : State), t = timeTo s (s.flt.pulseAt + 6400) →
    (rdF s Reg.FLT_STATUS 3 2 = 1 → exec .errNPulseEnd s =
      .next (errN { t with flt := { t.flt with clearDue := false } } (if t.flt.clearDue then 0 else 2))) ∧
    (rdF s Reg.FLT_STATUS 3 2 ≠ 1 → exec .errNPulseEnd s = .next s)) ∧
  (∀ s : State,
    (rdF s Reg.FLT_STATUS 3 2 = 1 → exec .errNClear s = .next { s with flt := { s.flt with clearDue := true } }) ∧
    (rdF s Reg.FLT_STATUS 3 2 = 2 → exec .errNClear s = .next (errN s 0)) ∧
    (rdF s Reg.FLT_STATUS 3 2 ≠ 1 → rdF s Reg.FLT_STATUS 3 2 ≠ 2 → exec .errNClear s = .next s)) ∧
  (∀ (s : State) (u : Nat), exec (.faultRecordClear u) s = .next (fltStatus (wrF s (Reg.FLT_REC_INFO u) 1 0 0))) ∧
  (∀ (s : State) (g j : Nat) (w : Bool), exec (.counterOvfClear g j w) s = .next (wrB s (Reg.CNT_LIVE_HI g j) 31 w))

/-- For a switch die that is alive, a fault of a unit below 19, of class C, other than an uncorrectable page bitmap (unit 8, code 3), and a harvest port that is not enabled: (1) where the unit's record is not VALID, FAULT_ARRIVAL answers a state in which it is VALID with the fault's class, code, zone and zone ID, and FLT_COUNT_C is one higher, up to its end; (2) where it is VALID since an earlier cycle, the answer keeps its class, code, zone and zone ID, sets OVERFLOW, and counts the fault the same way. -/
def Obligations.FirstFaultFillsLaterOverflow : Prop :=
  (∀ (s : State) (f : FaultSrc), s.root.dieDead = false → f.unit < 19 → ¬ (f.unit = 8 ∧ f.code = 3) → f.cls = 1 → rdB s Reg.HVST_CFG 1 = false →
    rdB s (Reg.FLT_REC_INFO f.unit) 0 = false →
    ∃ t, exec (.faultArrival f) s = .next t ∧ rdB t (Reg.FLT_REC_INFO f.unit) 0 = true ∧ rdF t (Reg.FLT_REC_INFO f.unit) 3 2 = 1 ∧
      rdF t (Reg.FLT_REC_INFO f.unit) 11 4 = f.code.toNat ∧ rdF t (Reg.FLT_REC_INFO f.unit) 14 12 = f.zone.toNat ∧
      rdN t (Reg.FLT_REC_ZONE f.unit) = f.zid.toNat ∧ rdN t Reg.FLT_COUNT_C = min 0xFFFFFFFF (rdN s Reg.FLT_COUNT_C + 1)) ∧
  (∀ (s : State) (f : FaultSrc), s.root.dieDead = false → f.unit < 19 → ¬ (f.unit = 8 ∧ f.code = 3) → f.cls = 1 → rdB s Reg.HVST_CFG 1 = false →
    rdB s (Reg.FLT_REC_INFO f.unit) 0 = true → s.flt.filledAt.get f.unit ≠ some s.now →
    ∃ t, exec (.faultArrival f) s = .next t ∧ rdB t (Reg.FLT_REC_INFO f.unit) 0 = true ∧ rdB t (Reg.FLT_REC_INFO f.unit) 1 = true ∧
      rdF t (Reg.FLT_REC_INFO f.unit) 11 2 = rdF s (Reg.FLT_REC_INFO f.unit) 11 2 ∧
      rdF t (Reg.FLT_REC_INFO f.unit) 14 12 = rdF s (Reg.FLT_REC_INFO f.unit) 14 12 ∧
      rd t (Reg.FLT_REC_ZONE f.unit) = rd s (Reg.FLT_REC_ZONE f.unit) ∧
      rdN t Reg.FLT_COUNT_C = min 0xFFFFFFFF (rdN s Reg.FLT_COUNT_C + 1))

/-- From every state. (1) XOFF refreshes the flow time (flowSet) and counts, and unless the port is LOST holds back the next record; a port not running ignores it; (2) XON refreshes it and records start again; a port not running ignores it; (3) 100 µs without a set: LOST, RX_LOCK clear, HVST_LOST counted, and HVST fault 0x01 of class U; LOST or not running, nothing changes; (4) a record's end frees its bytes, counts the record, its bytes and the full units of 64 bytes, and the next starts; with none sending nothing changes; (5) after drops, at most once a ms, a DROP record with the five counts is offered, and where it has room (36 bytes) the counts begin anew; with no drop, or not running, nothing changes; (6) every CNT_PERIOD ms a snapshot copies every live counter and queues its groups; while an earlier one is queued it is skipped and counted; CNT_PERIOD 0, or not running, nothing changes. -/
def Obligations.HarvestFlowAndRecords : Prop :=
  (∀ (s t : State), t = count (bump (flowSet s) Reg.HVST_XOFF) 126 8 →
    (s.hvst.running = true → exec .xoffReceive s = .next (if rdF t Reg.HVST_STATUS 1 0 = 0 then t else wrF t Reg.HVST_STATUS 1 0 3)) ∧
    (s.hvst.running = false → exec .xoffReceive s = .next s)) ∧
  (∀ s : State, (s.hvst.running = true → exec .xonReceive s = .next (hvGo (wrF (flowSet s) Reg.HVST_STATUS 1 0 2))) ∧
    (s.hvst.running = false → exec .xonReceive s = .next s)) ∧
  (∀ s : State,
    (s.hvst.running = true → rdF s Reg.HVST_STATUS 1 0 ≠ 0 → exec .harvestFlowLostExpiry s =
      .next (faultU (bump (wrB (wrF (timeTo s (s.hvst.setAt + 160000)) Reg.HVST_STATUS 1 0 0) Reg.HVST_STATUS 2 false) Reg.HVST_LOST) 18 0x01 2 0)) ∧
    ((s.hvst.running = false ∨ rdF s Reg.HVST_STATUS 1 0 = 0) → exec .harvestFlowLostExpiry s = .next s)) ∧
  (∀ (s a b : State) (r : HvRec),
    a = countBy (count (bump (wrF s Reg.HVST_FILL 16 0 (rdF s Reg.HVST_FILL 16 0 - r.bytes.length)) Reg.HVST_SENT) 126 0) 126 1
      r.bytes.length →
    b = bumpBy a Reg.HVST_BYTES ((a.hvst.rem + r.bytes.length) / 64) →
    (s.hvst.sending = some r → exec .harvestRecordEnd s =
      .next (hvGo (updHv (wrB b Reg.HVST_STATUS 3 false) fun h => { h with sending := none, rem := (h.rem + r.bytes.length) % 64 }))) ∧
    (s.hvst.sending = none → exec .harvestRecordEnd s = .next s)) ∧
  (∀ s t u : State, t = timeTo s (s.hvst.dropAt.elim 0 fun b => b + 1600000) → u = hvOffer t 0 6 ((t.hvst.drops.take 5).flatMap (leBytes 4)) →
    (s.hvst.running = true → s.hvst.drops.sum ≠ 0 → exec .harvestDropExpiry s =
      .next (if rdF t Reg.HVST_FILL 16 0 + 36 ≤ 65536 then updHv u fun h => { h with drops := [0, 0, 0, 0, 0, 0], dropAt := some u.now } else u)) ∧
    ((s.hvst.running = false ∨ s.hvst.drops.sum = 0) → exec .harvestDropExpiry s = .next s)) ∧
  (∀ (s t : State), t = updHv (timeTo s (s.hvst.snapAt + rdF s Reg.HVST_CFG 31 16 * 1600000)) (fun h =>
      { h with snapAt := (timeTo s (s.hvst.snapAt + rdF s Reg.HVST_CFG 31 16 * 1600000)).now }) →
    (s.hvst.running = true → rdF s Reg.HVST_CFG 31 16 ≠ 0 → exec .harvestSnapshotExpiry s = .next (
      if t.hvst.toQueue ≠ [] then count (bump t Reg.HVST_SNAP_SKIP) 126 9
      else updHv t fun h => { h with snapNo := h.snapNo + 1, shadow := cntCopy t, toQueue := hvGroups t })) ∧
    ((s.hvst.running = false ∨ rdF s Reg.HVST_CFG 31 16 = 0) → exec .harvestSnapshotExpiry s = .next s))

/-- From every state; t is the state with the request begun (beginReq). (1) MB_RING, of a MEF that answers, with the management core running, hosts below 32 and slots below 4: an idle slot sets BUSY, counts, and queues the words its buffer holds (enterQueue); one BUSY or READY only sets OVERRUN and counts; otherwise it changes nothing; (2) MB_ACK of such a slot clears READY and nothing else; (3) a request over MCTP enters the same queue while the core runs and fewer than four of that issuer wait; else it is not taken; SET_ENDPOINT_ID keeps the ID; (4) at its turn, GET_STATUS of a host or the board management controller is answered with its seven registers, also in a brace and from the boot ROM; (5) VIEW of a host, firmware running, also in a brace: kinds 1 to 6 answer, after their number, at most 60 entries of the last snapshot from FIRST on that belong to the issuer, or to any host for the manager; another kind is MALFORMED; (6) COUNTER_READ, also in a brace, of a group the issuer may read answers its counters, of another NOT_PERMITTED, of a group above 127 MALFORMED; (7) a served COUNTER_MAP of a group the host may map takes the lowest free counter slot and answers its offset, with none free NO_RESOURCE, without the right NOT_PERMITTED, above 127 MALFORMED; (8) a served COUNTER_UNMAP empties every slot of the host that holds the group, without one it is answered NOT_FOUND (notFound), above 127 MALFORMED. -/
def Obligations.MailboxStatusViewAndCounters : Prop :=
  (∀ (s : State) (h k : Nat),
    (mefAnswers s h = true → mgmtRuns s = true → h < 32 → k < 4 → exec (.mbRing h k) s = .next (
      if rdF s (Reg.MB_STATUS h k) 1 0 = 0 then
        enterQueue (count (wrB s (Reg.MB_STATUS h k) 0 true) (80 + h) 20) { host := h, slot := k }
          (bufferWords (count (wrB s (Reg.MB_STATUS h k) 0 true) (80 + h) 20) h k)
      else bump (wrB s (Reg.MB_STATUS h k) 2 true) Reg.MGMT_OVERRUN)) ∧
    ((mefAnswers s h = false ∨ mgmtRuns s = false ∨ 32 ≤ h ∨ 4 ≤ k) → exec (.mbRing h k) s = .next s)) ∧
  (∀ (s : State) (h k : Nat), (mefAnswers s h = true → h < 32 → k < 4 → exec (.mbAck h k) s = .next (wrB s (Reg.MB_STATUS h k) 1 false)) ∧
    ((mefAnswers s h = false ∨ 32 ≤ h ∨ 4 ≤ k) → exec (.mbAck h k) s = .next s)) ∧
  (∀ (s : State) (k : Nat) (ws : List Word) (e : Byte),
    (mgmtRuns s = true → (s.mgmt.queue.filter fun r => r.src.host == bmc).length < 4 →
      exec (.mctpRequest k ws) s = .next (enterQueue s { host := bmc, slot := k } ws)) ∧
    ((mgmtRuns s = false ∨ 4 ≤ (s.mgmt.queue.filter fun r => r.src.host == bmc).length) → exec (.mctpRequest k ws) s = .next s) ∧
    exec (.setEndpointId e) s = .next { s with mgmt := { s.mgmt with eid := e } }) ∧
  (∀ (s t : State) (q : ReqSrc), turnOf s q = true → t = beginReq s q → exec (.getStatus q) s = .next (reply t q 0x0001 0
    [ rd t Reg.GLB_START_STATUS, rd t Reg.GLB_START_FAIL, rd t Reg.SEED_STATUS, rd t Reg.SEED_FAIL_A, rd t Reg.SEED_FAIL_B,
      rd t Reg.SEED_FUSE_STATE, rd t Reg.GLB_SWITCH_ID ])) ∧
  (∀ (s t : State) (q : ReqSrc) (kind first : Nat) (es : List ViewEntry), turnOf s q = true → mayIssue s q { h := true } = true →
    rdB s Reg.MGMT_STATUS 1 = true → t = beginReq s q →
    es = ((t.mgmt.views.filter fun v => v.kind == kind && (v.owner == q.host || decide (q.host = mgr t))).drop first).take 60 →
    (1 ≤ kind → kind ≤ 6 → exec (.view q kind first) s = .next (reply t q 0x0002 0 (w32 es.length :: es.flatMap ViewEntry.words))) ∧
    ((kind = 0 ∨ 6 < kind) → exec (.view q kind first) s = .next (reply t q 0x0002 0x03 []))) ∧
  (∀ (s t : State) (q : ReqSrc) (g : Nat), turnOf s q = true → mayIssue s q { h := true, b := true } = true → rdB s Reg.MGMT_STATUS 1 = true →
    t = beginReq s q → exec (.counterRead q g) s = .next (
      if 128 ≤ g then reply t q 0x0401 0x03 [] else if q.host = bmc ∨ counterRight t q.host g ≠ 0 then reply t q 0x0401 0 (counterWords t g)
      else reply t q 0x0401 0x02 [])) ∧
  (∀ (s t : State) (q : ReqSrc) (g : Nat) (o : Option Nat), Served s q 0x0402 { h := true } → t = beginReq s q →
    o = ((List.range 48).find? fun i => decide (t.mgmt.slots.get (64 * q.host + i) = 0)) →
    (128 ≤ g → exec (.counterMap q g) s = .next (reply t q 0x0402 0x03 [])) ∧
    (g < 128 → counterRight t q.host g < 2 → exec (.counterMap q g) s = .next (reply t q 0x0402 0x02 [])) ∧
    (g < 128 → 2 ≤ counterRight t q.host g → o = none → exec (.counterMap q g) s = .next (reply t q 0x0402 0x06 [])) ∧
    (∀ i, g < 128 → 2 ≤ counterRight t q.host g → o = some i → exec (.counterMap q g) s =
      .next (reply (noteSlotsOf { t with mgmt := { t.mgmt with slots := t.mgmt.slots.set (64 * q.host + i) (g + 1) } } q.host) q 0x0402 0
        [w32 (0x10000 + i * 0x1000)]))) ∧
  (∀ (s t : State) (q : ReqSrc) (g : Nat) (mine : List Nat), Served s q 0x0403 { h := true } → t = beginReq s q →
    mine = ((List.range 48).filter fun i => decide (t.mgmt.slots.get (64 * q.host + i) = g + 1)) →
    exec (.counterUnmap q g) s = .next (if 128 ≤ g then reply t q 0x0403 0x03 [] else if mine = [] then notFound t q 0x0403 6 g
      else reply (noteSlotsOf (mine.foldl (fun s i => { s with mgmt := { s.mgmt with slots := s.mgmt.slots.set (64 * q.host + i) 0 } }) t)
        q.host) q 0x0403 0 []))

/-- From every state; t is the state with the request begun (beginReq). (1) A PROVISION of the board management controller at its turn outside a brace, on a part not provisioned, fuses both key hashes and the secret, shows PROVISIONED and answers the attestation public key; on a provisioned part it is answered STATE and does nothing else; (2) ATTEST of a host or the board management controller at its turn, firmware running, also in a brace, while none is in progress: before provisioning it is answered STATE; at 2^20 leaves, or 64 reports of this start, ATTEST_LIMIT; else the rootstock die is asked to advance the leaf, and nothing is answered yet; (3) while one is in progress the row changes nothing; (4) the confirmation advances the leaf, counts the report and answers it, signed with the leaf read; with no ATTEST in progress it changes nothing; (5) after 1 ms without confirmation nothing is signed and the answer is DEVICE_ERROR; whether the leaf moved is a free value (freshBits); with none in progress it changes nothing. -/
def Obligations.ProvisionAndAttest : Prop :=
  (∀ (s t : State) (q : ReqSrc) (h0 h1 x : BitVec 256), braced s = false → turnOf s q = true → q.host = bmc → t = beginReq s q →
    (t.root.provisioned = true → exec (.provision q h0 h1 x) s = .next (reply t q 0x0101 0x07 [])) ∧
    (∀ u, t.root.provisioned = false →
      u = wrB { t with root := { t.root with keyHash0 := h0, keyHash1 := h1, attSecret := x, provisioned := true } } Reg.SEED_FUSE_STATE 0 true →
      exec (.provision q h0 h1 x) s = .next (reply u q 0x0101 0 (byteWords (attestPub u))))) ∧
  (∀ (s t : State) (q : ReqSrc) (n : BitVec 256), s.mgmt.attWait = none → turnOf s q = true → mayIssue s q { h := true, b := true } = true →
    rdB s Reg.MGMT_STATUS 1 = true → t = beginReq s q →
    exec (.attest q n) s = .next (if t.root.provisioned = false then reply t q 0x0701 0x07 []
      else if t.root.attLeaf = 2 ^ 20 ∨ 64 ≤ rdF t Reg.MGMT_ATTEST_COUNT 6 0 then reply t q 0x0701 0x0A []
      else emit { t with mgmt := { t.mgmt with attWait := some (q, n), attAt := t.now } } (.root "leaf counter advance" t.root.attLeaf))) ∧
  (∀ (s : State) (q : ReqSrc) (n : BitVec 256), s.mgmt.attWait ≠ none → exec (.attest q n) s = .next s) ∧
  (∀ (s t : State) (q : ReqSrc) (n : BitVec 256),
    t = bumpF (noteLeaf { s with mgmt := { s.mgmt with attWait := none }, root := { s.root with attLeaf := s.root.attLeaf + 1 } })
      Reg.MGMT_ATTEST_COUNT 6 0 1 →
    (s.mgmt.attWait = some (q, n) → exec .attestLeafConfirm s = .next (reply t q 0x0701 0 (byteWords (report t n s.root.attLeaf)))) ∧
    (s.mgmt.attWait = none → exec .attestLeafConfirm s = .next s)) ∧
  (∀ (s t u : State) (q : ReqSrc) (n : BitVec 256), t = (freshBits (timeTo s (s.mgmt.attAt + 1600000)) 1).2 →
    u = { t with mgmt := { t.mgmt with attWait := none },
                 root := { t.root with attLeaf := t.root.attLeaf + (freshBits (timeTo s (s.mgmt.attAt + 1600000)) 1).1.toNat } } →
    (s.mgmt.attWait = some (q, n) → exec .attestLeafTimeout s = .next (reply (noteLeaf u) q 0x0701 0x0B [])) ∧
    (s.mgmt.attWait = none → exec .attestLeafTimeout s = .next s))

/-- For requests the seed unit takes (SeedServed); t is the state with the request begun (beginReq). (1) SEED_BEGIN of a copy above 1 is answered MALFORMED, in service of the copy in use ENVELOPE; else the copy is erased whole and ERASING shown; (2) the end of the erase shows RECEIVING and answers OK, a failed one ends the update (seedFail); with no erase in progress nothing changes; (3) SEED_WRITE: a bad offset or size is MALFORMED, a write while not RECEIVING is STATE; a page below 0x2000 is held and answered at once, one above is programmed; (4) SEED_END while RECEIVING begins with the head page at 0x1F00, else it is answered STATE; (5) a finished program operation puts its bytes into the flash and counts: a page outside the head is then answered, after a head page the next lower one follows, after page 0 the update ends with OK; (6) a failed one ends the update; with none in progress nothing changes. -/
def Obligations.SeedUpdateByPages : Prop :=
  (∀ (s t u : State) (q : ReqSrc) (c : Nat), SeedServed s q → t = beginReq s q → u = eraseCopy (wrN t Reg.SEED_UPDATE_STATUS 1) c →
    exec (.seedBegin q c) s = .next (if 2 ≤ c then reply t q 0x0102 0x03 []
      else if seedOpen t = false ∧ rdF t Reg.SEED_ACTIVE 0 0 = c then reply t q 0x0102 0x04 []
      else emit { u with seed := { u.seed with updCopy := c, updPending := some q, held := [] } } (.flash "erase copy" (copyBase c)))) ∧
  (∀ (s : State) (ok : Bool),
    (∀ q, s.seed.updPending = some q → rdF s Reg.SEED_UPDATE_STATUS 1 0 = 1 → exec (.seedEraseDone ok) s = .next (
      if ok then reply { wrF s Reg.SEED_UPDATE_STATUS 1 0 2 with seed := { s.seed with updPending := none } } q 0x0102 0x00 []
      else seedFail s q 0x0102)) ∧
    ((s.seed.updPending = none ∨ rdF s Reg.SEED_UPDATE_STATUS 1 0 ≠ 1) → exec (.seedEraseDone ok) s = .next s)) ∧
  (∀ (s t : State) (q : ReqSrc) (off : Nat) (data : List Word) (bs : List Byte), SeedServed s q → t = beginReq s q →
    bs = (data.flatMap fun w => leBytes 4 w.toNat) →
    exec (.seedWrite q off data) s = .next (if off % 256 ≠ 0 ∨ 2 ^ 24 ≤ off ∨ data.length ≠ 64 then reply t q 0x0103 0x03 []
      else if rdF t Reg.SEED_UPDATE_STATUS 1 0 ≠ 2 then reply t q 0x0103 0x07 []
      else if off < 0x2000 then
        reply { t with seed := { t.seed with held := (t.seed.held.filter fun x => x.1 ≠ off) ++ [(off, bs)] } } q 0x0103 0x00 []
      else programPage { t with seed := { t.seed with updPending := some q } } off bs)) ∧
  (∀ (s t : State) (q : ReqSrc), SeedServed s q → t = beginReq s q → exec (.seedEnd q) s = .next (
    if rdF t Reg.SEED_UPDATE_STATUS 1 0 ≠ 2 then reply t q 0x0104 0x07 []
    else programPage { t with seed := { t.seed with updPending := some q, headOp := some 31 } } 0x1F00 (headPage t 31))) ∧
  (∀ (s t : State) (q : ReqSrc) (a : Nat) (bs : List Byte), s.seed.programming = some (a, bs) → s.seed.updPending = some q →
    t = { bumpF (flashPut s a bs) Reg.SEED_UPDATE_STATUS 31 8 1 with
          seed := { (bumpF (flashPut s a bs) Reg.SEED_UPDATE_STATUS 31 8 1).seed with programming := none } } →
    (t.seed.headOp = none → exec (.seedProgramDone true) s =
      .next (reply { t with seed := { t.seed with updPending := none } } q 0x0103 0x00 [])) ∧
    (∀ i, t.seed.headOp = some (i + 1) → exec (.seedProgramDone true) s =
      .next (programPage { t with seed := { t.seed with headOp := some i } } (256 * i) (headPage t i))) ∧
    (t.seed.headOp = some 0 → exec (.seedProgramDone true) s =
      .next (reply (wrF { t with seed := { t.seed with updPending := none, headOp := none, held := [] } }
        Reg.SEED_UPDATE_STATUS 1 0 0) q 0x0104 0x00 []))) ∧
  (∀ (s : State) (ok : Bool),
    (∀ q a bs, s.seed.programming = some (a, bs) → s.seed.updPending = some q →
      exec (.seedProgramDone false) s = .next (seedFail (tearPage s) q (if s.seed.headOp.isSome then 0x0104 else 0x0103))) ∧
    ((s.seed.programming = none ∨ s.seed.updPending = none) → exec (.seedProgramDone ok) s = .next s))

/-- From every state. (1) A SEED_PROGRAM_DONE that succeeds, with a page (a, bs) in progress, answers a state in which the bytes from a on are bs and every other byte of the flash is as it was; (2) SEED_BEGIN of copy 0 or 1 that the seed unit takes and that is not in use answers a state in which every byte of that copy reads erased (0xFF) and every byte of the other copy is as it was. -/
def Obligations.FlashKeepsWhatNoUpdateProgrammed : Prop :=
  (∀ (s : State) (q : ReqSrc) (a : Nat) (bs : List Byte), s.seed.programming = some (a, bs) → s.seed.updPending = some q →
    ∃ t, exec (.seedProgramDone true) s = .next t ∧
      (∀ b, (b < a ∨ a + bs.length ≤ b) → flashByte t b = flashByte s b) ∧ (∀ i, i < bs.length → flashByte t (a + i) = bs.getD i 0)) ∧
  (∀ (s : State) (q : ReqSrc) (c : Nat), SeedServed s q → c < 2 → (seedOpen s = true ∨ rdF s Reg.SEED_ACTIVE 0 0 ≠ c) →
    ∃ t, exec (.seedBegin q c) s = .next t ∧
      (∀ b, b / 2 ^ 24 ≠ c → flashByte t b = flashByte s b) ∧ (∀ b, b / 2 ^ 24 = c → flashByte t b = 0xFF))

/-- For every request of the table of R539 but the three of the seed unit (requestOf gives its source, code and issuers), while no ATTEST is being signed, and a WARM_RESET outside a brace of either die: (1) during a brace a request that is not served then, and at any time one before its turn, changes nothing, so it stays where it waits; (2) at its turn and not so put off, from a source that is no issuer of it, it is answered NOT_PERMITTED and does nothing else; (3) from an issuer, where the core runs from its boot ROM and that does not serve it, or where it is one that begins with service (serviceCode) and the switch is not in service, it is answered STATE and does nothing else; (4) the three seed requests do nothing while one is carried out, in a brace or before their turn; to a host that is not the manager, and in the open seed step to any host, they answer NOT_PERMITTED. That NOT_PERMITTED goes before STATE is the model's choice (entry 79). -/
def Obligations.RequestsFollowTheIssuerTable : Prop :=
  (∀ (i : Instr) (r : Request), requestOf i = some r → ∀ s : State, s.mgmt.attWait = none →
    (∀ q, i = .warmReset q → braceHolds s = false) →
    ((braced s = true ∧ r.brace = false) ∨ turnOf s r.src = false) → exec i s = .next s) ∧
  (∀ (i : Instr) (r : Request), requestOf i = some r → ∀ s : State, s.mgmt.attWait = none →
    (∀ q, i = .warmReset q → braceHolds s = false) → (braced s = false ∨ r.brace = true) → turnOf s r.src = true →
    mayIssue s r.src r.who = false → exec i s = .next (reply s r.src r.code 0x02 [])) ∧
  (∀ (i : Instr) (r : Request), requestOf i = some r → ∀ s : State, s.mgmt.attWait = none →
    (∀ q, i = .warmReset q → braceHolds s = false) → (braced s = false ∨ r.brace = true) → turnOf s r.src = true →
    mayIssue s r.src r.who = true →
    ((rdB s Reg.MGMT_STATUS 1 = false ∧ r.rom = false) ∨ (serviceCode r.code = true ∧ inService s = false)) →
    exec i s = .next (reply s r.src r.code 0x07 [])) ∧
  (∀ (s : State) (q : ReqSrc),
    ((s.seed.updPending ≠ none ∨ braced s = true ∨ turnOf s q = false) → (∀ c, exec (.seedBegin q c) s = .next s) ∧
      (∀ off ws, exec (.seedWrite q off ws) s = .next s) ∧ exec (.seedEnd q) s = .next s) ∧
    (s.seed.updPending = none → braced s = false → turnOf s q = true → mayIssue s q { m := !(seedOpen s), b := true } = false →
      (∀ c, exec (.seedBegin q c) s = .next (reply s q 0x0102 0x02 [])) ∧
      (∀ off ws, exec (.seedWrite q off ws) s = .next (reply s q 0x0103 0x02 [])) ∧ exec (.seedEnd q) s = .next (reply s q 0x0104 0x02 [])))

/-- From every state. (1) Idle for 2 µs (coreIdle) in service, in P0 with P1_EN, no entry asked for and no brace, it enters P1 and counts; else the row changes nothing; P1_EXIT leaves P1 and counts its time (leaveP1); (2) a write of GO takes TARGET and P1_EN and hands the target to the entry (powerGo), a served POWER_STATE of 2 to 4 does so too; one of another value is MALFORMED; (3) an even LCS with code 0x09 (SLEEP_ACK) puts a port that is up and asked for sleep to sleep (state 4), and the entry goes on (entryPump); with code 0x0A (SLEEP_NAK) the port that asked stays up, and an entry into P2 ends with result 4; t is the state with the groups checked; (4) a PCI Express port that is up, in service, reaches L1, or a substate, and an entry goes on; any other row of it changes nothing; (5) a port not in L1 100 ms after the request ends the entry into P2 with result 4; else nothing; (6) at completion the switch is asleep in the state asked for, PWR_CLK_STATUS shows its clocks (asleepClocks), P2 and P3 count, and in P3 and P4 the rails are off; a level event that waits and wakes that state, no WAKE pin set to edges, takes it out at once (wakeUp); with no entry at its last phase nothing changes. -/
def Obligations.PowerStatesAreEntered : Prop :=
  (∀ (s t : State), t = count (bump (wrF s Reg.PWR_STATE 2 0 1) Reg.PWR_P1_ENTRIES) 114 3 →
    exec .p1IdleExpiry s = .next (if rdB s Reg.PWR_CTRL 4 && decide (rdF s Reg.PWR_STATE 2 0 = 0) && inService s && decide (s.pwr.req = 0)
      && !(braced s) && coreIdle s then updPwr t fun x => { x with p1At := t.now } else s) ∧
    exec .p1Exit s = .next (leaveP1 s)) ∧
  (∀ (s t : State) (p1 : Bool) (r : BitVec 4) (q : ReqSrc) (g : Nat),
    exec (.pwrCtrlGoP2 p1) s = .next (powerGo (pwrCtrl s 2 p1) 2 none 0) ∧
    exec (.pwrCtrlGoP3 p1 r) s = .next (powerGo (pwrCtrl s 3 p1) 3 none r.toNat) ∧
    exec (.pwrCtrlGoP4 p1) s = .next (powerGo (pwrCtrl s 4 p1) 4 none 0) ∧
    (Served s q 0x0202 { b := true } → t = beginReq s q →
      exec (.powerState q g r) s = .next (if g < 2 ∨ 4 < g then reply t q 0x0202 0x03 [] else powerGo t g (some q) r.toNat))) ∧
  (∀ (s t : State) (p d2 d3 : Nat) (g : LaneGroups), t = (receiveGroups s p g).2 →
    (evenSet kLCS (receiveGroups s p g).1 = some (0x09, d2, d3) → exec (.sleepAckReceive p g) s = .next (if nzUp t p && (t.member.get p).sleepReq then
      entryPump (setNz (updMember t p fun m => { m with sleepReq := false, signal := false }) p 4) else t)) ∧
    (evenSet kLCS (receiveGroups s p g).1 = some (0x0A, d2, d3) → exec (.sleepNakReceive p g) s = .next (if (t.member.get p).sleepReq then
      (if t.pwr.req = 2 then abortEntry (updMember t p fun m => { m with sleepReq := false }) 4
        else updMember t p fun m => { m with sleepReq := false }) else t))) ∧
  (∀ (s : State) (p : Nat) (sub : Bool), exec (.pcieL1Entry p sub) s = .next (if isPcie s p && dlUp s p && inService s then
      entryPump (wrB (setLtssm s p 5) (Reg.PCIE_STATUS p) 13 sub) else s)) ∧
  (∀ (s : State) (p : Nat), exec (.p2L1WaitExpiry p) s = .next (if s.pwr.req = 2 && s.pwr.phase = 2 && isPcie s p && dlUp s p
      && decide (rdF s (Reg.PCIE_STATUS p) 3 0 ≠ 5) then abortEntry (timeTo s (s.pwr.reqAt + 160000000)) 4 else s)) ∧
  (∀ (s t v u : State) (w : Option (Nat × Nat)),
    t = wrN (updPwr { s with start := { s.start with phase := .asleep } } fun x => { x with phase := 0, asleep := s.pwr.req })
      Reg.PWR_CLK_STATUS (asleepClocks s.pwr.req) →
    v = (if s.pwr.req = 2 then bumpF t Reg.PWR_SLEEP_ENTRIES 15 0 1 else if s.pwr.req = 3 then bumpF t Reg.PWR_SLEEP_ENTRIES 31 16 1 else t) →
    u = (if s.pwr.req = 2 then v else { v with root := { v.root with railsOn := false } }) →
    (s.pwr.phase = 3 → exec (.stateEntryComplete none) s = .next u) ∧
    (∀ code n, s.pwr.phase = 3 → exec (.stateEntryComplete (some (code, n))) s =
      .next (if wakes u s.pwr.req code n && !(code = 4 && rdB u Reg.PWR_WAKE_CFG 0) then wakeUp u code n else u)) ∧
    (s.pwr.phase ≠ 3 → exec (.stateEntryComplete w) s = .next s))

/-- From every state. (1) Asleep, an event that wakes the present power state takes the switch out of it (wakeUp), any other changes nothing; during an entry one that would wake it ends the entry with result 5, or 2 for a brace (code 5), unless it falls into the last cycles of the last phase; awake with no entry it changes nothing; (2) while AVS runs (avsRuns), an evaluation, 10 ms or more after the last of this start, shows the oscillators; unless held (avsHeld) it asks for a free value in 5 mV units from 0.65 to 0.85 V and steps; while AVS does not run the row changes nothing; (3) the end of a step, 100 µs or more after the last, takes the next step of at most 10 mV (avsStep) while AVS runs; (4) an acknowledgement of the rail change in progress shows READ_VOUT, STATUS_WORD and power good; a good one (changeGood) takes the value, for VDD_CORE in PWR_AVS too, and the next change goes; with no change of that rail in progress nothing changes; (5) 0.8 ms after it was sent without one, a first change is sent again; then a start's rail step fails (railFail), else the failure is counted, shown and raised (PWR fault 0x03 of class U), AVS is held for VDD_CORE, and the change is given up: an entry into P2 or P3 ends with result 2, else the next change goes; a rail with no change in progress changes nothing; (6) a good check of SYS_XTAL changes nothing, a bad one is its loss (clockLost 0); a PLL that loses lock is lost (clockLost); (7) a running clock 0 to 3 lost, in a state neither off nor asleep, is cleared in PWR_CLK_STATUS, counted, and a PWR fault 0x01 of class F; one not running changes nothing. -/
def Obligations.WakesClocksAndRails : Prop :=
  (∀ (s : State) (code n : Nat) (l : Bool),
    (s.pwr.asleep ≠ 0 → exec (.wakeEvent code n l) s = .next (if wakes s s.pwr.asleep code n then wakeUp s code n else s)) ∧
    (s.pwr.asleep = 0 → exec (.wakeEvent code n l) s = .next (
      if s.pwr.req = 0 || (l && decide (s.pwr.phase = 3)) || !(wakes s s.pwr.req code n) then s else abortEntry s (if code = 5 then 2 else 5)))) ∧
  (∀ (s t u : State) (osc : BitVec 10), t = (match s.pwr.evalAt with
      | some a => timeTo s (a + 16000000)
      | none => s) →
    u = wrF (updPwr t fun x => { x with evalAt := some t.now }) Reg.PWR_AVS 19 10 osc.toNat →
    (avsRuns s = true → exec (.avsEvaluationExpiry osc) s = .next (if avsHeld u then u else
      avsStep (updPwr (freshBits u 8).2 fun x => { x with avs := 650 + 5 * ((freshBits u 8).1.toNat % 41) }))) ∧
    (avsRuns s = false → exec (.avsEvaluationExpiry osc) s = .next s)) ∧
  (∀ s : State, exec .avsStepExpiry s = .next (if avsRuns s then avsStep (timeTo s (s.pwr.avsAt + 160000)) else s)) ∧
  (∀ (s t u : State) (rail target : Nat) (mv st : BitVec 16),
    t = wrB (wrF (wrN s (Reg.PWR_RAIL_V rail) mv.toNat) (Reg.PWR_RAIL_STATUS rail) 15 0 st.toNat) (Reg.PWR_RAIL_STATUS rail) 16
      (decide (target ≠ 0) && !(bitN st.toNat 11)) →
    u = wrB (wrN t (Reg.PWR_RAIL_SET rail) target) (Reg.PWR_RAIL_STATUS rail) 17 false →
    (s.rootSt.rails.busy = some (rail, target) → exec (.pmbusChangeAck rail mv st) s = .next (if changeGood rail target mv.toNat st.toNat then
      entryPump (pmbusGo (updRails (if rail = 0 ∧ target ≠ 0 then wrF u Reg.PWR_AVS 9 0 target else u)
        fun x => { x with busy := none, again := false })) else t)) ∧
    ((∀ n, s.rootSt.rails.busy ≠ some (rail, n)) → exec (.pmbusChangeAck rail mv st) s = .next s)) ∧
  (∀ (s t u v : State) (rail target : Nat), t = timeTo s (s.rootSt.rails.at_ + 1280000) →
    u = faultU (wrB (count (bump t Reg.PWR_PMBUS_ERR) 114 4) (Reg.PWR_RAIL_STATUS rail) 17 true) 16 0x03 2 rail →
    v = updRails (if rail = 0 then updPwr u fun x => { x with avsFixed := true } else u) (fun x => { x with busy := none, again := false }) →
    (s.rootSt.rails.busy = some (rail, target) → exec (.pmbusAckTimeout rail) s = .next (
      if t.rootSt.rails.again = false then emit (updRails t fun x => { x with again := true, at_ := t.now }) (.pmbus rail target)
      else if railStep t then railFail t rail
      else if v.pwr.req = 2 ∨ v.pwr.req = 3 then abortEntry (updRails v fun x => { x with queue := [] }) 2 else entryPump (pmbusGo v))) ∧
    (s.rootSt.rails.busy = none → exec (.pmbusAckTimeout rail) s = .next s)) ∧
  (∀ (s : State) (n : Nat), exec (.clockCheckTick true) s = .next s ∧ exec (.clockCheckTick false) s = .next (clockLost s 0) ∧
    exec (.pllLockLoss n) s = .next (clockLost s n)) ∧
  (∀ (s t : State) (n : Nat), t = count (bump (wrB s Reg.PWR_CLK_STATUS n false) Reg.PWR_CLK_FAULT) 114 5 →
    (n ≤ 3 → s.start.phase ≠ .off → s.start.phase ≠ .asleep → rdB s Reg.PWR_CLK_STATUS n = true →
      clockLost s n = faultU t 16 0x01 3 (rdN t Reg.PWR_CLK_STATUS)) ∧
    (rdB s Reg.PWR_CLK_STATUS n = false → clockLost s n = s))

/-- From every state. (1) Four readings of which one reaches 110 °C, with THERM_N released, answer a state with it asserted, whose added outputs begin with THERM_N low; (2) four below 105 °C, with THERM_N asserted, answer one with it released, whose added outputs begin with THERM_N high; (3) four below 110 °C of which one is 105 °C or more keep it as it is; (4) each reading of 120 °C or more keeps the time since when its diode shows it, every other diode has none; (5) a diode at 120 °C for 10 ms, with no thermal brace, the die alive, no commit and the switch not off, braces as the own input does: asleep it warns every switch and is seen as a wake of code 5, with the own input braced already the 2 ms of good input begin anew (notePf), else ownBrace; with any of these otherwise nothing changes; (6) 10 s below 90 °C after a thermal flush with the rails off allow the cold start (flushRestart); else nothing changes. -/
def Obligations.ThermalReadingsAndBrace : Prop :=
  (∀ (s : State) (a b c d : Int), s.rootSt.therm.asserted = false → (110 ≤ a ∨ 110 ≤ b ∨ 110 ≤ c ∨ 110 ≤ d) →
    ∃ t l, exec (.thermalReading [a, b, c, d]) s = .next t ∧ t.rootSt.therm.asserted = true ∧ t.out = s.out ++ .pin .thermN false :: l) ∧
  (∀ (s : State) (a b c d : Int), s.rootSt.therm.asserted = true → a < 105 → b < 105 → c < 105 → d < 105 →
    ∃ t l, exec (.thermalReading [a, b, c, d]) s = .next t ∧ t.rootSt.therm.asserted = false ∧ t.out = s.out ++ .pin .thermN true :: l) ∧
  (∀ (s : State) (a b c d : Int), a < 110 → b < 110 → c < 110 → d < 110 → (105 ≤ a ∨ 105 ≤ b ∨ 105 ≤ c ∨ 105 ≤ d) →
    ∃ t, exec (.thermalReading [a, b, c, d]) s = .next t ∧ t.rootSt.therm.asserted = s.rootSt.therm.asserted) ∧
  (∀ (s : State) (ds : List Int), ∃ t, exec (.thermalReading ds) s = .next t ∧ t.rootSt.therm.hot =
    (List.range (ds.take 4).length).filterMap fun i =>
      if 120 ≤ (ds.take 4).getD i 0 then some (i, ((s.rootSt.therm.hot.find? fun h => h.1 == i).map Prod.snd).getD s.now) else none) ∧
  (∀ s u t : State, u = timeTo s (s.rootSt.therm.hot.foldl (fun m h => min m h.2) s.now + 16000000) →
    t = updPf (updTherm u fun x => { x with brace := true }) (fun x => { x with
      riseAt := if decide (11400 < rdF (updTherm u fun x => { x with brace := true }) Reg.PFAIL_INPUT 15 0) && x.riseAt.isNone
        then some (updTherm u fun x => { x with brace := true }).now else x.riseAt }) →
    (s.rootSt.therm.hot ≠ [] → s.rootSt.therm.brace = false → s.root.dieDead = false → s.pfail.commit = none → s.start.phase ≠ .off →
      exec .thermalBraceExpiry s = .next (if t.pwr.asleep ≠ 0 then wakeSeen (warnAll (wrB t Reg.PFAIL_STATUS 3 true) true) 5 0
        else if rdB t Reg.PFAIL_STATUS 3 then notePf t else ownBrace t)) ∧
    ((s.rootSt.therm.hot = [] ∨ s.rootSt.therm.brace = true ∨ s.root.dieDead = true ∨ s.pfail.commit ≠ none ∨ s.start.phase = .off) →
      exec .thermalBraceExpiry s = .next s)) ∧
  (∀ s : State,
    (∀ b, s.rootSt.therm.cool = some b → s.rootSt.therm.flush = true → s.root.railsOn = false →
      exec .thermalCoolExpiry s = .next (flushRestart (timeTo s (b + 16000000000)))) ∧
    ((s.rootSt.therm.cool = none ∨ s.rootSt.therm.flush = false ∨ s.root.railsOn = true) → exec .thermalCoolExpiry s = .next s))

/-- From every state. (1) A configuration request is dropped in the cloche, and until the seed is loaded draws Configuration Request Retry Status (2) at the port it reached; at a port that is no upstream port UR (1); else it goes where the hierarchy of the port's host says (cfgTo): a function serves it (cfgServe), or what stands behind a vDSP (cfgBelow), or it draws UR; (2) while the MEF answers, a read of BAR4 outside its fence registers is answered (doorbellRead, msixRead), and a write from 0xFC000 on goes to the MSI-X table; every other place has its own row; while it does not, a read draws UR, a protected write is a LOST of kind 5, another write is dropped; (3) a pending vector leaves once Bus Master Enable and its mask allow, and counts, else nothing changes; PME, PME_Turn_Off, D0, Bus Master Enable cleared and set, and a reset take their shared effects (mefPme, turnOffAck, writePmcsr, bmeOff, bmeOn, mefFlr); UP_WAKE_N is released where it is pulled; (4) a completion or time-out of an outstanding read r frees its tag (u); its owner gets its data or its failure, an older generation's completion is counted and dropped; with no such read nothing changes; the drain's end times out every read; (5) on an upstream port whose link is up, a link down resets the hierarchy from Detect (0), a hot reset from state 9; else neither does anything. -/
def Obligations.HostFunctionRequestsAndResets : Prop :=
  (∀ (s : State) (p : Nat) (c : CfgIn),
    (inCloche s = true → exec (.configRequest p c) s = .next s) ∧
    (inCloche s = false → s.seed.loaded = false → exec (.configRequest p c) s = .next (cfgCpl s p c 2 [])) ∧
    (inCloche s = false → s.seed.loaded = true → (portRole s p ≠ 0 ∨ isPcie s p = false) → exec (.configRequest p c) s = .next (cfgCpl s p c 1 [])) ∧
    (inCloche s = false → s.seed.loaded = true → portRole s p = 0 → isPcie s p = true →
      exec (.configRequest p c) s = .next (match cfgTo s (portHost s p) c with
        | .fn f => cfgServe s p (portHost s p) f c
        | .below j b => cfgBelow s p (portHost s p) j b c
        | .nothing => cfgCpl s p c 1 []))) ∧
  (∀ (s : State) (h bar off : Nat) (posted pr : Bool) (r : BitVec 16) (tg : BitVec 10) (v : Word),
    (mefAnswers s h = true → exec (.mefMemoryRequest h posted bar off pr r tg v) s = .next (
      if bar ≠ 4 ∨ (posted = true ∧ off < 0xFC000) ∨ (0x20000 ≤ off ∧ off < 0x24000) then s
      else if posted then msixWrite s h (off - 0xFC000) v
      else emit s (.cpl (upPort s h) r.toNat tg.toNat 0 false [if off < 0xFC000 then doorbellRead s h off else msixRead s h (off - 0xFC000)]))) ∧
    (mefAnswers s h = false → exec (.mefMemoryRequest h posted bar off pr r tg v) s = .next (
      if posted = false then emit s (.cpl (upPort s h) r.toNat tg.toNat 1 false [])
      else if pr then noteReqFree (recFault (recLast (updRec s (reqKey h r.toNat) fun x => { x with port := upPort s h }) (reqKey h r.toNat) (eOpen s))
        (reqKey h r.toNat) (eOpen s) 5) else s))) ∧
  (∀ (s : State) (h v : Nat),
    exec (.msixSend h v) s = .next (if bitN (s.pcie.mef.get h).msixPend v && mefBme s h && msixOpen s h v then
      count (emit (updMef s h fun m => { m with msixPend := setBitN m.msixPend v false }) (msixMsg s h v)) (80 + h) 17 else s) ∧
    exec (.pmeSignal h) s = .next (mefPme s h) ∧
    exec (.pmeTurnOff h) s = .next (turnOffAck (updMef s h fun m => { m with turnOff := some (m.turnOff.getD s.now) }) h) ∧
    exec (.d3hotToD0 h) s = .next (writePmcsr s h 0) ∧ exec (.bmeClear h) s = .next (bmeOff s h) ∧ exec (.bmeSet h) s = .next (bmeOn s h) ∧
    exec (.functionLevelReset h) s = .next (mefFlr s h) ∧
    exec (.upWakePulseExpiry h) s = .next (if (s.pcie.mef.get h).wakeOn then
      emit (updMef s h fun m => { m with wakeOn := false }) (.pin (.upWake h) true) else s)) ∧
  (∀ (s u : State) (h tag : Nat) (r : MefRd) (ok ep : Bool) (data : List Word),
    (((s.pcie.mef.get h).reads.find? fun x => x.tag == tag) = some r → u = endRead s h r →
      (r.gen = mefGen s h → exec (.mefCompletionReceive h tag ok ep data) s = .next (flrTry (readGives u h r.own (ok && !r.refused) ep data) h)) ∧
      (r.gen ≠ mefGen s h → exec (.mefCompletionReceive h tag ok ep data) s = .next (flrTry
        (if inFlr (count (bump u (Reg.PCIE_LATE_CPL (upPort u h))) (80 + h) 19) h then count (bump u (Reg.PCIE_LATE_CPL (upPort u h))) (80 + h) 19
         else readLost (count (bump u (Reg.PCIE_LATE_CPL (upPort u h))) (80 + h) 19) h r.own) h))) ∧
    (((s.pcie.mef.get h).reads.find? fun x => x.tag == tag) = some r → exec (.mefCompletionTimeout h tag) s =
      .next (readEnds (timeTo s (r.at_ + ctoCycles s h)) h tag fun s old r => readTimedOut s h old r.own)) ∧
    (((s.pcie.mef.get h).reads.find? fun x => x.tag == tag) = none →
      exec (.mefCompletionReceive h tag ok ep data) s = .next s ∧ exec (.mefCompletionTimeout h tag) s = .next s) ∧
    exec (.flrDrainExpiry h) s = .next (if inFlr s h then
      ((s.pcie.mef.get h).reads.map MefRd.tag).foldl (fun s t => readEnds s h t fun s old r => readTimedOut s h old r.own) s else s)) ∧
  (∀ (s : State) (h : Nat),
    (portRole s (upPort s h) = 0 → dlUp s (upPort s h) = true →
      exec (.upstreamLinkDown h) s = .next (hierReset (dlDown (setLtssm s (upPort s h) 0) (upPort s h)) h) ∧
      exec (.hotReset h) s = .next (hierReset (dlDown (setLtssm s (upPort s h) 9) (upPort s h)) h)) ∧
    ((portRole s (upPort s h) ≠ 0 ∨ dlUp s (upPort s h) = false) → exec (.upstreamLinkDown h) s = .next s ∧ exec (.hotReset h) s = .next s))

/-- From every state. (1) A vDSP's Retrain Link, Link Disable and Power Controller writes act on what it is bound to (vdspRetrain, vdspDisable, powerOffSlot, powerOnSlot); clearing DPC Trigger Status releases a port (release); (2) a contained host-assigned port that is released shows Detect, counts, and its vDSP shows no trigger; any other port stays as it is; (3) the manager's write of PCIE_LINK_CTRL takes TARGET; with RETRAIN, on a PCI Express port, it is refused with result 2 where the port is host-assigned, the target above its limit, a brace in progress or the port contained, else the port retrains (retrain); (4) a trigger on a downstream PCI Express port not contained acts by its role (portTrigger); on any other it changes nothing; (5) a link that comes up on a PCI Express port in service that is not contained, not disabled, under no lane test, with powered lanes and their references, shows L0, DL_UP, its width, and a rate at most the one given, 2.5 GT/s (0) the first time since the start, with FLIT as given or at 64.0 GT/s; (6) a port contained, disabled, under test, in the cloche, without seed, or not PCI Express stays as it is. -/
def Obligations.DownstreamPortsAndContainment : Prop :=
  (∀ (s : State) (h j p : Nat), exec (.vdspRetrainLink h j) s = .next (vdspRetrain s h j) ∧
    exec (.vdspLinkDisable h j) s = .next (vdspDisable s h j true) ∧
    exec (.powerControllerOff h j) s = .next (powerOffSlot s h j) ∧ exec (.powerControllerOn h j) s = .next (powerOnSlot s h j) ∧
    exec (.dpcRelease p) s = .next (release s p)) ∧
  (∀ (s : State) (p : Nat),
    (contained s p = true → portRole s p = 1 → release s p =
      portNote (bump (wrB (setLtssm s p 0) (Reg.PCIE_STATUS p) 11 false) (Reg.PCIE_DPC_EVENTS p)) p fun v => { v with dpcTrig := false }) ∧
    ((contained s p = false ∨ portRole s p ≠ 1) → release s p = s)) ∧
  (∀ (s t : State) (p : Nat) (v : Word), t = wrF s (Reg.PCIE_LINK_CTRL p) 3 1 (getF v 3 1) →
    exec (.pcieLinkRetrain p v) s = .next (if getB v 0 = false ∨ isPcie t p = false then t
      else if portRole t p = 1 ∨ rdF t (Reg.PCIE_CFG p) 12 10 < getF v 3 1 ∨ braced t = true ∨ contained t p = true then
        wrF t (Reg.PCIE_LINK_CTRL p) 5 4 2
      else retrain (wrF t (Reg.PCIE_LINK_CTRL p) 5 4 0) p (getF v 3 1))) ∧
  (∀ (s : State) (p : Nat) (c : DpcCause),
    (isPcie s p = true → contained s p = false → portRole s p ≠ 0 → exec (.dpcTrigger p c) s = .next (portTrigger s p c)) ∧
    ((isPcie s p = false ∨ contained s p = true ∨ portRole s p = 0) → exec (.dpcTrigger p c) s = .next s)) ∧
  (∀ (s : State) (p : Nat) (rate : BitVec 3) (w : BitVec 2) (flit : Bool) (ls : List LaneEq) (low : LinkLow), isPcie s p = true → contained s p = false →
    s.pcie.dis.contains p = false → inCloche s = false → s.start.phase = .service → s.seed.loaded = true → inTest s p = false →
    (∀ n ∈ lanesOf s p, rdB s (Reg.LANE_STATUS n) 6 = true ∧ (s.pg.get (n / 8)).refDown = false) →
    ∃ t, exec (.pcieDlUp p rate w flit ls low) s = .next (dlUpRole t p) ∧ rdB t (Reg.PCIE_STATUS p) 10 = true ∧
      rdF t (Reg.PCIE_STATUS p) 3 0 = 3 ∧ rdF t (Reg.PCIE_STATUS p) 8 7 = w.toNat ∧ rdF t (Reg.PCIE_STATUS p) 6 4 ≤ rate.toNat ∧
      (s.pcie.beenUp.contains p = false → rdF t (Reg.PCIE_STATUS p) 6 4 = 0) ∧
      rdB t (Reg.PCIE_STATUS p) 9 = (flit || decide (rdF t (Reg.PCIE_STATUS p) 6 4 = 5))) ∧
  (∀ (s : State) (p : Nat) (rate : BitVec 3) (w : BitVec 2) (flit : Bool) (ls : List LaneEq) (low : LinkLow),
    (isPcie s p = false ∨ contained s p = true ∨ s.pcie.dis.contains p = true ∨ inCloche s = true ∨ s.seed.loaded = false ∨ inTest s p = true) →
    exec (.pcieDlUp p rate w flit ls low) s = .next s)

/-- From every state; t is the state with the received groups checked (receiveGroups), which is all that happens where they spell no frame or the port does not receive (receives). (1) A data frame that is bad (badFrame) is no longer awaited from a cut-through, counts in NZL_CRC_ERR, raises NZL fault 0x01 of class C with its LSEQ, and the first is NAKed (nakFirst); a good one that is FIRST, or whose PREV is the last LSEQ of this member, is link-good (linkGood); another is NAKed; (2) a link control frame that is bad (badLcf) counts only; a good one acts (takeLcf); (3) (no frame, or a port that does not receive); (4) a good LCF raises the four limits, takes its acknowledgement and resends frames kept over a link-down; with a NAK the member it names is replayed; (5) a waiting acknowledgement, the idle period of a port that is up, and a NAK still out of one each send an LCF; else their rows change nothing; a replay timer replays (replay); (6) a replay resends every unacknowledged frame of the member, unless none is left, one runs or the port is not up; after four of the same oldest frame the member goes down; (7) a port in sleep with frames waiting, awake itself, sends WAKE; one that is up sends a frame to be resent first (sendHeld), else the frame that may leave where replay room allows and no first LCF is awaited (sendFrame), else FIL; a port in another state sends nothing. -/
def Obligations.NozanFramesAreAcknowledgedOrReplayed : Prop :=
  (∀ (s t : State) (p : Nat) (g : LaneGroups) (w : WireFrame) (f : Frame), t = (receiveGroups s p g).2 → frameIn (receiveGroups s p g).1 = some w →
    receives s p = true → f = frameOfWords w.hdr w.payload →
    exec (.dataFrameReceive p g) s = .next (if badFrame w then
        nakFirst (faultP (count (bump (updPair t p fun x => { x with cutSeq := if x.cutSeq = some f.lseq.toNat then none else x.cutSeq })
          (Reg.NZL_CRC_ERR p)) p 12) 3 0x01 1 p f.lseq.toNat) p
      else if f.first = true ∨ (t.member.get p).last = some f.prev.toNat then linkGood t p w.hdr f (stompedFrame w) else nakFirst t p)) ∧
  (∀ (s t : State) (p : Nat) (g : LaneGroups) (w : WireFrame), t = (receiveGroups s p g).2 → frameIn (receiveGroups s p g).1 = some w →
    receives s p = true → exec (.lcfReceive p g) s = .next (if badLcf w then bump t (Reg.NZL_CRC_ERR p) else takeLcf t p w.hdr)) ∧
  (∀ (s : State) (p : Nat) (g : LaneGroups), (frameIn (receiveGroups s p g).1 = none ∨ receives s p = false) →
    exec (.dataFrameReceive p g) s = .next (receiveGroups s p g).2 ∧ exec (.lcfReceive p g) s = .next (receiveGroups s p g).2) ∧
  (∀ (s t : State) (p : Nat) (h : List Word), t = resendKept (takeAck ((List.range 4).foldl (fun s v => takeLimit s p v (getF (h.getD (2 + v) 0) 23 0)) s) p
      (getF (h.getD 1 0) 15 0)) p →
    (getB (h.getD 1 0) 16 = false → takeLcf s p h = t) ∧
    (∀ q, getB (h.getD 1 0) 16 = true → (membersOf t p)[getF (h.getD 1 0) 17 17]? = some q → takeLcf s p h = replay (bump t (Reg.NZL_NAK_RX q)) q)) ∧
  (∀ (s : State) (p : Nat),
    exec (.lcfAckDelayExpiry p) s = .next (if (pairOf s p).ackWait then sendLcf s p none else s) ∧
    exec (.lcfPeriodExpiry p) s = .next (if nzUp s p then sendLcf s p none else s) ∧
    exec (.nakRepeatExpiry p) s = .next (if nzUp s p && (s.member.get p).nakOut then sendNak s p else s) ∧
    exec (.replayTimerExpiry p) s = .next (replay s p)) ∧
  (∀ (s : State) (p : Nat), ((oldestOn s p = none ∨ replaying s p = true ∨ nzUp s p = false) → replay s p = s) ∧
    (∀ h n, oldestOn s p = some h → replaying s p = false → nzUp s p = true →
      n = (if (s.member.get p).oldest = some h.f.lseq.toNat then (s.member.get p).replays else 0) →
      replay s p = if 4 ≤ n then memberDown s p 5 else
        count (bump (updPair (updMember s p fun m => { m with oldest := some h.f.lseq.toNat, replays := n + 1 }) p fun x =>
          { x with replay := x.replay.map fun h => if h.member = p then { h with resend := true } else h }) (Reg.NZL_REPLAY p)) p 13)) ∧
  (∀ (s : State) (p : Nat),
    (nzState s p = 4 → s.start.phase ≠ .asleep → portDrained s p = false → exec (.dataFrameTransmit p) s = .next (wakeSend s p)) ∧
    (∀ h, nzUp s p = true → nzState s p ≠ 4 → nextResend s p = some h → exec (.dataFrameTransmit p) s = .next (sendHeld s p h)) ∧
    (nzUp s p = true → nzState s p ≠ 4 → nextResend s p = none → txReady s p = none → exec (.dataFrameTransmit p) s = .next (filSend s p)) ∧
    (∀ e, nzUp s p = true → nzState s p ≠ 4 → nextResend s p = none → txReady s p = some e →
      exec (.dataFrameTransmit p) s = .next (if replayRoom s p e.f && !(pairOf s p).firstLcf then sendFrame s p e else filSend s p)) ∧
    (nzUp s p = false → (nzState s p ≠ 4 ∨ s.start.phase = .asleep ∨ portDrained s p = true) → exec (.dataFrameTransmit p) s = .next s))

/-- From every state. (1) A Nozan lane without lock takes its port that is up down (memberDown, state 5); any other changes nothing; (2) after 1 ms of idle a port that is down, its reference present, begins step 1; else nothing; (3) a pair down for 10 ms discards its sequence state where it holds any (discardSeq), and its adjacency leaves the marker set; a pair that is up, or never went down, changes nothing; (4) a signal is kept, and a port that woke its partner begins training with it; (5) where a Nozan port trains with no lane under test (else the row changes nothing), steps 1 and 2 set CDR_LOCK and SYM_LOCK of its lanes, step 3 shows the inverted lanes, and each goes to the next step (enterStep); (6) step 5 shows the peer and its session once all three sets came, else it fails; step 6 ends once the taps are right or the rate needs none; step 7 brings the link up (linkUp) with 8 READYs received, its link session then a free value; (7) a step that exceeds its bound fails the training (trainFail), step 1 only with a signal; the retry after 1 ms, 100 ms after 16 failures in a row, or a sender of WAKE after 1.2 s, begins it again. -/
def Obligations.NozanPortsFailAndTrain : Prop :=
  (∀ (s : State) (n : Nat), exec (.laneLockLossTimeout n) s = .next (
    if rdF s (Reg.LANE_CFG n) 1 0 = 2 ∧ nzUp s (rdF s (Reg.LANE_CFG n) 8 2) = true then memberDown s (rdF s (Reg.LANE_CFG n) 8 2) 5 else s)) ∧
  (∀ (s : State) (p : Nat), exec (.downIdleExpiry p) s = .next (
    if nzState s p = 5 ∧ (s.member.get p).refDown = false then beginTraining (waitOut s p 1600000) p else s)) ∧
  (∀ (s u t : State) (p : Nat) (ss : BitVec 16),
    (∀ b, pairUp s p = false → (pairOf s p).downSince = some b → u = timeTo s (b + 16000000) →
      t = (if seqInUse u p then discardSeq u p ss else u) → exec (.sequenceHoldExpiry p ss) s = .next (sealPump (updLand t fun l => { l with
        adj := l.adj.upd (pairKey t p) fun a => { a with inSet := false, due := none } }))) ∧
    ((pairUp s p = true ∨ (pairOf s p).downSince = none) → exec (.sequenceHoldExpiry p ss) s = .next s)) ∧
  (∀ (s t : State) (p : Nat), t = updMember s p (fun m => { m with signal := true }) →
    exec (.signalPresent p) s = .next (if (t.member.get p).wakeWait then beginTraining t p else t)) ∧
  (∀ (s : State) (p skew : Nat) (up inv : List Nat),
    (nzState s p = 1 → inTest s p = false → isNoz s p = true →
      (trainStep s p = 1 → exec (.trainingStepDone p up inv skew) s =
        .next (enterStep ((lanesOf s p).foldl (fun s l => wrB s (Reg.LANE_STATUS l) 1 true) s) p 2)) ∧
      (trainStep s p = 2 → exec (.trainingStepDone p up inv skew) s =
        .next (enterStep ((lanesOf s p).foldl (fun s l => wrB s (Reg.LANE_STATUS l) 2 true) s) p 3)) ∧
      (trainStep s p = 3 → exec (.trainingStepDone p up inv skew) s =
        .next (enterStep ((lanesOf s p).foldl (fun s l => wrB s (Reg.LANE_STATUS l) 3 (inv.contains l)) s) p 4))) ∧
    ((nzState s p ≠ 1 ∨ inTest s p = true ∨ isNoz s p = false) → exec (.trainingStepDone p up inv skew) s = .next s)) ∧
  (∀ (s t : State) (p skew : Nat) (up inv : List Nat) (m : MemberSt), nzState s p = 1 → inTest s p = false → isNoz s p = true → m = s.member.get p →
    (∀ sw port sess, trainStep s p = 5 → m.peerSw = some sw → m.peerPort = some port → m.peerSess = some sess →
      exec (.trainingStepDone p up inv skew) s =
        .next (enterStep (wrF (wrN s (Reg.NZL_PEER p) (sw + port.1 * 2 ^ 12)) (Reg.NZL_SESSION p) 31 16 sess) p 6)) ∧
    (trainStep s p = 5 → identified m = false → exec (.trainingStepDone p up inv skew) s = .next (trainFail s p)) ∧
    (trainStep s p = 6 → exec (.trainingStepDone p up inv skew) s = .next (if m.tapsOk = true ∨ m.target.2 = 0 then enterStep s p 7 else s)) ∧
    (trainStep s p = 7 → t = updMember s p (fun m => { m with readyTx := 16 }) → exec (.trainingStepDone p up inv skew) s =
      .next (if 8 ≤ m.readyRx then linkUp (freshBits t 16).2 p (freshBits t 16).1 else t))) ∧
  (∀ (s : State) (p skew : Nat),
    exec (.trainingStepTimeout p skew) s = .next (
      if nzState s p = 1 ∧ (trainStep s p ≠ 1 ∨ (s.member.get p).signal = true) then trainFail (noteSkew s p skew) p else s) ∧
    exec (.trainingRetryExpiry p) s = .next (if (s.member.get p).wakeWait then beginTraining (waitOut s p 1920000000) p
      else if (s.member.get p).retryWait = true ∧ (s.member.get p).refDown = false then
        beginTraining (waitOut s p (if 16 ≤ (s.member.get p).fails then 160000000 else 1600000)) p else s))

/-- For a Nozan port that trains with no lane under test, at the end of step 4, its target width code below 3. A width qualifies if it is the target, x8 (1) or x4 (0), at most the target, its lanes are at most those the partner offered, and every lane position below it came up. (1) With a skew of at most 16 symbol times and w the widest width that qualifies, the answer is in step 5, shows WIDTH w, and DEGRADED exactly where w is below the target; (2) with a larger skew, or where no width qualifies, the port has left training and NZL_TRAIN_FAIL counts. -/
def Obligations.PortComesUpAtWidestWidth : Prop :=
  (∀ (s : State) (p skew w : Nat) (up inv : List Nat), nzState s p = 1 → inTest s p = false → isNoz s p = true →
    trainStep s p = 4 → (s.member.get p).target.1 < 3 → skew ≤ 16 →
    (∀ v, (v = w ∨ w < v) → ((v = (s.member.get p).target.1 ∨ v = 1 ∨ v = 0) ∧ v ≤ (s.member.get p).target.1 ∧
      4 * 2 ^ v ≤ (s.member.get p).offered ∧ (∀ i, i < 4 * 2 ^ v → i ∈ up) ↔ v = w)) →
    ∃ t, exec (.trainingStepDone p up inv skew) s = .next t ∧ trainStep t p = 5 ∧ rdF t (Reg.NZL_STATUS p) 4 3 = w ∧
      rdB t (Reg.NZL_STATUS p) 6 = decide (w < (s.member.get p).target.1)) ∧
  (∀ (s : State) (p skew : Nat) (up inv : List Nat), nzState s p = 1 → inTest s p = false → isNoz s p = true →
    trainStep s p = 4 → (s.member.get p).target.1 < 3 →
    (16 < skew ∨ ∀ v, (v = (s.member.get p).target.1 ∨ v = 1 ∨ v = 0) → v ≤ (s.member.get p).target.1 →
      4 * 2 ^ v ≤ (s.member.get p).offered → ∃ i, i < 4 * 2 ^ v ∧ i ∉ up) →
    ∃ t, exec (.trainingStepDone p up inv skew) s = .next t ∧ nzState t p = 0 ∧
      rdN t (Reg.NZL_TRAIN_FAIL p) = min 0xFFFFFFFF (rdN s (Reg.NZL_TRAIN_FAIL p) + 1))

/-- From every state; t is the state with the groups checked (receiveGroups), and d the set that every lane carries alike (evenSet). (1) Without such a set each of the eight rows of a set but LANE counts in NZL_LCS_ERR and does nothing else; (2) a set of the row's code (2 PEER_SW, 3 PEER_PORT, 4 SESSION) is kept; (3) LANE sets in step 3 show whether the positions are reversed and keep the least width offered, at most 16, and out of order fail the training; in another step, or where some lane that carries symbols carries no LANE set, they change nothing more; (4) in step 6 PRESET_REQ (5) below 8 sets the taps of every lane and is acknowledged; the acknowledgement (6) of the preset asked for, after eight eyes, ends the exchange (tapsDone); else they change nothing more; (5) each adaptation in step 6 before the eighth adds its eye and asks for the next preset, after the eighth for the best (bestPreset); else it changes nothing; (6) in step 7 READY (7) counts, and with 8 received and 16 sent the link comes up (linkUp); in another step it changes nothing more. -/
def Obligations.NozanControlSetsInTraining : Prop :=
  (∀ (s t : State) (p : Nat) (g : LaneGroups) (ss : BitVec 16), evenSet kLCS (receiveGroups s p g).1 = none →
    t = bump (receiveGroups s p g).2 (Reg.NZL_LCS_ERR p) →
    exec (.peerSwReceive p g) s = .next t ∧ exec (.peerPortReceive p g) s = .next t ∧ exec (.sessionReceive p g) s = .next t ∧
    exec (.presetReqReceive p g) s = .next t ∧ exec (.presetAckReceive p g) s = .next t ∧ exec (.readyReceive p g ss) s = .next t ∧
    exec (.sleepReqReceive p g) s = .next t ∧ exec (.sleepAckReceive p g) s = .next t ∧ exec (.sleepNakReceive p g) s = .next t) ∧
  (∀ (s t : State) (p d2 d3 : Nat) (g : LaneGroups), t = (receiveGroups s p g).2 →
    (evenSet kLCS (receiveGroups s p g).1 = some (0x02, d2, d3) →
      exec (.peerSwReceive p g) s = .next (updMember t p fun m => { m with peerSw := some (d2 + d3 % 16 * 2 ^ 8) })) ∧
    (evenSet kLCS (receiveGroups s p g).1 = some (0x03, d2, d3) →
      exec (.peerPortReceive p g) s = .next (updMember t p fun m => { m with peerPort := some (d2 % 128, d3) })) ∧
    (evenSet kLCS (receiveGroups s p g).1 = some (0x04, d2, d3) →
      exec (.sessionReceive p g) s = .next (updMember t p fun m => { m with peerSess := some (d2 + d3 * 2 ^ 8) }))) ∧
  (∀ (s t : State) (p : Nat) (g : LaneGroups), t = (receiveGroups s p g).2 →
    (∀ l, laneSets (receiveGroups s p g).1 = some l → exec (.laneSetReceive p g) s = .next (
      if nzState s p ≠ 1 ∨ trainStep s p ≠ 3 then t else if orderOk (l.map Prod.fst) = false then trainFail t p
      else updMember (wrB t (Reg.NZL_STATUS p) 7 (decide (2 ≤ l.length) && decide (l.map Prod.fst ≠ List.range l.length))) p
        fun m => { m with offered := (l.map Prod.snd).foldl min 16 })) ∧
    (laneSets (receiveGroups s p g).1 = none → exec (.laneSetReceive p g) s = .next t)) ∧
  (∀ (s t : State) (p d2 d3 : Nat) (g : LaneGroups), t = (receiveGroups s p g).2 →
    (evenSet kLCS (receiveGroups s p g).1 = some (0x05, d2, d3) → exec (.presetReqReceive p g) s = .next (if presetStep t p = false ∨ 8 ≤ d2 then t
      else lcsSend (updMember ((lanesOf t p).foldl (fun s n => wr s (Reg.LANE_TXEQ n) (presetTaps d2)) t) p
        fun m => { m with partnerPreset := d2 }) p 0x06 d2 0 1)) ∧
    (evenSet kLCS (receiveGroups s p g).1 = some (0x06, d2, d3) → exec (.presetAckReceive p g) s = .next (
      if presetStep t p = true ∧ (t.member.get p).preset = d2 ∧ 8 ≤ (t.member.get p).eyes.length then tapsDone t p else t))) ∧
  (∀ (s t : State) (p eye : Nat), t = updMember (adaptLanes s p) p (fun m => { m with eyes := m.eyes ++ [(m.preset, eye)] }) →
    (presetStep s p = true → (s.member.get p).eyes.length < 8 → exec (.presetAdaptExpiry p eye) s =
      .next (askPreset t p (if (t.member.get p).eyes.length < 8 then (t.member.get p).eyes.length else bestPreset (t.member.get p).eyes))) ∧
    ((presetStep s p = false ∨ 8 ≤ (s.member.get p).eyes.length) → exec (.presetAdaptExpiry p eye) s = .next s)) ∧
  (∀ (s t u : State) (p d2 d3 : Nat) (g : LaneGroups) (ss : BitVec 16), t = (receiveGroups s p g).2 →
    u = updMember t p (fun m => { m with readyRx := m.readyRx + 1 }) → evenSet kLCS (receiveGroups s p g).1 = some (0x07, d2, d3) →
    exec (.readyReceive p g ss) s = .next (if nzState t p ≠ 1 ∨ trainStep t p ≠ 7 then t
      else if 8 ≤ (u.member.get p).readyRx ∧ 16 ≤ (u.member.get p).readyTx then linkUp u p ss else u))

/-- From every state. (1) A manager's write takes TARGET; with GO, within the port's limits, on a port that is up, outside a brace, RESULT is 0 and the reset begins (resetBegin), else RESULT is 2; (2) after discovery a port that came up at the bring-up target resets to its limit in its turn (bringupTurn), and the second member of a pair once the first has been down 10 ms; in a brace, or otherwise, neither row does anything; (3) LRS sets recognised on every lane (lrsIn), with D3 the complement of D1 and a width code below 3, act on a Nozan port (takeLrs); other groups are only checked; (4) a requester in reset without ACK trains at its target, a manager's with RESULT 3; with no request, or out of reset, nothing; (5) a SLEEP_REQ set (8) on a port that is up is acknowledged and the port sleeps (state 4) where nothing is queued, unacknowledged or unreturned, else it is refused; on another port nothing; (6) a wake makes a sleeping port of a switch that is awake train; the end of the wake pattern leaves a sleeping port idle, waiting for its partner; in another state neither does anything. -/
def Obligations.NozanResetsSleepAndWake : Prop :=
  (∀ (s t : State) (p : Nat) (v : Word), t = wrF s (Reg.NZL_RESET_CTRL p) 3 1 (getF v 3 1) →
    (getB v 0 = false → exec (.nzlResetGo p v) s = .next t) ∧
    (getB v 0 = true → lowTarget (getF v 2 1, getF v 3 3) (ownLimit t p) = (getF v 2 1, getF v 3 3) → nzUp t p = true → braced t = false →
      exec (.nzlResetGo p v) s = .next (resetBegin (wrF t (Reg.NZL_RESET_CTRL p) 5 4 0) p (getF v 2 1, getF v 3 3) true)) ∧
    (getB v 0 = true → (lowTarget (getF v 2 1, getF v 3 3) (ownLimit t p) ≠ (getF v 2 1, getF v 3 3) ∨ nzUp t p = false ∨
      braced t = true) → exec (.nzlResetGo p v) s = .next (wrF t (Reg.NZL_RESET_CTRL p) 5 4 2))) ∧
  (∀ (s : State) (p : Nat),
    exec (.bringupResetBegin p) s = .next (if rdB s Reg.FWD_STATUS 0 && nzUp s p && (s.member.get p).bringup && bringupTurn s p && !(braced s) then
      resetBegin s p (ownLimit s p) false else s) ∧
    (∀ q, partnerOf s p = some q → exec (.bringupMemberDownExpiry p) s = .next (
      if nzUp s q && !(nzUp s p) && (s.member.get q).bringup && rdB s Reg.FWD_STATUS 0 && !(braced s) then
        resetBegin (timeTo s ((s.member.get p).wentDown.elim 0 fun a => a + 16000000)) q (ownLimit s q) false else s)) ∧
    (partnerOf s p = none → exec (.bringupMemberDownExpiry p) s = .next s)) ∧
  (∀ (s t : State) (p : Nat) (g : LaneGroups), t = (receiveGroups s p g).2 →
    (∀ d1 d2 d3, lrsIn (receiveGroups s p g).1 = some (d1, d2, d3) → exec (.lrsReceive p g) s =
      .next (if d1 + d3 = 255 ∧ isNoz s p = true ∧ d1 % 4 < 3 then takeLrs t p d1 d2 else t)) ∧
    (lrsIn (receiveGroups s p g).1 = none → exec (.lrsReceive p g) s = .next t)) ∧
  (∀ (s t : State) (p : Nat),
    (∀ r, (s.member.get p).ownReq = some r → nzState s p = 3 → t = (if (s.member.get p).manager then wrF s (Reg.NZL_RESET_CTRL p) 5 4 3 else s) →
      exec (.lrsAckTimeout p) s =
        .next (beginTraining (updMember t p fun m => { m with target := r, resetting := false, resetDone := true, manager := false }) p)) ∧
    (((s.member.get p).ownReq = none ∨ nzState s p ≠ 3) → exec (.lrsAckTimeout p) s = .next s)) ∧
  (∀ (s t : State) (p d2 d3 : Nat) (g : LaneGroups), t = (receiveGroups s p g).2 → evenSet kLCS (receiveGroups s p g).1 = some (0x08, d2, d3) →
    exec (.sleepReqReceive p g) s = .next (if nzUp t p = false then t
      else if portDrained t p && creditsBack t p then updMember (setNz (lcsSend t p 0x09 0 0 1) p 4) p fun m => { m with signal := false }
      else lcsSend t p 0x0A 0 0 1)) ∧
  (∀ (s : State) (p : Nat),
    exec (.wakeReceive p) s = .next (if nzState s p = 4 ∧ s.start.phase ≠ .asleep then
      beginTraining (updMember s p fun m => { m with last := none, firstSent := false }) p else s) ∧
    exec (.wakeSendEnd p) s = .next (if nzState s p = 4 then
      updMember (setNz s p 0) p fun m => { m with wakeWait := true, last := none, firstSent := false, downAt := some s.now } else s))

/-- From every state. (1) A PTM or unknown message is an unsupported request (urNote). An MRdLk to a bridged vDSP waits for its own row; else it is unsupported. An I/O request goes the way of ioRequest; (2) a memory TLP counts on VC0 (countIn); it is unsupported with an address type or at an unassigned port, else a host's, a device's or a drive's request by its port's role; a shareable port's requests have rows of their own; (3) a header known before its verdict cuts through (cutThrough): a frame that is next in order (cutNext), a TLP that resolves to one frame (tlpArrival); else it changes nothing; (4) with no header, the port's oldest arrival is sampled, but for a further part of a request, written, and taken (takeArrival); (5) the egress serves nothing while its Nozan transmitter holds a frame that may leave, or no queue is eligible; (6) else the highest eligible queue is served (pickQueue): its head leaves and the shaper pays; a header read bad is discarded, and a frame the hedge unit refuses is dropped (deliverCheck); (7) a frame delivered is CM-marked by the queue's depth (markCm) and goes to the port; one with a word read bad leaves as a stomped copy, then poisoned, counted in BUF_POISON_OUT; (8) a cut-through copy with a good verdict leaves (cutLeaves), on PCI Express counted in; with a bad one it is stomped, its tag dropped and counted; with no copy staged, nothing. -/
def Obligations.FramesEnterAndLeave : Prop :=
  (∀ (s : State) (p : Nat) (hdr : List Word) (t : Tlp),
    exec (.tlpReceive p (.ptmOrUnknownMsg hdr)) s = .next (urNote s p true hdr) ∧
    exec (.tlpReceive p (.io t)) s = .next (ioRequest s p t) ∧
    exec (.tlpReceive p (.mrdLk t)) s = .next (
      if ((windowOf s (portHost s p) t.addr.toNat).any fun j => decide ((vdspOf s (portHost s p) j).kind = 2)) = true then s
      else unsupported s p t)) ∧
  (∀ (s u : State) (p : Nat) (t : Tlp), u = countIn s p 0 (tlpB t) →
    ((t.at_ ≠ 0 ∨ portRole u p = 4) → exec (.tlpReceive p (.mem t)) s = .next (unsupported u p t)) ∧
    (t.at_ = 0 → portRole u p = 0 → exec (.tlpReceive p (.mem t)) s = .next (hostRequest u p (portHost u p) t)) ∧
    (t.at_ = 0 → portRole u p = 1 → exec (.tlpReceive p (.mem t)) s = .next (deviceRequest u p (portHost u p) t)) ∧
    (t.at_ = 0 → portRole u p = 3 → exec (.tlpReceive p (.mem t)) s = .next (driveRequest u p t)) ∧
    (t.at_ = 0 → portRole u p = 2 → exec (.tlpReceive p (.mem t)) s = .next u)) ∧
  (∀ (s : State) (p par : Nat) (ok : Bool) (fc : BitVec 3),
    (∀ f, exec (.frameHeaderKnown p (some (.frame f)) ok fc par) s = .next (if cutNext s p f = true then cutThrough s (pairKey s p) { f := f } ok fc else s)) ∧
    (∀ t a, tlpArrival s p t = some a → exec (.frameHeaderKnown p (some (.tlp t)) ok fc par) s = .next (cutThrough s p a ok fc)) ∧
    (∀ t, tlpArrival s p t = none → exec (.frameHeaderKnown p (some (.tlp t)) ok fc par) s = .next s)) ∧
  (∀ (s t : State) (p par : Nat) (ok : Bool) (fc : BitVec 3),
    (s.fwd.passed.get p = [] → exec (.frameHeaderKnown p none ok fc par) s = .next s) ∧
    (∀ a rest, s.fwd.passed.get p = a :: rest → t = updFwd s (fun x => { x with passed := x.passed.set p rest }) →
      exec (.frameHeaderKnown p none ok fc par) s = .next (takeArrival (writeParity (if a.part then t else sampleFrame t p 0 a.f false) a par).2 p p
        (writeParity (if a.part then t else sampleFrame t p 0 a.f false) a par).1 ok))) ∧
  (∀ (s : State) (p wi par : Nat) (x : BitVec 268) (y : BitVec 20) (fc : BitVec 3),
    ((isNoz s p = true ∧ (txReady s (txMember s p)).isSome = true) ∨ pickQueue s p fc = none) →
    exec (.egressFrameBoundary p x y wi par fc) s = .next s) ∧
  (∀ (s u : State) (p wi par tc : Nat) (e : QEntry) (x : BitVec 268) (y : BitVec 20) (fc : BitVec 3),
    (isNoz s p = false ∨ (txReady s (txMember s p)).isSome = false) → pickQueue s p fc = some (tc, e) →
    u = shaperPay (popQueue s p tc e) p tc (frameB e.f) →
    ((bufRead u p e x y wi par).1 = 2 → exec (.egressFrameBoundary p x y wi par fc) s = .next (headerDiscard (bufRead u p e x y wi par).2 p e)) ∧
    ((bufRead u p e x y wi par).1 ≠ 2 → (deliverCheck (bufRead u p e x y wi par).2 e).1 = false →
      exec (.egressFrameBoundary p x y wi par fc) s = .next (deliverCheck (bufRead u p e x y wi par).2 e).2)) ∧
  (∀ (s u v w : State) (p wi par tc r : Nat) (e g : QEntry) (x : BitVec 268) (y : BitVec 20) (fc : BitVec 3),
    (isNoz s p = false ∨ (txReady s (txMember s p)).isSome = false) → pickQueue s p fc = some (tc, e) →
    u = shaperPay (popQueue s p tc e) p tc (frameB e.f) → bufRead u p e x y wi par = (r, v) → r ≠ 2 → (deliverCheck v e).1 = true →
    markCm (deliverCheck v e).2 p tc (qDepth s p tc) { e with tag := none } = (g, w) →
    (r ≠ 1 → exec (.egressFrameBoundary p x y wi par fc) s = .next (toPort (sampleFrame w p 1 g.f false) p g)) ∧
    (r = 1 → exec (.egressFrameBoundary p x y wi par fc) s = .next (toPort (sampleFrame (count (bump (stompCopy w p g) Reg.BUF_POISON_OUT) 112 5)
      p 1 g.f false) p { g with f := { g.f with poison := true } }))) ∧
  (∀ (s u : State) (p k wi par : Nat) (x : BitVec 268) (y : BitVec 20) (late : Bool), k = (if isNoz s p then pairKey s p else p) →
    u = updFwd s (fun x => { x with staged := x.staged.set k none, cutTo := x.cutTo.set k none }) →
    (∀ e q, s.fwd.staged.get k = some e → s.fwd.cutTo.get k = some q →
      exec (.ingressVerdict p true x y wi par late) s = .next (cutLeaves (sampleFrame
        (if isPcie u k then countIn u k e.f.vc.toNat (frameB e.f) else u) k 0 e.f false) q { e with known := true } x y wi par late) ∧
      exec (.ingressVerdict p false x y wi par late) s = .next (toPort (sampleFrame (e.tag.elim (count (bump u (Reg.FWD_PORT_STOMP_TX q)) q 14)
        (hedgeDrop (count (bump u (Reg.FWD_PORT_STOMP_TX q)) q 14))) q 1 e.f true) q { e with known := true, stomp := true, tag := none })) ∧
    (∀ g, (s.fwd.staged.get k = none ∨ s.fwd.cutTo.get k = none) → exec (.ingressVerdict p g x y wi par late) s = .next s))

/-- From every state. (1) A configuration or I/O request named by NONPOSTED_ISSUE is issued (npIssue) while fewer than 768 requests are out; (2) else the port's first non-posted frame, if it is the one named and fewer than 768 are out, leaves with the port's lowest free tag under its Requester ID, and the map keeps where its completion goes; (3) with neither it changes nothing; (4) a device's completion counts as received on VC3; one whose tag the map does not hold counts in UNEXP_CPL; (5) one it holds frees the tag where it ends its request (cplEnds) and returns with the requester's own fields (mapComplete), but one of a scion's older GEN counts in LATE_CPL alone; (6) a link-state frame counts; one not the switch's own and newer than its origin's last is stored, sent on every other adjacency and the routes computed again; any other only counts; (7) discovery not yet done ends when every neighbour is an adjacency and nothing changed for 1 ms, or PARTIAL with a fault 20 ms after the first adjacency while one is missing; else neither does anything; (8) an adjacency down for 10 ms computes the routes again; one not down does nothing. -/
def Obligations.CompletionsAndRoutes : Prop :=
  (∀ (s : State) (p : Nat) (r : NpReq) (id : BitVec 16) (tag : BitVec 10) (sw : BitVec 12) (sp : BitVec 7),
    ((s.pcie.npWait.get p).find? fun r => decide (r.reqId = id ∧ r.tag = tag ∧ sw.toNat = swId s ∧ sp.toNat = r.up ∧
      (s.fwd.cmap.get p).length < 768)) = some r →
    exec (.nonpostedIssue p id tag sw sp) s = .next (npIssue s p r)) ∧
  (∀ (s t : State) (p : Nat) (e : QEntry) (id : BitVec 16) (tag : BitVec 10) (sw : BitVec 12) (sp : BitVec 7),
    ((s.pcie.npWait.get p).find? fun r => decide (r.reqId = id ∧ r.tag = tag ∧ sw.toNat = swId s ∧ sp.toNat = r.up ∧
      (s.fwd.cmap.get p).length < 768)) = none →
    ((s.fwd.tx.get p).find? fun e => decide (e.f.typ = 1)) = some e →
    t = updFwd s (fun x => { x with tx := x.tx.upd p fun l => l.erase e, cmap := x.cmap.upd p fun l => l ++
      [{ tag := freeMapTag s p, srcSw := sw.toNat, srcPort := sp.toNat, reqId := id.toNat, origTag := tag.toNat, bytes := (accOf e.f).2.2
         low := frameAddr e.f % 128, tcl := e.f.tc.toNat, scion := e.scion }] }) →
    exec (.nonpostedIssue p id tag sw sp) s = .next (
      if (s.fwd.cmap.get p).length < 768 ∧ e.f.tspec0 = id ∧ getF (reqWord e.f) 9 0 = tag.toNat ∧ e.f.srcSw = sw ∧ e.f.srcPort = sp then
        freeEntry (emit t (.tlp p { tlpOf e.f with tag := BitVec.ofNat 10 (freeMapTag s p), reqId := farRequester p })) e
      else s)) ∧
  (∀ (s : State) (p : Nat) (id : BitVec 16) (tag : BitVec 10) (sw : BitVec 12) (sp : BitVec 7),
    ((s.pcie.npWait.get p).find? fun r => decide (r.reqId = id ∧ r.tag = tag ∧ sw.toNat = swId s ∧ sp.toNat = r.up ∧
      (s.fwd.cmap.get p).length < 768)) = none →
    ((s.fwd.tx.get p).find? fun e => decide (e.f.typ = 1)) = none → exec (.nonpostedIssue p id tag sw sp) s = .next s) ∧
  (∀ (s u : State) (p : Nat) (x : CplIn), u = countIn s p 3 (32 + 4 * x.data.length) → ((u.fwd.cmap.get p).find? fun c => c.tag == x.tag) = none →
    exec (.deviceCompletionReceive p x) s = .next (bump u (Reg.FWD_PORT_UNEXP_CPL p))) ∧
  (∀ (s u t : State) (p : Nat) (x : CplIn) (c : CmapEntry), u = countIn s p 3 (32 + 4 * x.data.length) →
    ((u.fwd.cmap.get p).find? fun c => c.tag == x.tag) = some c →
    t = (if cplEnds x then updFwd u fun x => { x with cmap := x.cmap.upd p fun l => l.erase c } else u) →
    ((∀ g, c.scion = some g → scionGen t g.1 = g.2) → exec (.deviceCompletionReceive p x) s = .next (mapComplete t p c x.tcl.toNat
      (cplSpec c.origTag x.status.toNat x.bc.toNat x.low.toNat x.cplId x.ro x.ido x.ns) x.ep x.data)) ∧
    (∀ g, c.scion = some g → scionGen t g.1 ≠ g.2 → exec (.deviceCompletionReceive p x) s = .next (bump t (Reg.SCION_S_LATE_CPL g.1)))) ∧
  (∀ (s u t : State) (p : Nat) (og : BitVec 12) (start seq : Word) (adj : List (BitVec 12 × BitVec 7)) (e : LsEntry),
    e = { origin := og.toNat, start := start.toNat, seq := seq.toNat, adj := adj.map fun a => (a.1.toNat, a.2.toNat) } →
    u = bump s Reg.FWD_LS_RX → t = lsStore u e →
    exec (.linkStateReceive p og start seq adj) s = .next (
      if e.origin ≠ swId u ∧ (u.fwd.ls.find? fun x => x.origin == e.origin).elim 0 lsStamp < lsStamp e then
        recompute ((t.fwd.adjs.filter fun q => decide (q ≠ pairKey t p)).foldl (fun s q => lsSend s e q) t)
      else u)) ∧
  (∀ s : State,
    exec .discoveryQuietExpiry s = .next (
      if rdB s Reg.FWD_STATUS 0 = false ∧ allAdjacent s = true then discDone (timeTo s (s.fwd.lsChange + 1600000)) else s) ∧
    (∀ a, s.fwd.firstAdj = some a → exec .discoveryPartialExpiry s = .next (
      if rdB s Reg.FWD_STATUS 0 = false ∧ allAdjacent s = false then
        discDone (faultU (wrB (timeTo s (a + 32000000)) Reg.FWD_STATUS 1 true) 5 0x02 2 0) else s)) ∧
    (s.fwd.firstAdj = none → exec .discoveryPartialExpiry s = .next s)) ∧
  (∀ (s : State) (p : Nat),
    (∀ d, (s.fwd.adjDown.find? fun x => x.1 == pairKey s p) = some d → exec (.adjacencyDownExpiry p) s = .next (recompute (timeTo s (d.2 + 16000000)))) ∧
    ((s.fwd.adjDown.find? fun x => x.1 == pairKey s p) = none → exec (.adjacencyDownExpiry p) s = .next s))

/-- From every state. (1) Every token tick each bucket lacks its rate less, never below full, and the frames a meter holds are tested again (meterRetry); (2) a served SHAPER is MALFORMED for a wrong port or class, rate 0 or size below 65, ENVELOPE outside the queue's bounds, else it changes the shaper and answers OK; (3) a ledger sample shows whether its pair of readings counts, the energy in use, each region's allowance and SHORT_AT_TOP, and tests the head write again; (4) an ADMIT received applies its state to the host's window (applyAdmit); (5) a change held back leaves 100 µs after the last ADMIT of its region, if the region is this home's and still changed; else nothing; (6) every ms each region below its size whose spacing is over is sent again. -/
def Obligations.MetersShapersAndTheLedger : Prop :=
  (∀ s t : State, t = updQos (nextTick s 16) (fun q => { q with
      lackC := q.lackC.mapVals fun k n => n - rdF s (Reg.QOS_M_CIR (k / 8) (k % 8)) 20 0
      lackP := q.lackP.mapVals fun k n => n - rdF s (Reg.QOS_M_PIR (k / 8) (k % 8)) 20 0 }) →
    exec .meterTokenTick s =
      .next (t.fwd.metHold.keys.foldl (fun s k => meterRetry s (k / 8) (k % 8) (s.fwd.metHold.get k).length) t)) ∧
  (∀ (s t : State) (q : ReqSrc) (p tc : Nat) (rate : BitVec 21) (size : BitVec 18) (fill : Bool), Served s q 0x0304 { m := true } → t = beginReq s q →
    exec (.shaper q p tc rate size fill) s = .next (
      if 80 ≤ p ∨ 8 ≤ tc ∨ rate = 0 ∨ size.toNat < 65 then reply t q 0x0304 0x03 []
      else if shaperBounds t p tc rate.toNat size.toNat = false then reply t q 0x0304 0x04 []
      else reply (shaperChange t p tc rate.toNat size.toNat fill) q 0x0304 0x00 [])) ∧
  (∀ s a b c : State, a = wrB (updQos s fun q => { q with resume := false }) Reg.QOS_LEDGER_STATUS 0 (samplePair s).isSome →
    b = wrF a Reg.QOS_E_USE 19 0 ((samplePair s).elim 0 fun v => ledgerEnergy a v / 2000000000) →
    c = setAllow b ((samplePair s).elim 0 (ledgerAllow b)) →
    exec .ledgerSample s = .next (landPump (wrB c Reg.QOS_LEDGER_STATUS 4 (decide (ledgerAllow c (bankTop c) < sizeSum c))))) ∧
  (∀ (s : State) (r h a : Nat) (o hd df : Bool) (bl : BitVec 3), exec (.admitReceive r h o hd df bl a) s =
    .next (applyAdmit s h { opened := o, held := hd, deficit := df, block := bl.toNat, allow := a })) ∧
  (∀ (s : State) (r : Nat), exec (.admitHoldoffExpiry r) s = .next (
    if (regionList s).contains r = true ∧ admitChanged s r = true then
      sendAdmit (timeTo s ((s.qos.sentAt.get r).elim 0 fun b => b + 160000)) r else s)) ∧
  (∀ s : State, exec .admitRepeatExpiry s = .next ((regionList s).foldl (fun s r =>
    if decide (allowOf s r < regionSize s r) && admitFree s r then sendAdmit s r else s) (nextTick s 1600000)))

/-- From every state. (1) A served HEDGE_RULE of bad form (ruleForm) is MALFORMED; of unit 96 or outside an envelope (ruleEnv) ENVELOPE; else queued on its unit; (2) a unit that holds and whose changed slots are drained commits its request (hedgeCommit), ends it (ruleDone) and takes the next; else nothing; (3) 2 µs after its hold began an attempt is abandoned; the fourth also ends a request that someone waits for (ruleBusy) and takes the next, or of one no one waits for counts from 0 again; with no hold, nothing; (4) 50 µs after an attempt the unit holds again (hedgeStart), unless it holds, has no request, or a brace runs; (5) a served PW_SET is MALFORMED for a window from 32, bases or limit off their pages, a target above 111, or a valid window whose limit is below its base; else it writes the host's shadow window and answers OK; (6) a served PW_COMMIT with a window not permitted or overlapping counts a refusal and answers ENVELOPE; else the shadow set becomes the active one, the commit counts, and it answers OK. -/
def Obligations.HedgeRulesAndWindows : Prop :=
  (∀ (s t : State) (q : ReqSrc) (u : Nat) (es : List HedgeEntry), Served s q 0x0301 { m := true } → t = beginReq s q →
    exec (.hedgeRule q u es) s = .next (
      if ruleForm u es = false then reply t q 0x0301 0x03 []
      else if u = 96 ∨ ∃ e ∈ es, ruleEnv t u e = false then reply t q 0x0301 0x04 []
      else hedgeQueue t u { q := some q, es := es })) ∧
  (∀ (s : State) (u : Nat),
    (∀ r, unitReq s u = some r → exec (.hedgeInflightDrained u) s = .next (
      if hedgeHolds s u = true ∧ drained s u r = true then hedgeNext (ruleDone (hedgeCommit s u r) r) u else s)) ∧
    (unitReq s u = none → exec (.hedgeInflightDrained u) s = .next s)) ∧
  (∀ (s t : State) (u : Nat),
    (∀ r, unitReq s u = some r → hedgeHolds s u = true → t = timeTo s ((s.hedge.holdAt.get u).getD s.now + 3200) →
      exec (.hedgeHoldExpiry u) s = .next (
        if attempt t u < 4 then hedgeAbandon t u
        else if r.q.isSome then hedgeNext (ruleBusy (hedgeAbandon t u) r) u
        else wrF (hedgeAbandon t u) (Reg.HEDGE_U_STATUS u) 10 8 0)) ∧
    ((unitReq s u = none ∨ hedgeHolds s u = false) → exec (.hedgeHoldExpiry u) s = .next s)) ∧
  (∀ (s : State) (u : Nat), exec (.hedgeRetryExpiry u) s = .next (
    if hedgeHolds s u = false ∧ s.hedge.reqs.get u ≠ [] ∧ braced s = false then hedgeStart (timeTo s (s.hedge.retryAt.get u)) u else s)) ∧
  (∀ (s b t : State) (q : ReqSrc) (w g : Nat) (v : Bool) (a l c : BitVec 64), Served s q 0x0302 { h := true } → b = beginReq s q →
    t = wrN (wr64 (wr64 (wr64 b (Reg.HEDGE_PW_SRC_BASE_LO q.host 1 w) a.toNat) (Reg.HEDGE_PW_SRC_LIMIT_LO q.host 1 w) l.toNat)
      (Reg.HEDGE_PW_TGT_BASE_LO q.host 1 w) c.toNat) (Reg.HEDGE_PW_CTRL q.host 1 w) (v.toNat + g * 2) →
    exec (.pwSet q w v a l c g) s = .next (
      if 32 ≤ w ∨ a.toNat % 4096 ≠ 0 ∨ l.toNat % 4096 ≠ 0 ∨ c.toNat % 4096 ≠ 0 ∨ 111 < g ∨ (v = true ∧ l.toNat < a.toNat) then reply b q 0x0302 0x03 []
      else reply (notePw t q.host) q 0x0302 0x00 [])) ∧
  (∀ (s b t : State) (q : ReqSrc), Served s q 0x0303 { h := true } → b = beginReq s q → t = pwCopy b q.host →
    exec (.pwCommit q) s = .next (
      if (∀ w, w < 32 → pwPermitted b q.host w = true) ∧ pwOverlap b q.host = false then
        reply (notePw (count (wrF t (Reg.HEDGE_PW_STATUS q.host) 7 0 (rdF t (Reg.HEDGE_PW_STATUS q.host) 7 0 + 1)) 124 5) q.host) q 0x0303 0x00 []
      else reply (bump b (Reg.HEDGE_PW_REFUSED q.host)) q 0x0303 0x04 []))

/-- From every state. (1) A protected write or release at its ingress counts as received on VC1 and is refused, tagged or left waiting (takeWrite); (2) where the MEF answers, the write of LAND_RELEASE_HI releases the requester's holding and issues the release of both halves (releaseGo), _LO 0 where none is held; else it changes nothing; (3) the oldest frame that port p handed to the landing controller is read out of the buffer (readForLand) and gets its full epoch and is taken or refused (arriveHome), or, its header lost, is dropped and the head tested; with none, nothing; (4) the oldest admitted write lands (landOne), its releases follow and the head is tested, but not in a retention window; with none, nothing; (5) a patrol read counts and reads its word with its bits as they now are (readWord), and stores back what landLeft leaves of a corrected one; (6) LAND_DIAG_CTRL takes W; with GO it reads the word and gives its meta bits and syndrome; (7) a failed DRAM channel raises LAND fault 0x07 of class U, takes the buffer out of service and refuses what waits to be admitted, each tag dropped. -/
def Obligations.WritesReachTheirHome : Prop :=
  (∀ (s : State) (p h off len : Nat) (r : BitVec 16) (be rel po : Bool) (d : List (BitVec 256)) (tc : BitVec 3),
    exec (.protectedWriteIngress p h r off len be rel d po tc) s =
      .next (takeWrite (countIn s p 1 (32 + (if rel then 8 else len)))
        { port := p, host := h, reqId := r.toNat, off := off, len := len, release := rel, data := d, poison := po,
          tc := tc.toNat } be)) ∧
  (∀ (s : State) (h req : Nat) (hi : Word),
    (mefAnswers s h = true → exec (.landRelease h req hi) s =
      .next (releaseGo (dropHold s h req) h req ((heldHalf s h req (Reg.LAND_RELEASE_LO h) 0).toNat + hi.toNat * 2 ^ 32))) ∧
    (mefAnswers s h = false → exec (.landRelease h req hi) s = .next s)) ∧
  (∀ (s t : State) (p wi par : Nat) (x : BitVec 268) (y : BitVec 20),
    (∀ e, (s.fwd.toLand.find? fun e => e.inPort == p) = some e → t = { s with fwd := { s.fwd with toLand := s.fwd.toLand.erase e } } →
      (∀ g u, readForLand t e x y wi par = (some g, u) → exec (.vc1InputArrive p x y wi par) s =
        .next (arriveHome u g.f (rebuildEpoch (refEpoch u (pairKey u p)) g.f.epoch.toNat) g.tag (some g))) ∧
      (∀ u, readForLand t e x y wi par = (none, u) → exec (.vc1InputArrive p x y wi par) s = .next (landPump u))) ∧
    ((s.fwd.toLand.find? fun e => e.inPort == p) = none → exec (.vc1InputArrive p x y wi par) s = .next s)) ∧
  (∀ s : State,
    (∀ w rest, s.start.phase ≠ .retain → s.land.admitted = w :: rest → exec .writeLanded s =
      .next (landPump (landReleases (landOne (updLand s fun l => { l with admitted := rest }) w) rest.length))) ∧
    ((s.start.phase = .retain ∨ s.land.admitted = []) → exec .writeLanded s = .next s)) ∧
  (∀ (s t u : State) (w : Nat) (x : BitVec 288) (y : BitVec 26),
    t = count (updLand s fun l => { l with word := l.word.upd w fun a => { a with err := x } }) 113 11 → u = (readWord t w y.toNat).2 →
    exec (.patrolRead w x y) s = .next (if landVerdict (landSyndrome x.toNat y.toNat) = .corrected then
      updLand u fun l => { l with word := l.word.upd w fun a => { a with
        err := BitVec.ofNat 288 (landLeft (t.land.word.get w) (landSyndrome x.toNat y.toNat)) } }
      else u)) ∧
  (∀ (s t u : State) (v : Word) (x : BitVec 288) (r : BitVec 256 × Bool × Nat), t = wrF s Reg.LAND_DIAG_CTRL 25 0 (getF v 25 0) →
    u = updLand t (fun l => { l with word := l.word.upd (getF v 25 0) fun a => { a with err := x } }) → r = (readWord u (getF v 25 0) 0).1 →
    exec (.landDiagGo v x) s = .next (if getB v 31 then wrN (readWord u (getF v 25 0) 0).2 Reg.LAND_DIAG_META
      ((metaOf (u.land.word.get (getF v 25 0)) ^^^ (landLeft (u.land.word.get (getF v 25 0)) r.2.2 / 2 ^ 256 % 2 ^ 16)) + r.2.2 * 2 ^ 16) else t)) ∧
  (∀ (s t : State) (c : Nat), t = wrB (faultU s 8 0x07 2 c) Reg.LAND_STATUS 0 false →
    exec (.dramChannelFail c) s = .next (landPump (t.land.input.foldl (fun s w => refuseIn (match w.tag with
      | some t => hedgeDrop s t
      | none => s) w) (updLand t fun l => { l with input := [] }))))

/-- From every state. (1) A joined switch closes E_open a period after its opening; one not joined does nothing; (2) a marker, CATCHUP or not, is recorded as the latest of its adjacency, and E_open follows; (3) a marker due is sent (putMarker) once no frame of an epoch at most its own is queued ahead; else, or with none due, nothing; (4) a loss is recorded at the origin; (5) a REPORT of a lower TERM does nothing; another replaces its child's of that epoch, a claimant counts it, and this switch's own is sent (again); (6) a leader outside a brace with a majority seals with UNATTR the epoch after SE whose ΣSENT stayed above for 200 µs; else nothing; (7) a leader with a majority seals again 10 µs after its last seal; else nothing; (8) a CLUSTER_SEAL of a lower TERM does nothing; another's leader, TERM, set and SE are adopted, REPORTs sent again where set or TERM changed, and it goes down the tree; (9) without a CLUSTER_SEAL for 100 µs a switch that leads not counts a failover, knows no leader, and claims where it may; (10) a CLAIM of a TERM not above its own does nothing; another is adopted and each epoch not seen sealed reported, or where there is none its SE. -/
def Obligations.EpochsCloseAndSeal : Prop :=
  (∀ s : State, exec .epochTimerExpiry s = .next (if joined s then
    sealPump (pumpOpen (updLand (timeTo s (s.land.openedAt + timerPeriod s)) fun l => { l with timerDue := true })) else s)) ∧
  (∀ (s : State) (p : Nat) (e : Epoch) (c : Bool), exec (.markerReceive p e c) s = .next (sealPump (pumpOpen (updLand s fun l => { l with
    adj := l.adj.upd (pairKey s p) fun a => { a with rcv := some (a.rcv.elim e.toNat fun m => epMax m e.toNat) } })))) ∧
  (∀ (s : State) (p : Nat),
    (∀ e, (s.land.adj.get (pairKey s p)).due = some e → exec (.markerSend p) s = .next (
      if ((vc1Queued s (pairKey s p) (s.land.adj.get (pairKey s p)).dueAt).any fun f => decide (f.typ ≠ 5) && epLe (rebuildEpoch e f.epoch.toNat) e) = true
      then s else sealPump (putMarker s (pairKey s p) e false))) ∧
    ((s.land.adj.get (pairKey s p)).due = none → exec (.markerSend p) s = .next s)) ∧
  (∀ (s : State) (e : Epoch) (r : BitVec 16) (sp : BitVec 7) (k : BitVec 3) (h : BitVec 12) (n : Nat),
    exec (.lossReceive e r sp k h n) s = .next (sealPump (lossApply s e.toNat r.toNat sp.toNat k.toNat n))) ∧
  (∀ (s t : State) (ch sent landed lost : Nat) (e m : Epoch) (b : DWord) (tm : BitVec 16) (u : Bool),
    t = claimTry (updLand s fun l => { l with
      reports := (l.reports.filter fun x => !(x.child == ch && x.ep == e.toNat)) ++
        [{ child := ch, ep := e.toNat, sent := sent, landed := landed, lost := lost, bitmap := b.toNat, maxSe := m.toNat, term := tm.toNat }]
      highTerm := max l.highTerm tm.toNat }) tm.toNat b.toNat m.toNat →
    exec (.reportReceive ch e sent landed lost b m tm u) s = .next (if tm.toNat < s.land.term then s
      else sealPump (if t.land.sentRep.contains e.toNat then reportAgain t e.toNat else reportTry t e.toNat))) ∧
  (∀ (s t : State) (e : Epoch),
    t = timeTo s (((s.land.sumHigh.find? fun x => x.1 == e.toNat).map Prod.snd).getD s.now + 320000) →
    exec (.unattrWaitExpiry e) s = .next (if isLeader s && s.pfail.braceAt.isNone && majority s && decide (e.toNat = epAdd (seOf s) 1) &&
      (s.land.sumHigh.any fun x => x.1 == e.toNat) && decide (sealVerdict s e.toNat = 2) then sealPump (sendSeal (adoptSe t e.toNat true) true) else s)) ∧
  (∀ s : State, exec .clusterSealPeriodExpiry s = .next (
    if isLeader s && majority s then sendSeal (decideSeals (timeTo s (s.land.lastSeal + 16000))) false else s)) ∧
  (∀ (s a b c d : State) (e : Epoch) (st : DWord) (tm : BitVec 16) (u : Bool) (l : BitVec 12),
    a = setSealSet (setLeader (count s 113 4) l.toNat tm.toNat false false) st.toNat →
    b = adoptSe (updLand a fun x => { x with lastSeal := a.now, claim := none }) e.toNat u →
    c = sendSeal (if tm.toNat ≠ s.land.term ∨ st.toNat ≠ sealSet s then reportAll b else b) u →
    d = (if joined c && !(bitN st.toNat (ownMember c)) then sendRejoin (wrB c Reg.LAND_STATUS 1 false)
      else if !(joined c) && inService c && (s.land.noLeader || decide (l.toNat ≠ leaderSw s)) then sendRejoin c else c) →
    exec (.clusterSealReceive e st tm u l) s = .next (if tm.toNat < s.land.term then s else takeEarly (sealPump (tagAll d)))) ∧
  (∀ s t : State, t = setLeader (count (bump s Reg.LAND_FAILOVERS) 113 8) (leaderSw (count (bump s Reg.LAND_FAILOVERS) 113 8))
      (count (bump s Reg.LAND_FAILOVERS) 113 8).land.term false true →
    exec .failoverTimeout s = .next (if isLeader s then s else if mayClaim t then sendClaim t else t)) ∧
  (∀ (s t : State) (w : BitVec 12) (e : Epoch) (tm : BitVec 16), t = setLeader (updLand s fun l => { l with claim := none }) w.toNat tm.toNat false true →
    (tm.toNat ≤ s.land.term → exec (.claimReceive w e tm) s = .next s) ∧
    (s.land.term < tm.toNat → (t.land.sealedL.filter fun e => epAfter e (seOf t)) ≠ [] → exec (.claimReceive w e tm) s =
      .next (takeEarly ((t.land.sealedL.filter fun e => epAfter e (seOf t)).foldl (fun s e => sendReport s e true) t))) ∧
    (s.land.term < tm.toNat → (t.land.sealedL.filter fun e => epAfter e (seOf t)) = [] → exec (.claimReceive w e tm) s =
      .next (takeEarly (sendMsg t (memberSw t (treeParent t (ownMember t))) 1 (seOf t) [0, 0, 0, 2 ^ ownMember t, seOf t + t.land.term * 2 ^ 48, 1]))))

/-- From every state. (1) A leader outside a brace removes another member of its set, seals what waited for it and sends the seal; else nothing; (2) a leader answers a REJOIN of its cluster with INCLUDE from E_open + 2 on and adds the member to its set; else nothing; (3) an INCLUDE of a lower TERM does nothing; another joins the switch at E_join with the cluster's SE, sends REPORTs again where set or TERM changed, and tags what waits; (4) REGION_LOST makes faults of kind 6 at the origin (regionLost); (5) a durability fence, or a connection's, where the MEF answers is taken (takeFence); else it draws UR; (6) the oldest fence held for a host completes 39 µs after it was taken with NOT_YET, NO_LEADER where none was known since, or NO_WINDOW, and the next waiting one is taken; with none, nothing; (7) a BAR2 read the MEF does not answer, or outside the quota, draws UR; one whose requester has no untagged write and whose last epoch SE has reached is served; else it is held; (8) a hold of 40 µs ends in Completer Abort and is counted; with none, nothing. -/
def Obligations.MembersFencesAndBufferReads : Prop :=
  (∀ (s t : State) (m : Nat),
    t = updLand s (fun l => { l with
      gap := (l.gap ++ openRange s).dedup.filter fun e => epAfter e (seOf s)
      joins := l.joins.filter fun j => j.1 ≠ m
      reports := l.reports.filter fun r => r.child ≠ m }) →
    exec (.memberRemovalExpiry m) s = .next (if isLeader s && s.pfail.braceAt.isNone && bitN (sealSet s) m && decide (m ≠ ownMember s) then
      sendSeal (sealPump (setSealSet t (setBitN (sealSet t) m false))) false else s)) ∧
  (∀ (s u t : State) (w : BitVec 12) (e o : Epoch) (k : Bool), u = setSealSet s (setBitN (sealSet s) (w.toNat % 64) true) →
    t = updLand u (fun l => { l with joins := (l.joins.filter fun j => j.1 ≠ w.toNat % 64) ++ [(w.toNat % 64, epAdd (eOpen s) 2)] }) →
    exec (.rejoinReceive w e o k) s = .next (if isLeader s && sameCluster s w.toNat then
      sendMsg t w.toNat 6 (epAdd (eOpen s) 2) [sealSet t, t.land.term] else s)) ∧
  (∀ (s t : State) (ej se : Epoch) (st : DWord) (tm : BitVec 16),
    t = joinAt (adoptSe (setSealSet (setLeader s (leaderSw s) tm.toNat false false) st.toNat) se.toNat false) ej.toNat →
    exec (.includeReceive ej st tm se) s = .next (if tm.toNat < s.land.term then s
      else takeEarly (landPump (tagAll (if tm.toNat ≠ s.land.term ∨ st.toNat ≠ sealSet s then reportAll t else t))))) ∧
  (∀ (s : State) (se : Epoch) (r h : Nat), exec (.regionLostReceive se r h) s = .next (regionLost s se.toNat h)) ∧
  (∀ (s : State) (h i : Nat) (r : BitVec 16) (w : Bool),
    (mefAnswers s h = false →
      exec (.durabilityFence h r w) s = .next (emit s (.cpl (upPort s h) r.toNat 0 1 false [])) ∧
      exec (.connFenceRead h r i w) s = .next (emit s (.cpl (upPort s h) r.toNat 0 1 false []))) ∧
    (mefAnswers s h = true →
      exec (.durabilityFence h r w) s = .next (takeFence s h
        { reqId := reqKey h r.toNat, target := 0, wide := w, req := r.toNat, off := Reg.LAND_FENCE_LO h }) ∧
      exec (.connFenceRead h r i w) s = .next (takeFence s h
        { reqId := connKey (32 * i + h), target := 0, wide := w, req := r.toNat, off := 0x20000 + 8 * i, conn := some i }))) ∧
  (∀ (s t : State) (h : Nat),
    (∀ f rest, s.land.fences.get h = f :: rest → t = updLand (timeTo s (f.at_ + 62400)) (fun l => { l with fences := l.fences.set h rest }) →
      exec (.fenceTimeout h) s = .next (fencePump (finishFence t h f (if f.noWin then 3 else if f.noLead && noLeader t then 2 else 1)) h)) ∧
    (s.land.fences.get h = [] → exec (.fenceTimeout h) s = .next s)) ∧
  (∀ (s u : State) (h off len : Nat) (r : BitVec 16) (tag : BitVec 10) (b : Bar2Rd), u = count s (80 + h) 8 →
    b = { reqId := r.toNat, tag := tag.toNat, target := lastOf u (reqKey h r.toNat), addr := landAddr u h off, len := len
          open_ := untagged u (reqKey h r.toNat), at_ := u.now } →
    exec (.bar2Read h r tag off len) s = .next (
      if mefAnswers s h = false ∨ quota s h * 4096 < off + len then emit s (.cpl (upPort s h) r.toNat tag.toNat 1 false [])
      else if b.open_ = false ∧ epLe b.target (seOf u) = true then serveBar2 u h b
      else updLand u fun l => { l with bar2 := l.bar2.upd h fun q => q ++ [b] })) ∧
  (∀ (s t : State) (h : Nat),
    (∀ r rest, s.land.bar2.get h = r :: rest → t = updLand (timeTo s (r.at_ + 64000)) (fun l => { l with bar2 := l.bar2.set h rest }) →
      exec (.bar2ReadAbort h) s = .next (emit (bump t Reg.LAND_READ_ABORT) (.cpl (upPort t h) r.reqId r.tag 4 false []))) ∧
    (s.land.bar2.get h = [] → exec (.bar2ReadAbort h) s = .next s))

/-- From every state; a request is served and its issuer a host. (1) A doorbell of a queue that exists, where the MEF answers, takes its masked index and the SQs go on; ARM arms a CQ; else it changes nothing; (2) a due completion entry goes to a valid CQ with room while Bus Master Enable is 1 and ends its message; an error counts, an armed CQ signals; else nothing; (3) COMPOST_ADD checks form, envelope and room, and keeps the area; (4) COMPOST_REMOVE removes an area none of whose indices is in use; (5) SQ_CREATE and CQ_CREATE of good form take the lowest free number and answer it; (6) QUEUE_DESTROY destroys a CQ with no SQ bound, or closes an SQ; (7) CONN_CREATE takes the lowest free covered index and answers it; (8) CONNECT opens an idle connection toward its peer with its counters at their starts; (9) CLOSE makes a connection CLOSING and queues its answer. -/
def Obligations.QueuesConnectionsAndAreas : Prop :=
  (∀ (s t : State) (h n : Nat) (v : Word), t = updRme s (fun r => { r with cq := r.cq.upd (1024 * h + n) fun c => { c with head := getF v 15 0 % 2 ^ c.log2 } }) →
    exec (.sqTailWrite h n v) s = .next (if (s.rme.sq.get (1024 * h + n)).st ≠ 0 ∧ mefAnswers s h = true then
      sqFetch (updSq s (1024 * h + n) fun q => { q with tail := getF v 15 0 % 2 ^ q.log2 }) (1024 * h + n) else s) ∧
    exec (.cqHeadWrite h n v) s = .next (if (s.rme.cq.get (1024 * h + n)).valid = true ∧ mefAnswers s h = true then (boundSqs t h n).foldl sqFetch t else s) ∧
    exec (.cqArmWrite h n v) s = .next (if (s.rme.cq.get (1024 * h + n)).valid && mefAnswers s h && getB v 0 then
      updRme s fun r => { r with cq := r.cq.upd (1024 * h + n) fun c => { c with armed := true } } else s)) ∧
  (∀ (s a b c d : State) (h n k : Nat) (m : RMsg) (x : Cq), x = s.rme.cq.get (1024 * h + n) → cqeDue s h n = some (k, m) →
    a = (engWrite s (n % 8) noConn h (.cqe n) (x.base + 32 * (x.written % 2 ^ x.log2)) (cqeWords x m) false (some (BitVec.ofNat 20 x.pasid))).2 →
    b = updRme a (fun r => { r with cq := r.cq.upd (1024 * h + n) fun c => { c with written := c.written + 1, armed := false }
                                    msgs := r.msgs.filter fun y => decide (y.id ≠ m.id) }) →
    c = (if m.status = some 0 || m.status = some 1 then b else count b (80 + h) 12) →
    d = updSq (if x.armed && decide (x.vec ≠ 0) then msix c h x.vec else c) k (fun q => { q with order := q.order.tail }) →
    exec (.cqeWrite h n) s = .next (if x.valid && cqRoom x && mefBme s h then
      sqFetch (sqDestroy (noteRme (sqPump d k ((d.rme.sq.get k).order.length + 1))) k) k else s)) ∧
  (∀ (s u t : State) (q : ReqSrc) (pos l : Nat) (b : BitVec 64) (pa : Option (BitVec 20)), Served s q 0x0501 hostOnly → u = beginReq s q →
    t = updRme u (fun r => { r with areas := r.areas.set (16 * q.host + pos) (some { base := b.toNat, log2 := l, pasid := pa }) }) →
    exec (.compostAdd q pos b l pa) s = .next (
      if 16 ≤ pos ∨ b.toNat % 4096 ≠ 0 ∨ l < 16 ∨ 30 < l then reply u q 0x0501 0x03 []
      else if (hostPol u q.host).maxAreas ≤ (areasOf u q.host).length then reply u q 0x0501 0x04 []
      else if (areaFor u q.host (2048 * pos)).isSome = true ∨
        ((areasOf u q.host).any fun x => decide (pos < x.1) && decide (2048 * x.1 < 2048 * pos + 2 ^ l / 256)) = true then reply u q 0x0501 0x07 []
      else reply (noteAreas t q.host) q 0x0501 0 [])) ∧
  (∀ (s u : State) (q : ReqSrc) (pos : Nat), Served s q 0x0502 hostOnly → u = beginReq s q →
    (u.rme.areas.get (16 * q.host + pos) = none → exec (.compostRemove q pos) s = .next (reply u q 0x0502 (if 16 ≤ pos then 0x03 else 0x08) [])) ∧
    (∀ a, u.rme.areas.get (16 * q.host + pos) = some a → exec (.compostRemove q pos) s = .next (
      if (u.rme.ctx.cells.any fun c => decide (c.1 % 32 = q.host) && decide (c.2.st ≠ 0) && decide (2048 * pos ≤ c.1 / 32) &&
        decide (c.1 / 32 < areaEnd pos a)) = true then reply u q 0x0502 0x07 []
      else reply (noteAreas (updRme u fun r => { r with areas := r.areas.set (16 * q.host + pos) none }) q.host) q 0x0502 0 []))) ∧
  (∀ (s u : State) (q : ReqSrc) (b : BitVec 64) (l cq tc : Nat) (pa : BitVec 20), u = beginReq s q →
    (Served s q 0x0503 hostOnly → exec (.sqCreate q b l cq tc pa) s = .next (
      if b.toNat % 4096 ≠ 0 ∨ l < 6 ∨ 16 < l ∨ 8 ≤ tc ∨ vcOfClass u tc ≠ 0 ∨ 1024 ≤ cq then reply u q 0x0503 0x03 []
      else if (u.rme.cq.get (1024 * q.host + cq)).valid = false then notFound u q 0x0503 4 (cq + 2 ^ 31)
      else match searchUp (fun n => decide ((u.rme.sq.get (1024 * q.host + n)).st = 0)) 1024 0 with
        | none => reply u q 0x0503 0x06 []
        | some n => reply (noteQueues (updRme u fun r => { r with
            sq := (r.sq.set (1024 * q.host + n) { st := 1, base := b.toNat, log2 := l, cq := cq, tc := tc, pasid := pa.toNat }) }) q.host) q 0x0503 0 [w32 n])) ∧
    (Served s q 0x0504 hostOnly → exec (.cqCreate q b l cq pa) s = .next (
      if b.toNat % 4096 ≠ 0 ∨ l < 6 ∨ 16 < l ∨ (cq ≠ 0 ∧ (cq < 4 ∨ 63 < cq)) then reply u q 0x0504 0x03 []
      else match searchUp (fun n => !(u.rme.cq.get (1024 * q.host + n)).valid) 1024 0 with
        | none => reply u q 0x0504 0x06 []
        | some n => reply (noteQueues (updRme u fun r => { r with
            cq := (r.cq.set (1024 * q.host + n) { valid := true, base := b.toNat, log2 := l, vec := cq, pasid := pa.toNat }) }) q.host) q 0x0504 0 [w32 n]))) ∧
  (∀ (s u : State) (q : ReqSrc) (n k : Nat), Served s q 0x0505 hostOnly → u = beginReq s q → k = 1024 * q.host + n →
    exec (.queueDestroy q true n) s = .next (if 1024 ≤ n then reply u q 0x0505 0x03 []
      else if (u.rme.cq.get k).valid = false then notFound u q 0x0505 4 (n + 2 ^ 31)
      else if boundSqs u q.host n ≠ [] then reply u q 0x0505 0x07 []
      else reply (noteQueues (updRme u fun r => { r with cq := r.cq.set k {} }) q.host) q 0x0505 0 []) ∧
    exec (.queueDestroy q false n) s = .next (if 1024 ≤ n then reply u q 0x0505 0x03 []
      else if (u.rme.sq.get k).st = 0 then notFound u q 0x0505 4 n
      else if (u.rme.sq.get k).closing.isSome then reply u q 0x0505 0x07 []
      else sqDestroy (updSq u k fun x => { x with st := 3, closing := some q }) k)) ∧
  (∀ (s u : State) (q : ReqSrc) (pr : Bool), Served s q 0x0506 hostOnly → u = beginReq s q →
    (areasOf u q.host = [] → exec (.connCreate q pr) s = .next (reply u q 0x0506 0x07 [])) ∧
    (areasOf u q.host ≠ [] → (if pr then freeIdx u q.host 2048 0 else freeIdx u q.host 30720 2048) = none →
      exec (.connCreate q pr) s = .next (reply u q 0x0506 0x06 [])) ∧
    (∀ i t, areasOf u q.host ≠ [] → (if pr then freeIdx u q.host 2048 0 else freeIdx u q.host 30720 2048) = some i →
      t = makeRoom u (32 * i + q.host) → exec (.connCreate q pr) s = .next (if t.2 = false then reply t.1 q 0x0506 0x06 []
        else reply (noteRme (bumpF (updRme t.1 fun x => { x with
          ctx := (x.ctx.set (32 * i + q.host) { st := 1, prot := pr, host := q.host, cached := true, dirty := true, used := u.now }) })
          (Reg.RME_H_CONNS q.host) 15 0 1)) q 0x0506 0 [w32 (32 * i + q.host)]))) ∧
  (∀ (s u : State) (r : State × Bool) (q : ReqSrc) (n : Nat) (sw : BitVec 12) (pc : BitVec 20), Served s q 0x0507 hostOnly → u = beginReq s q →
    r = (if (ctxOf u n).cached then (u, true) else makeRoom u n) →
    exec (.connConnect q n sw pc) s = .next (
      if connHost n ≠ q.host ∨ (ctxOf u n).st = 0 then notFound u q 0x0507 3 n
      else if (ctxOf u n).st ≠ 1 then reply u q 0x0507 0x07 []
      else if (ctxOf u n).prot = true ∧ sameCluster u sw.toNat = false then reply u q 0x0507 0x04 []
      else if r.2 = false then reply r.1 q 0x0507 0x06 []
      else reply (noteRme (updCtx r.1 n fun c => { c with st := 2, peerSw := sw.toNat, peerConn := pc.toNat, txNext := 0, txUna := 0
                                                          rxCum := 0, rate := 512000, rto := 80, cached := true, used := u.now })) q 0x0507 0 [])) ∧
  (∀ (s u : State) (q : ReqSrc) (n : Nat), Served s q 0x0508 hostOnly → u = beginReq s q →
    exec (.connClose q n) s = .next (if connHost n ≠ q.host ∨ (ctxOf u n).st = 0 then notFound u q 0x0508 3 n
      else closePump (updRme (updCtx u n fun c => { c with st := 4 }) fun r => { r with closing := r.closing ++ [(n, q)] }) n))

/-- From every state; a request is served and its issuer a host. (1) A registration of host memory of bad form is MALFORMED, outside the host's envelope ENVELOPE, else it takes an entry and answers its key and this switch's ID, or NO_RESOURCE; (2) a registration of the landing window of good form inside quota and envelope is granted by this switch if it is the host's home, else asked of the home with INSTALL; (3) REVOKE of an active host-memory key of the issuer drains its entry; of one that drains already it draws STATE; of no key of the issuer it is not found; (4) of a landing key it marks the key and drains it at this home, or asks the home with DRAIN; of one that drains already it draws STATE; (5) a draining entry with nothing outstanding frees its index, answers, and drops the landing key this switch keeps of it; another does nothing; (6) the origin of a draining landing key asks its home with QUERY; of another, nothing; (7) 10 ms after a host's reset its CLOSING connections are closed and its areas removed; with no reset, nothing. -/
def Obligations.RegionsAreKeyedAndRevoked : Prop :=
  (∀ (s u : State) (q : ReqSrc) (b l pm pe : Nat) (pa : Option (BitVec 20)) (sw : BitVec 12) (r : Option Nat × State), Served s q 0x0509 hostOnly →
    u = beginReq s q →
    r = allocRegion u { owner := q.host, origin := swId u, perm := pm, peers := pe, peerSw := sw.toNat, pasid := pa, base := b, len := l } →
    exec (.regRegion q false b l pa pm pe sw) s = .next (
      if ¬(l % 4096 = 0 ∧ 4096 ≤ l ∧ l ≤ 2 ^ 40 ∧ pm ≠ 0 ∧ bitN pm 2 = false ∧ pm < 16 ∧ pe < 3) then reply u q 0x0509 0x03 []
      else if (hostPol u q.host).maxRegions ≤ (hostRegions u q.host).length ∨ (hostPol u q.host).maxBytes < (hostRegions u q.host).sum + l ∨
        pm &&& (hostPol u q.host).kinds ≠ pm then reply u q 0x0509 0x04 []
      else match r.1 with
        | none => reply r.2 q 0x0509 0x06 []
        | some i => reply (noteRegions r.2 q.host) q 0x0509 0 [w32 (keyOf r.2 i), w32 (swId u)])) ∧
  (∀ (s u : State) (q : ReqSrc) (b l pe : Nat) (pa : Option (BitVec 20)) (sw : BitVec 12) (r : Option Nat × State), Served s q 0x0509 hostOnly →
    u = beginReq s q → b % 4096 = 0 → l % 4096 = 0 → 0 < l → (pe = 1 ∨ pe = 2) → b + l ≤ quota u q.host * 4096 →
    (hostRegions u q.host).length < (hostPol u q.host).maxRegions → (hostRegions u q.host).sum + l ≤ (hostPol u q.host).maxBytes →
    4 &&& (hostPol u q.host).kinds = 4 → r = allocRegion u (landRegion q.host (swId u) (landAddr u q.host b) l pe sw.toNat) →
    ((hostPol u q.host).homeSw = swId u → exec (.regRegion q true b l pa 4 pe sw) s = .next (match r.1 with
        | none => reply r.2 q 0x0509 0x06 []
        | some i => grantLandKey r.2 q (keyOf r.2 i) (hostPol u q.host).homeSw l)) ∧
    ((hostPol u q.host).homeSw ≠ swId u → exec (.regRegion q true b l pa 4 pe sw) s = .next (sendCtrl u (hostPol u q.host).homeSw q.host 1 l (some q)
        (ctrlBody 1 q.host 0 b l 4 pe sw.toNat)))) ∧
  (∀ (s u : State) (q : ReqSrc) (k : BitVec 32), Served s q 0x050A hostOnly → u = beginReq s q →
    (u.rme.landKeys.find? fun x => x.key == k.toNat && x.host == q.host) = none →
    (∀ i, keyEntry u k.toNat = some i → exec (.revokeRegion q k) s = .next (
      if (u.rme.regions.get i).owner = q.host ∧ (u.rme.regions.get i).landing = false then
        if (u.rme.regions.get i).st = 1 then updRegion u i fun g => { g with st := 2, q := some q } else reply u q 0x050A 0x07 []
      else notFound u q 0x050A 1 k.toNat)) ∧
    (keyEntry u k.toNat = none → exec (.revokeRegion q k) s = .next (notFound u q 0x050A 1 k.toNat))) ∧
  (∀ (s u t : State) (q : ReqSrc) (k : BitVec 32) (x : LandKey), Served s q 0x050A hostOnly → u = beginReq s q →
    (u.rme.landKeys.find? fun x => x.key == k.toNat && x.host == q.host) = some x →
    t = updRme u (fun r => { r with
      landKeys := r.landKeys.map fun y =>
        if y.key = k.toNat && decide (y.host = q.host) then { y with draining := true, q := some q } else y }) →
    exec (.revokeRegion q k) s = .next (if x.draining then reply u q 0x050A 0x07 []
      else match (if x.home = swId t then keyEntry t k.toNat else none) with
        | some i => updRegion t i fun g => { g with st := if g.st = 1 then 2 else g.st }
        | none => sendCtrl t x.home q.host 2 k.toNat none (ctrlBody 2 q.host k.toNat 0 0 0 0 0))) ∧
  (∀ (s t : State) (i : Nat), t = ((s.rme.regions.get i).q.elim (freeRegion s i) fun q => reply (freeRegion s i) q 0x050A 0 []) →
    exec (.regionOutstandingZero i) s = .next (if (s.rme.regions.get i).st = 2 ∧ (s.rme.regions.get i).outst = 0 then
      if (s.rme.regions.get i).landing = true ∧ (s.rme.regions.get i).origin = swId t then dropLandKey t (keyOf s i) else t
      else s)) ∧
  (∀ (s : State) (k : BitVec 32),
    (∀ x, (s.rme.landKeys.find? fun x => x.key == k.toNat && x.draining) = some x → exec (.regionQueryExpiry k) s =
      .next (sendCtrl s x.home x.host 3 k.toNat none (ctrlBody 3 x.host k.toNat 0 0 0 0 0))) ∧
    ((s.rme.landKeys.find? fun x => x.key == k.toNat && x.draining) = none → exec (.regionQueryExpiry k) s = .next s)) ∧
  (∀ (s : State) (h : Nat), exec (.connCloseExpiry h) s = .next (if s.rme.flr.contains h then
    flrAreas (((s.rme.ctx.cells.filter fun c => decide (c.1 % 32 = h) && decide (c.2.st = 4)).map Prod.fst).foldl
      (fun s n => closeConn (flushMsgs s n 0x0E) n) s) h else s))

/-- From every state. (1) The next entry of a fetch is taken (takeWqe), then the SQ is freed if it is to be, or fetches on; with no fetch, nothing; (2) an engine sends its connectionless work (sendCl), or a connection of its own its next packet (sendConn); of another engine's, nothing; (3) a WRITE or READ_REQ of the engine it reaches counts and is taken (takePkt), at another nothing; (4) a READ response at another engine is nothing; a connectionless one counts and is carried (clReceive); (5) one of a connection counts; not open or pinned it is stale; of another peer it draws INVALID; new in the window it is carried and accepted; seen, a duplicate; else dropped and counted; (6) a CTRL counts; a poisoned one is dropped and counted, another carried out (carryCtrl); at another engine nothing; (7) an acknowledgement, NAK list (which counts) or LANDED that is poisoned or does not fit is stale; a good one applies; (8) a poisoned connectionless acknowledgement counts; of no message it is nothing; BUSY leaves the message; an error ends it; (9) a good one counts the packets shown received; with all of them it ends a WRITE, grants the key of an INSTALL or drops the key of a QUERY answered 1. -/
def Obligations.RemoteMemoryPackets : Prop :=
  (∀ (s : State) (h n : Nat) (w : Wqe), exec (.wqeFetchDone h n w) s = .next (if (s.rme.sq.get (1024 * h + n)).fetching = 0 then s
    else sqFetch (sqDestroy (endFetch (takeWqe s h n w) h n) (1024 * h + n)) (1024 * h + n))) ∧
  (∀ (s : State) (e n : Nat),
    exec (.rmePacketSend e noConn) s = .next (sendCl s e) ∧
    (n ≠ noConn → exec (.rmePacketSend e n) s = .next (if connEng n = e then noteRme (sendConn s n) else s))) ∧
  (∀ (s : State) (e : Nat) (k : RmePkt),
    exec (.rmeWriteReceive e k) s = .next (if pktEng k = e then noteRme (takePkt (engCount s e (Reg.RME_E_RX_PKTS e) 1 1) e k false) else s) ∧
    exec (.readReqReceive e k) s = .next (if pktEng k = e then
      noteRme (takePkt (engCount s e (Reg.RME_E_RX_PKTS e) 1 1) e { k with prot := false } true) else s)) ∧
  (∀ (s t : State) (e : Nat) (k : RmePkt), t = engCount s e (Reg.RME_E_RX_PKTS e) 1 1 →
    ((if k.cl then k.msn.toNat / 2 ^ 29 else connEng k.dstConn.toNat) ≠ e → exec (.readRespReceive e k) s = .next s) ∧
    (k.cl = true → k.msn.toNat / 2 ^ 29 = e → exec (.readRespReceive e k) s =
      .next (noteRme (clReceive t e k fun s => (((carryResp s k).1, 0), (carryResp s k).2))))) ∧
  (∀ (s t : State) (e n d : Nat) (k : RmePkt) (c : Ctx), t = engCount s e (Reg.RME_E_RX_PKTS e) 1 1 → k.cl = false → n = k.dstConn.toNat →
    connEng n = e → c = ctxOf t n → d = psnDist k.psn.toNat c.rxCum →
    exec (.readRespReceive e k) s = .next (
      if c.cached = false ∨ pinned t n = false ∨ (c.st ≠ 2 ∧ c.st ≠ 4) then engCount t e (Reg.RME_E_DUP_RX e) 5 1
      else if k.srcSw.toNat ≠ c.peerSw ∨ k.srcConn.toNat ≠ c.peerConn then sendInvalid t k.srcSw.toNat k.srcConn.toNat k.psn.toNat
      else if d < 512 ∧ bitN c.rxMap d = false then noteRme (acceptPkt (carryResp t k).2 n k (carryResp t k).1)
      else if d < 512 ∨ 2 ^ 23 ≤ d then dupPkt t n e
      else bump t (Reg.RME_E_WINDOW_DROP e))) ∧
  (∀ (s t : State) (e : Nat) (k : RmePkt), t = engCount s e (Reg.RME_E_RX_PKTS e) 1 1 → exec (.ctrlReceive e k) s = .next (
    if k.msn.toNat % 8 ≠ e then s else if k.poison then bump t (Reg.RME_E_WINDOW_DROP e) else clReceive t e k fun s => carryCtrl s k)) ∧
  (∀ (s t u : State) (n mk cv : Nat) (cum er : BitVec 24) (st : BitVec 8) (bm : BitVec 511) (sw : BitVec 12) (es : List (BitVec 24 × Nat)) (po : Bool),
    t = engCount s (connEng n) (Reg.RME_E_NAK_RX (connEng n)) 4 1 → u = ackApply t n cum.toNat 0 st.toNat (2 ^ 24) 0 0 →
    exec (.rmeAckReceive n cum st er mk cv bm sw po) s = .next (if po || !(ackFits s n sw) then staleAck s n
      else ackApply s n cum.toNat bm.toNat st.toNat er.toNat mk cv) ∧
    exec (.nakListReceive n cum st es po) s = .next (if po || !((ctxOf t n).cached && pinned t n) then staleAck t n
      else updCtx u n fun c => { c with flight := c.flight.map (nakMark u.now c.rto es) }) ∧
    exec (.landedReceive n st es po) s = .next (if po || !((ctxOf s n).cached && pinned s n) then staleAck s n
      else noteRme (closePump (startWaiting (rmeSettle (es.foldl (fun s e => landedEntry s n st.toNat e.1.toNat e.2) s)) n) n))) ∧
  (∀ (s : State) (e : Nat) (sw : BitVec 12) (id : BitVec 32) (rc : BitVec 16) (st : BitVec 8) (rs : Word),
    exec (.clAckReceive e sw id rc st rs true) s = .next (engCount s e (Reg.RME_E_DUP_RX e) 5 1) ∧
    ((s.rme.msgs.find? fun m => m.conn == noConn && !m.done && m.clId == id.toNat && m.dst == sw.toNat && msgEng m == e) = none →
      exec (.clAckReceive e sw id rc st rs false) s = .next s) ∧
    (∀ m, (s.rme.msgs.find? fun m => m.conn == noConn && !m.done && m.clId == id.toNat && m.dst == sw.toNat && msgEng m == e) = some m →
      st ≠ 0 → exec (.clAckReceive e sw id rc st rs false) s = .next (if st = 0x11 then s else noteRme (clEnd s m st.toNat)))) ∧
  (∀ (s u v : State) (e : Nat) (sw : BitVec 12) (id : BitVec 32) (rc : BitVec 16) (rs : Word) (m : RMsg) (a : Nat),
    (s.rme.msgs.find? fun m => m.conn == noConn && !m.done && m.clId == id.toNat && m.dst == sw.toNat && msgEng m == e) = some m →
    a = m.acked ||| rc.toNat →
    u = updMsg s m.id (fun x => { x with acked := a, bytes := if m.w.op = 1 then ((((List.range m.items.length).zip m.items).filter fun x =>
      bitN a x.1 && decide (x.2.kind = 1)).map fun x => x.2.bytes).sum else x.bytes }) →
    v = finishMsg u m.id 0 →
    exec (.clAckReceive e sw id rc 0 rs false) s = .next (if popN 16 a < m.npk then u
      else if m.kind = 1 then (if m.w.op = 1 then v else u)
      else if m.kind = 3 ∧ m.action = 1 then m.q.elim v fun q => grantLandKey v q rs.toNat m.dst m.region
      else if m.kind = 3 ∧ m.action = 3 ∧ rs = 1 then dropLandKey v m.region
      else v))

/-- From every state. (1) Accepted packets not yet acknowledged send their ACK; with none, nothing; (2) a PSN missing below the highest received leaves in a NAK list, 8 µs at the least after its last, and counts; another does nothing; (3) a retransmission time-out below the sixteenth in a row marks the oldest packet, doubles RTO up to 2,048 µs and halves RATE; the sixteenth ends the message TIMEOUT, counts and raises RME fault 0x02 of class U; with nothing in flight, nothing; (4) 16 µs after its last change RATE of a cached connection that is not idle rises by 2,000 up to 512,000; of another, nothing; (5) a report of landed packets leaves (flushLanded); (6) a connectionless message of the engine that was sent goes again (clAgain), or at age 1,000 ends TIMEOUT and counts; of another, nothing; (7) an entry of the receiver's table not acknowledged sends its acknowledgement, and any entry expires 20 ms after its creation; of no entry, nothing; (8) a context fill or spill that is done takes its effect (fillDone, spillDone). -/
def Obligations.RemoteMemoryTimers : Prop :=
  (∀ (s : State) (n : Nat), exec (.rmeAckDelayExpiry n) s = .next (if 0 < (ctxOf s n).accepted then noteRme (sendAck s n 0 0) else s)) ∧
  (∀ (s u t : State) (n d : Nat) (p : BitVec 24), d = psnDist p.toNat (ctxOf s n).rxCum →
    u = timeTo s (((ctxOf s n).naks.find? fun x => x.1 == p.toNat).elim 0 fun x => x.2 + 12800) →
    t = engCount (updCtx u n fun c => { c with
      naks := (c.naks.filter fun x => decide (x.1 ≠ p.toNat) && decide (psnDist x.1 c.rxCum < 512)) ++ [(p.toNat, u.now)] })
      (connEng n) (Reg.RME_E_NAK_TX (connEng n)) 3 1 →
    exec (.nakListExpiry n p) s = .next (if decide (d < 512) && !(bitN (ctxOf s n).rxMap d) && decide (0 < (ctxOf s n).rxMap / 2 ^ (d + 1)) then
      ackFrame t (ctxOf s n).peerSw 1 [w32 (ctxOf s n).peerConn, w32 (ctxOf s n).rxCum, w32 1, w32 p.toNat] else s)) ∧
  (∀ (s t : State) (n : Nat),
    ((ctxOf s n).flight = [] → exec (.rtoExpiry n) s = .next s) ∧
    (∀ f rest, (ctxOf s n).flight = f :: rest →
      t = updCtx (connError (engCount s (connEng n) (Reg.RME_E_TIMEOUTS (connEng n)) 7 1) n 0x06 (some f.item.msg)) n
        (fun c => refreshTx { c with flight := [], st := if c.st = 4 then 4 else 3 }) →
      exec (.rtoExpiry n) s = .next (if 16 ≤ (ctxOf s n).expiries + 1 then closePump (fault t 12 0x02 2 3 n (ctxOf s n).txUna) n
        else engCount (updCtx s n fun c => { cutRate s c (c.rate / 2) with
          flight := markResend f :: rest, rto := min 20480 (2 * c.rto), expiries := c.expiries + 1 })
          (connEng n) (Reg.RME_E_RATE_CUTS (connEng n)) 6 1))) ∧
  (∀ (s t : State) (n : Nat), t = timeTo s (s.t0 + ((ctxOf s n).incAt + 16) * 1600) →
    exec (.rateIncreaseExpiry n) s = .next (if (ctxOf s n).cached && decide (2 ≤ (ctxOf s n).st) then
      updCtx t n fun c => { settleBucket t c with rate := min 512000 (c.rate + 2000), incAt := tUs t } else s)) ∧
  (∀ (s : State) (sw n : Nat), exec (.landedReportExpiry sw n) s = .next (flushLanded s sw n)) ∧
  (∀ (s t : State) (e b : Nat) (id : BitVec 32),
    ((s.rme.msgs.find? fun m => m.conn == noConn && !m.done && m.clId == id.toNat && msgEng m == e && m.clFirst.isSome) = none →
      exec (.clResendExpiry e id) s = .next s) ∧
    (∀ m, (s.rme.msgs.find? fun m => m.conn == noConn && !m.done && m.clId == id.toNat && msgEng m == e && m.clFirst.isSome) = some m →
      m.clFirst = some b → t = timeTo s (b + ((s.now - b) / 80000 + 1) * 80000) →
      exec (.clResendExpiry e id) s = .next (if 1000 ≤ (t.now - b) / 1600 then noteRme (clEnd (bump t (Reg.RME_E_CL_TIMEOUT e)) m 0x06)
        else askCl (updMsg t m.id clAgain) m.id))) ∧
  (∀ (s : State) (e k : Nat),
    (∀ x, (s.rme.cl.filter fun y => y.eng == e)[k]? = some x →
      exec (.clAckDelayExpiry e k) s = .next (if x.unacked then sendClAck (putCl s { x with unacked := false }) x x.status else s) ∧
      exec (.clEntryExpiry e k) s =
        .next (noteCl (updRme (timeTo s (x.created + 32000000)) fun r => { r with cl := r.cl.filter fun y => decide (y ≠ x) }) e)) ∧
    ((s.rme.cl.filter fun y => y.eng == e)[k]? = none → exec (.clAckDelayExpiry e k) s = .next s ∧ exec (.clEntryExpiry e k) s = .next s)) ∧
  (∀ (s : State) (n : Nat) (ws : List Word) (ok ep : Bool), exec (.contextFillDone n ws ok ep) s = .next (fillDone s n ws ok ep) ∧
    exec (.contextSpillDone n) s = .next (spillDone s n))

/-- From every state. (1) An input at 11.4 V or below breaks a stand-down's qualification, and below 11.0 V the brace's 20 µs start or go on; (2) their end braces the own input; a dead die acts at its rootstock alone, a sleeping switch wakes; after a commit, in an own brace or with no dip, nothing; (3) a rise to 11.0 V within them is a counted glitch; above 11.4 V the input is good, and a braced one's stand-down qualifies from then; (4) 1 ms of that, and of calm readings in a thermal brace, ends the own brace, and RECOVERED goes to the leader; else nothing; (5) 9.6 V commits, or ends in a switchover of a commit made or of a sleep state, but in P4 does nothing more; 50 ms of brace commit; (6) a BRACE, HIGH, CUT, STAND_DOWN or COMMIT of the TERM in force is used by its kind (useBrace, useHigh, useCut, useStandDown, useCommit); (7) of a lower one it does nothing; (8) of a higher one it is held unused, as a COMMIT shows; (9) a braced member whose admitted writes have landed takes its H, or the cut it holds; else nothing; (10) 100 µs after the brace a leader without a cut declares it, and a member without one takes its own H; else nothing; (11) RECOVERED of the BRACE_ID held is noted by the leader; else nothing. -/
def Obligations.BracesCutsAndCommits : Prop :=
  (∀ (s t : State) (mv : Nat), t = (if mv ≤ 11400 then notePf (updPf (noteInput s mv) fun x => { x with goodAt := none, riseAt := none }) else noteInput s mv) →
    exec (.inputDip mv) s = .next (if 11000 ≤ mv then t else updPf t fun x => { x with dipAt := some (x.dipAt.getD t.now) })) ∧
  (∀ (s t : State),
    ((s.pfail.dipAt = none ∨ s.pfail.commit.isSome = true ∨ rdB s Reg.PFAIL_STATUS 3 = true) → exec .braceQualified s = .next s) ∧
    (∀ b, s.pfail.dipAt = some b → s.pfail.commit = none → rdB s Reg.PFAIL_STATUS 3 = false →
      t = updPf (timeTo s (b + 30400)) (fun x => { x with dipAt := none }) →
      exec .braceQualified s = .next (if t.root.dieDead then warnAll (wrB t Reg.PFAIL_STATUS 3 true) true
        else if t.start.phase = .asleep then wakeSeen (warnAll (wrB t Reg.PFAIL_STATUS 3 true) true) 5 0 else ownBrace t))) ∧
  (∀ (s t u : State) (mv : Nat),
    t = (if (noteInput s mv).pfail.dipAt.isSome && !(rdB (noteInput s mv) Reg.PFAIL_STATUS 3) && decide (11000 ≤ mv) then
      count (bump (updPf (noteInput s mv) fun x => { x with dipAt := none }) Reg.PFAIL_GLITCH) 114 0 else noteInput s mv) →
    u = updPf t (fun x => { x with goodAt := some (x.goodAt.getD t.now), dipAt := none }) →
    exec (.inputRise mv) s = .next (if mv ≤ 11400 then t
      else if rdB u Reg.PFAIL_STATUS 3 && u.pfail.commit.isNone then notePf (updPf u fun x => { x with riseAt := some (x.riseAt.getD u.now) }) else u)) ∧
  (∀ (s u t : State),
    ((riseFrom s = none ∨ rdB s Reg.PFAIL_STATUS 3 = false ∨ s.pfail.commit.isSome = true ∨ s.pwr.p3Brace = 2) → exec .standDownQualified s = .next s) ∧
    (∀ b, riseFrom s = some b → rdB s Reg.PFAIL_STATUS 3 = true → s.pfail.commit = none → s.pwr.p3Brace ≠ 2 →
      u = warnAll (wrB (timeTo s (b + 1568000)) Reg.PFAIL_STATUS 3 false) false →
      t = updPwr (updTherm (notePf (updPf u fun x => { x with riseAt := none })) fun x => { x with brace := false }) (fun x => { x with p3Brace := 0 }) →
      exec .standDownQualified s = .next (if t.root.dieDead || t.pfail.braceAt.isNone then actHeld t
        else if isLeader t then tryStandDown (noteRecovered t (swId t))
        else sendMsg (noteRecovered t (swId t)) (leaderSw t) 0x14 0 [t.pfail.id.getD 0 + swId t * 2 ^ 32]))) ∧
  (∀ (s t : State), t = updPf s (fun x => { x with goodAt := none }) →
    (∀ c, t.pfail.commit = some c → exec .switchoverLevel s = .next (if c.bankDue && t.root.railsOn then switchover t else t)) ∧
    (t.pfail.commit = none → exec .switchoverLevel s = .next (if t.pwr.asleep = 4 then t
      else if t.pwr.asleep ≠ 0 ∨ t.pwr.p3Brace ≠ 0 then switchover (updPwr (wakeSeen t 5 0) fun x => { x with p3Brace := 2 })
      else if t.root.dieDead then commit t false false true else commit (sendCommit t false) false false true)) ∧
    (∀ b, s.pfail.braceAt = some b → exec .braceLimitExpiry s = .next (if s.pfail.commit.isSome then s
      else commit (sendCommit (timeTo s (b + 79200000)) true) true false false)) ∧
    (s.pfail.braceAt = none → exec .braceLimitExpiry s = .next s)) ∧
  (∀ (s : State) (w : BitVec 12) (id tm : BitVec 16) (f : Bool) (e : Epoch) (ch : Nat) (b : DWord) (x : BraceMsg), tm.toNat = s.land.term →
    x = { kind := 0, ep := e.toNat, id := id.toNat, term := tm.toNat } →
    (∀ d, exec (.braceReceive w d id tm f e) s = .next (useBrace s { x with kind := 0x10, flag := f, sender := w.toNat, down := d })) ∧
    exec (.highReceive ch e id tm b) s = .next (useHigh s { x with kind := 0x11, sender := ch, bitmap := b.toNat }) ∧
    exec (.cutReceive e id tm f w b) s = .next (useCut s { x with kind := 0x12, flag := f, sender := w.toNat, bitmap := b.toNat }) ∧
    exec (.standDownReceive e id tm) s = .next (useStandDown s { x with kind := 0x15 }) ∧
    exec (.commitReceive e id tm w f) s = .next (useCommit s { x with kind := 0x13, flag := f, sender := w.toNat })) ∧
  (∀ (s : State) (w : BitVec 12) (id tm : BitVec 16) (f d : Bool) (e : Epoch) (ch : Nat) (b : DWord), tm.toNat < s.land.term →
    exec (.braceReceive w d id tm f e) s = .next s ∧ exec (.highReceive ch e id tm b) s = .next s ∧
    exec (.cutReceive e id tm f w b) s = .next s ∧ exec (.standDownReceive e id tm) s = .next s ∧ exec (.commitReceive e id tm w f) s = .next s) ∧
  (∀ (s : State) (w : BitVec 12) (id tm : BitVec 16) (f : Bool) (e : Epoch), s.land.term < tm.toNat →
    exec (.commitReceive e id tm w f) s = .next (updPf (updLand s fun l => { l with highTerm := max l.highTerm tm.toNat }) fun x => { x with early := x.early ++
      [{ kind := 0x13, ep := e.toNat, id := id.toNat, term := tm.toNat, flag := f, sender := w.toNat }] })) ∧
  (∀ s : State, exec .pendDrained s = .next (if s.pfail.braceAt.isSome = true ∧ s.pfail.ownH = none ∧ s.land.admitted = [] then
    tryHigh (updPf s fun x => { x with ownH := some (x.cut.getD (highNow s)) }) else s)) ∧
  (∀ (s t : State),
    (∀ b, s.pfail.braceAt = some b → t = timeTo s (b + 160000) →
      exec .cutDeadlineExpiry s = .next (if isLeader s && s.pfail.id.isSome && s.pfail.cut.isNone then declareCut t true else s) ∧
      exec .localCutExpiry s = .next (if s.pfail.cut.isNone && !(isLeader s) then holdCut t (s.pfail.ownH.getD (highNow s)) true false 0xFFFF 0 else s)) ∧
    (s.pfail.braceAt = none → exec .cutDeadlineExpiry s = .next s ∧ exec .localCutExpiry s = .next s)) ∧
  (∀ (s : State) (w : BitVec 12) (id : BitVec 16), exec (.recoveredReceive w id) s = .next (
    if isLeader s && decide (s.pfail.id = some id.toNat) then tryStandDown (noteRecovered s w.toNat) else s))

/-- From every state. (1) A flush command that ends well marks its pages written and the mover goes on; one not outstanding does nothing; (2) one that fails is repeated the first time, but of kind 4; then page runs are FAILED and the mover goes on, and another stops the target; (3) a stall stops the target; so does a lost link once committed; before, the ready bit clears and PFAIL fault 0x01 of class U is raised in the target's port; (4) 100 ms above 11.4 V close the input isolation of a committed switch and may restart it; else nothing; (5) the bank below VMIN ends discharge; else nothing; (6) PFAIL_READ_CTRL takes TARGET and block; with GO and no read under way it reads one block of a ready target outside a brace and cloche, RESULT 1, else RESULT is 3; (7) the data of that read fill the buffer with RESULT 2, or a failure RESULT 3; with none, a block read goes to the image copy under way (copyBlock), or nowhere; (8) a served IMAGE_COPY of 0 or above 1,024 blocks, or of no target, is MALFORMED; in cloche, of a target not ready, beside another or with Bus Master Enable 0 it draws STATE; else its first block is read. -/
def Obligations.FlushTargetsAndImages : Prop :=
  (∀ (s u : State) (t i : Nat),
    (∀ c, (s.pfail.movers.get t).out[i]? = some c → u = updMover s t (fun m => { m with out := m.out.eraseIdx i }) →
      exec (.flushCommandComplete t i true) s =
        .next (moverPump (issueTodo (issueRuns (if c.kind = 2 then markPages u c.pages 15 16 else u) t 1) t 1) t)) ∧
    ((s.pfail.movers.get t).out[i]? = none → ∀ ok, exec (.flushCommandComplete t i ok) s = .next s)) ∧
  (∀ (s u : State) (t i : Nat) (c : FlushCmd), (s.pfail.movers.get t).out[i]? = some c → u = updMover s t (fun m => { m with out := m.out.eraseIdx i }) →
    exec (.flushCommandComplete t i false) s = .next (if c.kind ≠ 4 ∧ c.again = false then repeatCmd u t c
      else if c.kind = 2 then moverPump (issueRuns (markPages u c.pages 16 15) t 1) t else moverStop u t)) ∧
  (∀ (s : State) (t : Nat),
    exec (.flushTargetStall t) s = .next (moverStop s t) ∧
    exec (.flushTargetLinkDown t) s = .next (if s.pfail.commit.isSome then moverStop s t
      else if t < targetCount s then faultP (wrB s Reg.PFAIL_TARGETS t false) 9 0x01 2 (rdF s (Reg.PFAIL_TGT_CFG t) 6 0) t else s)) ∧
  (∀ s : State,
    (∀ b, s.pfail.goodAt = some b → exec .inputGoodHoldExpiry s = .next (if s.pfail.commit.isNone then s
      else flushRestart (emit (timeTo s (b + 160000000)) (.root "input isolation closed" 0)))) ∧
    (s.pfail.goodAt = none → exec .inputGoodHoldExpiry s = .next s)) ∧
  (∀ s : State, exec .bankAtVmin s = .next (if rdB s Reg.ROOT_BANK_STATUS 2 && decide (bankHigh s < bankVmin s) then bankEnds s else s)) ∧
  (∀ (s u w : State) (v : Word) (t : Nat), u = wrN s Reg.PFAIL_READ_CTRL (getF v 22 0) → t = getF v 2 0 →
    w = updPf (wrF u Reg.PFAIL_READ_STATUS 1 0 1) (fun x => { x with readReq := some (t, getF v 22 3) }) →
    exec (.pfailReadGo v) s = .next (if getB v 31 = false ∨ rdF u Reg.PFAIL_READ_STATUS 1 0 = 1 then u
      else if braced u || inCloche u || !(targetReady u t) then wrF u Reg.PFAIL_READ_STATUS 1 0 3
      else emit w (.nvme t "read" (targetBase w t + getF v 22 3) 1 []))) ∧
  (∀ (s u : State) (ok : Bool) (ws : List Word),
    (∀ x, s.pfail.readReq = some x → u = updPf s (fun x => { x with readReq := none }) →
      exec (.pfailReadDone ok ws) s = .next (if ok then wrF (wrWords u (Reg.PFAIL_READ_BUF 0) (ws.take 1024)) Reg.PFAIL_READ_STATUS 1 0 2
        else wrF u Reg.PFAIL_READ_STATUS 1 0 3)) ∧
    (∀ c, s.pfail.readReq = none → s.pfail.copy = some c → exec (.pfailReadDone ok ws) s = .next (copyBlock s c ok (ws.take 1024))) ∧
    (s.pfail.readReq = none → s.pfail.copy = none → exec (.pfailReadDone ok ws) s = .next s)) ∧
  (∀ (s u : State) (q : ReqSrc) (t l n : Nat) (a : BitVec 64) (pa : Option (BitVec 20)), Served s q 0x0207 { m := true } → u = beginReq s q →
    exec (.imageCopy q t l n a pa) s = .next (
      if n = 0 ∨ 1024 < n ∨ targetCount u ≤ t then reply u q 0x0207 0x03 []
      else if inCloche u || !(targetReady u t) || u.pfail.copy.isSome || !(mefBme u (mgr u)) then reply u q 0x0207 0x07 []
      else copyNext u { q := q, t := t, lba := l, left := n, addr := a.toNat, pasid := pa }))

/-- From every state. A pair's second channel ignores its own presence pins. (1) PRSNT_N low shows presence, and an EMPTY channel of the slot counts; (2) its end clears presence and seating, cuts the slot's channels at once (removeOne) and, if it was seated, shows the host the change; (3) 100 ms of presence seat the board, once; a used AUTO_ON slot turns on (tryTurnOn); (4) the check before turn-on that ends starts the ramp, or after 30 s is damage 8; in another state neither does anything; (5) a ramp that reaches 95 % starts its window, without it for 40 ms trips with cause 4, and of class L without gate response is damage 9; in another state none does anything; (6) a window out of limit qualifies its channel, and once all of a slot's have, each is on with its time since the trigger, and PERST_N is due; else nothing; (7) PERST_N due on a channel that is on is released; else nothing; (8) a gate due off goes off, a waiting SLOTS entry applies, and turn-ons that wait are tried; else nothing; (9) a served SLOT_POWER of no channel is MALFORMED, of one the seed does not use NOT_FOUND, with a dead die DEVICE_ERROR; off turns it off and clears its latch; on answers OK where it is on or may turn on, else STATE. -/
def Obligations.SlotsSeatAndTurnOn : Prop :=
  (∀ (s t : State) (c : Nat), t = wrB (updChan s c fun x => { x with absentAt := none }) (Reg.ROOT_CH_STATUS c) 4 true →
    exec (.prsntAssert c) s = .next (if chLead s c ≠ c then s
      else (chGroup t c).foldl (fun s d => if chState s d = 0 then setChState s d 1 else s) t)) ∧
  (∀ (s t : State) (c : Nat), t = updChan (wrB (wrB s (Reg.ROOT_CH_STATUS c) 4 false) (Reg.ROOT_CH_STATUS c) 5 false) c (fun x => { x with
      absentAt := some (wrB (wrB s (Reg.ROOT_CH_STATUS c) 4 false) (Reg.ROOT_CH_STATUS c) 5 false).now }) →
    exec (.prsntDeassert c) s = .next (if chLead s c ≠ c then s
      else noteSlots (if rdB s (Reg.ROOT_CH_STATUS c) 5 then slotNote ((chGroup t c).foldl removeOne t) c (fun v => { v with
        presence := false, presChg := true }) else (chGroup t c).foldl removeOne t))) ∧
  (∀ (s u t : State) (c : Nat), u = wrB s (Reg.ROOT_CH_STATUS c) 5 true →
    t = slotNote ((chGroup u c).foldl (fun s d => if chState s d = 1 then setChState s d 2 else s) u) c (fun v => { v with presence := true, presChg := true }) →
    exec (.seatingComplete c) s = .next (if chLead s c ≠ c || !(rdB s (Reg.ROOT_CH_STATUS c) 4) || rdB s (Reg.ROOT_CH_STATUS c) 5 then s
      else if chUsed t c && chAuto t c then tryTurnOn t c else t)) ∧
  (∀ (s : State) (c : Nat), exec (.preTurnOnCheckDone c) s = .next (if chState s c = 3 then rampStart s c else s) ∧
    exec (.preTurnOnCheckTimeout c) s = .next (if chState s c = 3 then damage s c 8 else s)) ∧
  (∀ (s : State) (c : Nat), exec (.outputReachesPgLevel c) s = .next (if chState s c = 4 then setChState s c 5 else s) ∧
    exec (.noRampExpiry c) s = .next (if chState s c = 4 then tripSlot s c 4 else s) ∧
    exec (.gateThresholdExpiry c) s = .next (if chState s c = 4 && chClassL s c then damage s c 9 else s)) ∧
  (∀ (s t : State) (c : Nat), t = updChan s c (fun x => { x with qualOk := true }) →
    exec (.pgWindowComplete c) s = .next (if chState s c ≠ 5 ∨ rdB s (Reg.ROOT_CH_STATUS c) 6 = true then s
      else if ((chGroup t c).all fun d => (t.rootSt.chan.get d).qualOk) = false then t
      else noteSlots (updChan ((chGroup t c).foldl (fun s d => wrN (wrB (setChState s d 6) (Reg.ROOT_CH_STATUS d) 7 true) (Reg.ROOT_CH_T_PG d)
        ((s.now - (s.rootSt.chan.get d).trigAt.getD s.now) / 16000)) t) (chLead ((chGroup t c).foldl (fun s d => wrN (wrB (setChState s d 6)
        (Reg.ROOT_CH_STATUS d) 7 true) (Reg.ROOT_CH_T_PG d) ((s.now - (s.rootSt.chan.get d).trigAt.getD s.now) / 16000)) t) c)
        fun x => { x with perstDue := true }))) ∧
  (∀ (s : State) (c : Nat), exec (.perstReleaseExpiry c) s = .next (if (s.rootSt.chan.get c).perstDue && chState s c = 6 then
    setPerst (updChan s c fun x => { x with perstDue := false }) c false else s)) ∧
  (∀ (s : State) (c : Nat), exec (.gateRemovalExpiry c) s = .next (if (s.rootSt.chan.get c).gateDue then
    retryTurnOn (applyCfg (updChan (setGate s c false) c fun x => { x with gateDue := false, offAt := some s.now }) c) else s)) ∧
  (∀ (s u : State) (q : ReqSrc) (c : Nat) (on : Bool), Served s q 0x0203 { m := true, b := true } → u = beginReq s q →
    exec (.slotPower q c on) s = .next (
      if 16 ≤ c then reply u q 0x0203 0x03 []
      else if chUsed u c = false then reply u q 0x0203 0x08 []
      else if u.root.dieDead then reply u q 0x0203 0x0B []
      else if on = false then reply (clearLatch (turnOff u c) c) q 0x0203 0x00 []
      else if 4 ≤ chState u c ∧ chState u c ≤ 6 then reply u q 0x0203 0x00 []
      else if chState u c = 2 ∨ chState u c = 3 then reply (tryTurnOn u (chLead u c)) q 0x0203 0x00 []
      else reply u q 0x0203 0x07 []))

/-- From every state. (1) A channel that is on entering its limit shows it and counts, and a qualification window restarts; else nothing; (2) leaving it keeps what its timer counted, and trips with cause 1 where that has reached TIMER; out of limit, nothing; (3) 1 ms out of limit resets the timer; the timer's end in limit trips a channel that is on with cause 1; else nothing; (4) the fast comparator trips a channel that is on, or just off, with cause 2, takes over a timer trip of the same cycle, and else only takes the gate off; (5) a reading is shown and its peak kept; the second in a row above 1.15 times the limit, out of limit, trips with cause 3; (6) the cool-down's end lets turn-ons that wait go, but not a second time; (7) an attention press is shown and clears the latch, and a used AUTO_ON slot that was latched turns on; 1 s of absence clears the latch, else nothing; (8) an off class S output that drains arms the monitor, else it is damage 7; armed and high again it is damage 7; else nothing; (9) a fault of the rootstock RC raises ROOT fault 0x03, trips every channel in limit with cause 6 and stops the charger; a restored one allows turn-on again; a lost crystal raises the fault. -/
def Obligations.SlotsLimitTripAndClear : Prop :=
  (∀ (s : State) (c : Nat), exec (.limitEntry c) s = .next (if chOn s c && !(rdB s (Reg.ROOT_CH_STATUS c) 6) then
    bump (wrB (updChan s c fun x => { x with limAt := s.now, qualOk := x.qualOk && decide (chState s c ≠ 5) }) (Reg.ROOT_CH_STATUS c) 6 true)
      (Reg.ROOT_CH_LIMITS c) else s)) ∧
  (∀ (s : State) (c us n : Nat), n = (s.rootSt.chan.get c).timerUs + us →
    exec (.limitExit c us) s = .next (if rdB s (Reg.ROOT_CH_STATUS c) 6 = false then s
      else if chTimer s c ≤ n ∧ chOn s c = true then tripSlot s c 1
      else wrF (updChan (wrB s (Reg.ROOT_CH_STATUS c) 6 false) c fun x => { x with timerUs := n }) (Reg.ROOT_CH_STATUS c) 17 13 (min 31 (n / 1000)))) ∧
  (∀ (s : State) (c : Nat),
    exec (.outOfLimitReset c) s = .next (if rdB s (Reg.ROOT_CH_STATUS c) 6 then s
      else wrF (updChan s c fun x => { x with timerUs := 0 }) (Reg.ROOT_CH_STATUS c) 17 13 0) ∧
    exec (.faultTimerExpiry c) s = .next (if chOn s c && rdB s (Reg.ROOT_CH_STATUS c) 6 then
      tripSlot (timeTo s ((s.rootSt.chan.get c).limAt + (chTimer s c - (s.rootSt.chan.get c).timerUs) * 1600)) c 1 else s)) ∧
  (∀ (s : State) (c : Nat), exec (.fastComparatorTrip c) s = .next (
    if chOn s c then tripSlot s c 2
    else if chState s c = 7 && decide ((s.rootSt.chan.get c).tripAt = some s.now) && decide (rdF s (Reg.ROOT_CH_LAST_TRIP c) 3 0 = 1) then fastOverTimer s c
    else if mayTrip s c then tripSlot s c 2
    else updChan (setGate s c false) c fun x => { x with gateDue := false })) ∧
  (∀ (s t u : State) (c ma mv : Nat) (h : Bool), t = wrF (wrF s (Reg.ROOT_CH_I c) 15 0 (min 65535 ma)) (Reg.ROOT_CH_VOUT c) 15 0 (min 65535 mv) →
    h = (decide (115 * chLimit t c < 100 * ma) && !(rdB t (Reg.ROOT_CH_STATUS c) 6) && chOn t c) →
    u = updChan t c (fun x => { x with monHigh := h, peak := max x.peak ma }) →
    exec (.monitorAdcReading c ma mv) s = .next (if h && (t.rootSt.chan.get c).monHigh then tripSlot u c 3 else u)) ∧
  (∀ (s : State) (c : Nat), exec (.cooldownExpiry c) s = .next (if rdB s (Reg.ROOT_CH_STATUS c) 10 then
    retryTurnOn (wrB s (Reg.ROOT_CH_STATUS c) 10 false) else s)) ∧
  (∀ (s t : State) (c : Nat), t = clearLatch (slotNote s c fun v => { v with attnPress := true }) c →
    exec (.attentionButtonPress c) s = .next (if chState s c = 7 ∧ chUsed t c = true ∧ chAuto t c = true ∧ chState t c = 2 then tryTurnOn t (chLead t c) else t) ∧
    (∀ b, (s.rootSt.chan.get c).absentAt = some b → exec (.prsntAbsentExpiry c) s = .next (
      if rdB s (Reg.ROOT_CH_STATUS c) 4 then s else clearLatch (timeTo s (b + 1600000000)) c)) ∧
    ((s.rootSt.chan.get c).absentAt = none → exec (.prsntAbsentExpiry c) s = .next s)) ∧
  (∀ (s : State) (c : Nat) (b : Bool),
    exec (.offStateDrainExpiry c b) s = .next (if chClassL s c || chOn s c || (s.rootSt.chan.get c).offAt.isNone || (s.rootSt.chan.get c).gate ||
        decide (8 ≤ chState s c) then s
      else if b then updChan s c fun x => { x with armed := true, offAt := none } else damage s c 7) ∧
    exec (.offStateOutputHigh c) s = .next (if (s.rootSt.chan.get c).armed && !(chClassL s c) && !(chOn s c) && decide (chState s c < 8) then
      damage s c 7 else s)) ∧
  (∀ (s : State) (d : BitVec 16),
    exec (.rcClockFault d) s = .next (noteCharger ((List.range 16).foldl (fun s c =>
      if chOn s c && rdB s (Reg.ROOT_CH_STATUS c) 6 then tripSlot s c 6 else s)
      (faultU (wrB (wrF s Reg.ROOT_CLK 15 0 d.toNat) Reg.ROOT_CLK 16 true) 10 0x03 2 1))) ∧
    exec .rcClockRestored s = .next (retryTurnOn (noteCharger (wrB s Reg.ROOT_CLK 16 false))) ∧
    exec .xtalLoss s = .next (faultU (wrB s Reg.ROOT_CLK 17 true) 10 0x03 2 2))

/-- From every state. (1) A voltage sample is held in both registers, shows whether the channels agree, raises protection 1 the first time they do not, and feeds the ledger, the sum check and the isolation test; (2) cell readings fill the cell registers and the sum; an invalid or low cell holds the charge and raises 4 the first time; (3) NTC readings fill ROOT_NTC; invalid ones raise 5, ones beyond the charge limits 6, the first time; above 85 °C they raise 7 and end the discharge; (4) below 0.1 A while the charger holds TOP the bank is full; else nothing; (5) cell and bank overvoltage raise 2 and 3 the first time, a cell's shown in its register; (6) a rise with the charger off raises 8 and ends discharge, a reverse current with the discharge off 9, the first time; an overcurrent while the bank discharges 0xA, and ends discharge; else nothing; (7) after 1 s of valid readings a hold of 4 or 5 clears, after 60 s within limits 6; with no hold, or another code, nothing; (8) a served BANK_CLEAR clears what may clear (clearable) and lists it, or with none answers STATE. -/
def Obligations.BankReadingsAndProtections : Prop :=
  (∀ (s w u t : State) (a b : Nat) (va vb : Bool), w = timeTo s (s.qos.lastPair.elim 0 fun x => x.2.2.2.2 + 80000) →
    u = wrB (updQos (wrN (wrN w Reg.ROOT_BANK_V (min 65535 a + min 65535 b * 2 ^ 16)) Reg.QOS_BANK_V (min 65535 a + min 65535 b * 2 ^ 16))
      fun q => { q with lastPair := some (a, b, va, vb, w.now) }) Reg.ROOT_BANK_STATUS 4 (!(disagree a b)) →
    t = updBank u (fun x => { x with disAt := (if disagree a b then w.now else x.disAt), full := x.full && decide (99 * bankTop u ≤ 100 * min a b) }) →
    exec (.bankVoltageSample a b va vb) s = .next (noteBank (isoTest (sumCheck (if disagree a b && !t.rootSt.bank.disagree then
      bankEvent (updBank t fun x => { x with disagree := true }) 1 else t))))) ∧
  (∀ (s t u : State) (mv cells : List Int) (mean : Int), cells = mv.take (rdF s Reg.ROOT_BANK_CFG0 4 0) →
    mean = cells.foldl (· + ·) 0 / (max 1 cells.length : Nat) →
    t = wrF (((List.range cells.length).zip cells).foldl (fun s x =>
      wr s (Reg.ROOT_CELL_V x.1) (cellWord s x.1 x.2 (bleeds s x.1 x.2 mean))) s) Reg.ROOT_CELL_SUM 15 0 (min 65535 (cells.foldl (· + ·) 0).toNat) →
    u = updBank t (fun b => { b with tapHold := true, tapAt := t.now }) →
    exec (.cellReading mv) s = .next (if (cells.any fun v => decide (v < 0) || decide (3300 < v)) ||
        (decide (bankTop t ≤ 2 * bankLow t) && cells.any fun v => decide (2 * v < mean)) then
      if t.rootSt.bank.tapHold then noteBank u else bankEvent u 4
      else t)) ∧
  (∀ (s t u w : State) (a b : Int), t = updBank (wrN s Reg.ROOT_NTC (twos 16 a + twos 16 b * 2 ^ 16)) (fun x => { x with
      ntc := (a, b), ntcAt := (if ntcBad a || ntcBad b then s.now else x.ntcAt), warmAt := (if ntcCalm a b then x.warmAt else s.now) }) →
    u = (if (ntcBad a || ntcBad b) && !t.rootSt.bank.ntcHold then bankEvent (updBank t fun x => { x with ntcHold := true }) 5 else t) →
    w = (if ((!(ntcBad a) && (decide (650 < a) || decide (a < -100))) || (!(ntcBad b) && (decide (650 < b) || decide (b < -100))) ||
      (!(ntcBad a || ntcBad b) && (decide (100 < a - b) || decide (100 < b - a)))) && !(rdB u Reg.ROOT_BANK_STATUS 7) then
      bankEvent (wrB u Reg.ROOT_BANK_STATUS 7 true) 6 else u) →
    exec (.ntcReading a b) s = .next (if ((!(ntcBad a) && decide (850 < a)) || (!(ntcBad b) && decide (850 < b))) && !(rdB w Reg.ROOT_BANK_STATUS 8) then
      bankEnds (bankEvent (wrB w Reg.ROOT_BANK_STATUS 8 true) 7) else w)) ∧
  (∀ s : State, exec .chargerCurrentLow s = .next (if rdB s Reg.ROOT_BANK_STATUS 1 then noteCharger (updBank s fun b => { b with full := true }) else s)) ∧
  (∀ (s t : State) (i : Nat), t = wrB s (Reg.ROOT_CELL_V i) 17 true →
    exec (.cellOvervoltageTrip i) s = .next (if rdB t Reg.ROOT_BANK_STATUS 5 then t else bankEvent (wrB t Reg.ROOT_BANK_STATUS 5 true) 2) ∧
    exec .bankOvervoltageTrip s = .next (if rdB s Reg.ROOT_BANK_STATUS 6 then s else bankEvent (wrB s Reg.ROOT_BANK_STATUS 6 true) 3)) ∧
  (∀ s : State,
    exec .bankRiseChargerOff s = .next (if rdB s Reg.ROOT_BANK_STATUS 0 || s.rootSt.bank.rise then s
      else bankEnds (bankEvent (updBank s fun b => { b with rise := true }) 8)) ∧
    exec .reverseCurrentTrip s = .next (if rdB s Reg.ROOT_BANK_STATUS 2 || s.rootSt.bank.reverse then s
      else bankEvent (updBank s fun b => { b with reverse := true }) 9) ∧
    exec .dischargeOvercurrentTrip s = .next (if rdB s Reg.ROOT_BANK_STATUS 2 then bankEnds (bankEvent (updBank s fun b => { b with dischCut := true }) 0xA) else s)) ∧
  (∀ (s : State) (c : BitVec 4), exec (.protectionAutoClear c) s = .next (
    if c = 4 ∧ s.rootSt.bank.tapHold = true then
      retryTurnOn (noteBank (updBank (timeTo s (s.rootSt.bank.tapAt + 1600000000)) fun b => { b with tapHold := false }))
    else if c = 5 ∧ s.rootSt.bank.ntcHold = true then noteBank (updBank (timeTo s (s.rootSt.bank.ntcAt + 1600000000)) fun b => { b with ntcHold := false })
    else if c = 6 ∧ rdB s Reg.ROOT_BANK_STATUS 7 = true then noteBank (wrB (timeTo s (s.rootSt.bank.warmAt + 96000000000)) Reg.ROOT_BANK_STATUS 7 false)
    else s)) ∧
  (∀ (s u : State) (q : ReqSrc), Served s q 0x0204 { m := true } → u = beginReq s q →
    exec (.bankClear q) s = .next (if clearable u = 0 then reply u q 0x0204 0x07 [] else reply (clearBank u (clearable u)) q 0x0204 0x00 [w32 (clearable u)]))

/-- From every state; in cloche the five rows that receive requests do nothing. (1) A bridged request of a contained vDSP, not plain, outside the envelope or to an absent far port is refused, but a configuration read of an absent one reads all ones; one its hedge unit refuses is dropped; else it waits its turn (brgQueue); (2) a frame received is taken (farTake: counted, refused by the table, answered by a dead port) and stored; a locked one outside its sequence draws UR; (3) MEM_RD_LK taken makes an IDLE engine, or one acquiring against a lower ID, TARGET, is stored in its own sequence, else draws BUSY; UNLOCK of the sequence is passed on, frees it and is answered, else draws UR; (4) the next stored request a far port may carry is issued (farSend), one whose port died is answered; with none, nothing; (5) a response to no transaction is uncollected; BUSY retries (brgBusy); any other closes its transaction if it is the last, reaches the host unless orphaned, posted or UNLOCK, moves the lock, and what waits is tried; (6) 25 ms end a transaction; 2 µs after BUSY a request goes again; 1 ms discards a held response; of none, nothing; (7) an MRdLk not the legacy host's is counted and refused; contained, absent or outside the envelope it is refused, by the hedge unit dropped, else the lock engine takes it (lockTake); (8) an OWNER's Unlock ends its sequence; an IDLE engine's back-off tries again the transaction or request that waits; an idle TARGET is forced; else nothing. -/
def Obligations.BridgedRequestsAndResponses : Prop :=
  (∀ (s u : State) (r x : BrgReq), u = farNote s r →
    x = { r with locked := decide (r.op = .memWr) && decide (lockState u = 2) && isLegacy u r && !(unlocking u) } →
    exec (.bridgeRequest r) s = .next (if inCloche s then s
      else if (u.pcie.vdsp.get (64 * x.host + x.vdsp)).dpcTrig then brgRefuse u x (if dpcCplCtl u x.host x.vdsp then 1 else 4)
      else if x.plain = false ∨ inEnvelope u x = false then brgRefuse u x 1
      else if farPresent u x = false then
        if x.op = .cfgRd then emit u (.cpl (upPort u x.host) x.reqId.toNat x.tag.toNat 0 false [0xFFFFFFFF]) else brgRefuse u x 1
      else if x.op ≠ .cfgRd ∧ x.op ≠ .cfgWr ∧ partsOk (brgParts u x) = false then brgHedge u x (vdspOf u x.host x.vdsp).slot (brgParts u x)
      else brgQueue u x)) ∧
  (∀ (s : State) (w : BitVec 12) (r : BrgReq), exec (.bridgeFrameReceive w r) s = .next (
    if inCloche s || r.op = .memRdLk || r.op = .unlock then s else farTake s w.toNat r fun s =>
      if r.locked && !decide (lockState s = 3 ∧ lockPeer s = w.toNat ∧ lockPort s = r.farPort) then farReply s w.toNat r 1
      else farStore (if r.locked then updBrg s fun b => { b with lockAt := s.now } else s) w.toNat r)) ∧
  (∀ (s : State) (w : BitVec 12) (r : BrgReq),
    exec (.memRdLkReceive w r) s = .next (if inCloche s then s else farTake s w.toNat { r with op := .memRdLk } fun s =>
      if lockState s = 0 ∨ (lockState s = 1 ∧ w.toNat < swId s) then lockTarget s w.toNat r
      else if lockState s = 3 ∧ lockPeer s = w.toNat ∧ lockPort s = r.farPort then
        farStore (updBrg s fun b => { b with lockAt := s.now }) w.toNat { r with op := .memRdLk }
      else farReply s w.toNat r 2) ∧
    exec (.unlockReceive w r) s = .next (if inCloche s then s else farTake s w.toNat { r with op := .unlock } fun s =>
      if lockState s = 3 ∧ lockPeer s = w.toNat ∧ lockPort s = r.farPort then
        farReply (lockIdle (emit s (.pcieMsg r.farPort "Unlock"))) w.toNat r 0
      else farReply s w.toNat r 1)) ∧
  (∀ (s : State) (p : Nat),
    (farNext s p = none → exec (.bridgeFarIssue p) s = .next s) ∧
    (∀ e, farNext s p = some e → exec (.bridgeFarIssue p) s = .next (match farDead s e.1 p with
      | none => farSend s e
      | some st => farReply (noteBrg (updBrg s fun b => { b with store := b.store.erase e })) e.1 e.2 st))) ∧
  (∀ (s a b c : State) (r : BrgResp),
    ((s.brg.txns.find? fun t => t.req.btag == r.btag) = none → exec (.bridgeResponseReceive r) s = .next (uncollected s)) ∧
    (∀ t, (s.brg.txns.find? fun t => t.req.btag == r.btag) = some t → a = (if r.final then brgClose s t else s) →
      b = (if t.orphan then uncollected a else if r.cplId = 0xFFFF ∧ r.status ≠ 0 then brgEnd a t r.status.toNat
        else if isPosted t.req = true ∨ t.req.op = .unlock then a else toHost a t.req r) →
      c = (if t.req.op = .memRdLk ∧ r.final = true then acquired b t (decide (r.status = 0))
        else if t.req.op = .unlock ∧ lockState b = 2 then lockIdle b else b) →
      exec (.bridgeResponseReceive r) s = .next (if r.cplId = 0xFFFF ∧ r.status = 2 then brgBusy s t else brgGo c))) ∧
  (∀ (s : State) (n : Nat),
    (∀ t, (s.brg.txns.find? fun t => t.req.btag == n) = some t → exec (.bridgeTimeout n) s = .next (brgTimedOut (timeTo s (t.at_ + 38400000)) t)) ∧
    ((s.brg.txns.find? fun t => t.req.btag == n) = none → exec (.bridgeTimeout n) s = .next s) ∧
    (∀ t, (s.brg.txns.find? fun t => t.req.btag == n && t.again && decide (t.req.op ≠ .memRdLk ∨ lockState s = 2)) = some t →
      exec (.bridgeBusyRetryExpiry n) s = .next (brgAgain (timeTo s (t.busyAt + 3200)) t)) ∧
    ((s.brg.txns.find? fun t => t.req.btag == n && t.again && decide (t.req.op ≠ .memRdLk ∨ lockState s = 2)) = none →
      exec (.bridgeBusyRetryExpiry n) s = .next s) ∧
    (∀ h, (s.brg.held.find? fun h => h.req.btag == n) = some h → exec (.bridgeResponseStall n) s =
      .next (uncollected (updBrg (timeTo s (h.at_ + 1600000)) fun b => { b with held := b.held.filter fun h => !(h.req.btag == n) }))) ∧
    ((s.brg.held.find? fun h => h.req.btag == n) = none → exec (.bridgeResponseStall n) s = .next s)) ∧
  (∀ (s : State) (r : BrgReq) (p : Nat) (ps : List Part), p = upPort s r.host → ps = hedgeParts s p (lockSlot s r) .read r.addr.toNat (4 * r.dwCount) →
    exec (.legacyMrdlk r) s = .next (if inCloche s then s
      else if isLegacy s r = false then brgRefuse (count (bump s (Reg.PCIE_UR_TX p)) p 20) r 1
      else if (s.pcie.vdsp.get (64 * r.host + r.vdsp)).dpcTrig then brgRefuse s r (if dpcCplCtl s r.host r.vdsp then 1 else 4)
      else if (r.farSw.toNat ≠ swId s ∧ inEnvelope s r = false) ∨ farPresent s r = false then brgRefuse s r 1
      else if partsOk ps = false then brgHedge s { r with op := .memRdLk } (lockSlot s r) ps
      else lockTake s r)) ∧
  (∀ (s t : State),
    exec .legacyUnlock s = .next (if lockState s = 2 then sendUnlock s else s) ∧
    (lockState s ≠ 0 → exec .lockBackoffExpiry s = .next s) ∧
    (lockState s = 0 → t = count (bump (timeTo s (s.brg.idleAt + 3200)) Reg.BRG_LOCK_BACKOFF) 123 7 →
      exec .lockBackoffExpiry s = .next (match (s.brg.txns.find? fun t => t.again && decide (t.req.op = .memRdLk)), s.brg.lockReq with
        | some x, _ => brgAgain (updBrg (setPeer (setLock t 1) x.req.farSw.toNat x.req.farPort) fun b => { b with lockBy := some x.req }) x
        | none, r :: rest => lockAcquire (updBrg t fun b => { b with lockReq := rest, lockAgain := false }) r
        | none, [] => s)) ∧
    exec .lockIdleExpiry s = .next (if lockState s ≠ 3 then s
      else lockForce (if reachable s (lockPeer s) then timeTo s (s.brg.lockAt + 160000000) else s)))

/-- From every state. (1) A served SCION_CREATE is MALFORMED of bad form, NOT_FOUND of an absent device, DEVICE_ERROR of one not taken over, STATE for a vDSP not free, ENVELOPE outside it or with no instance or run, NO_RESOURCE with no scion; else it makes the scion (createGo); (2) reset and removal of a scion of the host, or by the manager, start the procedure; of another they are not found; (3) SCION_SHAPE checks form, envelope and state and writes RATE, SIZE and the tokens; (4) QUIESCED during a reset shows, and ends it once every older read is done; an instance kept out of its pool returns; else nothing; (5) 10 ms after the reset began older reads give up their tags, held for 10 ms more, and it ends, by force while QUIESCED is 0; a held tag returns to use; with none, nothing; (6) a shared port's trigger raises fault 0x03, contains every scion of its device, forgets what is out and puts the port in containment, once; (7) 10 ms later it retrains and the device is taken over anew; if it meets its form its scions come back (sharedBack); out of containment, nothing; (8) every 40 ns each queue's shaper of a running port (refillOne) and each live scion's is refilled. -/
def Obligations.ScionsMadeResetAndRemoved : Prop :=
  (∀ (s u : State) (q : ReqSrc) (d v db vec qu ce : Nat) (rate : BitVec 21) (size : BitVec 18) (ev : Nat), Served s q 0x0601 { h := true } →
    u = beginReq s q → exec (.scionCreate q d v db vec qu ce rate size ev) s = .next (
      if createForm d v db vec qu ce size.toNat ev = false then reply u q 0x0601 0x03 []
      else if (devPol u d).present = false then reply u q 0x0601 0x08 []
      else if rdB u (Reg.SCION_D_STATE d) 0 = false then reply u q 0x0601 0x0B []
      else if vdspFree u q.host v = false then reply u q 0x0601 0x07 []
      else if createEnv u d q.host db vec qu ce rate.toNat = false then reply u q 0x0601 0x04 []
      else match freeScion u, freeInst u d, lowestRun (dbRuns u d) db (devPol u d).db, lowestRun (vecRuns u d) vec (devPol u d).vec,
          lowestRun (qRuns u d) qu (devPol u d).queues with
        | some sc, some i, some b, some w, some n => createGo u q d v sc i b w n db vec qu ce rate.toNat size.toNat ev
        | none, _, _, _, _ => reply u q 0x0601 0x06 []
        | _, _, _, _, _ => reply u q 0x0601 0x04 [])) ∧
  (∀ (s u : State) (q : ReqSrc) (sc : Nat), u = beginReq s q →
    (Served s q 0x0602 { h := true, m := true } → exec (.scionReset q sc) s = .next (if scionMine u q sc true = false then notFound u q 0x0602 2 sc
      else scionResetGo u sc false false false (some (q, 0x0602)))) ∧
    (Served s q 0x0603 { h := true, m := true } → exec (.scionRemove q sc) s = .next (if scionMine u q sc true = false then notFound u q 0x0603 2 sc
      else scionResetGo u sc true false false (some (q, 0x0603))))) ∧
  (∀ (s u : State) (q : ReqSrc) (sc : Nat) (rate : BitVec 21) (size : BitVec 18) (fill : Bool), Served s q 0x0604 { h := true } → u = beginReq s q →
    exec (.scionShape q sc rate size fill) s = .next (if scionMine u q sc false = false then notFound u q 0x0604 2 sc
      else if size.toNat < 65 ∨ rate = 0 then reply u q 0x0604 0x03 []
      else if min (devEnv u (scDev u sc) q.host).rate (devPol u (scDev u sc)).rateMax < rate.toNat then reply u q 0x0604 0x04 []
      else if scState u sc ≠ 1 then reply u q 0x0604 0x07 []
      else reply (scionGo (instWrite (updSc u sc fun r => { r with
        rate := rate.toNat, size := size.toNat, tokens := if fill then size.toNat * 64 * 200 else 0 }) sc 0x10 (w32 rate.toNat))) q 0x0604 0x00 [])) ∧
  (∀ (s t : State) (sc : Nat), t = wrB s (Reg.SCION_S_STATUS sc) 12 true → exec (.scionQuiesced sc) s = .next (
    if (s.scion.stuck.any fun x => x.1 == sc) = true then
      noteScions (updScion s fun x => { x with stuck := x.stuck.filter fun y => !(y.1 == sc) })
    else if (scionRec s sc).resetAt.isNone then s
    else if oldReadsDone t sc then scionResetEnd t sc false else t)) ∧
  (∀ (s a u : State) (sc tag : Nat),
    (∀ b, (scionRec s sc).resetAt = some b → a = timeTo s (b + 16000000) →
      u = updSc a sc (fun r => { r with
        heldTags := r.heldTags ++ (r.reads.filter fun x => decide (x.gen ≠ scionGen a sc)).map fun x => (x.tag, a.now + 16000000)
        reads := r.reads.filter fun x => decide (x.gen = scionGen a sc) }) →
      exec (.scionQuiesceTimeout sc) s = .next (scionResetEnd u sc (!(rdB u (Reg.SCION_S_STATUS sc) 12)))) ∧
    ((scionRec s sc).resetAt = none → exec (.scionQuiesceTimeout sc) s = .next s) ∧
    (∀ t, ((scionRec s sc).heldTags.find? fun t => t.1 == tag) = some t → exec (.scionTagHoldExpiry sc tag) s =
      .next (scionGo (updSc (timeTo s t.2) sc fun r => { r with heldTags := r.heldTags.filter fun x => decide (x ≠ t) }))) ∧
    (((scionRec s sc).heldTags.find? fun t => t.1 == tag) = none → exec (.scionTagHoldExpiry sc tag) s = .next s)) ∧
  (∀ (s u t : State) (p : Nat),
    (∀ d, devOfPort s p = some d → u = wrB (faultP s 4 0x03 2 p 0) (Reg.SCION_D_STATE d) 2 true →
      t = updFwd ((devScions u d).foldl (fun s sc => scionResetGo s sc false true false none) u) (fun x => { x with cmap := x.cmap.set p [] }) →
      exec (.sharedPortTrigger p) s = .next (if rdB s (Reg.SCION_D_STATE d) 2 then s
        else wrB (wrB (wrF (updScion t fun x => { x with downAt := x.downAt.set p t.now }) (Reg.PCIE_STATUS p) 3 0 7) (Reg.PCIE_STATUS p) 10 false)
          (Reg.PCIE_STATUS p) 11 true)) ∧
    (devOfPort s p = none → exec (.sharedPortTrigger p) s = .next s)) ∧
  (∀ (s a w v : State) (p : Nat) (ok : Bool),
    (∀ d, devOfPort s p = some d → a = timeTo s (s.scion.downAt.get p + 16000000) →
      w = updScion (wrB (wrF (wrB (wrB a (Reg.SCION_D_STATE d) 2 false) (Reg.PCIE_STATUS p) 11 false) (Reg.PCIE_STATUS p) 3 0 (if ok then 3 else 0))
        (Reg.PCIE_STATUS p) 10 ok) (fun x => { x with stuck := x.stuck.filter fun y => !(y.2.1 == d) }) →
      v = deviceTake w { devInfo w d with dev := d, meets := ok } →
      exec (.sharedPortRetrainExpiry p ok) s = .next (if rdB s (Reg.SCION_D_STATE d) 2 = false then s
        else if rdB v (Reg.SCION_D_STATE d) 0 then scionGo (noteScions ((devScions v d).foldl sharedBack v)) else v)) ∧
    (devOfPort s p = none → exec (.sharedPortRetrainExpiry p ok) s = .next s)) ∧
  (∀ (s t : State), t = (s.seed.policy.nzPorts ++ s.seed.policy.pciePorts).foldl (fun s p => (List.range 8).foldl (fun s c => refillOne s p c) s) (nextTick s 64) →
    exec .shaperRefill s = .next (scionGo (updScion t fun x => { x with recs := x.recs.mapVals fun _ r => if r.live then refillScion r else r })))

/-- From every state. (1) A host's request to a live scion outside cloche draws UR (hostUr) unless it is ACTIVE, in D0 with memory enabled and the offset in its pages; past the doorbells it reaches the MSI-X page; (2) else it goes to the device's page: a write under the port's Requester ID, a read or AtomicOp by scionAsk; (3) a device's request counts and is taken by the scion it names (scionTake), or waits where it is put off, or behind one that waits; of a port not shareable, or in cloche, nothing; (4) MSI-X data signal the scion of the device that owns the vector, else count in NO_SCION; of no device, nothing; (5) a queue of a live scion that waits 1 ms contains its scion with SCION fault 0x01 of class U; else nothing; (6) a served DIRTY_START is not found of another's scion, MALFORMED of bad form or alignment, STATE with a log open or not ACTIVE, NO_RESOURCE with 256 logs; else it opens the log; (7) DIRTY_STOP and DIRTY_SYNC of the host's scion queue on an open log, without one draw STATE, of another's are not found; (8) a word read in is ORed with the bits that waited for it; with no log or no one waiting, nothing. -/
def Obligations.ScionTrafficAndDirtyLogs : Prop :=
  (∀ (s : State) (sc off : Nat) (t : Tlp),
    (((scionRec s sc).live = false ∨ inCloche s = true) → exec (.scionHostRequest sc off t) s = .next s) ∧
    ((scionRec s sc).live = true → inCloche s = false →
      (scState s sc ≠ 1 ∨ (scionRec s sc).mse = false ∨ scD s sc ≠ 0 ∨ dbEnd s sc + 4096 ≤ off →
        exec (.scionHostRequest sc off t) s = .next (hostUr s (scHost s sc) t)) ∧
      (scState s sc = 1 → (scionRec s sc).mse = true → scD s sc = 0 → dbEnd s sc ≤ off → off < dbEnd s sc + 4096 →
        exec (.scionHostRequest sc off t) s = .next (msixPage s sc (off - dbEnd s sc) t)))) ∧
  (∀ (s : State) (sc off : Nat) (t u : Tlp), (scionRec s sc).live = true → inCloche s = false → scState s sc = 1 → (scionRec s sc).mse = true →
    scD s sc = 0 → off < dbEnd s sc → u = { t with addr := BitVec.ofNat 64 ((devInfo s (scDev s sc)).db +
      rdF s (Reg.SCION_S_DB sc) 15 0 * 2 ^ (devInfo s (scDev s sc)).log2 + off) } →
    exec (.scionHostRequest sc off t) s = .next (if t.kind = .read ∨ t.kind = .atomic then scionAsk s sc (devPort s (scDev s sc)) u
      else emit s (.tlp (devPort s (scDev s sc)) { u with reqId := farRequester (devPort s (scDev s sc)), pasid := none }))) ∧
  (∀ (s u : State) (p : Nat) (t : Tlp), u = countIn s p 0 (tlpB t) → exec (.scionDeviceRequest p t) s = .next (
    if inCloche s = true ∨ portRole s p ≠ 2 then s
    else if u.scion.wait.get p ≠ [] then updScion u fun x => { x with wait := x.wait.upd p fun l => l ++ [((scionOf u p t).getD 2048, t)] }
    else if (scionTake u p t).1 then (scionTake u p t).2
    else updScion (scionTake u p t).2 fun x => { x with wait := x.wait.set p [((scionOf u p t).getD 2048, t)] })) ∧
  (∀ (s : State) (p v d : Nat) (owns : Nat → Bool), owns = (fun sc => decide (rdF s (Reg.SCION_S_VEC sc) 10 0 ≤ v) &&
      decide (v < rdF s (Reg.SCION_S_VEC sc) 10 0 + rdF s (Reg.SCION_S_VEC sc) 17 11)) →
    (devOfPort s p = none → exec (.scionDeviceMsix p v) s = .next s) ∧
    (devOfPort s p = some d → (devScions s d).find? owns = none → exec (.scionDeviceMsix p v) s = .next (bump s (Reg.SCION_D_NO_SCION d))) ∧
    (∀ sc, devOfPort s p = some d → (devScions s d).find? owns = some sc →
      exec (.scionDeviceMsix p v) s = .next (scionMsi s sc (v - rdF s (Reg.SCION_S_VEC sc) 10 0)))) ∧
  (∀ (s : State) (sc : Nat), exec (.scionQueueWaitExpiry sc) s = .next (if rdB s (Reg.SCION_S_STATUS sc) 16 && (scionRec s sc).live then
    scionResetGo (fault (timeTo s ((scionRec s sc).fullAt + 1600000)) 15 0x01 2 2 sc 0) sc false true false none else s)) ∧
  (∀ (s u : State) (q : ReqSrc) (sc n : Nat) (base a b : BitVec 64) (pasid : Option (BitVec 20)), Served s q 0x0605 { h := true } → u = beginReq s q →
    exec (.dirtyStart q sc base n a b pasid) s = .next (if scionMine u q sc false = false then notFound u q 0x0605 2 sc
      else if n < 21 ∨ 40 < n ∨ base.toNat % 2 ^ n ≠ 0 ∨ a.toNat % 4096 ≠ 0 ∨ b.toNat % 4096 ≠ 0 then reply u q 0x0605 0x03 []
      else if (scionRec u sc).dirty.isSome = true ∨ scState u sc ≠ 1 then reply u q 0x0605 0x07 []
      else if 256 ≤ (u.scion.recs.cells.filter fun c => c.2.dirty.isSome).length then reply u q 0x0605 0x06 []
      else reply (noteScions (wrF (updSc u sc fun r => { r with dirty := some { base := base.toNat, log2 := n, bufA := a.toNat, bufB := b.toNat
                                                                                pasid := pasid } }) (Reg.SCION_S_STATUS sc) 15 14 1)) q 0x0605 0x00 [])) ∧
  (∀ (s u : State) (q : ReqSrc) (sc : Nat), u = beginReq s q →
    (Served s q 0x0606 { h := true } → exec (.dirtyStop q sc) s = .next (if scionMine u q sc false = false then notFound u q 0x0606 2 sc
      else if (scionRec u sc).dirty.isNone then reply u q 0x0606 0x07 []
      else scionGo (dirtySyncGo (updDirty u sc fun l => { l with syncs := l.syncs ++ [(q, true)] }) sc))) ∧
    (Served s q 0x0607 { h := true } → exec (.dirtySync q sc) s = .next (if scionMine u q sc false = false then notFound u q 0x0607 2 sc
      else if (scionRec u sc).dirty.isNone then reply u q 0x0607 0x07 []
      else scionGo (dirtySyncGo (updDirty u sc fun l => { l with syncs := l.syncs ++ [(q, false)] }) sc)))) ∧
  (∀ (s : State) (sc i : Nat) (data : BitVec 64),
    ((scionRec s sc).dirty = none → exec (.dirtyWordFill sc i data) s = .next s) ∧
    (∀ l, (scionRec s sc).dirty = some l → (l.want.find? fun w => w.1 == i) = none → exec (.dirtyWordFill sc i data) s = .next s) ∧
    (∀ l w, (scionRec s sc).dirty = some l → (l.want.find? fun w => w.1 == i) = some w → exec (.dirtyWordFill sc i data) s =
      .next (scionGo (dirtySyncGo (updDirty s sc fun l => { l with want := l.want.erase w, cache := l.cache ++ [(i, w.2 ||| data.toNat)] }) sc))))
end

