-- ==== Sys2Proof/Laws/Bridge.lean ====
section
/-! SUPPORT. What the far bridge does with a request it takes (R447, R453): one equation for each outcome. -/

namespace Sys2Proof.Machine

open Sys2Proof

/-- A request that the table grants and whose port can carry it is taken on. -/
theorem farTake_allowed (s : State) (w : Nat) (r : BrgReq) (f : State → State)
    (h : brgAllowed (count (bump s Reg.BRG_REQ_RX) 123 1) w r = true)
    (h1 : farDead (count (bump s Reg.BRG_REQ_RX) 123 1) w r.farPort = none) :
    farTake s w r f = f (count (bump s Reg.BRG_REQ_RX) 123 1) := by
  unfold farTake
  dsimp only
  rw [if_neg (by rw [h]; simp), h1]

/-- A request that the table does not grant is refused. -/
theorem farTake_refused (s : State) (w : Nat) (r : BrgReq) (f : State → State)
    (h : brgAllowed (count (bump s Reg.BRG_REQ_RX) 123 1) w r = false) :
    farTake s w r f = farRefuse (count (bump s Reg.BRG_REQ_RX) 123 1) w r := by
  unfold farTake
  dsimp only
  rw [if_pos (by rw [h]; rfl)]

/-- A request whose port cannot carry it is answered with the port's status. -/
theorem farTake_dead (s : State) (w : Nat) (r : BrgReq) (f : State → State) (st : Nat)
    (h : brgAllowed (count (bump s Reg.BRG_REQ_RX) 123 1) w r = true)
    (h1 : farDead (count (bump s Reg.BRG_REQ_RX) 123 1) w r.farPort = some st) :
    farTake s w r f = farReply (count (bump s Reg.BRG_REQ_RX) 123 1) w r st := by
  unfold farTake
  dsimp only
  rw [if_neg (by rw [h]; simp), h1]

end Sys2Proof.Machine
end

