-- ==== Sys2Proof/Laws/FixBase.lean ====
section
/-! SUPPORT. What a command leaves as it was: the queue, the fuses and, but for the rows that end a wait, the time (State.fix), and the
rules to show it of a definition from the definitions it calls. -/

set_option linter.unusedSimpArgs false

namespace Sys2Proof.Machine

open Sys2Proof

/-- The fuses of the rootstock die that PROVISION writes. -/
structure Fuses where
  provisioned : Bool
  keyHash0 : BitVec 256
  keyHash1 : BitVec 256
  attSecret : BitVec 256

/-- The fuses in the rootstock die's record. -/
def RootRec.fuses (r : RootRec) : Fuses := ⟨r.provisioned, r.keyHash0, r.keyHash1, r.attSecret⟩

/-- What no command but PROVISION changes: the queue, the time, the fuses. -/
structure Fix where
  pending : List Instr
  now : Nat
  fuses : Fuses

/-- `fix` of a state behind a wall the kernel does not look through: a comparison of two states never starts. -/
opaque fixBox : {f : State → Fix // ∀ s, f s = ⟨s.pending, s.now, s.root.fuses⟩} :=
  ⟨fun s => ⟨s.pending, s.now, s.root.fuses⟩, fun _ => rfl⟩

/-- The queue, the time and the fuses of a state. -/
def State.fix (s : State) : Fix := fixBox.1 s

/-- `fix` of the next state a command answers. -/
def resFix : Res → Option Fix
  | .next t => some t.fix
  | _ => none

/-- The simp rules by which a definition is compared with the state it was given. -/
theorem resFix_next (t : State) : resFix (.next t) = some t.fix := rfl
theorem fix_mk (regs pending out now t0 free access root ret start seed lane pg pair member pcie flt hvst mgmt fwd qos land rme hedge rootSt pfail brg scion pwr) : (State.mk regs pending out now t0 free access root ret start seed lane pg pair member pcie flt hvst mgmt fwd qos land rme hedge rootSt pfail brg scion pwr).fix = ⟨pending, now, root.fuses⟩ := fixBox.2 _
theorem fix_fold (s : State) : Fix.mk s.pending s.now s.root.fuses = s.fix := (fixBox.2 s).symm
theorem fuses_mk (powered dieDead railsOn keyHash0 keyHash1 revoked0 revoked1 provisioned attSecret seedCounter attLeaf flushCounter startCounter retCopy retDigest retCounter retSE flushFlag flushId flushCut reachedService seedFailedSince flushedSince warmFails heldCause retries errHold) : (RootRec.mk powered dieDead railsOn keyHash0 keyHash1 revoked0 revoked1 provisioned attSecret seedCounter attLeaf flushCounter startCounter retCopy retDigest retCounter retSE flushFlag flushId flushCut reachedService seedFailedSince flushedSince warmFails heldCause retries errHold).fuses = ⟨provisioned, keyHash0, keyHash1, attSecret⟩ := rfl
theorem fuses_fold (r : RootRec) : Fuses.mk r.provisioned r.keyHash0 r.keyHash1 r.attSecret = r.fuses := rfl
theorem foldl_fix {α : Type} (g : State → α → State) (l : List α) (s : State) (h : ∀ s x, (g s x).fix = s.fix) :
    (l.foldl g s).fix = s.fix := by
  induction l generalizing s with
  | nil => rfl
  | cons x l ih => rw [List.foldl_cons, ih, h]
theorem foldl_fix_to {α : Type} (g : State → α → State) (l : List α) (s r : State) (h : ∀ s x, (g s x).fix = s.fix)
    (e : s.fix = r.fix) : (l.foldl g s).fix = r.fix := (foldl_fix g l s h).trans e
theorem foldl_snd_fix {α β : Type} (g : α × State → β → α × State) (l : List β) (x : α × State) (r : State)
    (h : ∀ x y, (g x y).2.fix = x.2.fix) (e : x.2.fix = r.fix) : (l.foldl g x).2.fix = r.fix := by
  induction l generalizing x with
  | nil => exact e
  | cons y l ih => exact ih _ ((h x y).trans e)
theorem fixBox_eq (s : State) : fixBox.1 s = ⟨s.pending, s.now, s.root.fuses⟩ := fixBox.2 s


/-- The queue and the fuses as they were, at the same time or a later one. -/
def Later (s : State) (r : Option Fix) : Prop := ∃ n, s.now ≤ n ∧ r = some ({ s with now := n } : State).fix

theorem later_refl (s : State) : Later s (some s.fix) := ⟨s.now, le_rfl, rfl⟩
theorem later_to (s : State) (t : Nat) : Later s (some (timeTo s t).fix) := ⟨max s.now t, le_max_left _ _, rfl⟩
theorem later_tick (s : State) (n : Nat) (h : 0 < n) : Later s (some (nextTick s n).fix) :=
  ⟨(s.now / n + 1) * n, by have e := Nat.div_add_mod s.now n; have l := Nat.mod_lt s.now h; rw [Nat.add_mul, Nat.mul_comm]; omega, rfl⟩
theorem later_of_fix {s : State} {r : Option Fix} (h : r = some s.fix) : Later s r := h ▸ later_refl s

end Sys2Proof.Machine
end

