-- ==== Sys2Proof/Laws/FixOps.lean ====
section
/-! SUPPORT. Each definition over the state in CfgOps, Ops, Operands, Wire, LaneOps, ForwardOps, HedgeOps, LandOps, RmeOps keeps the queue, the time and the fuses; a row
that ends a stated span of time may move the time on. -/

set_option linter.unusedSimpArgs false

namespace Sys2Proof.Machine

open Sys2Proof

theorem cfgSet_fix (s : State) (k : Nat) (f : VFn) (cap off : Nat) (v : Word) : (cfgSet s k f cap off v).fix = s.fix := by
  simp only [cfgSet, fix_mk, fix_fold]
theorem cfgClear_fix (s : State) (k : Nat) (f : VFn) : (cfgClear s k f).fix = s.fix := by
  simp only [cfgClear, fix_mk, fix_fold]
theorem cfgClearHost_fix (s : State) (k : Nat) : (cfgClearHost s k).fix = s.fix := by
  simp only [cfgClearHost, fix_mk, fix_fold]
theorem cfgF_fix (s : State) (k : Nat) (f : VFn) (cap off hi lo n : Nat) : (cfgF s k f cap off hi lo n).fix = s.fix := by
  simp only [cfgF, cfgSet_fix]
theorem wr_fix (s : State) (a : Nat) (v : Word) : (wr s a v).fix = s.fix := by
  simp only [wr, fix_mk, fix_fold]
theorem wrF_fix (s : State) (a hi lo n : Nat) : (wrF s a hi lo n).fix = s.fix := by
  simp only [wrF, wr_fix]
theorem wrB_fix (s : State) (a i : Nat) (b : Bool) : (wrB s a i b).fix = s.fix := by
  simp only [wrB, wrF_fix]
theorem wrN_fix (s : State) (a n : Nat) : (wrN s a n).fix = s.fix := by
  simp only [wrN, wr_fix]
theorem wr64_fix (s : State) (a n : Nat) : (wr64 s a n).fix = s.fix := by
  simp only [wr64, wr_fix]
theorem bumpBy_fix (s : State) (a n : Nat) : (bumpBy s a n).fix = s.fix := by
  simp only [bumpBy, wrN_fix]
theorem bump_fix (s : State) (a : Nat) : (bump s a).fix = s.fix := by
  simp only [bump, bumpBy_fix]
theorem bumpF_fix (s : State) (a hi lo n : Nat) : (bumpF s a hi lo n).fix = s.fix := by
  simp only [bumpF, wrF_fix]
theorem countBy_fix (s : State) (g j n : Nat) : (countBy s g j n).fix = s.fix := by
  simp only [countBy, apply_ite State.fix, ite_self, wr_fix, wrF_fix, wrB_fix]
theorem count_fix (s : State) (g j : Nat) : (count s g j).fix = s.fix := by
  simp only [count, countBy_fix]
theorem emit_fix (s : State) (o : Out) : (emit s o).fix = s.fix := by
  simp only [emit, fix_mk, fix_fold]
theorem freshBits_fix (s : State) (w : Nat) : (freshBits s w).2.fix = s.fix := by
  simp only [freshBits, fix_mk, fix_fold]
theorem mefPme_fix (s : State) (k : Nat) : (mefPme s k).fix = s.fix := by
  simp only [mefPme, fix_mk, fix_fold, apply_ite State.fix, ite_self, cfgF_fix, emit_fix]
theorem msix_fix (s : State) (k v : Nat) : (msix s k v).fix = s.fix := by
  simp only [msix, fix_mk, fix_fold, apply_ite State.fix, ite_self, mefPme_fix, count_fix, emit_fix]
theorem mefWritten_fix (s : State) (k : Nat) (f : State → State) (hf : ∀ s, (f s).fix = s.fix) : (mefWritten s k f).fix = s.fix := by
  simp only [mefWritten, apply_ite State.fix, ite_self, hf]
theorem mefAnswered_fix (s : State) (k req : Nat) (f : State → State) (hf : ∀ s, (f s).fix = s.fix) : (mefAnswered s k req f).fix = s.fix := by
  simp only [mefAnswered, apply_ite State.fix, ite_self, hf, emit_fix]
theorem hvColumns_fix (s : State) (bytes : List Byte) : (hvColumns s bytes).fix = s.fix := by
  simp only [hvColumns, fix_mk, fix_fold, emit_fix]
theorem hvGo_fix (s : State) : (hvGo s).fix = s.fix := by
  generalize hff : @hvGo = ff
  delta hvGo at hff
  subst hff
  beta_reduce
  (repeat' split) <;> simp only [fix_mk, fix_fold, hvColumns_fix, emit_fix, wrB_fix]
theorem hvOfferAt_fix (s : State) (time prio typ : Nat) (body : List Byte) : (hvOfferAt s time prio typ body).fix = s.fix := by
  simp only [hvOfferAt, fix_mk, fix_fold, apply_ite State.fix, ite_self, wrN_fix, wrF_fix, hvGo_fix, bump_fix, count_fix]
theorem hvOffer_fix (s : State) (prio typ : Nat) (body : List Byte) : (hvOffer s prio typ body).fix = s.fix := by
  simp only [hvOffer, hvOfferAt_fix]
theorem pmeAck_fix (s : State) (k : Nat) : (pmeAck s k).fix = s.fix := by
  simp only [pmeAck, fix_mk, fix_fold, wrB_fix, wrF_fix, emit_fix]
theorem pmeLate_fix (s : State) : (pmeLate s).fix = s.fix := by
  generalize hff : @pmeLate = ff
  delta pmeLate at hff
  subst hff
  beta_reduce
  (repeat' (first | split | refine foldl_fix_to _ _ _ _ (fun _ _ => ?_) ?_)) <;> simp only [pmeAck_fix]
theorem sampleOut_fix (s : State) : (sampleOut s).fix = s.fix := by
  generalize hff : @sampleOut = ff
  delta sampleOut at hff
  subst hff
  beta_reduce
  split <;> simp only [fix_mk, fix_fold, hvOfferAt_fix]
theorem cntOut_fix (s : State) : (cntOut s).fix = s.fix := by
  generalize hff : @cntOut = ff
  delta cntOut at hff
  subst hff
  beta_reduce
  split <;> simp only [fix_mk, fix_fold, hvOffer_fix]
theorem fltStatus_fix (s : State) : (fltStatus s).fix = s.fix := by
  simp only [fltStatus, wrB_fix]
theorem fltFill_fix (s : State) (f : FaultSrc) : (fltFill s f).fix = s.fix := by
  simp only [fltFill, fix_mk, fix_fold, wrF_fix, wrB_fix, wrN_fix, wr64_fix]
theorem fltOverflow_fix (s : State) (u : Nat) : (fltOverflow s u).fix = s.fix := by
  simp only [fltOverflow, apply_ite State.fix, ite_self, count_fix, wrB_fix]
theorem fltRecord_fix (s : State) (f : FaultSrc) : (fltRecord s f).fix = s.fix := by
  simp only [fltRecord, apply_ite State.fix, ite_self, fltFill_fix, fltOverflow_fix]
theorem errNQualify_fix (s : State) (f : FaultSrc) : (errNQualify s f).fix = s.fix := by
  simp only [errNQualify, fix_mk, fix_fold, apply_ite State.fix, ite_self, wrF_fix, count_fix, emit_fix]
theorem fltHost_fix (s : State) (f : FaultSrc) (k : Nat) : (fltHost s f k).fix = s.fix := by
  simp only [fltHost, wrF_fix, wrB_fix, wrN_fix, wr64_fix, bump_fix]
theorem fltNotify_fix (s : State) (f : FaultSrc) (owner : Nat) : (fltNotify s f owner).fix = s.fix := by
  simp only [fltNotify, apply_ite State.fix, ite_self, foldl_fix, implies_true, msix_fix]
theorem recordFault_fix (s : State) (f : FaultSrc) : (recordFault s f).fix = s.fix := by
  simp only [recordFault, apply_ite State.fix, ite_self, fltRecord_fix, fltStatus_fix, bump_fix, count_fix, fltHost_fix, fltNotify_fix, hvOffer_fix,
    errNQualify_fix]
theorem fault_fix (s : State) (unit code cls zone zid addr : Nat) : (fault s unit code cls zone zid addr).fix = s.fix := by
  simp only [fault, recordFault_fix]
theorem faultU_fix (s : State) (unit code cls addr : Nat) : (faultU s unit code cls addr).fix = s.fix := by
  simp only [faultU, fault_fix]
theorem faultP_fix (s : State) (unit code cls port addr : Nat) : (faultP s unit code cls port addr).fix = s.fix := by
  simp only [faultP, fault_fix]
theorem mgmtCount_fix (s : State) : (mgmtCount s).fix = s.fix := by
  simp only [mgmtCount, wrF_fix]
theorem wrWords_fix (s : State) (a : Nat) (n : List Word) : (wrWords s a n).fix = s.fix := by
  induction n generalizing s a with
  | nil => simp only [wrWords, fix_mk, fix_fold, fuses_mk, fuses_fold, resFix_next, apply_ite State.fix, apply_ite resFix, ite_self, foldl_fix,
    implies_true, wr_fix]
  | cons x n ih => simp only [wrWords, ih, fix_mk, fix_fold, fuses_mk, fuses_fold, resFix_next, apply_ite State.fix, apply_ite resFix, ite_self,
    foldl_fix, implies_true, wr_fix]
theorem popReq_fix (s : State) (q : ReqSrc) : (popReq s q).fix = s.fix := by
  generalize hff : @popReq = ff
  delta popReq at hff
  subst hff
  beta_reduce
  split <;> simp only [fix_mk, fix_fold, mgmtCount_fix]
theorem reply_fix (s : State) (q : ReqSrc) (code status : Nat) (ws : List Word) : (reply s q code status ws).fix = s.fix := by
  simp only [reply, apply_ite State.fix, ite_self, popReq_fix, bump_fix, emit_fix, count_fix, wrWords_fix, wrB_fix, msix_fix]
theorem notFound_fix (s : State) (q : ReqSrc) (code kind id : Nat) : (notFound s q code kind id).fix = s.fix := by
  simp only [notFound, apply_ite State.fix, ite_self, reply_fix, bump_fix]
theorem beginReq_fix (s : State) (q : ReqSrc) : (beginReq s q).fix = s.fix := by
  generalize hff : @beginReq = ff
  delta beginReq at hff
  subst hff
  beta_reduce
  split <;> simp only [fix_mk, fix_fold]
theorem serve_fix (s : State) (q : ReqSrc) (code : Nat) (i : Issuers) (rom brace : Bool) (f : State → State) (hf : ∀ s, (f s).fix = s.fix)
    : (serve s q code i rom brace f).fix = s.fix := by
  simp only [serve, apply_ite State.fix, ite_self, hf, reply_fix, beginReq_fix]
theorem countIn_fix (s : State) (p vc b : Nat) : (countIn s p vc b).fix = s.fix := by
  simp only [countIn, count_fix, countBy_fix]
theorem updLane_fix (s : State) (n : Nat) (f : LaneSt → LaneSt) : (updLane s n f).fix = s.fix := by
  simp only [updLane, fix_mk, fix_fold]
theorem startLanes_fix (s : State) (p : Nat) : (startLanes s p).fix = s.fix := by
  simp only [startLanes, foldl_fix, implies_true, updLane_fix]
theorem sendColumns_fix (s : State) (p : Nat) (cols : List (List Sym)) : (sendColumns s p cols).fix = s.fix := by
  simp only [sendColumns, foldl_fix, implies_true, emit_fix, updLane_fix]
theorem sendSets_fix (s : State) (p k d1 d2 d3 n : Nat) : (sendSets s p k d1 d2 d3 n).fix = s.fix := by
  simp only [sendSets, sendColumns_fix, emit_fix]
theorem lcsSend_fix (s : State) (p d1 d2 d3 n : Nat) : (lcsSend s p d1 d2 d3 n).fix = s.fix := by
  simp only [lcsSend, sendSets_fix]
theorem laneSetsSend_fix (s : State) (p width n : Nat) : (laneSetsSend s p width n).fix = s.fix := by
  simp only [laneSetsSend, sendColumns_fix, emit_fix]
theorem kSetSend_fix (s : State) (p : Nat) (k : List Byte) (n : Nat) : (kSetSend s p k n).fix = s.fix := by
  simp only [kSetSend, sendColumns_fix, emit_fix]
theorem alnSend_fix (s : State) (p : Nat) : (alnSend s p).fix = s.fix := by
  simp only [alnSend, kSetSend_fix]
theorem filSend_fix (s : State) (p : Nat) : (filSend s p).fix = s.fix := by
  simp only [filSend, sendColumns_fix]
theorem sendWire_fix (s : State) (p : Nat) (w : WireFrame) : (sendWire s p w).fix = s.fix := by
  simp only [sendWire, sendColumns_fix]
theorem frameSend_fix (s : State) (p : Nat) (f : Frame) (stomped : Bool) : (frameSend s p f stomped).fix = s.fix := by
  simp only [frameSend, sendWire_fix, emit_fix]
theorem lcfSend_fix (s : State) (p ack : Nat) (nak : Option Nat) (limits : List Nat) : (lcfSend s p ack nak limits).fix = s.fix := by
  simp only [lcfSend, sendWire_fix, emit_fix]
theorem receiveGroups_fix (s : State) (p : Nat) (g : List (List Group)) : (receiveGroups s p g).2.fix = s.fix := by
  simp only [receiveGroups, foldl_fix, implies_true, updLane_fix, bumpBy_fix]
theorem prbsCatch_fix (s : State) (n known : Nat) : (prbsCatch s n known).fix = s.fix := by
  generalize hff : @prbsCatch = ff
  delta prbsCatch at hff
  subst hff
  beta_reduce
  split <;> simp only [freshBits_fix, updLane_fix, wr64_fix]
theorem prbsEnd_fix (s : State) (n known : Nat) : (prbsEnd s n known).fix = s.fix := by
  simp only [prbsEnd, updLane_fix, prbsCatch_fix]
theorem prbsUnlock_fix (s : State) (n known : Nat) : (prbsUnlock s n known).fix = s.fix := by
  simp only [prbsUnlock, apply_ite State.fix, ite_self, bumpF_fix, wrB_fix, prbsEnd_fix]
theorem testAbort_fix (s : State) (n : Nat) : (testAbort s n).fix = s.fix := by
  simp only [testAbort, apply_ite State.fix, ite_self, wrB_fix, wrF_fix, prbsEnd_fix]
theorem marginAbort_fix (s : State) (n : Nat) : (marginAbort s n).fix = s.fix := by
  simp only [marginAbort, apply_ite State.fix, ite_self, wrF_fix]
theorem stopTests_fix (s : State) : (stopTests s).fix = s.fix := by
  simp only [stopTests, foldl_fix, implies_true, marginAbort_fix, testAbort_fix]
theorem cellFrom_fix (s : State) (g : Nat) (r : Nat × State) (h : cellFrom s g = some r) : r.2.fix = s.fix := by
  unfold cellFrom at h
  split at h
  · cases h; simp only [fix_mk, fix_fold, fuses_mk, fuses_fold, resFix_next, apply_ite State.fix, apply_ite resFix, ite_self, foldl_fix, implies_true]
  · dsimp only at h
    split at h
    · cases h; simp only [fix_mk, fix_fold, fuses_mk, fuses_fold, resFix_next, apply_ite State.fix, apply_ite resFix, ite_self, foldl_fix,
      implies_true]
    · cases h
theorem cellTry_fix (s : State) (p : Nat) (k g : Nat) (r : Nat × State) (h : cellTry s p k g = some r) : r.2.fix = s.fix := by
  induction k generalizing g with
  | zero => cases h
  | succ k ih =>
    unfold cellTry at h
    split at h
    · rename_i c s' e
      cases h
      have e' := cellFrom_fix _ _ _ e
      simp only [fix_mk, fix_fold, fuses_mk, fuses_fold, resFix_next, apply_ite State.fix, apply_ite resFix, ite_self, foldl_fix, implies_true, e']
    · exact ih _ h
theorem takeCells_fix (s : State) (p : Nat) (n : Nat) : (takeCells s p n).2.fix = s.fix := by
  induction n generalizing s with
  | zero => rfl
  | succ n ih =>
    unfold takeCells
    split
    · rename_i c s' e
      exact (ih s').trans (cellTry_fix _ _ _ _ _ e)
    · rfl
theorem noteFree_fix (s : State) : (noteFree s).fix = s.fix := by
  simp only [noteFree, apply_ite State.fix, ite_self, wrF_fix]
theorem allocFrame_fix (s : State) (p : Nat) (f : Frame) (tag : Option (Nat × Nat × Nat)) (known : Bool) : (allocFrame s p f tag known).2.fix = s.fix := by
  simp only [allocFrame, fix_mk, fix_fold, takeCells_fix, wrF_fix, noteFree_fix, countBy_fix]
theorem sendLcf_fix (s : State) (p : Nat) (nak : Option Nat) : (sendLcf s p nak).fix = s.fix := by
  generalize hff : @sendLcf = ff
  delta sendLcf at hff
  subst hff
  beta_reduce
  split <;> simp only [fix_mk, fix_fold, lcfSend_fix]
theorem returnCredits_fix (s : State) (p vc n : Nat) : (returnCredits s p vc n).fix = s.fix := by
  simp only [returnCredits, fix_mk, fix_fold, apply_ite State.fix, ite_self, foldl_fix, implies_true, wrF_fix, sendLcf_fix]
theorem freeEntry_fix (s : State) (e : QEntry) : (freeEntry s e).fix = s.fix := by
  simp only [freeEntry, fix_mk, fix_fold, apply_ite State.fix, ite_self, wrF_fix, returnCredits_fix]
theorem enqueue_fix (s : State) (p : Nat) (e : QEntry) : (enqueue s p e).fix = s.fix := by
  simp only [enqueue, fix_mk, fix_fold, wrF_fix]
theorem wredDrop_fix (s : State) (a : Nat × Nat) (m : Nat × Nat × Nat) : (wredDrop s a m).2.fix = s.fix := by
  generalize hff : @wredDrop = ff
  delta wredDrop at hff
  subst hff
  beta_reduce
  (repeat' split) <;> simp only [freshBits_fix]
theorem wredPass_fix (s : State) (p : Nat) (f : Frame) : (wredPass s p f).2.fix = s.fix := by
  generalize hff : @wredPass = ff
  delta wredPass at hff
  subst hff
  beta_reduce
  (try simp only [fix_mk, fix_fold, fuses_mk, fuses_fold, resFix_next, apply_ite State.fix, apply_ite resFix, ite_self, foldl_fix, implies_true,
    wredDrop_fix, count_fix, bump_fix])
  (repeat' split) <;> simp only [fix_mk, fix_fold, fuses_mk, fuses_fold, resFix_next, apply_ite State.fix, apply_ite resFix, ite_self, foldl_fix,
    implies_true, wredDrop_fix, count_fix, bump_fix]
theorem sendOn_fix (s : State) (p : Nat) (f : Frame) : (sendOn s p f).fix = s.fix := by
  simp only [sendOn, apply_ite State.fix, ite_self, allocFrame_fix, wredPass_fix, enqueue_fix, freeEntry_fix]
theorem sendMsg_fix (s : State) (dst kind ep : Nat) (ws : List Nat) : (sendMsg s dst kind ep ws).fix = s.fix := by
  generalize hff : @sendMsg = ff
  delta sendMsg at hff
  subst hff
  beta_reduce
  split <;> simp only [sendOn_fix]
theorem passFrame_fix (s : State) (p : Nat) (f : Frame) : (passFrame s p f).fix = s.fix := by
  simp only [passFrame, fix_mk, fix_fold, apply_ite State.fix, ite_self]
theorem hedgeLatch_fix (s : State) (u k : Nat) (kind : AccKind) (reason addr reqId : Nat) (split : Bool) : (hedgeLatch s u k kind reason addr reqId split).fix = s.fix := by
  simp only [hedgeLatch, apply_ite State.fix, ite_self, wrB_fix, wr64_fix, wrN_fix]
theorem hedgeCount_fix (s : State) (u n : Nat) : (hedgeCount s u n).fix = s.fix := by
  simp only [hedgeCount, apply_ite State.fix, ite_self, bumpBy_fix, countBy_fix]
theorem hedgeRefuse_fix (s : State) (u k : Nat) (kind : AccKind) (ps : List Part) (reqId id : Nat) : (hedgeRefuse s u k kind ps reqId id).fix = s.fix := by
  generalize hff : @hedgeRefuse = ff
  delta hedgeRefuse at hff
  subst hff
  beta_reduce
  split <;> simp only [hedgeCount_fix, hedgeLatch_fix, fault_fix]
theorem hedgeTag_fix (s : State) (u k : Nat) : (hedgeTag s u k).2.fix = s.fix := by
  simp only [hedgeTag, bumpF_fix]
theorem hedgeDrop_fix (s : State) (t : Nat × Nat × Nat) : (hedgeDrop s t).fix = s.fix := by
  simp only [hedgeDrop, wrF_fix]
theorem hedgeDeliver_fix (s : State) (t : Nat × Nat × Nat) (kind : AccKind) (addr reqId : Nat) : (hedgeDeliver s t kind addr reqId).2.fix = s.fix := by
  generalize hff : @hedgeDeliver = ff
  delta hedgeDeliver at hff
  subst hff
  beta_reduce
  split <;> simp only [hedgeDrop_fix, count_fix, bump_fix, hedgeCount_fix, hedgeLatch_fix, faultU_fix]
theorem hedgeDisagree_fix (s : State) (u k : Nat) (kind : AccKind) (addr reqId : Nat) : (hedgeDisagree s u k kind addr reqId).fix = s.fix := by
  simp only [hedgeDisagree, fix_mk, fix_fold, count_fix, bump_fix, hedgeCount_fix, hedgeLatch_fix, faultU_fix]
theorem updMef_fix (s : State) (k : Nat) (f : MefSt → MefSt) : (updMef s k f).fix = s.fix := by
  simp only [updMef, fix_mk, fix_fold]
theorem mefIssue_fix (s : State) (k : Nat) (a : MefAsk) (c : Nat × Nat) : (mefIssue s k a c).fix = s.fix := by
  generalize hff : @mefIssue = ff
  delta mefIssue at hff
  subst hff
  beta_reduce
  split <;> simp only [fix_mk, fix_fold, apply_ite State.fix, ite_self, hedgeDeliver_fix, wrF_fix, emit_fix, updMef_fix]
theorem mefRefused_fix (s : State) (k : Nat) (a : MefAsk) : (mefRefused s k a).fix = s.fix := by
  simp only [mefRefused, updMef_fix]
theorem mefTry_fix (s : State) (k : Nat) (a : MefAsk) (r : State) (h : mefTry s k a = some r) : r.fix = s.fix := by
  unfold mefTry at h
  (repeat' split at h)
  · cases h
  · cases h
    unfold mefRefused
    simp only [fix_mk, fix_fold, fuses_mk, fuses_fold, resFix_next, apply_ite State.fix, apply_ite resFix, ite_self, foldl_fix, implies_true,
      updMef_fix]
  · obtain ⟨c, -, rfl⟩ := Option.map_eq_some_iff.mp h
    simp only [fix_mk, fix_fold, fuses_mk, fuses_fold, resFix_next, apply_ite State.fix, apply_ite resFix, ite_self, foldl_fix, implies_true,
      mefIssue_fix]
theorem mefAsk_fix (s : State) (k : Nat) (a : MefAsk) : (mefAsk s k a).fix = s.fix := by
  generalize hff : @mefAsk = ff
  delta mefAsk at hff
  subst hff
  beta_reduce
  split
  · rename_i r h
    split at h
    · exact mefTry_fix _ _ _ _ h
    · cases h
  · rw [updMef_fix]
theorem mefRead_fix (s : State) (k : Nat) (o : MefOwner) (addr len : Nat) (pasid : Option (BitVec 20)) : (mefRead s k o addr len pasid).fix = s.fix := by
  simp only [mefRead, mefAsk_fix]
theorem readGoOne_fix (s : State) (k : Nat) (n : Nat) : (readGoOne s k n).fix = s.fix := by
  induction n generalizing s with
  | zero => rfl
  | succ n ih =>
    unfold readGoOne
    split
    · rfl
    · split
      · rfl
      · split
        · rename_i r h
          rw [ih, updMef_fix]
          exact mefTry_fix _ _ _ _ h
        · rfl
theorem readGo_fix (s : State) : (readGo s).fix = s.fix := by
  simp only [readGo, foldl_fix, implies_true, readGoOne_fix]
theorem readFree_fix (s : State) (r : MefRd) : (readFree s r).fix = s.fix := by
  simp only [readFree, fix_mk, fix_fold, apply_ite State.fix, ite_self, wrF_fix]
theorem mefWriteTag_fix (s : State) (k : Nat) (o : MefOwner) (addr : Nat) (ws : List Word) (ep : Bool) (pasid : Option (BitVec 20)) (tag : Option (Nat × Nat × Nat)) : (mefWriteTag s k o addr ws ep pasid tag).fix = s.fix := by
  simp only [mefWriteTag, allocFrame_fix, enqueue_fix]
theorem mefWrite_fix (s : State) (k : Nat) (o : MefOwner) (addr : Nat) (ws : List Word) (ep : Bool) (pasid : Option (BitVec 20)) : (mefWrite s k o addr ws ep pasid).fix = s.fix := by
  simp only [mefWrite, mefWriteTag_fix]
theorem ownCheck_fix (s : State) (u : Nat) (a : OwnAccess) : (ownCheck s u a).2.fix = s.fix := by
  generalize hff : @ownCheck = ff
  delta ownCheck at hff
  subst hff
  beta_reduce
  (try simp only [fix_mk, fix_fold, fuses_mk, fuses_fold, resFix_next, apply_ite State.fix, apply_ite resFix, ite_self, foldl_fix, implies_true,
    wr_fix, hedgeRefuse_fix, hedgeTag_fix, mefWriteTag_fix, mefAsk_fix])
  (repeat' split) <;> simp only [fix_mk, fix_fold, fuses_mk, fuses_fold, resFix_next, apply_ite State.fix, apply_ite resFix, ite_self, foldl_fix,
    implies_true, wr_fix, hedgeRefuse_fix, hedgeTag_fix, mefWriteTag_fix, mefAsk_fix]
theorem ownAccess_fix (s : State) (e : Nat) (a : OwnAccess) : (ownAccess s e a).2.fix = s.fix := by
  generalize hff : @ownAccess = ff
  delta ownAccess at hff
  subst hff
  beta_reduce
  split <;> simp only [fix_mk, fix_fold, ownCheck_fix]
theorem engRead_fix (s : State) (e id k : Nat) (o : MefOwner) (addr len : Nat) (pasid : Option (BitVec 20)) : (engRead s e id k o addr len pasid).fix = s.fix := by
  simp only [engRead, ownAccess_fix]
theorem engWrite_fix (s : State) (e id k : Nat) (o : MefOwner) (addr : Nat) (ws : List Word) (ep : Bool) (pasid : Option (BitVec 20)) : (engWrite s e id k o addr ws ep pasid).2.fix = s.fix := by
  simp only [engWrite, ownAccess_fix]
theorem mefTp_fix (s : State) (k : Nat) : (mefTp s k).fix = s.fix := by
  simp only [mefTp, wrB_fix, wrF_fix]
theorem updLand_fix (s : State) (f : LandSt → LandSt) : (updLand s f).fix = s.fix := by
  simp only [updLand, fix_mk, fix_fold]
theorem updQos_fix (s : State) (f : QosSt → QosSt) : (updQos s f).fix = s.fix := by
  simp only [updQos, fix_mk, fix_fold]
theorem noteReqFree_fix (s : State) : (noteReqFree s).fix = s.fix := by
  simp only [noteReqFree, wrF_fix]
theorem updRec_fix (s : State) (k : Nat) (f : ReqRec → ReqRec) : (updRec s k f).fix = s.fix := by
  simp only [updRec, noteReqFree_fix, updLand_fix]
theorem recLast_fix (s : State) (k ep : Nat) : (recLast s k ep).fix = s.fix := by
  simp only [recLast, updRec_fix]
theorem recFault_fix (s : State) (k ep kind : Nat) : (recFault s k ep kind).fix = s.fix := by
  simp only [recFault, apply_ite State.fix, ite_self, updRec_fix, msix_fix]
theorem recPoison_fix (s : State) (k ep : Nat) : (recPoison s k ep).fix = s.fix := by
  simp only [recPoison, updRec_fix]
theorem noteDeficit_fix (s : State) : (noteDeficit s).fix = s.fix := by
  simp only [noteDeficit, foldl_fix, implies_true, faultU_fix, updQos_fix, wrB_fix]
theorem winStatus_fix (s : State) (k : Nat) : (winStatus s k).fix = s.fix := by
  simp only [winStatus, wrB_fix, wrF_fix]
theorem winNote_fix (s : State) (k : Nat) : (winNote s k).fix = s.fix := by
  simp only [winNote, apply_ite State.fix, ite_self, winStatus_fix, msix_fix]
theorem applyAdmit_fix (s : State) (k : Nat) (a : AdmitSt) : (applyAdmit s k a).fix = s.fix := by
  simp only [applyAdmit, apply_ite State.fix, ite_self, winStatus_fix, updQos_fix, msix_fix]
theorem sendAdmit_fix (s : State) (r : Nat) : (sendAdmit s r).fix = s.fix := by
  simp only [sendAdmit, apply_ite State.fix, ite_self, updQos_fix, applyAdmit_fix, sendMsg_fix]
theorem noteAdmit_fix (s : State) : (noteAdmit s).fix = s.fix := by
  simp only [noteAdmit, apply_ite State.fix, ite_self, foldl_fix, implies_true, sendAdmit_fix]
theorem noteLedger_fix (s : State) : (noteLedger s).fix = s.fix := by
  generalize hff : @noteLedger = ff
  delta noteLedger at hff
  subst hff
  beta_reduce
  (try simp only [fix_mk, fix_fold, fuses_mk, fuses_fold, resFix_next, apply_ite State.fix, apply_ite resFix, ite_self, foldl_fix, implies_true,
    wrB_fix, wrF_fix, updQos_fix, countBy_fix, bumpBy_fix])
  (repeat' split) <;> simp only [fix_mk, fix_fold, fuses_mk, fuses_fold, resFix_next, apply_ite State.fix, apply_ite resFix, ite_self, foldl_fix,
    implies_true, wrB_fix, wrF_fix, updQos_fix, countBy_fix, bumpBy_fix]
theorem setPage_fix (s : State) (p : Nat) (b : Bool) : (setPage s p b).fix = s.fix := by
  generalize hff : @setPage = ff
  delta setPage at hff
  subst hff
  beta_reduce
  (try simp only [fix_mk, fix_fold, fuses_mk, fuses_fold, resFix_next, apply_ite State.fix, apply_ite resFix, ite_self, foldl_fix, implies_true,
    updLand_fix, wrF_fix])
  (repeat' split) <;> simp only [fix_mk, fix_fold, fuses_mk, fuses_fold, resFix_next, apply_ite State.fix, apply_ite resFix, ite_self, foldl_fix,
    implies_true, updLand_fix, wrF_fix]
theorem clearWords_fix (s : State) (p : Nat) : (clearWords s p).fix = s.fix := by
  simp only [clearWords, updLand_fix]
theorem writeWord_fix (s : State) (w : Nat) (d : BitVec 256) (ep : Nat) (poison : Bool) : (writeWord s w d ep poison).fix = s.fix := by
  simp only [writeWord, apply_ite State.fix, ite_self, emit_fix, clearWords_fix, count_fix, updLand_fix, setPage_fix]
theorem writeWords_fix (s : State) (w : Nat) (ep : Nat) (poison : Bool) (n : List (BitVec 256)) : (writeWords s w ep poison n).fix = s.fix := by
  induction n generalizing s w ep poison with
  | nil => simp only [writeWords, fix_mk, fix_fold, fuses_mk, fuses_fold, resFix_next, apply_ite State.fix, apply_ite resFix, ite_self, foldl_fix,
    implies_true, writeWord_fix]
  | cons x n ih => simp only [writeWords, ih, fix_mk, fix_fold, fuses_mk, fuses_fold, resFix_next, apply_ite State.fix, apply_ite resFix, ite_self,
    foldl_fix, implies_true, writeWord_fix]
theorem markRelease_fix (s : State) (p n ep : Nat) : (markRelease s p n ep).fix = s.fix := by
  simp only [markRelease, apply_ite State.fix, ite_self, foldl_fix, implies_true, updLand_fix]
theorem clearReleased_fix (s : State) (se : Nat) : (clearReleased s se).fix = s.fix := by
  simp only [clearReleased, foldl_fix, implies_true, clearWords_fix, setPage_fix, updLand_fix]
theorem readWord_fix (s : State) (w : Nat) (addrFlip : Nat) : (readWord s w addrFlip).2.fix = s.fix := by
  generalize hff : @readWord = ff
  delta readWord at hff
  subst hff
  beta_reduce
  (try simp only [fix_mk, fix_fold, fuses_mk, fuses_fold, resFix_next, apply_ite State.fix, apply_ite resFix, ite_self, foldl_fix, implies_true,
    faultU_fix, count_fix, bump_fix, wrN_fix])
  (repeat' split) <;> simp only [fix_mk, fix_fold, fuses_mk, fuses_fold, resFix_next, apply_ite State.fix, apply_ite resFix, ite_self, foldl_fix,
    implies_true, faultU_fix, count_fix, bump_fix, wrN_fix]
theorem readWords_fix (s : State) (w : Nat) (n : Nat) : (readWords s w n).2.fix = s.fix := by
  induction n generalizing s w with
  | zero => rfl
  | succ n ih =>
    unfold readWords
    split
    · exact (ih _ _).trans (readWord_fix _ _ _)
    · exact ih _ _
theorem updRme_fix (s : State) (f : RmeSt → RmeSt) : (updRme s f).fix = s.fix := by
  simp only [updRme, fix_mk, fix_fold]
theorem engCount_fix (s : State) (e reg j n : Nat) : (engCount s e reg j n).fix = s.fix := by
  simp only [engCount, countBy_fix, bumpBy_fix]
theorem noteRme_fix (s : State) : (noteRme s).fix = s.fix := by
  simp only [noteRme, foldl_fix, implies_true, wrF_fix, wrB_fix]
theorem updCtx_fix (s : State) (n : Nat) (f : Ctx → Ctx) : (updCtx s n f).fix = s.fix := by
  simp only [updCtx, updRme_fix]
theorem spillEnd_fix (s : State) (n : Nat) : (spillEnd s n).fix = s.fix := by
  simp only [spillEnd, updRme_fix]
theorem evict_fix (s : State) (n : Nat) : (evict s n).fix = s.fix := by
  simp only [evict, apply_ite State.fix, ite_self, updRme_fix, engCount_fix, engWrite_fix, spillEnd_fix]
theorem makeRoom_fix (s : State) (n : Nat) : (makeRoom s n).1.fix = s.fix := by
  generalize hff : @makeRoom = ff
  delta makeRoom at hff
  subst hff
  beta_reduce
  (repeat' split) <;> simp only [evict_fix]
theorem fillCtx_fix (s : State) (n : Nat) : (fillCtx s n).fix = s.fix := by
  simp only [fillCtx, apply_ite State.fix, ite_self, updRme_fix, makeRoom_fix, engCount_fix, engRead_fix]
theorem routeOut_fix (s : State) (f : Frame) : (routeOut s f).fix = s.fix := by
  generalize hff : @routeOut = ff
  delta routeOut at hff
  subst hff
  beta_reduce
  (repeat' split) <;> simp only [emit_fix, sendOn_fix, count_fix, bump_fix]
theorem ackFrame_fix (s : State) (dst sub : Nat) (ws : List Word) : (ackFrame s dst sub ws).fix = s.fix := by
  simp only [ackFrame, routeOut_fix]
theorem sendAck_fix (s : State) (n status err : Nat) : (sendAck s n status err).fix = s.fix := by
  simp only [sendAck, ackFrame_fix, updCtx_fix]
theorem sendInvalid_fix (s : State) (dst conn psn : Nat) : (sendInvalid s dst conn psn).fix = s.fix := by
  simp only [sendInvalid, ackFrame_fix]
theorem sendClAck_fix (s : State) (e : ClEnt) (status : Nat) : (sendClAck s e status).fix = s.fix := by
  simp only [sendClAck, ackFrame_fix]
theorem updRegion_fix (s : State) (idx : Nat) (f : Region → Region) : (updRegion s idx f).fix = s.fix := by
  simp only [updRegion, updRme_fix]
theorem noteRegions_fix (s : State) (k : Nat) : (noteRegions s k).fix = s.fix := by
  simp only [noteRegions, wrF_fix]
theorem regionDone_fix (s : State) (idx : Nat) : (regionDone s idx).fix = s.fix := by
  simp only [regionDone, updRegion_fix]
theorem updMsg_fix (s : State) (id : Nat) (f : RMsg → RMsg) : (updMsg s id f).fix = s.fix := by
  simp only [updMsg, updRme_fix]
theorem updSq_fix (s : State) (key : Nat) (f : Sq → Sq) : (updSq s key f).fix = s.fix := by
  simp only [updSq, updRme_fix]
theorem noteQueues_fix (s : State) (k : Nat) : (noteQueues s k).fix = s.fix := by
  simp only [noteQueues, wrF_fix]
theorem sqPump_fix (s : State) (key : Nat) (n : Nat) : (sqPump s key n).fix = s.fix := by
  induction n generalizing s key with
  | zero => simp only [sqPump, fix_mk, fix_fold, fuses_mk, fuses_fold, resFix_next, apply_ite State.fix, apply_ite resFix, ite_self, foldl_fix,
    implies_true, updSq_fix, updMsg_fix, updRme_fix]
  | succ n ih =>
    unfold sqPump
    (try simp only [fix_mk, fix_fold, fuses_mk, fuses_fold, resFix_next, apply_ite State.fix, apply_ite resFix, ite_self, foldl_fix, implies_true,
      updSq_fix, updMsg_fix, updRme_fix])
    (repeat' split) <;> simp only [ih, fix_mk, fix_fold, fuses_mk, fuses_fold, resFix_next, apply_ite State.fix, apply_ite resFix, ite_self,
      foldl_fix, implies_true, updSq_fix, updMsg_fix, updRme_fix]
theorem sqFetch_fix (s : State) (key : Nat) : (sqFetch s key).fix = s.fix := by
  simp only [sqFetch, apply_ite State.fix, ite_self, updSq_fix, wrB_fix, engRead_fix]
theorem fetchOn_fix (s : State) : (fetchOn s).fix = s.fix := by
  simp only [fetchOn, foldl_fix, implies_true, sqFetch_fix]
theorem sqDestroy_fix (s : State) (key : Nat) : (sqDestroy s key).fix = s.fix := by
  generalize hff : @sqDestroy = ff
  delta sqDestroy at hff
  subst hff
  beta_reduce
  split <;> simp only [apply_ite State.fix, ite_self, updRme_fix, reply_fix, noteQueues_fix]
theorem setResp_fix (s : State) (e n : Nat) : (setResp s e n).fix = s.fix := by
  simp only [setResp, wrF_fix]
theorem finishMsg_fix (s : State) (id status : Nat) : (finishMsg s id status).fix = s.fix := by
  generalize hff : @finishMsg = ff
  delta finishMsg at hff
  subst hff
  beta_reduce
  split <;> simp only [apply_ite State.fix, ite_self, updMsg_fix, setResp_fix, sqDestroy_fix, sqPump_fix, updRme_fix, fetchOn_fix, noteRme_fix]
theorem flushMsgs_fix (s : State) (n status : Nat) : (flushMsgs s n status).fix = s.fix := by
  simp only [flushMsgs, foldl_fix, implies_true, finishMsg_fix]
theorem connError_fix (s : State) (n status : Nat) (msg : Option Nat) : (connError s n status msg).fix = s.fix := by
  generalize hff : @connError = ff
  delta connError at hff
  subst hff
  beta_reduce
  split <;> simp only [finishMsg_fix, updCtx_fix, noteRme_fix, flushMsgs_fix]
theorem freeConn_fix (s : State) (n : Nat) : (freeConn s n).fix = s.fix := by
  simp only [freeConn, updRme_fix, wrF_fix, noteRme_fix]
theorem flrAreas_fix (s : State) (k : Nat) : (flrAreas s k).fix = s.fix := by
  simp only [flrAreas, apply_ite State.fix, ite_self, updRme_fix, wrN_fix]
theorem closeConn_fix (s : State) (n : Nat) : (closeConn s n).fix = s.fix := by
  simp only [closeConn, foldl_fix, implies_true, freeConn_fix, updRme_fix, flrAreas_fix, reply_fix]
theorem closePump_fix (s : State) (n : Nat) : (closePump s n).fix = s.fix := by
  simp only [closePump, apply_ite State.fix, ite_self, closeConn_fix]
theorem dropResponses_fix (s : State) (n : Nat) (m : RMsg) : (dropResponses s n m).fix = s.fix := by
  simp only [dropResponses, updCtx_fix, updRme_fix, sendAck_fix, regionDone_fix]
theorem askData_fix (s : State) (n : Nat) : (askData s n).fix = s.fix := by
  generalize hff : @askData = ff
  delta askData at hff
  subst hff
  beta_reduce
  split <;> simp only [apply_ite State.fix, ite_self, updCtx_fix, dropResponses_fix, connError_fix, engRead_fix]
theorem startMsg_fix (s : State) (id : Nat) : (startMsg s id).fix = s.fix := by
  generalize hff : @startMsg = ff
  delta startMsg at hff
  subst hff
  beta_reduce
  split <;> simp only [apply_ite State.fix, ite_self, finishMsg_fix, freshBits_fix, fillCtx_fix, updMsg_fix, updCtx_fix, askData_fix, noteRme_fix]
theorem startWaiting_fix (s : State) (n : Nat) : (startWaiting s n).fix = s.fix := by
  simp only [startWaiting, apply_ite State.fix, ite_self, foldl_fix, implies_true, startMsg_fix]
theorem rmeSettle_fix (s : State) : (rmeSettle s).fix = s.fix := by
  generalize hff : @rmeSettle = ff
  delta rmeSettle at hff
  subst hff
  beta_reduce
  (repeat' (first | split | refine foldl_fix_to _ _ _ _ (fun _ _ => ?_) ?_)) <;> simp only [updCtx_fix, closePump_fix, finishMsg_fix]
theorem rmeLost_fix (s : State) (n ep : Nat) : (rmeLost s n ep).fix = s.fix := by
  generalize hff : @rmeLost = ff
  delta rmeLost at hff
  subst hff
  beta_reduce
  refine foldl_fix _ _ _ (fun s m => ?_)
  (repeat' split) <;> simp only [fix_mk, fix_fold, fuses_mk, fuses_fold, resFix_next, apply_ite State.fix, apply_ite resFix, ite_self, foldl_fix,
    implies_true, updCtx_fix, startWaiting_fix, closePump_fix, finishMsg_fix]
theorem sendLanded_fix (s : State) (srcSw conn status : Nat) (es : List (Nat × Nat)) : (sendLanded s srcSw conn status es).fix = s.fix := by
  simp only [sendLanded, ackFrame_fix]
theorem flushLanded_fix (s : State) (srcSw conn : Nat) : (flushLanded s srcSw conn).fix = s.fix := by
  generalize hff : @flushLanded = ff
  delta flushLanded at hff
  subst hff
  beta_reduce
  split <;> simp only [updRme_fix, sendLanded_fix]
theorem landedAdd_fix (s : State) (srcSw conn msn : Nat) : (landedAdd s srcSw conn msn).fix = s.fix := by
  simp only [landedAdd, apply_ite State.fix, ite_self, updRme_fix, flushLanded_fix]

end Sys2Proof.Machine
end

