-- ==== Sys2Proof/Laws/FixLand.lean ====
section
/-! SUPPORT. Each definition over the state in SealOps, MeterOps, Landing keeps the queue, the time and the fuses; a row
that ends a stated span of time may move the time on. -/

set_option linter.unusedSimpArgs false

namespace Sys2Proof.Machine

open Sys2Proof

theorem sendReport_fix (s : State) (e : Nat) (update : Bool) : (sendReport s e update).fix = s.fix := by
  generalize hff : @sendReport = ff
  delta sendReport at hff
  subst hff
  beta_reduce
  (repeat' split) <;> simp only [updLand_fix, sendMsg_fix]
theorem reportTry_fix (s : State) (e : Nat) : (reportTry s e).fix = s.fix := by
  simp only [reportTry, apply_ite State.fix, ite_self, sendReport_fix]
theorem reportAgain_fix (s : State) (e : Nat) : (reportAgain s e).fix = s.fix := by
  simp only [reportAgain, apply_ite State.fix, ite_self, sendReport_fix]
theorem reportAll_fix (s : State) : (reportAll s).fix = s.fix := by
  simp only [reportAll, apply_ite State.fix, ite_self, foldl_fix, implies_true, sendReport_fix]
theorem lossApply_fix (s : State) (e reqId srcPort kind n : Nat) : (lossApply s e reqId srcPort kind n).fix = s.fix := by
  simp only [lossApply, apply_ite State.fix, ite_self, count_fix, bump_fix, recPoison_fix, recFault_fix, updLand_fix, rmeLost_fix, reportAgain_fix]
theorem lossSend_fix (s : State) (srcSw srcPort reqId e kind n : Nat) : (lossSend s srcSw srcPort reqId e kind n).fix = s.fix := by
  simp only [lossSend, apply_ite State.fix, ite_self, count_fix, bump_fix, lossApply_fix, sendMsg_fix]
theorem fenceClearRec_fix (s : State) (f : FenceSt) : (fenceClearRec s f).fix = s.fix := by
  generalize hff : @fenceClearRec = ff
  delta fenceClearRec at hff
  subst hff
  beta_reduce
  split <;> simp only [noteReqFree_fix, updLand_fix]
theorem finishFence_fix (s : State) (host : Nat) (f : FenceSt) (status : Nat) : (finishFence s host f status).fix = s.fix := by
  simp only [finishFence, fix_mk, fix_fold, apply_ite State.fix, ite_self, fenceClearRec_fix, emit_fix, count_fix, bump_fix]
theorem fenceEnter_fix (s : State) (host : Nat) (f : FenceSt) : (fenceEnter s host f).fix = s.fix := by
  generalize hff : @fenceEnter = ff
  delta fenceEnter at hff
  subst hff
  beta_reduce
  (repeat' split) <;> simp only [updLand_fix, finishFence_fix]
theorem fenceRefill_fix (s : State) (host : Nat) (n : Nat) : (fenceRefill s host n).fix = s.fix := by
  induction n generalizing s host with
  | zero => simp only [fenceRefill, fix_mk, fix_fold, fuses_mk, fuses_fold, resFix_next, apply_ite State.fix, apply_ite resFix, ite_self, foldl_fix,
    implies_true, fenceEnter_fix, updLand_fix]
  | succ n ih =>
    unfold fenceRefill
    split <;> simp only [ih, fix_mk, fix_fold, fuses_mk, fuses_fold, resFix_next, apply_ite State.fix, apply_ite resFix, ite_self, foldl_fix,
      implies_true, fenceEnter_fix, updLand_fix]
theorem fencePump_fix (s : State) (host : Nat) : (fencePump s host).fix = s.fix := by
  simp only [fencePump, foldl_fix, implies_true, updLand_fix, finishFence_fix, fenceRefill_fix]
theorem settleTargets_fix (s : State) : (settleTargets s).fix = s.fix := by
  simp only [settleTargets, updLand_fix]
theorem serveBar2_fix (s : State) (host : Nat) (r : Bar2Rd) : (serveBar2 s host r).fix = s.fix := by
  simp only [serveBar2, apply_ite State.fix, ite_self, readWords_fix, emit_fix, routeOut_fix]
theorem bar2Pump_fix (s : State) (host : Nat) : (bar2Pump s host).fix = s.fix := by
  simp only [bar2Pump, foldl_fix, implies_true, updLand_fix, serveBar2_fix]
theorem localSeal_fix (s : State) : (localSeal s).fix = s.fix := by
  simp only [localSeal, apply_ite State.fix, ite_self, foldl_fix, implies_true, reportTry_fix, count_fix, updLand_fix]
theorem noteCap_fix (s : State) : (noteCap s).fix = s.fix := by
  simp only [noteCap, wrB_fix]
theorem openEpoch_fix (s : State) (e : Nat) : (openEpoch s e).fix = s.fix := by
  simp only [openEpoch, wr64_fix, countBy_fix, updLand_fix, localSeal_fix, noteCap_fix]
theorem pumpOpen_fix (s : State) : (pumpOpen s).fix = s.fix := by
  generalize hff : @pumpOpen = ff
  delta pumpOpen at hff
  subst hff
  beta_reduce
  split <;> simp only [apply_ite State.fix, ite_self, noteCap_fix, openEpoch_fix]
theorem raiseRecs_fix (s : State) : (raiseRecs s).fix = s.fix := by
  simp only [raiseRecs, updLand_fix]
theorem unattrFaults_fix (s : State) (e : Nat) : (unattrFaults s e).fix = s.fix := by
  simp only [unattrFaults, foldl_fix, implies_true, recFault_fix, fault_fix, count_fix, bump_fix]
theorem adoptSe_fix (s : State) (e : Nat) (unattr : Bool) : (adoptSe s e unattr).fix = s.fix := by
  simp only [adoptSe, apply_ite State.fix, ite_self, foldl_fix, implies_true, unattrFaults_fix, wr64_fix, updLand_fix, clearReleased_fix,
    noteReqFree_fix, raiseRecs_fix, rmeSettle_fix, bar2Pump_fix, fencePump_fix, noteAdmit_fix, noteLedger_fix, noteDeficit_fix, pumpOpen_fix]
theorem sendSeal_fix (s : State) (unattr : Bool) : (sendSeal s unattr).fix = s.fix := by
  simp only [sendSeal, apply_ite State.fix, ite_self, foldl_fix, implies_true, updLand_fix, sendMsg_fix]
theorem notAbove_fix (s : State) (e : Nat) : (notAbove s e).fix = s.fix := by
  simp only [notAbove, updLand_fix]
theorem sealRun_fix (s : State) (n : Nat) : (sealRun s n).fix = s.fix := by
  induction n generalizing s with
  | zero => simp only [sealRun, fix_mk, fix_fold, fuses_mk, fuses_fold, resFix_next, apply_ite State.fix, apply_ite resFix, ite_self, foldl_fix,
    implies_true, sendSeal_fix, adoptSe_fix, updLand_fix, faultU_fix, wrB_fix, notAbove_fix]
  | succ n ih =>
    unfold sealRun
    (try simp only [fix_mk, fix_fold, fuses_mk, fuses_fold, resFix_next, apply_ite State.fix, apply_ite resFix, ite_self, foldl_fix, implies_true,
      sendSeal_fix, adoptSe_fix, updLand_fix, faultU_fix, wrB_fix, notAbove_fix])
    (repeat' split) <;> simp only [ih, fix_mk, fix_fold, fuses_mk, fuses_fold, resFix_next, apply_ite State.fix, apply_ite resFix, ite_self,
      foldl_fix, implies_true, sendSeal_fix, adoptSe_fix, updLand_fix, faultU_fix, wrB_fix, notAbove_fix]
theorem decideSeals_fix (s : State) : (decideSeals s).fix = s.fix := by
  simp only [decideSeals, apply_ite State.fix, ite_self, sealRun_fix, sendSeal_fix]
theorem sealPump_fix (s : State) : (sealPump s).fix = s.fix := by
  simp only [sealPump, decideSeals_fix, localSeal_fix]
theorem landOne_fix (s : State) (w : LandIn) : (landOne s w).fix = s.fix := by
  generalize hff : @landOne = ff
  delta landOne at hff
  subst hff
  beta_reduce
  (repeat' split) <;> simp only [markRelease_fix, writeWords_fix, updLand_fix, wrF_fix, landedAdd_fix, regionDone_fix, freeEntry_fix, lossSend_fix]
theorem landReleases_fix (s : State) (n : Nat) : (landReleases s n).fix = s.fix := by
  induction n generalizing s with
  | zero => simp only [landReleases, fix_mk, fix_fold, fuses_mk, fuses_fold, resFix_next, apply_ite State.fix, apply_ite resFix, ite_self, foldl_fix,
    implies_true, landOne_fix, updLand_fix]
  | succ n ih =>
    unfold landReleases
    split <;> simp only [ih, fix_mk, fix_fold, fuses_mk, fuses_fold, resFix_next, apply_ite State.fix, apply_ite resFix, ite_self, foldl_fix,
      implies_true, landOne_fix, updLand_fix]
theorem refuseIn_fix (s : State) (w : LandIn) : (refuseIn s w).fix = s.fix := by
  generalize hff : @refuseIn = ff
  delta refuseIn at hff
  subst hff
  beta_reduce
  (repeat' split) <;> simp only [regionDone_fix, freeEntry_fix, sendLanded_fix, lossSend_fix]
theorem admitRun_fix (s : State) (n : Nat) : (admitRun s n).fix = s.fix := by
  induction n generalizing s with
  | zero => simp only [admitRun, fix_mk, fix_fold, fuses_mk, fuses_fold, resFix_next, apply_ite State.fix, apply_ite resFix, ite_self, foldl_fix,
    implies_true, updLand_fix, hedgeDeliver_fix, wrF_fix, landReleases_fix, refuseIn_fix]
  | succ n ih =>
    unfold admitRun
    (try simp only [fix_mk, fix_fold, fuses_mk, fuses_fold, resFix_next, apply_ite State.fix, apply_ite resFix, ite_self, foldl_fix, implies_true,
      updLand_fix, hedgeDeliver_fix, wrF_fix, landReleases_fix, refuseIn_fix])
    (repeat' split) <;> simp only [ih, fix_mk, fix_fold, fuses_mk, fuses_fold, resFix_next, apply_ite State.fix, apply_ite resFix, ite_self,
      foldl_fix, implies_true, updLand_fix, hedgeDeliver_fix, wrF_fix, landReleases_fix, refuseIn_fix]
theorem landPump_fix (s : State) : (landPump s).fix = s.fix := by
  simp only [landPump, admitRun_fix, sealPump_fix, noteAdmit_fix, noteLedger_fix, noteDeficit_fix]
theorem updFwd_fix (s : State) (f : FwdSt → FwdSt) : (updFwd s f).fix = s.fix := by
  simp only [updFwd, fix_mk, fix_fold]
theorem completeTo_fix (s : State) (f : Frame) (status : Nat) : (completeTo s f status).fix = s.fix := by
  simp only [completeTo, apply_ite State.fix, ite_self, emit_fix, freshBits_fix, routeOut_fix]
theorem lossOf_fix (s : State) (p : Nat) (f : Frame) (kind : Nat) : (lossOf s p f kind).fix = s.fix := by
  simp only [lossOf, apply_ite State.fix, ite_self, sealPump_fix, lossSend_fix]
theorem unreachable_fix (s : State) (p : Nat) (f : Frame) : (unreachable s p f).fix = s.fix := by
  simp only [unreachable, apply_ite State.fix, ite_self, count_fix, bump_fix, faultP_fix, completeTo_fix, lossOf_fix]
theorem dropEntry_fix (s : State) (e : QEntry) : (dropEntry s e).fix = s.fix := by
  generalize hff : @dropEntry = ff
  delta dropEntry at hff
  subst hff
  beta_reduce
  split <;> simp only [hedgeDrop_fix, freeEntry_fix]
theorem meterColour_fix (s : State) (p : Nat) (f : Frame) : (meterColour s p f).2.fix = s.fix := by
  generalize hff : @meterColour = ff
  delta meterColour at hff
  subst hff
  beta_reduce
  (try simp only [fix_mk, fix_fold, fuses_mk, fuses_fold, resFix_next, apply_ite State.fix, apply_ite resFix, ite_self, foldl_fix, implies_true,
    updQos_fix])
  (repeat' split) <;> simp only [fix_mk, fix_fold, fuses_mk, fuses_fold, resFix_next, apply_ite State.fix, apply_ite resFix, ite_self, foldl_fix,
    implies_true, updQos_fix]
theorem countColour_fix (s : State) (p t c : Nat) : (countColour s p t c).fix = s.fix := by
  simp only [countColour, apply_ite State.fix, ite_self, bump_fix, count_fix]
theorem enqueueDrop_fix (s : State) (p : Nat) (e : QEntry) : (enqueueDrop s p e).fix = s.fix := by
  simp only [enqueueDrop, apply_ite State.fix, ite_self, wredPass_fix, enqueue_fix, dropEntry_fix]
theorem landRead_fix (s : State) (f : Frame) : (landRead s f).fix = s.fix := by
  generalize hff : @landRead = ff
  delta landRead at hff
  subst hff
  beta_reduce
  (try simp only [fix_mk, fix_fold, fuses_mk, fuses_fold, resFix_next, apply_ite State.fix, apply_ite resFix, ite_self, foldl_fix, implies_true,
    completeTo_fix, readWords_fix, freshBits_fix, routeOut_fix])
  (repeat' split) <;> simp only [fix_mk, fix_fold, fuses_mk, fuses_fold, resFix_next, apply_ite State.fix, apply_ite resFix, ite_self, foldl_fix,
    implies_true, completeTo_fix, readWords_fix, freshBits_fix, routeOut_fix]
theorem toUnit_fix (s : State) (e : QEntry) : (toUnit s e).fix = s.fix := by
  simp only [toUnit, apply_ite State.fix, ite_self, updFwd_fix, dropEntry_fix, landRead_fix]
theorem proceed_fix (s : State) (e : QEntry) : (proceed s e).fix = s.fix := by
  generalize hff : @proceed = ff
  delta proceed at hff
  subst hff
  beta_reduce
  split <;> simp only [apply_ite State.fix, ite_self, unreachable_fix, dropEntry_fix, toUnit_fix, completeTo_fix, enqueueDrop_fix]
theorem meterFrame_fix (s : State) (p : Nat) (e : QEntry) : (meterFrame s p e).fix = s.fix := by
  simp only [meterFrame, apply_ite State.fix, ite_self, proceed_fix, updFwd_fix, meterColour_fix, countColour_fix, wrB_fix]
theorem meterRetry_fix (s : State) (p t : Nat) (n : Nat) : (meterRetry s p t n).fix = s.fix := by
  induction n generalizing s p t with
  | zero => simp only [meterRetry, fix_mk, fix_fold, fuses_mk, fuses_fold, resFix_next, apply_ite State.fix, apply_ite resFix, ite_self, foldl_fix,
    implies_true, wrB_fix, meterColour_fix, countColour_fix, updFwd_fix, proceed_fix]
  | succ n ih =>
    unfold meterRetry
    split <;> simp only [ih, fix_mk, fix_fold, fuses_mk, fuses_fold, resFix_next, apply_ite State.fix, apply_ite resFix, ite_self, foldl_fix,
      implies_true, wrB_fix, meterColour_fix, countColour_fix, updFwd_fix, proceed_fix]
theorem faultEgress_fix (s : State) (code p addr : Nat) : (faultEgress s code p addr).fix = s.fix := by
  simp only [faultEgress, apply_ite State.fix, ite_self, faultP_fix, fault_fix]
theorem bufUncorr_fix (s : State) (x : Nat × Nat) (syn : Nat) : (bufUncorr s x syn).fix = s.fix := by
  simp only [bufUncorr, apply_ite State.fix, ite_self, count_fix, bump_fix, wrF_fix, wrN_fix]
theorem parityRead_fix (s : State) (p parity : Nat) : (parityRead s p parity).2.fix = s.fix := by
  generalize hff : @parityRead = ff
  delta parityRead at hff
  subst hff
  beta_reduce
  (repeat' split) <;> simp only [faultU_fix, count_fix, bump_fix, faultEgress_fix]
theorem bufRead_fix (s : State) (p : Nat) (e : QEntry) (flip : BitVec 268) (addrFlip : BitVec 20) (i parity : Nat) : (bufRead s p e flip addrFlip i parity).2.fix = s.fix := by
  generalize hff : @bufRead = ff
  delta bufRead at hff
  subst hff
  beta_reduce
  (try simp only [fix_mk, fix_fold, fuses_mk, fuses_fold, resFix_next, apply_ite State.fix, apply_ite resFix, ite_self, foldl_fix, implies_true,
    bufUncorr_fix, faultEgress_fix, faultU_fix, count_fix, bump_fix, parityRead_fix])
  (repeat' split) <;> simp only [fix_mk, fix_fold, fuses_mk, fuses_fold, resFix_next, apply_ite State.fix, apply_ite resFix, ite_self, foldl_fix,
    implies_true, bufUncorr_fix, faultEgress_fix, faultU_fix, count_fix, bump_fix, parityRead_fix]
theorem headerDiscard_fix (s : State) (p : Nat) (e : QEntry) : (headerDiscard s p e).fix = s.fix := by
  simp only [headerDiscard, count_fix, bump_fix, dropEntry_fix, faultEgress_fix]
theorem refuseWrite_fix (s : State) (w : WaitWr) (ep kind : Nat) : (refuseWrite s w ep kind).fix = s.fix := by
  simp only [refuseWrite, updRec_fix, recFault_fix, recLast_fix, count_fix, bump_fix]
theorem arriveHome_fix (s : State) (f : Frame) (ep : Nat) (tag : Option (Nat × Nat × Nat)) (ent : Option QEntry) : (arriveHome s f ep tag ent).fix = s.fix := by
  generalize hff : @arriveHome = ff
  delta arriveHome at hff
  subst hff
  beta_reduce
  (try simp only [fix_mk, fix_fold, fuses_mk, fuses_fold, resFix_next, apply_ite State.fix, apply_ite resFix, ite_self, foldl_fix, implies_true,
    landPump_fix, updLand_fix, hedgeDrop_fix, freeEntry_fix, sealPump_fix, lossSend_fix])
  (repeat' split) <;> simp only [fix_mk, fix_fold, fuses_mk, fuses_fold, resFix_next, apply_ite State.fix, apply_ite resFix, ite_self, foldl_fix,
    implies_true, landPump_fix, updLand_fix, hedgeDrop_fix, freeEntry_fix, sealPump_fix, lossSend_fix]
theorem countWrite_fix (s : State) (w : WaitWr) (ep : Nat) : (countWrite s w ep).fix = s.fix := by
  simp only [countWrite, apply_ite State.fix, ite_self, updLand_fix, count_fix, countBy_fix]
theorem routeWrite_fix (s : State) (w : WaitWr) (tag : Nat × Nat × Nat) (f : Frame) : (routeWrite s w tag f).fix = s.fix := by
  generalize hff : @routeWrite = ff
  delta routeWrite at hff
  subst hff
  beta_reduce
  (repeat' split) <;> simp only [unreachable_fix, hedgeDrop_fix, allocFrame_fix, meterFrame_fix]
theorem sendWrite_fix (s : State) (w : WaitWr) (ep : Nat) : (sendWrite s w ep).fix = s.fix := by
  simp only [sendWrite, hedgeTag_fix, countWrite_fix, routeWrite_fix]
theorem checkWrite_fix (s : State) (w : WaitWr) (ep : Nat) : (checkWrite s w ep).fix = s.fix := by
  simp only [checkWrite, apply_ite State.fix, ite_self, refuseWrite_fix, sendWrite_fix, hedgeRefuse_fix]
theorem tagWrite_fix (s : State) (w : WaitWr) : (tagWrite s w).fix = s.fix := by
  simp only [tagWrite, fix_mk, fix_fold, apply_ite State.fix, ite_self, updRec_fix, checkWrite_fix]
theorem tagWaiting_fix (s : State) (n : Nat) : (tagWaiting s n).fix = s.fix := by
  induction n generalizing s with
  | zero => simp only [tagWaiting, fix_mk, fix_fold, fuses_mk, fuses_fold, resFix_next, apply_ite State.fix, apply_ite resFix, ite_self, foldl_fix,
    implies_true, tagWrite_fix, updLand_fix]
  | succ n ih =>
    unfold tagWaiting
    split <;> simp only [ih, fix_mk, fix_fold, fuses_mk, fuses_fold, resFix_next, apply_ite State.fix, apply_ite resFix, ite_self, foldl_fix,
      implies_true, tagWrite_fix, updLand_fix]
theorem tagAll_fix (s : State) : (tagAll s).fix = s.fix := by
  simp only [tagAll, settleTargets_fix, tagWaiting_fix]
theorem takeWrite_fix (s : State) (w : WaitWr) (beOk : Bool) : (takeWrite s w beOk).fix = s.fix := by
  simp only [takeWrite, apply_ite State.fix, ite_self, refuseWrite_fix, tagWrite_fix, updLand_fix]
theorem execProtectedWriteIngress_fix (p host : Nat) (reqId : BitVec 16) (off len : Nat) (beOk release : Bool) (data : List (BitVec 256)) (poison : Bool) (tc : BitVec 3) (s : State) : resFix (execProtectedWriteIngress p host reqId off len beOk release data poison tc s) = some s.fix := by
  simp only [execProtectedWriteIngress, resFix_next, countIn_fix, takeWrite_fix]
theorem releaseGo_fix (s : State) (host req v : Nat) : (releaseGo s host req v).fix = s.fix := by
  simp only [releaseGo, takeWrite_fix]
theorem dropHold_fix (s : State) (host req : Nat) : (dropHold s host req).fix = s.fix := by
  simp only [dropHold, fix_mk, fix_fold]
theorem execLandRelease_fix (host req : Nat) (hi : Word) (s : State) : resFix (execLandRelease host req hi s) = some s.fix := by
  simp only [execLandRelease, resFix_next, implies_true, mefWritten_fix, releaseGo_fix, dropHold_fix]
theorem readForLand_fix (s : State) (e : QEntry) (flip : BitVec 268) (addrFlip : BitVec 20) (i parity : Nat) : (readForLand s e flip addrFlip i parity).2.fix = s.fix := by
  generalize hff : @readForLand = ff
  delta readForLand at hff
  subst hff
  beta_reduce
  (try simp only [fix_mk, fix_fold, fuses_mk, fuses_fold, resFix_next, apply_ite State.fix, apply_ite resFix, ite_self, foldl_fix, implies_true,
    bufRead_fix, headerDiscard_fix, count_fix, bump_fix])
  (repeat' split) <;> simp only [fix_mk, fix_fold, fuses_mk, fuses_fold, resFix_next, apply_ite State.fix, apply_ite resFix, ite_self, foldl_fix,
    implies_true, bufRead_fix, headerDiscard_fix, count_fix, bump_fix]
theorem homeTakes_fix (p : Nat) (r : Option QEntry × State) : (homeTakes p r).fix = r.2.fix := by
  generalize hff : @homeTakes = ff
  delta homeTakes at hff
  subst hff
  beta_reduce
  split
  · exact landPump_fix _
  · exact arriveHome_fix _ _ _ _ _
theorem execVc1InputArrive_fix (p : Nat) (flip : BitVec 268) (addrFlip : BitVec 20) (wordIdx parity : Nat) (s : State) : resFix (execVc1InputArrive p flip addrFlip wordIdx parity s) = some s.fix := by
  generalize hff : @execVc1InputArrive = ff
  delta execVc1InputArrive at hff
  subst hff
  beta_reduce
  split <;> simp only [fix_mk, fix_fold, resFix_next, homeTakes_fix, readForLand_fix]
theorem execWriteLanded_fix (s : State) : resFix (execWriteLanded s) = some s.fix := by
  generalize hff : @execWriteLanded = ff
  delta execWriteLanded at hff
  subst hff
  beta_reduce
  split <;> simp only [resFix_next, landOne_fix, updLand_fix, landPump_fix, landReleases_fix]
theorem execEpochTimerExpiry_later (s : State) : Later s (resFix (execEpochTimerExpiry s)) := by
  simp only [execEpochTimerExpiry, resFix_next, apply_ite resFix, sealPump_fix, pumpOpen_fix, updLand_fix]
  all_goals (repeat' split)
  all_goals first | exact later_refl s | exact later_to s _
theorem execMarkerReceive_fix (p : Nat) (e : Epoch) (_catchup : Bool) (s : State) : resFix (execMarkerReceive p e _catchup s) = some s.fix := by
  simp only [execMarkerReceive, resFix_next, updLand_fix, sealPump_fix, pumpOpen_fix]
theorem putMarker_fix (s : State) (k e : Nat) (catchup : Bool) : (putMarker s k e catchup).fix = s.fix := by
  simp only [putMarker, sendOn_fix, updLand_fix]
theorem execMarkerSend_fix (p : Nat) (s : State) : resFix (execMarkerSend p s) = some s.fix := by
  generalize hff : @execMarkerSend = ff
  delta execMarkerSend at hff
  subst hff
  beta_reduce
  (try simp only [fix_mk, fix_fold, fuses_mk, fuses_fold, resFix_next, apply_ite State.fix, apply_ite resFix, ite_self, foldl_fix, implies_true,
    sealPump_fix, putMarker_fix])
  (repeat' split) <;> simp only [fix_mk, fix_fold, fuses_mk, fuses_fold, resFix_next, apply_ite State.fix, apply_ite resFix, ite_self, foldl_fix,
    implies_true, sealPump_fix, putMarker_fix]
theorem execLossReceive_fix (e : Epoch) (reqId : BitVec 16) (srcPort : BitVec 7) (kind : BitVec 3) (_home : BitVec 12) (n : Nat) (s : State) : resFix (execLossReceive e reqId srcPort kind _home n s) = some s.fix := by
  simp only [execLossReceive, resFix_next, sealPump_fix, lossApply_fix]
theorem setLeader_fix (s : State) (sw term : Nat) (me none_ : Bool) : (setLeader s sw term me none_).fix = s.fix := by
  simp only [setLeader, wrN_fix, updLand_fix]
theorem braceAgain_fix (s : State) : (braceAgain s).fix = s.fix := by
  simp only [braceAgain, fix_mk, fix_fold, foldl_fix, implies_true, wrN_fix, sendMsg_fix]
theorem regionLost_fix (s : State) (se host : Nat) : (regionLost s se host).fix = s.fix := by
  simp only [regionLost, foldl_fix, implies_true, recFault_fix, fault_fix, wrB_fix]
theorem sendRegionsLost_fix (s : State) : (sendRegionsLost s).fix = s.fix := by
  simp only [sendRegionsLost, apply_ite State.fix, ite_self, foldl_fix, implies_true, fault_fix, regionLost_fix, sendMsg_fix]
theorem setSealSet_fix (s : State) (set : Nat) : (setSealSet s set).fix = s.fix := by
  simp only [setSealSet, foldl_fix, implies_true, updLand_fix, wr64_fix, winNote_fix]
theorem joinAt_fix (s : State) (eJoin : Nat) : (joinAt s eJoin).fix = s.fix := by
  simp only [joinAt, apply_ite State.fix, ite_self, wrB_fix, openEpoch_fix, sendRegionsLost_fix]
theorem leaderJoins_fix (s : State) (got : Nat) : (leaderJoins s got).fix = s.fix := by
  simp only [leaderJoins, apply_ite State.fix, ite_self, setSealSet_fix, joinAt_fix]
theorem claimTry_fix (s : State) (term bitmap maxSe : Nat) : (claimTry s term bitmap maxSe).fix = s.fix := by
  generalize hff : @claimTry = ff
  delta claimTry at hff
  subst hff
  beta_reduce
  split <;> simp only [apply_ite State.fix, ite_self, updLand_fix, adoptSe_fix, setLeader_fix, leaderJoins_fix, braceAgain_fix, sendSeal_fix,
    decideSeals_fix]
theorem execReportReceive_fix (child : Nat) (e : Epoch) (sent landed lost : Nat) (bitmap : DWord) (maxSe : Epoch) (term : BitVec 16) (_update : Bool) (s : State) : resFix (execReportReceive child e sent landed lost bitmap maxSe term _update s) = some s.fix := by
  simp only [execReportReceive, resFix_next, apply_ite State.fix, apply_ite resFix, ite_self, updLand_fix, claimTry_fix, reportAgain_fix,
    reportTry_fix, sealPump_fix]
theorem execUnattrWaitExpiry_later (e : Epoch) (s : State) : Later s (resFix (execUnattrWaitExpiry e s)) := by
  simp only [execUnattrWaitExpiry, resFix_next, apply_ite resFix, sealPump_fix, sendSeal_fix, adoptSe_fix]
  all_goals (repeat' split)
  all_goals first | exact later_refl s | exact later_to s _
theorem execClusterSealPeriodExpiry_later (s : State) : Later s (resFix (execClusterSealPeriodExpiry s)) := by
  simp only [execClusterSealPeriodExpiry, resFix_next, apply_ite resFix, sendSeal_fix, decideSeals_fix]
  all_goals (repeat' split)
  all_goals first | exact later_refl s | exact later_to s _
theorem sendRejoin_fix (s : State) : (sendRejoin s).fix = s.fix := by
  simp only [sendRejoin, sendMsg_fix]
theorem sendClaim_fix (s : State) : (sendClaim s).fix = s.fix := by
  simp only [sendClaim, foldl_fix, implies_true, updLand_fix, setLeader_fix, sendMsg_fix, claimTry_fix]
theorem execFailoverTimeout_fix (s : State) : resFix (execFailoverTimeout s) = some s.fix := by
  simp only [execFailoverTimeout, resFix_next, apply_ite State.fix, apply_ite resFix, ite_self, count_fix, bump_fix, setLeader_fix, sendClaim_fix]
theorem execMemberRemovalExpiry_fix (m : Nat) (s : State) : resFix (execMemberRemovalExpiry m s) = some s.fix := by
  simp only [execMemberRemovalExpiry, resFix_next, apply_ite resFix, ite_self, updLand_fix, setSealSet_fix, sendSeal_fix, sealPump_fix]
theorem execRejoinReceive_fix (sw : BitVec 12) (_se _eOpen : Epoch) (_kept : Bool) (s : State) : resFix (execRejoinReceive sw _se _eOpen _kept s) = some s.fix := by
  simp only [execRejoinReceive, resFix_next, apply_ite resFix, ite_self, setSealSet_fix, updLand_fix, sendMsg_fix]
theorem execRegionLostReceive_fix (se : Epoch) (_region host : Nat) (s : State) : resFix (execRegionLostReceive se _region host s) = some s.fix := by
  simp only [execRegionLostReceive, resFix_next, regionLost_fix]
theorem takeFence_fix (s : State) (host : Nat) (f : FenceSt) : (takeFence s host f).fix = s.fix := by
  generalize hff : @takeFence = ff
  delta takeFence at hff
  subst hff
  beta_reduce
  (repeat' split) <;> simp only [fenceEnter_fix, updLand_fix]
theorem execDurabilityFence_fix (host : Nat) (reqId : BitVec 16) (wide : Bool) (s : State) : resFix (execDurabilityFence host reqId wide s) = some s.fix := by
  simp only [execDurabilityFence, resFix_next, apply_ite resFix, ite_self, emit_fix, takeFence_fix]
theorem execConnFenceRead_fix (host : Nat) (reqId : BitVec 16) (i : Nat) (wide : Bool) (s : State) : resFix (execConnFenceRead host reqId i wide s) = some s.fix := by
  simp only [execConnFenceRead, resFix_next, apply_ite resFix, ite_self, emit_fix, takeFence_fix]
theorem execFenceTimeout_later (host : Nat) (s : State) : Later s (resFix (execFenceTimeout host s)) := by
  generalize hff : @execFenceTimeout = ff
  delta execFenceTimeout at hff
  subst hff
  beta_reduce
  (repeat' split) <;> (try simp only [resFix_next, updLand_fix, finishFence_fix,
    fencePump_fix]) <;> (repeat' split) <;> first | exact later_refl s | exact later_to s _
theorem execBar2Read_fix (host : Nat) (reqId : BitVec 16) (tag : BitVec 10) (off len : Nat) (s : State) : resFix (execBar2Read host reqId tag off len s) = some s.fix := by
  simp only [execBar2Read, resFix_next, apply_ite resFix, ite_self, emit_fix, count_fix, serveBar2_fix, updLand_fix]
theorem execBar2ReadAbort_later (host : Nat) (s : State) : Later s (resFix (execBar2ReadAbort host s)) := by
  generalize hff : @execBar2ReadAbort = ff
  delta execBar2ReadAbort at hff
  subst hff
  beta_reduce
  (repeat' split) <;> (try simp only [resFix_next, updLand_fix, emit_fix,
    bump_fix]) <;> (repeat' split) <;> first | exact later_refl s | exact later_to s _
theorem execPatrolRead_fix (w : Nat) (flip : BitVec 288) (addrFlip : BitVec 26) (s : State) : resFix (execPatrolRead w flip addrFlip s) = some s.fix := by
  simp only [execPatrolRead, resFix_next, apply_ite resFix, ite_self, updLand_fix, count_fix, readWord_fix]
theorem execLandDiagGo_fix (v : Word) (flip : BitVec 288) (s : State) : resFix (execLandDiagGo v flip s) = some s.fix := by
  simp only [execLandDiagGo, resFix_next, apply_ite resFix, ite_self, wrF_fix, updLand_fix, readWord_fix, wrN_fix]
theorem bufferOut_fix (s : State) : (bufferOut s).fix = s.fix := by
  generalize hff : @bufferOut = ff
  delta bufferOut at hff
  subst hff
  beta_reduce
  rw [landPump_fix]
  refine foldl_fix_to _ _ _ _ (fun s w => ?_) ?_
  · rw [refuseIn_fix]
    split
    · exact hedgeDrop_fix _ _
    · rfl
  · simp only [fix_mk, fix_fold, fuses_mk, fuses_fold, resFix_next, apply_ite State.fix, apply_ite resFix, ite_self, foldl_fix, implies_true,
    updLand_fix, wrB_fix]
theorem execDramChannelFail_fix (c : Nat) (s : State) : resFix (execDramChannelFail c s) = some s.fix := by
  simp only [execDramChannelFail, resFix_next, bufferOut_fix, faultU_fix]

end Sys2Proof.Machine
end

