-- ==== Sys2Proof/Laws/FixRme.lean ====
section
/-! SUPPORT. Each definition over the state in RmeRequests, RmePackets keeps the queue, the time and the fuses; a row
that ends a stated span of time may move the time on. -/

set_option linter.unusedSimpArgs false

namespace Sys2Proof.Machine

open Sys2Proof

theorem execSqTailWrite_fix (host sq : Nat) (v : Word) (s : State) : resFix (execSqTailWrite host sq v s) = some s.fix := by
  simp only [execSqTailWrite, resFix_next, apply_ite resFix, ite_self, sqFetch_fix, updSq_fix]
theorem execCqHeadWrite_fix (host cq : Nat) (v : Word) (s : State) : resFix (execCqHeadWrite host cq v s) = some s.fix := by
  simp only [execCqHeadWrite, resFix_next, apply_ite resFix, ite_self, foldl_fix, implies_true, updRme_fix, sqFetch_fix]
theorem execCqArmWrite_fix (host cq : Nat) (v : Word) (s : State) : resFix (execCqArmWrite host cq v s) = some s.fix := by
  simp only [execCqArmWrite, resFix_next, apply_ite resFix, ite_self, updRme_fix]
theorem execCqeWrite_fix (host cq : Nat) (s : State) : resFix (execCqeWrite host cq s) = some s.fix := by
  generalize hff : @execCqeWrite = ff
  delta execCqeWrite at hff
  subst hff
  beta_reduce
  split <;> simp only [resFix_next, apply_ite State.fix, apply_ite resFix, ite_self, engWrite_fix, updRme_fix, count_fix, msix_fix, updSq_fix,
    sqPump_fix, sqFetch_fix, sqDestroy_fix, noteRme_fix]
theorem noteAreas_fix (s : State) (k : Nat) : (noteAreas s k).fix = s.fix := by
  simp only [noteAreas, wrN_fix, wrF_fix, wrB_fix]
theorem execCompostAdd_fix (q : ReqSrc) (pos : Nat) (base : BitVec 64) (log2 : Nat) (pasid : Option (BitVec 20)) (s : State) : resFix (execCompostAdd q pos base log2 pasid s) = some s.fix := by
  simp only [execCompostAdd, resFix_next, apply_ite State.fix, ite_self, implies_true, serve_fix, reply_fix, updRme_fix, noteAreas_fix]
theorem execCompostRemove_fix (q : ReqSrc) (pos : Nat) (s : State) : resFix (execCompostRemove q pos s) = some s.fix := by
  generalize hff : @execCompostRemove = ff
  delta execCompostRemove at hff
  subst hff
  beta_reduce
  refine congrArg some (serve_fix _ _ _ _ _ _ _ (fun s => ?_))
  (repeat' split) <;> simp only [fix_mk, fix_fold, fuses_mk, fuses_fold, resFix_next, apply_ite State.fix, apply_ite resFix, ite_self, foldl_fix,
    implies_true, serve_fix, reply_fix, updRme_fix, noteAreas_fix]
theorem execSqCreate_fix (q : ReqSrc) (base : BitVec 64) (log2 cq tc : Nat) (pasid : BitVec 20) (s : State) : resFix (execSqCreate q base log2 cq tc pasid s) = some s.fix := by
  generalize hff : @execSqCreate = ff
  delta execSqCreate at hff
  subst hff
  beta_reduce
  refine congrArg some (serve_fix _ _ _ _ _ _ _ (fun s => ?_))
  (repeat' split) <;> simp only [fix_mk, fix_fold, fuses_mk, fuses_fold, resFix_next, apply_ite State.fix, apply_ite resFix, ite_self, foldl_fix,
    implies_true, reply_fix, notFound_fix, updRme_fix, noteQueues_fix]
theorem execCqCreate_fix (q : ReqSrc) (base : BitVec 64) (log2 vec : Nat) (pasid : BitVec 20) (s : State) : resFix (execCqCreate q base log2 vec pasid s) = some s.fix := by
  generalize hff : @execCqCreate = ff
  delta execCqCreate at hff
  subst hff
  beta_reduce
  refine congrArg some (serve_fix _ _ _ _ _ _ _ (fun s => ?_))
  (repeat' split) <;> simp only [fix_mk, fix_fold, fuses_mk, fuses_fold, resFix_next, apply_ite State.fix, apply_ite resFix, ite_self, foldl_fix,
    implies_true, serve_fix, reply_fix, updRme_fix, noteQueues_fix]
theorem execQueueDestroy_fix (q : ReqSrc) (isCq : Bool) (n : Nat) (s : State) : resFix (execQueueDestroy q isCq n s) = some s.fix := by
  simp only [execQueueDestroy, resFix_next, apply_ite State.fix, ite_self, implies_true, serve_fix, reply_fix, notFound_fix, noteQueues_fix,
    updRme_fix, sqDestroy_fix, updSq_fix]
theorem execConnCreate_fix (q : ReqSrc) (prot : Bool) (s : State) : resFix (execConnCreate q prot s) = some s.fix := by
  generalize hff : @execConnCreate = ff
  delta execConnCreate at hff
  subst hff
  beta_reduce
  refine congrArg some (serve_fix _ _ _ _ _ _ _ (fun s => ?_))
  (repeat' split) <;> simp only [fix_mk, fix_fold, fuses_mk, fuses_fold, resFix_next, apply_ite State.fix, apply_ite resFix, ite_self, foldl_fix,
    implies_true, serve_fix, reply_fix, makeRoom_fix, updRme_fix, bumpF_fix, noteRme_fix]
theorem execConnConnect_fix (q : ReqSrc) (conn : Nat) (peerSw : BitVec 12) (peerConn : BitVec 20) (s : State) : resFix (execConnConnect q conn peerSw peerConn s) = some s.fix := by
  generalize hff : @execConnConnect = ff
  delta execConnConnect at hff
  subst hff
  beta_reduce
  refine congrArg some (serve_fix _ _ _ _ _ _ _ (fun s => ?_))
  have hr : ∀ (b : Bool) (n : Nat), (if b = true then (s, true) else makeRoom s n).1.fix = s.fix := fun b n => by
    split
    · rfl
    · exact makeRoom_fix _ _
  (repeat' split) <;> simp only [hr, fix_mk, fix_fold, fuses_mk, fuses_fold, resFix_next, apply_ite State.fix, apply_ite resFix, ite_self, foldl_fix,
    implies_true, reply_fix, notFound_fix, noteRme_fix, updCtx_fix]
theorem execConnClose_fix (q : ReqSrc) (conn : Nat) (s : State) : resFix (execConnClose q conn s) = some s.fix := by
  simp only [execConnClose, resFix_next, apply_ite State.fix, ite_self, implies_true, serve_fix, notFound_fix, updCtx_fix, updRme_fix, closePump_fix]
theorem allocRegion_fix (s : State) (g : Region) : (allocRegion s g).2.fix = s.fix := by
  generalize hff : @allocRegion = ff
  delta allocRegion at hff
  subst hff
  beta_reduce
  (try simp only [fix_mk, fix_fold, fuses_mk, fuses_fold, resFix_next, apply_ite State.fix, apply_ite resFix, ite_self, foldl_fix, implies_true,
    updRegion_fix, freshBits_fix])
  (repeat' split) <;> simp only [fix_mk, fix_fold, fuses_mk, fuses_fold, resFix_next, apply_ite State.fix, apply_ite resFix, ite_self, foldl_fix,
    implies_true, updRegion_fix, freshBits_fix]
theorem freeRegion_fix (s : State) (i : Nat) : (freeRegion s i).fix = s.fix := by
  simp only [freeRegion, noteRegions_fix, updRegion_fix]
theorem clStart_fix (s : State) (m : RMsg) (eng : Nat) : (clStart s m eng).fix = s.fix := by
  simp only [clStart, countBy_fix, updRme_fix]
theorem sendCtrl_fix (s : State) (home : Nat) (host action key : Nat) (q : Option ReqSrc) (body : List Word) : (sendCtrl s home host action key q body).fix = s.fix := by
  simp only [sendCtrl, clStart_fix]
theorem grantLandKey_fix (s : State) (q : ReqSrc) (key home len : Nat) : (grantLandKey s q key home len).fix = s.fix := by
  simp only [grantLandKey, updRme_fix, reply_fix, noteRegions_fix]
theorem execRegRegion_fix (q : ReqSrc) (landing : Bool) (base len : Nat) (pasid : Option (BitVec 20)) (perm peers : Nat) (peerSw : BitVec 12) (s : State) : resFix (execRegRegion q landing base len pasid perm peers peerSw s) = some s.fix := by
  generalize hff : @execRegRegion = ff
  delta execRegRegion at hff
  subst hff
  beta_reduce
  refine congrArg some (serve_fix _ _ _ _ _ _ _ (fun s => ?_))
  extract_lets h form
  split
  · simp only [fix_mk, fix_fold, fuses_mk, fuses_fold, resFix_next, apply_ite State.fix, apply_ite resFix, ite_self, foldl_fix, implies_true,
    serve_fix, reply_fix, allocRegion_fix, grantLandKey_fix, sendCtrl_fix, noteRegions_fix]
  · split
    · simp only [fix_mk, fix_fold, fuses_mk, fuses_fold, resFix_next, apply_ite State.fix, apply_ite resFix, ite_self, foldl_fix, implies_true,
      serve_fix, reply_fix, allocRegion_fix, grantLandKey_fix, sendCtrl_fix, noteRegions_fix]
    · (repeat' split) <;> (try simp only [fix_mk, fix_fold, fuses_mk, fuses_fold, resFix_next, apply_ite State.fix, apply_ite resFix, ite_self,
      foldl_fix, implies_true, serve_fix, reply_fix, allocRegion_fix, grantLandKey_fix, sendCtrl_fix, noteRegions_fix]) <;> exact allocRegion_fix _ _
theorem execRevokeRegion_fix (q : ReqSrc) (key : BitVec 32) (s : State) : resFix (execRevokeRegion q key s) = some s.fix := by
  generalize hff : @execRevokeRegion = ff
  delta execRevokeRegion at hff
  subst hff
  beta_reduce
  refine congrArg some (serve_fix _ _ _ _ _ _ _ (fun s => ?_))
  (repeat' split) <;> (try simp only [fix_mk, fix_fold, fuses_mk, fuses_fold, resFix_next, apply_ite State.fix, apply_ite resFix, ite_self,
    foldl_fix, implies_true, reply_fix, notFound_fix, updRme_fix, updRegion_fix, sendCtrl_fix]) <;> (repeat' split) <;> simp only [fix_mk, fix_fold,
      fuses_mk, fuses_fold, resFix_next, apply_ite State.fix, apply_ite resFix, ite_self, foldl_fix, implies_true, reply_fix, notFound_fix,
        updRme_fix, updRegion_fix, sendCtrl_fix]
theorem dropLandKey_fix (s : State) (key : Nat) : (dropLandKey s key).fix = s.fix := by
  generalize hff : @dropLandKey = ff
  delta dropLandKey at hff
  subst hff
  beta_reduce
  (repeat' split) <;> simp only [updRme_fix, noteRegions_fix, reply_fix]
theorem execRegionOutstandingZero_fix (idx : Nat) (s : State) : resFix (execRegionOutstandingZero idx s) = some s.fix := by
  generalize hff : @execRegionOutstandingZero = ff
  delta execRegionOutstandingZero at hff
  subst hff
  beta_reduce
  (try simp only [fix_mk, fix_fold, fuses_mk, fuses_fold, resFix_next, apply_ite State.fix, apply_ite resFix, ite_self, foldl_fix, implies_true,
    freeRegion_fix, reply_fix, dropLandKey_fix])
  (repeat' split) <;> simp only [fix_mk, fix_fold, fuses_mk, fuses_fold, resFix_next, apply_ite State.fix, apply_ite resFix, ite_self, foldl_fix,
    implies_true, freeRegion_fix, reply_fix, dropLandKey_fix]
theorem execRegionQueryExpiry_fix (key : BitVec 32) (s : State) : resFix (execRegionQueryExpiry key s) = some s.fix := by
  generalize hff : @execRegionQueryExpiry = ff
  delta execRegionQueryExpiry at hff
  subst hff
  beta_reduce
  split <;> simp only [resFix_next, sendCtrl_fix]
theorem execConnCloseExpiry_fix (host : Nat) (s : State) : resFix (execConnCloseExpiry host s) = some s.fix := by
  simp only [execConnCloseExpiry, resFix_next, apply_ite resFix, ite_self, foldl_fix, implies_true, closeConn_fix, flushMsgs_fix, flrAreas_fix]
theorem clEnd_fix (s : State) (m : RMsg) (status : Nat) : (clEnd s m status).fix = s.fix := by
  generalize hff : @clEnd = ff
  delta clEnd at hff
  subst hff
  beta_reduce
  split <;> simp only [apply_ite State.fix, ite_self, reply_fix, finishMsg_fix]
theorem askCl_fix (s : State) (id : Nat) : (askCl s id).fix = s.fix := by
  generalize hff : @askCl = ff
  delta askCl at hff
  subst hff
  beta_reduce
  (repeat' split) <;> simp only [apply_ite State.fix, ite_self, updMsg_fix, clEnd_fix, ackFrame_fix, finishMsg_fix, regionDone_fix, engRead_fix]
theorem srcFailed_fix (s : State) (m : RMsg) : (srcFailed s m).fix = s.fix := by
  simp only [srcFailed, apply_ite State.fix, ite_self, ackFrame_fix, finishMsg_fix, regionDone_fix, clEnd_fix, updCtx_fix, sendAck_fix, connError_fix]
theorem noteRead_fix (s : State) (id : Nat) : (noteRead s id).fix = s.fix := by
  generalize hff : @noteRead = ff
  delta noteRead at hff
  subst hff
  beta_reduce
  split <;> simp only [apply_ite State.fix, ite_self, updMsg_fix, regionDone_fix]
theorem srcDone_fix (s : State) (key : Nat) (ok : Bool) (data : List Word) (poison : Bool) : (srcDone s key ok data poison).fix = s.fix := by
  generalize hff : @srcDone = ff
  delta srcDone at hff
  subst hff
  beta_reduce
  (repeat' split) <;> simp only [srcFailed_fix, updMsg_fix, askCl_fix, noteRead_fix, updCtx_fix, sendAck_fix]
theorem startWork_fix (s : State) (host key : Nat) (w : Wqe) (id : Nat) : (startWork s host key w id).fix = s.fix := by
  simp only [startWork, apply_ite State.fix, ite_self, sqPump_fix, updRme_fix, countBy_fix, updMsg_fix, askCl_fix, startMsg_fix]
theorem takeWqe_fix (s : State) (host sq : Nat) (w : Wqe) : (takeWqe s host sq w).fix = s.fix := by
  simp only [takeWqe, apply_ite State.fix, ite_self, updRme_fix, updSq_fix, count_fix, freshBits_fix, finishMsg_fix, recFault_fix, recLast_fix,
    noteRme_fix, startWork_fix]
theorem endFetch_fix (s : State) (host sq : Nat) : (endFetch s host sq).fix = s.fix := by
  simp only [endFetch, apply_ite State.fix, ite_self, foldl_fix, implies_true, updMef_fix, readGo_fix, mefTp_fix, readFree_fix]
theorem execWqeFetchDone_fix (host sq : Nat) (w : Wqe) (s : State) : resFix (execWqeFetchDone host sq w s) = some s.fix := by
  simp only [execWqeFetchDone, resFix_next, apply_ite resFix, ite_self, sqFetch_fix, sqDestroy_fix, endFetch_fix, takeWqe_fix]
theorem countTx_fix (s : State) (e k : Nat) (it : TxItem) (again : Bool) : (countTx s e k it again).fix = s.fix := by
  simp only [countTx, apply_ite State.fix, ite_self, countBy_fix, engCount_fix]
theorem updFlight_fix (s : State) (n psn : Nat) (f : Flight → Flight) : (updFlight s n psn f).fix = s.fix := by
  simp only [updFlight, updCtx_fix]
theorem resendOne_fix (s : State) (n : Nat) (fl : Flight) : (resendOne s n fl).fix = s.fix := by
  simp only [resendOne, apply_ite State.fix, ite_self, sendAck_fix, updFlight_fix, engRead_fix, updCtx_fix, countTx_fix, routeOut_fix]
theorem respTake_fix (s : State) (e : Nat) (it : TxItem) : (respTake s e it).fix = s.fix := by
  simp only [respTake, apply_ite State.fix, ite_self, updMsg_fix, setResp_fix]
theorem refuseProt_fix (s : State) (n : Nat) (m : RMsg) : (refuseProt s n m).fix = s.fix := by
  simp only [refuseProt, recFault_fix, recLast_fix, updCtx_fix, closePump_fix, startWaiting_fix, finishMsg_fix]
theorem sendProt_fix (s : State) (n : Nat) (m : RMsg) (it : TxItem) : (sendProt s n m it).fix = s.fix := by
  simp only [sendProt, apply_ite State.fix, ite_self, recLast_fix, updLand_fix, updMsg_fix, updCtx_fix, countTx_fix, routeOut_fix, sealPump_fix,
    lossSend_fix]
theorem sendNew_fix (s : State) (n : Nat) (it : TxItem) (rest : List TxItem) : (sendNew s n it rest).fix = s.fix := by
  simp only [sendNew, apply_ite State.fix, ite_self, askData_fix, refuseProt_fix, sendProt_fix, updCtx_fix, respTake_fix, updMsg_fix, countTx_fix,
    routeOut_fix]
theorem sendConn_fix (s : State) (n : Nat) : (sendConn s n).fix = s.fix := by
  generalize hff : @sendConn = ff
  delta sendConn at hff
  subst hff
  beta_reduce
  (try simp only [fix_mk, fix_fold, fuses_mk, fuses_fold, resFix_next, apply_ite State.fix, apply_ite resFix, ite_self, foldl_fix, implies_true,
    resendOne_fix, sendNew_fix])
  (repeat' split) <;> simp only [fix_mk, fix_fold, fuses_mk, fuses_fold, resFix_next, apply_ite State.fix, apply_ite resFix, ite_self, foldl_fix,
    implies_true, resendOne_fix, sendNew_fix]
theorem sendCl_fix (s : State) (e : Nat) : (sendCl s e).fix = s.fix := by
  generalize hff : @sendCl = ff
  delta sendCl at hff
  subst hff
  beta_reduce
  (repeat' split) <;> simp only [apply_ite State.fix, ite_self, noteRme_fix, clEnd_fix, bump_fix, respTake_fix, updMsg_fix, askCl_fix, countTx_fix,
    routeOut_fix]
theorem execRmePacketSend_fix (eng conn : Nat) (s : State) : resFix (execRmePacketSend eng conn s) = some s.fix := by
  simp only [execRmePacketSend, resFix_next, apply_ite resFix, ite_self, sendCl_fix, noteRme_fix, sendConn_fix]
theorem fullCheck_fix (s : State) (eng : Nat) (k : RmePkt) (need len : Nat) : (fullCheck s eng k need len).2.fix = s.fix := by
  generalize hff : @fullCheck = ff
  delta fullCheck at hff
  subst hff
  beta_reduce
  (try simp only [fix_mk, fix_fold, fuses_mk, fuses_fold, resFix_next, apply_ite State.fix, apply_ite resFix, ite_self, foldl_fix, implies_true,
    hedgeRefuse_fix, hedgeTag_fix, updRegion_fix])
  (repeat' split) <;> simp only [fix_mk, fix_fold, fuses_mk, fuses_fold, resFix_next, apply_ite State.fix, apply_ite resFix, ite_self, foldl_fix,
    implies_true, hedgeRefuse_fix, hedgeTag_fix, updRegion_fix]
theorem carryPart_fix (s : State) (eng : Nat) (k : RmePkt) : (carryPart s eng k).fix = s.fix := by
  generalize hff : @carryPart = ff
  delta carryPart at hff
  subst hff
  beta_reduce
  (try simp only [fix_mk, fix_fold, fuses_mk, fuses_fold, resFix_next, apply_ite State.fix, apply_ite resFix, ite_self, foldl_fix, implies_true,
    hedgeTag_fix, mefWriteTag_fix])
  (repeat' split) <;> simp only [fix_mk, fix_fold, fuses_mk, fuses_fold, resFix_next, apply_ite State.fix, apply_ite resFix, ite_self, foldl_fix,
    implies_true, hedgeTag_fix, mefWriteTag_fix]
theorem carryWrite_fix (s : State) (eng : Nat) (k : RmePkt) : (carryWrite s eng k).2.fix = s.fix := by
  generalize hff : @carryWrite = ff
  delta carryWrite at hff
  subst hff
  beta_reduce
  (try simp only [fix_mk, fix_fold, fuses_mk, fuses_fold, resFix_next, apply_ite State.fix, apply_ite resFix, ite_self, foldl_fix, implies_true,
    fullCheck_fix, carryPart_fix, countBy_fix, mefWriteTag_fix])
  (repeat' split) <;> simp only [fix_mk, fix_fold, fuses_mk, fuses_fold, resFix_next, apply_ite State.fix, apply_ite resFix, ite_self, foldl_fix,
    implies_true, fullCheck_fix, carryPart_fix, countBy_fix, mefWriteTag_fix]
theorem carryRead_fix (s : State) (eng : Nat) (k : RmePkt) : (carryRead s eng k).2.fix = s.fix := by
  generalize hff : @carryRead = ff
  delta carryRead at hff
  subst hff
  beta_reduce
  (try simp only [fix_mk, fix_fold, fuses_mk, fuses_fold, resFix_next, apply_ite State.fix, apply_ite resFix, ite_self, foldl_fix, implies_true,
    fullCheck_fix, hedgeDrop_fix, countBy_fix, updRme_fix, askCl_fix, askData_fix, updCtx_fix])
  (repeat' split) <;> simp only [fix_mk, fix_fold, fuses_mk, fuses_fold, resFix_next, apply_ite State.fix, apply_ite resFix, ite_self, foldl_fix,
    implies_true, fullCheck_fix, hedgeDrop_fix, countBy_fix, updRme_fix, askCl_fix, askData_fix, updCtx_fix]
theorem readDelivered_fix (s : State) (id bytes : Nat) : (readDelivered s id bytes).fix = s.fix := by
  generalize hff : @readDelivered = ff
  delta readDelivered at hff
  subst hff
  beta_reduce
  split <;> simp only [apply_ite State.fix, ite_self, setResp_fix, updMsg_fix, finishMsg_fix, closePump_fix, startWaiting_fix]
theorem carryResp_fix (s : State) (k : RmePkt) : (carryResp s k).2.fix = s.fix := by
  generalize hff : @carryResp = ff
  delta carryResp at hff
  subst hff
  beta_reduce
  split
  · rfl
  · (repeat' split) <;> simp only [fix_mk, fix_fold, fuses_mk, fuses_fold, resFix_next, apply_ite State.fix, apply_ite resFix, ite_self, foldl_fix,
    implies_true, clEnd_fix, connError_fix, count_fix, bump_fix, updMsg_fix, countBy_fix, engWrite_fix,
      readDelivered_fix] <;> (split <;> simp only [fix_mk, fix_fold, fuses_mk, fuses_fold, resFix_next, apply_ite State.fix, apply_ite resFix,
        ite_self, foldl_fix, implies_true, clEnd_fix, connError_fix, count_fix, bump_fix, updMsg_fix, countBy_fix, engWrite_fix, readDelivered_fix])
theorem acceptPkt_fix (s : State) (n : Nat) (k : RmePkt) (status : Nat) : (acceptPkt s n k status).fix = s.fix := by
  simp only [acceptPkt, apply_ite State.fix, ite_self, updCtx_fix, sendAck_fix]
theorem dupPkt_fix (s : State) (n e : Nat) : (dupPkt s n e).fix = s.fix := by
  simp only [dupPkt, apply_ite State.fix, ite_self, engCount_fix, sendAck_fix, updCtx_fix]
theorem holdPkt_fix (s : State) (eng : Nat) (k : RmePkt) (isRead : Bool) : (holdPkt s eng k isRead).fix = s.fix := by
  simp only [holdPkt, fix_mk, fix_fold]
theorem noteCl_fix (s : State) (eng : Nat) : (noteCl s eng).fix = s.fix := by
  simp only [noteCl, wrF_fix]
theorem putCl_fix (s : State) (e : ClEnt) : (putCl s e).fix = s.fix := by
  simp only [putCl, noteCl_fix, updRme_fix]
theorem clReceive_fix (s : State) (eng : Nat) (k : RmePkt) (f : State → (Nat × Word) × State) (hf : ∀ s, (f s).2.fix = s.fix) : (clReceive
    s eng k f).fix = s.fix := by
  simp only [clReceive, apply_ite State.fix, ite_self, hf, bump_fix, sendClAck_fix, engCount_fix, putCl_fix]
theorem connReceive_fix (s : State) (eng : Nat) (k : RmePkt) (isRead : Bool) : (connReceive s eng k isRead).fix = s.fix := by
  generalize hff : @connReceive = ff
  delta connReceive at hff
  subst hff
  beta_reduce
  (repeat' split) <;> simp only [apply_ite State.fix, ite_self, bump_fix, fillCtx_fix, updRme_fix, sendInvalid_fix, holdPkt_fix, carryRead_fix,
    carryWrite_fix, acceptPkt_fix, dupPkt_fix]
theorem protReceive_fix (s : State) (eng : Nat) (k : RmePkt) : (protReceive s eng k).fix = s.fix := by
  generalize hff : @protReceive = ff
  delta protReceive at hff
  subst hff
  beta_reduce
  (try simp only [fix_mk, fix_fold, fuses_mk, fuses_fold, resFix_next, apply_ite State.fix, apply_ite resFix, ite_self, foldl_fix, implies_true,
    fullCheck_fix, landPump_fix, updLand_fix, regionDone_fix, hedgeDrop_fix, sendLanded_fix, sealPump_fix, lossSend_fix])
  (repeat' split) <;> simp only [fix_mk, fix_fold, fuses_mk, fuses_fold, resFix_next, apply_ite State.fix, apply_ite resFix, ite_self, foldl_fix,
    implies_true, fullCheck_fix, landPump_fix, updLand_fix, regionDone_fix, hedgeDrop_fix, sendLanded_fix, sealPump_fix, lossSend_fix]
theorem takePkt_fix (s : State) (eng : Nat) (k : RmePkt) (isRead : Bool) : (takePkt s eng k isRead).fix = s.fix := by
  generalize hff : @takePkt = ff
  delta takePkt at hff
  subst hff
  beta_reduce
  (repeat' split) <;> simp only [implies_true, holdPkt_fix, protReceive_fix, clReceive_fix, carryRead_fix, carryWrite_fix, connReceive_fix]
theorem execRmeWriteReceive_fix (eng : Nat) (k : RmePkt) (s : State) : resFix (execRmeWriteReceive eng k s) = some s.fix := by
  simp only [execRmeWriteReceive, resFix_next, apply_ite resFix, ite_self, noteRme_fix, takePkt_fix, engCount_fix]
theorem execReadReqReceive_fix (eng : Nat) (k : RmePkt) (s : State) : resFix (execReadReqReceive eng k s) = some s.fix := by
  simp only [execReadReqReceive, resFix_next, apply_ite resFix, ite_self, noteRme_fix, takePkt_fix, engCount_fix]
theorem execReadRespReceive_fix (eng : Nat) (k : RmePkt) (s : State) : resFix (execReadRespReceive eng k s) = some s.fix := by
  simp only [execReadRespReceive, resFix_next, apply_ite resFix, ite_self, implies_true, engCount_fix, noteRme_fix, clReceive_fix, carryResp_fix,
    sendInvalid_fix, acceptPkt_fix, dupPkt_fix, bump_fix]
theorem carryCtrl_fix (s : State) (k : RmePkt) : (carryCtrl s k).2.fix = s.fix := by
  generalize hff : @carryCtrl = ff
  delta carryCtrl at hff
  subst hff
  beta_reduce
  (try simp only [fix_mk, fix_fold, fuses_mk, fuses_fold, resFix_next, apply_ite State.fix, apply_ite resFix, ite_self, foldl_fix, implies_true,
    allocRegion_fix, noteRegions_fix, updRegion_fix])
  (repeat' split) <;> simp only [fix_mk, fix_fold, fuses_mk, fuses_fold, resFix_next, apply_ite State.fix, apply_ite resFix, ite_self, foldl_fix,
    implies_true, allocRegion_fix, noteRegions_fix, updRegion_fix]
theorem execCtrlReceive_fix (eng : Nat) (k : RmePkt) (s : State) : resFix (execCtrlReceive eng k s) = some s.fix := by
  simp only [execCtrlReceive, resFix_next, apply_ite resFix, ite_self, implies_true, engCount_fix, bump_fix, clReceive_fix, carryCtrl_fix]
theorem ackItem_fix (s : State) (it : TxItem) : (ackItem s it).fix = s.fix := by
  generalize hff : @ackItem = ff
  delta ackItem at hff
  subst hff
  beta_reduce
  split <;> simp only [apply_ite State.fix, ite_self, updMsg_fix, finishMsg_fix]
theorem ackApply_fix (s : State) (n cum bitmap status errPsn marked covered : Nat) : (ackApply s n cum bitmap status errPsn marked covered).fix = s.fix := by
  simp only [ackApply, apply_ite State.fix, ite_self, foldl_fix, implies_true, updCtx_fix, engCount_fix, ackItem_fix, connError_fix, noteRme_fix,
    closePump_fix, startWaiting_fix]
theorem staleAck_fix (s : State) (n : Nat) : (staleAck s n).fix = s.fix := by
  simp only [staleAck, engCount_fix]
theorem execRmeAckReceive_fix (conn : Nat) (cum : BitVec 24) (status : BitVec 8) (errPsn : BitVec 24) (marked covered : Nat) (bitmap : BitVec 511) (srcSw : BitVec 12) (poison : Bool) (s : State) : resFix (execRmeAckReceive conn cum status errPsn marked covered bitmap srcSw poison s) = some s.fix := by
  simp only [execRmeAckReceive, resFix_next, apply_ite resFix, ite_self, staleAck_fix, ackApply_fix]
theorem execNakListReceive_fix (conn : Nat) (cum : BitVec 24) (status : BitVec 8) (psns : List (BitVec 24 × Nat)) (poison : Bool) (s : State) : resFix (execNakListReceive conn cum status psns poison s) = some s.fix := by
  simp only [execNakListReceive, resFix_next, apply_ite resFix, ite_self, engCount_fix, staleAck_fix, ackApply_fix, updCtx_fix]
theorem landedEntry_fix (s : State) (n status msn cnt : Nat) : (landedEntry s n status msn cnt).fix = s.fix := by
  generalize hff : @landedEntry = ff
  delta landedEntry at hff
  subst hff
  beta_reduce
  (try simp only [fix_mk, fix_fold, fuses_mk, fuses_fold, resFix_next, apply_ite State.fix, apply_ite resFix, ite_self, foldl_fix, implies_true,
    updMsg_fix, updCtx_fix, finishMsg_fix, connError_fix])
  (repeat' split) <;> simp only [fix_mk, fix_fold, fuses_mk, fuses_fold, resFix_next, apply_ite State.fix, apply_ite resFix, ite_self, foldl_fix,
    implies_true, updMsg_fix, updCtx_fix, finishMsg_fix, connError_fix]
theorem execLandedReceive_fix (conn : Nat) (status : BitVec 8) (entries : List (BitVec 24 × Nat)) (poison : Bool) (s : State) : resFix (execLandedReceive conn status entries poison s) = some s.fix := by
  simp only [execLandedReceive, resFix_next, apply_ite resFix, ite_self, foldl_fix, implies_true, staleAck_fix, landedEntry_fix, noteRme_fix,
    closePump_fix, startWaiting_fix, rmeSettle_fix]
theorem execClAckReceive_fix (eng : Nat) (srcSw : BitVec 12) (msgId : BitVec 32) (received : BitVec 16) (status : BitVec 8) (result : Word) (poison : Bool) (s : State) : resFix (execClAckReceive eng srcSw msgId received status result poison s) = some s.fix := by
  generalize hff : @execClAckReceive = ff
  delta execClAckReceive at hff
  subst hff
  beta_reduce
  (repeat' split) <;> simp only [resFix_next, apply_ite resFix, ite_self, engCount_fix, noteRme_fix, clEnd_fix, updMsg_fix, finishMsg_fix,
    grantLandKey_fix, dropLandKey_fix]
theorem execRmeAckDelayExpiry_fix (conn : Nat) (s : State) : resFix (execRmeAckDelayExpiry conn s) = some s.fix := by
  simp only [execRmeAckDelayExpiry, resFix_next, apply_ite resFix, ite_self, noteRme_fix, sendAck_fix]
theorem execNakListExpiry_later (conn : Nat) (psn : BitVec 24) (s : State) : Later s (resFix (execNakListExpiry conn psn s)) := by
  simp only [execNakListExpiry, resFix_next, apply_ite resFix, updCtx_fix, engCount_fix, ackFrame_fix]
  all_goals (repeat' split)
  all_goals first | exact later_refl s | exact later_to s _
theorem execRtoExpiry_fix (conn : Nat) (s : State) : resFix (execRtoExpiry conn s) = some s.fix := by
  generalize hff : @execRtoExpiry = ff
  delta execRtoExpiry at hff
  subst hff
  beta_reduce
  (try simp only [fix_mk, fix_fold, fuses_mk, fuses_fold, resFix_next, apply_ite State.fix, apply_ite resFix, ite_self, foldl_fix, implies_true,
    engCount_fix, connError_fix, updCtx_fix, closePump_fix, fault_fix])
  (repeat' split) <;> simp only [fix_mk, fix_fold, fuses_mk, fuses_fold, resFix_next, apply_ite State.fix, apply_ite resFix, ite_self, foldl_fix,
    implies_true, engCount_fix, connError_fix, updCtx_fix, closePump_fix, fault_fix]
theorem execRateIncreaseExpiry_later (conn : Nat) (s : State) : Later s (resFix (execRateIncreaseExpiry conn s)) := by
  simp only [execRateIncreaseExpiry, resFix_next, apply_ite resFix, updCtx_fix]
  all_goals (repeat' split)
  all_goals first | exact later_refl s | exact later_to s _
theorem execLandedReportExpiry_fix (srcSw conn : Nat) (s : State) : resFix (execLandedReportExpiry srcSw conn s) = some s.fix := by
  simp only [execLandedReportExpiry, resFix_next, flushLanded_fix]
theorem execClResendExpiry_later (eng : Nat) (msgId : BitVec 32) (s : State) : Later s (resFix (execClResendExpiry eng msgId s)) := by
  generalize hff : @execClResendExpiry = ff
  delta execClResendExpiry at hff
  subst hff
  beta_reduce
  (repeat' split) <;> (try simp only [resFix_next, apply_ite resFix, ite_self, noteRme_fix, clEnd_fix, bump_fix, askCl_fix,
    updMsg_fix]) <;> (repeat' split) <;> first | exact later_refl s | exact later_to s _
theorem execClAckDelayExpiry_fix (eng key : Nat) (s : State) : resFix (execClAckDelayExpiry eng key s) = some s.fix := by
  generalize hff : @execClAckDelayExpiry = ff
  delta execClAckDelayExpiry at hff
  subst hff
  beta_reduce
  split <;> simp only [resFix_next, apply_ite resFix, ite_self, sendClAck_fix, putCl_fix]
theorem execClEntryExpiry_later (eng key : Nat) (s : State) : Later s (resFix (execClEntryExpiry eng key s)) := by
  generalize hff : @execClEntryExpiry = ff
  delta execClEntryExpiry at hff
  subst hff
  beta_reduce
  (repeat' split) <;> (try simp only [resFix_next, noteCl_fix, updRme_fix]) <;> (repeat' split) <;> first | exact later_refl s | exact later_to s _
theorem missRelease_fix (s : State) (n : Nat) : (missRelease s n).fix = s.fix := by
  simp only [missRelease, foldl_fix, implies_true, updRme_fix, takePkt_fix]
theorem fillDone_fix (s : State) (n : Nat) (slot : List Word) (readOk ep : Bool) : (fillDone s n slot readOk ep).fix = s.fix := by
  simp only [fillDone, apply_ite State.fix, ite_self, updRme_fix, noteRme_fix, startWaiting_fix, missRelease_fix, bump_fix, fault_fix, connError_fix]
theorem execContextFillDone_fix (conn : Nat) (slot : List Word) (readOk ep : Bool) (s : State) : resFix (execContextFillDone conn slot readOk ep s) = some s.fix := by
  simp only [execContextFillDone, resFix_next, fillDone_fix]
theorem spillDone_fix (s : State) (n : Nat) : (spillDone s n).fix = s.fix := by
  simp only [spillDone, apply_ite State.fix, ite_self, spillEnd_fix, fillCtx_fix, startWaiting_fix]
theorem execContextSpillDone_fix (conn : Nat) (s : State) : resFix (execContextSpillDone conn s) = some s.fix := by
  simp only [execContextSpillDone, resFix_next, spillDone_fix]

end Sys2Proof.Machine
end

