-- ==== Sys2Proof/Laws/FixForward.lean ====
section
/-! SUPPORT. Each definition over the state in RouteOps, PathOps, Hier, Forward, Qos keeps the queue, the time and the fuses; a row
that ends a stated span of time may move the time on. -/

set_option linter.unusedSimpArgs false

namespace Sys2Proof.Machine

open Sys2Proof

theorem takeQueue_fix (s : State) (p t : Nat) (f : QEntry → Bool) : (takeQueue s p t f).2.fix = s.fix := by
  simp only [takeQueue, updFwd_fix, wrF_fix]
theorem noteFwd_fix (s : State) : (noteFwd s).fix = s.fix := by
  simp only [noteFwd, wrF_fix, wrB_fix]
theorem writeTable_fix (s : State) : (writeTable s).fix = s.fix := by
  simp only [writeTable, foldl_fix, implies_true, wr64_fix]
theorem moveEntry_fix (s : State) (e : QEntry) : (moveEntry s e).fix = s.fix := by
  generalize hff : @moveEntry = ff
  delta moveEntry at hff
  subst hff
  beta_reduce
  split <;> simp only [enqueueDrop_fix, unreachable_fix, dropEntry_fix]
theorem moveFrames_fix (s : State) (p dst : Nat) : (moveFrames s p dst).fix = s.fix := by
  simp only [moveFrames, foldl_fix, implies_true, takeQueue_fix, moveEntry_fix]
theorem applyEntry_fix (s : State) (dst new : Nat) : (applyEntry s dst new).fix = s.fix := by
  simp only [applyEntry, apply_ite State.fix, ite_self, foldl_fix, implies_true, wr64_fix, count_fix, bump_fix, moveFrames_fix]
theorem recompute_fix (s : State) : (recompute s).fix = s.fix := by
  simp only [recompute, apply_ite State.fix, ite_self, foldl_fix, implies_true, noteFwd_fix, applyEntry_fix]
theorem lsSend_fix (s : State) (e : LsEntry) (p : Nat) : (lsSend s e p).fix = s.fix := by
  simp only [lsSend, bump_fix, sendOn_fix]
theorem lsStore_fix (s : State) (e : LsEntry) : (lsStore s e).fix = s.fix := by
  simp only [lsStore, updFwd_fix]
theorem lsOwn_fix (s : State) : (lsOwn s).fix = s.fix := by
  simp only [lsOwn, foldl_fix, implies_true, lsStore_fix, updFwd_fix, recompute_fix, lsSend_fix]
theorem adjUp_fix (s : State) (p : Nat) : (adjUp s p).fix = s.fix := by
  simp only [adjUp, apply_ite State.fix, ite_self, foldl_fix, implies_true, faultP_fix, bump_fix, wrB_fix, updFwd_fix, lsSend_fix, lsOwn_fix]
theorem adjDownAt_fix (s : State) (p : Nat) : (adjDownAt s p).fix = s.fix := by
  simp only [adjDownAt, apply_ite State.fix, ite_self, wrB_fix, updFwd_fix, lsOwn_fix]
theorem discDone_fix (s : State) : (discDone s).fix = s.fix := by
  simp only [discDone, writeTable_fix, wrB_fix, noteFwd_fix, wrN_fix]
theorem sampleFrame_fix (s : State) (p dir : Nat) (f : Frame) (stomped : Bool) : (sampleFrame s p dir f stomped).fix = s.fix := by
  simp only [sampleFrame, apply_ite State.fix, ite_self, updFwd_fix, count_fix, bump_fix]
theorem refusedFrame_fix (s : State) (p : Nat) (f : Frame) : (refusedFrame s p f).fix = s.fix := by
  simp only [refusedFrame, lossOf_fix, completeTo_fix]
theorem cutAccess_fix (s : State) (u k p : Nat) (f : Frame) (write : Bool) (ps : List Part) : (cutAccess s u k p f write ps).2.fix = s.fix := by
  generalize hff : @cutAccess = ff
  delta cutAccess at hff
  subst hff
  beta_reduce
  split
  · refine foldl_snd_fix _ _ _ _ (fun x y => ?_) ?_ <;> simp only [fix_mk, fix_fold, fuses_mk, fuses_fold, resFix_next, apply_ite State.fix,
    apply_ite resFix, ite_self, foldl_fix, implies_true, hedgeTag_fix, refusedFrame_fix]
  · simp only [fix_mk, fix_fold, fuses_mk, fuses_fold, resFix_next, apply_ite State.fix, apply_ite resFix, ite_self, foldl_fix, implies_true,
    hedgeTag_fix, refusedFrame_fix]
theorem checkAccess_fix (s : State) (u p : Nat) (a : Arrival) (agree : Bool) : (checkAccess s u p a agree).2.fix = s.fix := by
  generalize hff : @checkAccess = ff
  delta checkAccess at hff
  subst hff
  beta_reduce
  (try simp only [fix_mk, fix_fold, fuses_mk, fuses_fold, resFix_next, apply_ite State.fix, apply_ite resFix, ite_self, foldl_fix, implies_true,
    refusedFrame_fix, hedgeDisagree_fix, hedgeTag_fix, cutAccess_fix, hedgeRefuse_fix])
  (repeat' split) <;> simp only [fix_mk, fix_fold, fuses_mk, fuses_fold, resFix_next, apply_ite State.fix, apply_ite resFix, ite_self, foldl_fix,
    implies_true, refusedFrame_fix, hedgeDisagree_fix, hedgeTag_fix, cutAccess_fix, hedgeRefuse_fix]
theorem takeArrival_fix (s : State) (u p : Nat) (a : Arrival) (agree : Bool) : (takeArrival s u p a agree).fix = s.fix := by
  simp only [takeArrival, fix_mk, fix_fold, apply_ite State.fix, ite_self, foldl_fix, implies_true, unreachable_fix, checkAccess_fix, allocFrame_fix,
    meterFrame_fix]
theorem aerUnc_fix (s : State) (k : Nat) (f : VFn) (bit : Nat) (hdr : List Word) : (aerUnc s k f bit hdr).fix = s.fix := by
  simp only [aerUnc, apply_ite State.fix, ite_self, foldl_fix, implies_true, cfgF_fix, cfgSet_fix]
theorem reportUnc_fix (s : State) (k : Nat) (f : VFn) (bit : Nat) (hdr : List Word) : (reportUnc s k f bit hdr).fix = s.fix := by
  simp only [reportUnc, apply_ite State.fix, ite_self, aerUnc_fix, emit_fix]
theorem reportAdvisory_fix (s : State) (k : Nat) (f : VFn) : (reportAdvisory s k f).fix = s.fix := by
  simp only [reportAdvisory, apply_ite State.fix, ite_self, cfgF_fix, emit_fix]
theorem reportUr_fix (s : State) (k : Nat) (f : VFn) (posted : Bool) (hdr : List Word) : (reportUr s k f posted hdr).fix = s.fix := by
  simp only [reportUr, apply_ite State.fix, ite_self, reportUnc_fix, reportAdvisory_fix, aerUnc_fix]
theorem pushArrival_fix (s : State) (p : Nat) (a : Arrival) : (pushArrival s p a).fix = s.fix := by
  simp only [pushArrival, updFwd_fix]
theorem urNote_fix (s : State) (p : Nat) (posted : Bool) (hdr : List Word) : (urNote s p posted hdr).fix = s.fix := by
  generalize hff : @urNote = ff
  delta urNote at hff
  subst hff
  beta_reduce
  (try simp only [fix_mk, fix_fold, fuses_mk, fuses_fold, resFix_next, apply_ite State.fix, apply_ite resFix, ite_self, foldl_fix, implies_true,
    count_fix, bump_fix, reportUr_fix])
  (repeat' split) <;> simp only [fix_mk, fix_fold, fuses_mk, fuses_fold, resFix_next, apply_ite State.fix, apply_ite resFix, ite_self, foldl_fix,
    implies_true, count_fix, bump_fix, reportUr_fix]
theorem unsupported_fix (s : State) (p : Nat) (t : Tlp) : (unsupported s p t).fix = s.fix := by
  simp only [unsupported, apply_ite State.fix, ite_self, urNote_fix, emit_fix]
theorem deviceRequest_fix (s : State) (p k : Nat) (t : Tlp) : (deviceRequest s p k t).fix = s.fix := by
  simp only [deviceRequest, foldl_fix, implies_true, pushArrival_fix]
theorem hostRequest_fix (s : State) (p k : Nat) (t : Tlp) : (hostRequest s p k t).fix = s.fix := by
  generalize hff : @hostRequest = ff
  delta hostRequest at hff
  subst hff
  beta_reduce
  split <;> simp only [apply_ite State.fix, ite_self, pushArrival_fix, unsupported_fix]
theorem driveRequest_fix (s : State) (p : Nat) (t : Tlp) : (driveRequest s p t).fix = s.fix := by
  generalize hff : @driveRequest = ff
  delta driveRequest at hff
  subst hff
  beta_reduce
  split <;> simp only [apply_ite State.fix, ite_self, unsupported_fix, emit_fix, hedgeRefuse_fix, readWords_fix]
theorem npPush_fix (s : State) (p : Nat) (r : NpReq) : (npPush s p r).fix = s.fix := by
  simp only [npPush, fix_mk, fix_fold]
theorem ioRequest_fix (s : State) (p : Nat) (t : Tlp) : (ioRequest s p t).fix = s.fix := by
  generalize hff : @ioRequest = ff
  delta ioRequest at hff
  subst hff
  beta_reduce
  (try simp only [fix_mk, fix_fold, fuses_mk, fuses_fold, resFix_next, apply_ite State.fix, apply_ite resFix, ite_self, foldl_fix, implies_true,
    emit_fix, urNote_fix, npPush_fix])
  (repeat' split) <;> simp only [fix_mk, fix_fold, fuses_mk, fuses_fold, resFix_next, apply_ite State.fix, apply_ite resFix, ite_self, foldl_fix,
    implies_true, emit_fix, urNote_fix, npPush_fix]
theorem execTlpReceive_fix (p : Nat) (t : TlpIn) (s : State) : resFix (execTlpReceive p t s) = some s.fix := by
  generalize hff : @execTlpReceive = ff
  delta execTlpReceive at hff
  subst hff
  beta_reduce
  split <;> simp only [resFix_next, apply_ite resFix, ite_self, urNote_fix, unsupported_fix, ioRequest_fix, countIn_fix, hostRequest_fix,
    deviceRequest_fix, driveRequest_fix]
theorem shaperPay_fix (s : State) (p t b : Nat) : (shaperPay s p t b).fix = s.fix := by
  simp only [shaperPay, wrF_fix]
theorem cutThrough_fix (s : State) (p : Nat) (a : Arrival) (agree : Bool) (fc : BitVec 3) : (cutThrough s p a agree fc).fix = s.fix := by
  generalize hff : @cutThrough = ff
  delta cutThrough at hff
  subst hff
  beta_reduce
  (try simp only [fix_mk, fix_fold, fuses_mk, fuses_fold, resFix_next, apply_ite State.fix, apply_ite resFix, ite_self, foldl_fix, implies_true,
    meterColour_fix, checkAccess_fix, countColour_fix, allocFrame_fix, shaperPay_fix, updFwd_fix])
  (repeat' split) <;> simp only [fix_mk, fix_fold, fuses_mk, fuses_fold, resFix_next, apply_ite State.fix, apply_ite resFix, ite_self, foldl_fix,
    implies_true, meterColour_fix, checkAccess_fix, countColour_fix, allocFrame_fix, shaperPay_fix, updFwd_fix]
theorem writeParity_fix (s : State) (a : Arrival) (parity : Nat) : (writeParity s a parity).2.fix = s.fix := by
  simp only [writeParity, parityRead_fix]
theorem execFrameHeaderKnown_fix (p : Nat) (h : Option HdrIn) (checksAgree : Bool) (fc : BitVec 3) (parity : Nat) (s : State) : resFix (execFrameHeaderKnown p h checksAgree fc parity s) = some s.fix := by
  generalize hff : @execFrameHeaderKnown = ff
  delta execFrameHeaderKnown at hff
  subst hff
  beta_reduce
  (repeat' split) <;> simp only [resFix_next, cutThrough_fix, updFwd_fix, writeParity_fix, sampleFrame_fix, takeArrival_fix]
theorem handOver_fix (s : State) (o : MefOwner) (f : Frame) : (handOver s o f).fix = s.fix := by
  generalize hff : @handOver = ff
  delta handOver at hff
  subst hff
  beta_reduce
  split <;> simp only [readDelivered_fix, regionDone_fix, spillDone_fix]
theorem countSent_fix (s : State) (p : Nat) (f : Frame) : (countSent s p f).fix = s.fix := by
  simp only [countSent, count_fix, countBy_fix]
theorem scionCpl_fix (s : State) (p : Nat) (f : Frame) : (scionCpl s p f).fix = s.fix := by
  generalize hff : @scionCpl = ff
  delta scionCpl at hff
  subst hff
  beta_reduce
  (try simp only [fix_mk, fix_fold, fuses_mk, fuses_fold, resFix_next, apply_ite State.fix, apply_ite resFix, ite_self, foldl_fix, implies_true,
    emit_fix, bump_fix])
  (repeat' split) <;> simp only [fix_mk, fix_fold, fuses_mk, fuses_fold, resFix_next, apply_ite State.fix, apply_ite resFix, ite_self, foldl_fix,
    implies_true, emit_fix, bump_fix]
theorem turnOffAck_fix (s : State) (k : Nat) : (turnOffAck s k).fix = s.fix := by
  simp only [turnOffAck, apply_ite State.fix, ite_self, pmeAck_fix]
theorem sendPcie_fix (s : State) (p : Nat) (e : QEntry) : (sendPcie s p e).fix = s.fix := by
  generalize hff : @sendPcie = ff
  delta sendPcie at hff
  subst hff
  beta_reduce
  (repeat' split) <;> simp only [apply_ite State.fix, ite_self, countSent_fix, freeEntry_fix, bump_fix, turnOffAck_fix, handOver_fix, emit_fix,
    updFwd_fix, scionCpl_fix]
theorem toPort_fix (s : State) (p : Nat) (e : QEntry) : (toPort s p e).fix = s.fix := by
  simp only [toPort, apply_ite State.fix, ite_self, updFwd_fix, sendPcie_fix]
theorem deliverCheck_fix (s : State) (e : QEntry) : (deliverCheck s e).2.fix = s.fix := by
  generalize hff : @deliverCheck = ff
  delta deliverCheck at hff
  subst hff
  beta_reduce
  (try simp only [fix_mk, fix_fold, fuses_mk, fuses_fold, resFix_next, apply_ite State.fix, apply_ite resFix, ite_self, foldl_fix, implies_true,
    hedgeDeliver_fix, completeTo_fix, freeEntry_fix])
  (repeat' split) <;> simp only [fix_mk, fix_fold, fuses_mk, fuses_fold, resFix_next, apply_ite State.fix, apply_ite resFix, ite_self, foldl_fix,
    implies_true, hedgeDeliver_fix, completeTo_fix, freeEntry_fix]
theorem stompCopy_fix (s : State) (p : Nat) (e : QEntry) : (stompCopy s p e).fix = s.fix := by
  simp only [stompCopy, count_fix, bump_fix, toPort_fix, sampleFrame_fix]
theorem markCm_fix (s : State) (p t depth : Nat) (e : QEntry) : (markCm s p t depth e).2.fix = s.fix := by
  generalize hff : @markCm = ff
  delta markCm at hff
  subst hff
  beta_reduce
  split <;> simp only [bump_fix]
theorem popQueue_fix (s : State) (p t : Nat) (e : QEntry) : (popQueue s p t e).fix = s.fix := by
  simp only [popQueue, updFwd_fix, wrF_fix]
theorem execEgressFrameBoundary_fix (p : Nat) (flip : BitVec 268) (addrFlip : BitVec 20) (wordIdx parity : Nat) (fc : BitVec 3) (s : State) : resFix (execEgressFrameBoundary p flip addrFlip wordIdx parity fc s) = some s.fix := by
  generalize hff : @execEgressFrameBoundary = ff
  delta execEgressFrameBoundary at hff
  subst hff
  beta_reduce
  (repeat' split) <;> simp only [resFix_next, apply_ite resFix, ite_self, shaperPay_fix, popQueue_fix, bufRead_fix, headerDiscard_fix,
    deliverCheck_fix, markCm_fix, stompCopy_fix, count_fix, bump_fix, toPort_fix, sampleFrame_fix]
theorem cutLeaves_fix (s : State) (q : Nat) (e : QEntry) (flip : BitVec 268) (addrFlip : BitVec 20) (wordIdx parity : Nat) (late : Bool) : (cutLeaves s q e flip addrFlip wordIdx parity late).fix = s.fix := by
  simp only [cutLeaves, apply_ite State.fix, ite_self, bufRead_fix, headerDiscard_fix, stompCopy_fix, deliverCheck_fix, count_fix, bump_fix,
    toPort_fix, sampleFrame_fix]
theorem execIngressVerdict_fix (p : Nat) (good : Bool) (flip : BitVec 268) (addrFlip : BitVec 20) (wordIdx parity : Nat) (late : Bool) (s : State) : resFix (execIngressVerdict p good flip addrFlip wordIdx parity late s) = some s.fix := by
  generalize hff : @execIngressVerdict = ff
  delta execIngressVerdict at hff
  subst hff
  beta_reduce
  (try simp only [fix_mk, fix_fold, fuses_mk, fuses_fold, resFix_next, apply_ite State.fix, apply_ite resFix, ite_self, foldl_fix, implies_true,
    updFwd_fix, countIn_fix, cutLeaves_fix, sampleFrame_fix, count_fix, bump_fix, hedgeDrop_fix, toPort_fix])
  (repeat' split) <;> simp only [fix_mk, fix_fold, fuses_mk, fuses_fold, resFix_next, apply_ite State.fix, apply_ite resFix, ite_self, foldl_fix,
    implies_true, updFwd_fix, countIn_fix, cutLeaves_fix, sampleFrame_fix, count_fix, bump_fix, hedgeDrop_fix, toPort_fix]
theorem npIssue_fix (s : State) (p : Nat) (r : NpReq) : (npIssue s p r).fix = s.fix := by
  generalize hff : @npIssue = ff
  delta npIssue at hff
  subst hff
  beta_reduce
  split <;> simp only [fix_mk, fix_fold, updFwd_fix, emit_fix]
theorem execNonpostedIssue_fix (p : Nat) (reqId : BitVec 16) (tag : BitVec 10) (srcSw : BitVec 12) (srcPort : BitVec 7) (s : State) : resFix (execNonpostedIssue p reqId tag srcSw srcPort s) = some s.fix := by
  generalize hff : @execNonpostedIssue = ff
  delta execNonpostedIssue at hff
  subst hff
  beta_reduce
  have hn : ∀ o : Option NpReq, ((o.map (npIssue s p)).getD s).fix = s.fix := fun o => by
    cases o
    · rfl
    · exact npIssue_fix _ _ _
  (repeat' split) <;> simp only [hn, fix_mk, fix_fold, fuses_mk, fuses_fold, resFix_next, apply_ite State.fix, apply_ite resFix, ite_self, foldl_fix,
    implies_true, emit_fix, updFwd_fix, freeEntry_fix]
theorem mapComplete_fix (s : State) (p : Nat) (c : CmapEntry) (tcl : Nat) (t1 : BitVec 64) (ep : Bool) (data : List Word) : (mapComplete s p c tcl t1 ep data).fix = s.fix := by
  simp only [mapComplete, takeArrival_fix, sampleFrame_fix]
theorem deviceCpl_fix (p : Nat) (x : CplIn) (s : State) : resFix (deviceCpl p x s) = some s.fix := by
  generalize hff : @deviceCpl = ff
  delta deviceCpl at hff
  subst hff
  beta_reduce
  split <;> simp only [resFix_next, apply_ite State.fix, apply_ite resFix, ite_self, bump_fix, updFwd_fix, mapComplete_fix]
theorem execDeviceCompletionReceive_fix (p : Nat) (c : CplIn) (s : State) : resFix (execDeviceCompletionReceive p c s) = some s.fix := by
  simp only [execDeviceCompletionReceive, deviceCpl_fix, countIn_fix]
theorem execLinkStateReceive_fix (p : Nat) (origin : BitVec 12) (start seq : Word) (adj : List (BitVec 12 × BitVec 7)) (s : State) : resFix (execLinkStateReceive p origin start seq adj s) = some s.fix := by
  simp only [execLinkStateReceive, resFix_next, apply_ite resFix, ite_self, foldl_fix, implies_true, bump_fix, lsStore_fix, lsSend_fix, recompute_fix]
theorem execDiscoveryQuietExpiry_later (s : State) : Later s (resFix (execDiscoveryQuietExpiry s)) := by
  simp only [execDiscoveryQuietExpiry, resFix_next, apply_ite resFix, discDone_fix]
  all_goals (repeat' split)
  all_goals first | exact later_refl s | exact later_to s _
theorem execDiscoveryPartialExpiry_later (s : State) : Later s (resFix (execDiscoveryPartialExpiry s)) := by
  generalize hff : @execDiscoveryPartialExpiry = ff
  delta execDiscoveryPartialExpiry at hff
  subst hff
  beta_reduce
  (repeat' split) <;> (try simp only [resFix_next, discDone_fix, faultU_fix,
    wrB_fix]) <;> (repeat' split) <;> first | exact later_refl s | exact later_to s _
theorem execAdjacencyDownExpiry_later (p : Nat) (s : State) : Later s (resFix (execAdjacencyDownExpiry p s)) := by
  generalize hff : @execAdjacencyDownExpiry = ff
  delta execAdjacencyDownExpiry at hff
  subst hff
  beta_reduce
  (repeat' split) <;> (try simp only [resFix_next, recompute_fix]) <;> (repeat' split) <;> first | exact later_refl s | exact later_to s _
theorem execMeterTokenTick_later (s : State) : Later s (resFix (execMeterTokenTick s)) := by
  simp only [execMeterTokenTick, resFix_next, foldl_fix, implies_true, updQos_fix, meterRetry_fix]
  all_goals (repeat' split)
  all_goals first | exact later_refl s | exact later_tick s _ (by decide)
theorem setShTokens_fix (s : State) (p t : Nat) (v : Int) : (setShTokens s p t v).fix = s.fix := by
  simp only [setShTokens, wrF_fix, updQos_fix]
theorem setShaper_fix (s : State) (p t rate size : Nat) : (setShaper s p t rate size).fix = s.fix := by
  simp only [setShaper, bump_fix, wrF_fix]
theorem applyPending_fix (s : State) (p t : Nat) : (applyPending s p t).fix = s.fix := by
  generalize hff : @applyPending = ff
  delta applyPending at hff
  subst hff
  beta_reduce
  (try simp only [fix_mk, fix_fold, fuses_mk, fuses_fold, resFix_next, apply_ite State.fix, apply_ite resFix, ite_self, foldl_fix, implies_true,
    updQos_fix, setShaper_fix])
  (repeat' split) <;> simp only [fix_mk, fix_fold, fuses_mk, fuses_fold, resFix_next, apply_ite State.fix, apply_ite resFix, ite_self, foldl_fix,
    implies_true, updQos_fix, setShaper_fix]
theorem refillOne_fix (s : State) (p t : Nat) : (refillOne s p t).fix = s.fix := by
  simp only [refillOne, applyPending_fix, setShTokens_fix]
theorem shaperChange_fix (s : State) (p t rate size : Nat) (fill : Bool) : (shaperChange s p t rate size fill).fix = s.fix := by
  simp only [shaperChange, apply_ite State.fix, ite_self, updQos_fix, setShTokens_fix, setShaper_fix]
theorem execShaper_fix (q : ReqSrc) (p t : Nat) (rate : BitVec 21) (size : BitVec 18) (fill : Bool) (s : State) : resFix (execShaper q p t rate size fill s) = some s.fix := by
  simp only [execShaper, resFix_next, apply_ite State.fix, ite_self, implies_true, serve_fix, reply_fix, shaperChange_fix]
theorem setAllow_fix (s : State) (allow : Nat) : (setAllow s allow).fix = s.fix := by
  simp only [setAllow, foldl_fix, implies_true, wrF_fix]
theorem execLedgerSample_fix (s : State) : resFix (execLedgerSample s) = some s.fix := by
  simp only [execLedgerSample, resFix_next, updQos_fix, wrB_fix, wrF_fix, setAllow_fix, landPump_fix]
theorem execAdmitReceive_fix (_region originHost : Nat) (openB held deficit : Bool) (block : BitVec 3) (allow : Nat) (s : State) : resFix (execAdmitReceive _region originHost openB held deficit block allow s) = some s.fix := by
  simp only [execAdmitReceive, resFix_next, applyAdmit_fix]
theorem execAdmitHoldoffExpiry_later (region : Nat) (s : State) : Later s (resFix (execAdmitHoldoffExpiry region s)) := by
  simp only [execAdmitHoldoffExpiry, resFix_next, apply_ite resFix, sendAdmit_fix]
  all_goals (repeat' split)
  all_goals first | exact later_refl s | exact later_to s _
theorem execAdmitRepeatExpiry_later (s : State) : Later s (resFix (execAdmitRepeatExpiry s)) := by
  simp only [execAdmitRepeatExpiry, resFix_next, apply_ite State.fix, ite_self, foldl_fix, implies_true, sendAdmit_fix]
  all_goals (repeat' split)
  all_goals first | exact later_refl s | exact later_tick s _ (by decide)

end Sys2Proof.Machine
end

