-- ==== Sys2Proof/Laws/FixNozan.lean ====
section
/-! SUPPORT. Each definition over the state in Nozan, SlotOps, PwrOps, StartOps keeps the queue, the time and the fuses; a row
that ends a stated span of time may move the time on. -/

set_option linter.unusedSimpArgs false

namespace Sys2Proof.Machine

open Sys2Proof

theorem updMember_fix (s : State) (p : Nat) (f : MemberSt → MemberSt) : (updMember s p f).fix = s.fix := by
  simp only [updMember, fix_mk, fix_fold]
theorem updPair_fix (s : State) (p : Nat) (f : PairSt → PairSt) : (updPair s p f).fix = s.fix := by
  simp only [updPair, fix_mk, fix_fold]
theorem onPair_fix (s : State) (p : Nat) (f : State → Nat → State) (hf : ∀ s p, (f s p).fix = s.fix) : (onPair s p f).fix = s.fix := by
  simp only [onPair, foldl_fix, implies_true, hf]
theorem setNz_fix (s : State) (p n : Nat) : (setNz s p n).fix = s.fix := by
  simp only [setNz, wrB_fix, wrF_fix]
theorem setStep_fix (s : State) (p n : Nat) : (setStep s p n).fix = s.fix := by
  simp only [setStep, wrF_fix]
theorem noteNz_fix (s : State) (p : Nat) : (noteNz s p).fix = s.fix := by
  simp only [noteNz, implies_true, onPair_fix, wrF_fix, wrN_fix]
theorem sendNak_fix (s : State) (p : Nat) : (sendNak s p).fix = s.fix := by
  simp only [sendNak, sendLcf_fix, bump_fix, updMember_fix]
theorem nakFirst_fix (s : State) (p : Nat) : (nakFirst s p).fix = s.fix := by
  simp only [nakFirst, apply_ite State.fix, ite_self, sendNak_fix]
theorem holdSpace_fix (s : State) (p : Nat) (f : Frame) : (holdSpace s p f).fix = s.fix := by
  simp only [holdSpace, updPair_fix]
theorem passTurn_fix (s : State) (p : Nat) (x : Early) : (passTurn s p x).fix = s.fix := by
  simp only [passTurn, apply_ite State.fix, ite_self, count_fix, bump_fix, updPair_fix, returnCredits_fix, faultP_fix, passFrame_fix]
theorem accepted_fix (s : State) (p : Nat) : (accepted s p).fix = s.fix := by
  simp only [accepted, updPair_fix]
theorem acceptedLcf_fix (s : State) (p : Nat) : (acceptedLcf s p).fix = s.fix := by
  simp only [acceptedLcf, apply_ite State.fix, ite_self, sendLcf_fix]
theorem passNext_fix (s : State) (p : Nat) (x : Early) : (passNext s p x).fix = s.fix := by
  simp only [passNext, foldl_fix, implies_true, onPair_fix, wrF_fix, updPair_fix, passTurn_fix]
theorem linkGood_fix (s : State) (p : Nat) (hdr : List Word) (f : Frame) (stomped : Bool) : (linkGood s p hdr f stomped).fix = s.fix := by
  simp only [linkGood, apply_ite State.fix, ite_self, updMember_fix, countIn_fix, noteNz_fix, acceptedLcf_fix, passNext_fix, accepted_fix,
    holdSpace_fix, updPair_fix, bump_fix]
theorem takeFrame_fix (s : State) (p : Nat) (w : WireFrame) : (takeFrame s p w).fix = s.fix := by
  simp only [takeFrame, apply_ite State.fix, ite_self, updPair_fix, nakFirst_fix, faultP_fix, count_fix, bump_fix, linkGood_fix]
theorem execDataFrameReceive_fix (p : Nat) (g : LaneGroups) (s : State) : resFix (execDataFrameReceive p g s) = some s.fix := by
  generalize hff : @execDataFrameReceive = ff
  delta execDataFrameReceive at hff
  subst hff
  beta_reduce
  (try simp only [fix_mk, fix_fold, fuses_mk, fuses_fold, resFix_next, apply_ite State.fix, apply_ite resFix, ite_self, foldl_fix, implies_true,
    receiveGroups_fix, takeFrame_fix])
  (repeat' split) <;> simp only [fix_mk, fix_fold, fuses_mk, fuses_fold, resFix_next, apply_ite State.fix, apply_ite resFix, ite_self, foldl_fix,
    implies_true, receiveGroups_fix, takeFrame_fix]
theorem reroute_fix (s : State) (p q : Nat) : (reroute s p q).fix = s.fix := by
  simp only [reroute, updPair_fix, bump_fix]
theorem memberDown_fix (s : State) (p n : Nat) : (memberDown s p n).fix = s.fix := by
  generalize hff : @memberDown = ff
  delta memberDown at hff
  subst hff
  beta_reduce
  (try simp only [fix_mk, fix_fold, fuses_mk, fuses_fold, resFix_next, apply_ite State.fix, apply_ite resFix, ite_self, foldl_fix, implies_true,
    bump_fix, count_fix, faultP_fix, setNz_fix, wrF_fix, updMember_fix, adjDownAt_fix, reroute_fix, updPair_fix])
  (repeat' split) <;> simp only [fix_mk, fix_fold, fuses_mk, fuses_fold, resFix_next, apply_ite State.fix, apply_ite resFix, ite_self, foldl_fix,
    implies_true, bump_fix, count_fix, faultP_fix, setNz_fix, wrF_fix, updMember_fix, adjDownAt_fix, reroute_fix, updPair_fix]
theorem replay_fix (s : State) (p : Nat) : (replay s p).fix = s.fix := by
  generalize hff : @replay = ff
  delta replay at hff
  subst hff
  beta_reduce
  split <;> simp only [apply_ite State.fix, ite_self, memberDown_fix, updMember_fix, updPair_fix, count_fix, bump_fix]
theorem takeLimit_fix (s : State) (p vc new : Nat) : (takeLimit s p vc new).fix = s.fix := by
  simp only [takeLimit, apply_ite State.fix, ite_self, implies_true, updPair_fix, onPair_fix, wrF_fix]
theorem takeAck_fix (s : State) (p ack : Nat) : (takeAck s p ack).fix = s.fix := by
  simp only [takeAck, implies_true, onPair_fix, wrF_fix, noteNz_fix, updPair_fix]
theorem resendKept_fix (s : State) (p : Nat) : (resendKept s p).fix = s.fix := by
  simp only [resendKept, apply_ite State.fix, ite_self, updPair_fix]
theorem takeLcf_fix (s : State) (p : Nat) (hdr : List Word) : (takeLcf s p hdr).fix = s.fix := by
  generalize hff : @takeLcf = ff
  delta takeLcf at hff
  subst hff
  beta_reduce
  (try simp only [fix_mk, fix_fold, fuses_mk, fuses_fold, resFix_next, apply_ite State.fix, apply_ite resFix, ite_self, foldl_fix, implies_true,
    takeLimit_fix, resendKept_fix, takeAck_fix, replay_fix, bump_fix])
  (repeat' split) <;> simp only [fix_mk, fix_fold, fuses_mk, fuses_fold, resFix_next, apply_ite State.fix, apply_ite resFix, ite_self, foldl_fix,
    implies_true, takeLimit_fix, resendKept_fix, takeAck_fix, replay_fix, bump_fix]
theorem execLcfReceive_fix (p : Nat) (g : LaneGroups) (s : State) : resFix (execLcfReceive p g s) = some s.fix := by
  generalize hff : @execLcfReceive = ff
  delta execLcfReceive at hff
  subst hff
  beta_reduce
  (try simp only [fix_mk, fix_fold, fuses_mk, fuses_fold, resFix_next, apply_ite State.fix, apply_ite resFix, ite_self, foldl_fix, implies_true,
    receiveGroups_fix, bump_fix, takeLcf_fix])
  (repeat' split) <;> simp only [fix_mk, fix_fold, fuses_mk, fuses_fold, resFix_next, apply_ite State.fix, apply_ite resFix, ite_self, foldl_fix,
    implies_true, receiveGroups_fix, bump_fix, takeLcf_fix]
theorem execLcfAckDelayExpiry_fix (p : Nat) (s : State) : resFix (execLcfAckDelayExpiry p s) = some s.fix := by
  simp only [execLcfAckDelayExpiry, resFix_next, apply_ite State.fix, ite_self, sendLcf_fix]
theorem execLcfPeriodExpiry_fix (p : Nat) (s : State) : resFix (execLcfPeriodExpiry p s) = some s.fix := by
  simp only [execLcfPeriodExpiry, resFix_next, apply_ite State.fix, ite_self, sendLcf_fix]
theorem execNakRepeatExpiry_fix (p : Nat) (s : State) : resFix (execNakRepeatExpiry p s) = some s.fix := by
  simp only [execNakRepeatExpiry, resFix_next, apply_ite State.fix, ite_self, sendNak_fix]
theorem execReplayTimerExpiry_fix (p : Nat) (s : State) : resFix (execReplayTimerExpiry p s) = some s.fix := by
  simp only [execReplayTimerExpiry, resFix_next, replay_fix]
theorem payCredits_fix (s : State) (p : Nat) (f : Frame) : (payCredits s p f).fix = s.fix := by
  simp only [payCredits, implies_true, onPair_fix, wrF_fix]
theorem stampFrame_fix (s : State) (p : Nat) (f : Frame) : (stampFrame s p f).2.fix = s.fix := by
  simp only [stampFrame, updMember_fix]
theorem putHeld_fix (s : State) (p : Nat) (h : Held) : (putHeld s p h).fix = s.fix := by
  simp only [putHeld, updPair_fix]
theorem sendHeld_fix (s : State) (p : Nat) (h : Held) : (sendHeld s p h).fix = s.fix := by
  generalize hff : @sendHeld = ff
  delta sendHeld at hff
  subst hff
  beta_reduce
  (repeat' split) <;> simp only [filSend_fix, payCredits_fix, stampFrame_fix, putHeld_fix, frameSend_fix]
theorem sendFrame_fix (s : State) (p : Nat) (e : QEntry) : (sendFrame s p e).fix = s.fix := by
  simp only [sendFrame, apply_ite State.fix, ite_self, implies_true, updFwd_fix, payCredits_fix, stampFrame_fix, onPair_fix, wrF_fix, updPair_fix,
    countSent_fix, count_fix, freeEntry_fix, frameSend_fix, noteNz_fix]
theorem wakeSend_fix (s : State) (p : Nat) : (wakeSend s p).fix = s.fix := by
  simp only [wakeSend, kSetSend_fix]
theorem execDataFrameTransmit_fix (p : Nat) (s : State) : resFix (execDataFrameTransmit p s) = some s.fix := by
  generalize hff : @execDataFrameTransmit = ff
  delta execDataFrameTransmit at hff
  subst hff
  beta_reduce
  (repeat' split) <;> simp only [resFix_next, wakeSend_fix, sendHeld_fix, filSend_fix, sendFrame_fix]
theorem execLaneLockLossTimeout_fix (lane : Nat) (s : State) : resFix (execLaneLockLossTimeout lane s) = some s.fix := by
  simp only [execLaneLockLossTimeout, resFix_next, apply_ite resFix, ite_self, memberDown_fix]
theorem beginTraining_fix (s : State) (p : Nat) : (beginTraining s p).fix = s.fix := by
  simp only [beginTraining, apply_ite State.fix, ite_self, foldl_fix, implies_true, updMember_fix, setNz_fix, wrB_fix, setStep_fix, wrF_fix,
    startLanes_fix, filSend_fix, alnSend_fix]
theorem execDownIdleExpiry_later (p : Nat) (s : State) : Later s (resFix (execDownIdleExpiry p s)) := by
  simp only [execDownIdleExpiry, resFix_next, apply_ite resFix, waitOut, beginTraining_fix]
  all_goals (repeat' split)
  all_goals first | exact later_refl s | exact later_to s _
theorem discardSeq_fix (s : State) (p : Nat) (session : BitVec 16) : (discardSeq s p session).fix = s.fix := by
  generalize hff : @discardSeq = ff
  delta discardSeq at hff
  subst hff
  beta_reduce
  (repeat' (first | split | refine foldl_fix_to _ _ _ _ (fun _ _ => ?_) ?_)) <;> simp only [foldl_fix, implies_true, updPair_fix, returnCredits_fix,
    onPair_fix, wrN_fix, noteNz_fix, faultP_fix, bump_fix, freshBits_fix, wrF_fix, lossOf_fix]
theorem execSequenceHoldExpiry_later (p : Nat) (session : BitVec 16) (s : State) : Later s (resFix (execSequenceHoldExpiry p session s)) := by
  simp only [execSequenceHoldExpiry, resFix_next, apply_ite State.fix, apply_ite resFix, ite_self, discardSeq_fix, sealPump_fix, updLand_fix]
  all_goals (repeat' split)
  all_goals first | exact later_refl s | exact later_to s _
theorem execSignalPresent_fix (p : Nat) (s : State) : resFix (execSignalPresent p s) = some s.fix := by
  simp only [execSignalPresent, resFix_next, apply_ite resFix, ite_self, updMember_fix, beginTraining_fix]
theorem noteSkew_fix (s : State) (p skew : Nat) : (noteSkew s p skew).fix = s.fix := by
  generalize hff : @noteSkew = ff
  delta noteSkew at hff
  subst hff
  beta_reduce
  split <;> simp only [apply_ite State.fix, ite_self, wrB_fix]
theorem trainFail_fix (s : State) (p : Nat) : (trainFail s p).fix = s.fix := by
  simp only [trainFail, foldl_fix, implies_true, bump_fix, setNz_fix, wrF_fix, updMember_fix]
theorem askPreset_fix (s : State) (p n : Nat) : (askPreset s p n).fix = s.fix := by
  simp only [askPreset, lcsSend_fix, updMember_fix]
theorem enterStep_fix (s : State) (p n : Nat) : (enterStep s p n).fix = s.fix := by
  simp only [enterStep, apply_ite State.fix, ite_self, setStep_fix, laneSetsSend_fix, lcsSend_fix, askPreset_fix]
theorem movePair_fix (s : State) (p q : Nat) : (movePair s p q).fix = s.fix := by
  simp only [movePair, fix_mk, fix_fold, foldl_fix, implies_true, updFwd_fix, updLand_fix, wrF_fix, wrB_fix]
theorem leavePair_fix (s : State) (p q : Nat) : (leavePair s p q).fix = s.fix := by
  simp only [leavePair, fix_mk, fix_fold, apply_ite State.fix, ite_self, movePair_fix, updMember_fix, wrN_fix, faultP_fix, noteNz_fix]
theorem openCredits_fix (s : State) (p : Nat) : (openCredits s p).fix = s.fix := by
  simp only [openCredits, foldl_fix, implies_true, updPair_fix, onPair_fix, wrF_fix]
theorem catchUp_fix (s : State) (k : Nat) : (catchUp s k).fix = s.fix := by
  simp only [catchUp, apply_ite State.fix, ite_self, updLand_fix, putMarker_fix, sealPump_fix, updFwd_fix]
theorem linkUp_fix (s : State) (p : Nat) (session : BitVec 16) : (linkUp s p session).fix = s.fix := by
  generalize hff : @linkUp = ff
  delta linkUp at hff
  subst hff
  beta_reduce
  split <;> simp only [apply_ite State.fix, ite_self, foldl_fix, implies_true, leavePair_fix, discardSeq_fix, wrF_fix, wrB_fix, setStep_fix,
    setNz_fix, updMember_fix, openCredits_fix, updPair_fix, adjUp_fix, sendLcf_fix, catchUp_fix]
theorem execTrainingStepDone_fix (p : Nat) (lanesUp inverted : List Nat) (skew : Nat) (s : State) : resFix (execTrainingStepDone p lanesUp inverted skew s) = some s.fix := by
  generalize hff : @execTrainingStepDone = ff
  delta execTrainingStepDone at hff
  subst hff
  beta_reduce
  (try simp only [fix_mk, fix_fold, fuses_mk, fuses_fold, resFix_next, apply_ite State.fix, apply_ite resFix, ite_self, foldl_fix, implies_true,
    enterStep_fix, wrB_fix, noteSkew_fix, trainFail_fix, wrF_fix, updMember_fix, wrN_fix, freshBits_fix, linkUp_fix])
  (repeat' split) <;> simp only [fix_mk, fix_fold, fuses_mk, fuses_fold, resFix_next, apply_ite State.fix, apply_ite resFix, ite_self, foldl_fix,
    implies_true, enterStep_fix, wrB_fix, noteSkew_fix, trainFail_fix, wrF_fix, updMember_fix, wrN_fix, freshBits_fix, linkUp_fix]
theorem execTrainingStepTimeout_fix (p skew : Nat) (s : State) : resFix (execTrainingStepTimeout p skew s) = some s.fix := by
  simp only [execTrainingStepTimeout, resFix_next, apply_ite resFix, ite_self, trainFail_fix, noteSkew_fix]
theorem execTrainingRetryExpiry_later (p : Nat) (s : State) : Later s (resFix (execTrainingRetryExpiry p s)) := by
  simp only [execTrainingRetryExpiry, resFix_next, apply_ite resFix, waitOut, beginTraining_fix]
  all_goals (repeat' split)
  all_goals first | exact later_refl s | exact later_to s _
theorem execLaneSetReceive_fix (p : Nat) (g : LaneGroups) (s : State) : resFix (execLaneSetReceive p g s) = some s.fix := by
  generalize hff : @execLaneSetReceive = ff
  delta execLaneSetReceive at hff
  subst hff
  beta_reduce
  (try simp only [fix_mk, fix_fold, fuses_mk, fuses_fold, resFix_next, apply_ite State.fix, apply_ite resFix, ite_self, foldl_fix, implies_true,
    receiveGroups_fix, trainFail_fix, updMember_fix, wrB_fix])
  (repeat' split) <;> simp only [fix_mk, fix_fold, fuses_mk, fuses_fold, resFix_next, apply_ite State.fix, apply_ite resFix, ite_self, foldl_fix,
    implies_true, receiveGroups_fix, trainFail_fix, updMember_fix, wrB_fix]
theorem sameSet_fix (s : State) (p : Nat) (g : LaneGroups) (code : Nat) (f : State → Nat → Nat → State) (hf : ∀ s a b, (f s a b).fix =
    s.fix) : resFix (sameSet s p g code f) = some s.fix := by
  generalize hff : @sameSet = ff
  delta sameSet at hff
  subst hff
  beta_reduce
  (try simp only [fix_mk, fix_fold, fuses_mk, fuses_fold, resFix_next, apply_ite State.fix, apply_ite resFix, ite_self, foldl_fix, implies_true, hf,
    receiveGroups_fix, bump_fix])
  (repeat' split) <;> simp only [fix_mk, fix_fold, fuses_mk, fuses_fold, resFix_next, apply_ite State.fix, apply_ite resFix, ite_self, foldl_fix,
    implies_true, hf, receiveGroups_fix, bump_fix]
theorem execPeerSwReceive_fix (p : Nat) (g : LaneGroups) (s : State) : resFix (execPeerSwReceive p g s) = some s.fix := by
  simp only [execPeerSwReceive, implies_true, sameSet_fix, updMember_fix]
theorem execPeerPortReceive_fix (p : Nat) (g : LaneGroups) (s : State) : resFix (execPeerPortReceive p g s) = some s.fix := by
  simp only [execPeerPortReceive, implies_true, sameSet_fix, updMember_fix]
theorem execSessionReceive_fix (p : Nat) (g : LaneGroups) (s : State) : resFix (execSessionReceive p g s) = some s.fix := by
  simp only [execSessionReceive, implies_true, sameSet_fix, updMember_fix]
theorem execPresetReqReceive_fix (p : Nat) (g : LaneGroups) (s : State) : resFix (execPresetReqReceive p g s) = some s.fix := by
  simp only [execPresetReqReceive, apply_ite State.fix, ite_self, foldl_fix, implies_true, sameSet_fix, wr_fix, lcsSend_fix, updMember_fix]
theorem tapsDone_fix (s : State) (p : Nat) : (tapsDone s p).fix = s.fix := by
  simp only [tapsDone, fix_mk, fix_fold, updMember_fix]
theorem execPresetAckReceive_fix (p : Nat) (g : LaneGroups) (s : State) : resFix (execPresetAckReceive p g s) = some s.fix := by
  simp only [execPresetAckReceive, apply_ite State.fix, ite_self, implies_true, sameSet_fix, tapsDone_fix]
theorem adaptLanes_fix (s : State) (p : Nat) : (adaptLanes s p).fix = s.fix := by
  simp only [adaptLanes, foldl_fix, implies_true, freshBits_fix, wrN_fix]
theorem execPresetAdaptExpiry_fix (p eye : Nat) (s : State) : resFix (execPresetAdaptExpiry p eye s) = some s.fix := by
  simp only [execPresetAdaptExpiry, resFix_next, apply_ite resFix, ite_self, updMember_fix, adaptLanes_fix, askPreset_fix]
theorem execReadyReceive_fix (p : Nat) (g : LaneGroups) (newSession : BitVec 16) (s : State) : resFix (execReadyReceive p g newSession s) = some s.fix := by
  simp only [execReadyReceive, apply_ite State.fix, ite_self, implies_true, sameSet_fix, updMember_fix, linkUp_fix]
theorem lrsSend_fix (s : State) (p : Nat) (t : Nat × Nat) (ack : Bool) (n : Nat) : (lrsSend s p t ack n).fix = s.fix := by
  simp only [lrsSend, sendSets_fix]
theorem resetStop_fix (s : State) (p : Nat) : (resetStop s p).fix = s.fix := by
  simp only [resetStop, memberDown_fix, updMember_fix]
theorem resetBegin_fix (s : State) (p : Nat) (t : Nat × Nat) (mgrAsked : Bool) : (resetBegin s p t mgrAsked).fix = s.fix := by
  simp only [resetBegin, resetStop_fix, updMember_fix, lrsSend_fix]
theorem execNzlResetGo_fix (p : Nat) (v : Word) (s : State) : resFix (execNzlResetGo p v s) = some s.fix := by
  simp only [execNzlResetGo, resFix_next, apply_ite resFix, ite_self, wrF_fix, resetBegin_fix]
theorem execBringupResetBegin_fix (p : Nat) (s : State) : resFix (execBringupResetBegin p s) = some s.fix := by
  simp only [execBringupResetBegin, resFix_next, apply_ite resFix, ite_self, resetBegin_fix]
theorem execBringupMemberDownExpiry_later (p : Nat) (s : State) : Later s (resFix (execBringupMemberDownExpiry p s)) := by
  generalize hff : @execBringupMemberDownExpiry = ff
  delta execBringupMemberDownExpiry at hff
  subst hff
  beta_reduce
  (repeat' split) <;> (try simp only [resFix_next, resetBegin_fix]) <;> (repeat' split) <;> first | exact later_refl s | exact later_to s _
theorem resetAgree_fix (s : State) (p : Nat) (t : Nat × Nat) : (resetAgree s p t).fix = s.fix := by
  simp only [resetAgree, updMember_fix, beginTraining_fix, lrsSend_fix]
theorem takeLrs_fix (s : State) (p d1 d2 : Nat) : (takeLrs s p d1 d2).fix = s.fix := by
  simp only [takeLrs, apply_ite State.fix, ite_self, updMember_fix, resetStop_fix, resetAgree_fix, lrsSend_fix]
theorem execLrsReceive_fix (p : Nat) (g : LaneGroups) (s : State) : resFix (execLrsReceive p g s) = some s.fix := by
  generalize hff : @execLrsReceive = ff
  delta execLrsReceive at hff
  subst hff
  beta_reduce
  (try simp only [fix_mk, fix_fold, fuses_mk, fuses_fold, resFix_next, apply_ite State.fix, apply_ite resFix, ite_self, foldl_fix, implies_true,
    receiveGroups_fix, takeLrs_fix])
  (repeat' split) <;> simp only [fix_mk, fix_fold, fuses_mk, fuses_fold, resFix_next, apply_ite State.fix, apply_ite resFix, ite_self, foldl_fix,
    implies_true, receiveGroups_fix, takeLrs_fix]
theorem execLrsAckTimeout_fix (p : Nat) (s : State) : resFix (execLrsAckTimeout p s) = some s.fix := by
  generalize hff : @execLrsAckTimeout = ff
  delta execLrsAckTimeout at hff
  subst hff
  beta_reduce
  (try simp only [fix_mk, fix_fold, fuses_mk, fuses_fold, resFix_next, apply_ite State.fix, apply_ite resFix, ite_self, foldl_fix, implies_true,
    wrF_fix, beginTraining_fix, updMember_fix])
  (repeat' split) <;> simp only [fix_mk, fix_fold, fuses_mk, fuses_fold, resFix_next, apply_ite State.fix, apply_ite resFix, ite_self, foldl_fix,
    implies_true, wrF_fix, beginTraining_fix, updMember_fix]
theorem sleepRequest_fix (s : State) (p : Nat) : (sleepRequest s p).fix = s.fix := by
  simp only [sleepRequest, apply_ite State.fix, ite_self, lcsSend_fix, updMember_fix]
theorem execSleepReqReceive_fix (p : Nat) (g : LaneGroups) (s : State) : resFix (execSleepReqReceive p g s) = some s.fix := by
  simp only [execSleepReqReceive, apply_ite State.fix, ite_self, implies_true, sameSet_fix, updMember_fix, setNz_fix, lcsSend_fix]
theorem execWakeReceive_fix (p : Nat) (s : State) : resFix (execWakeReceive p s) = some s.fix := by
  simp only [execWakeReceive, resFix_next, apply_ite resFix, ite_self, beginTraining_fix, updMember_fix]
theorem execWakeSendEnd_fix (p : Nat) (s : State) : resFix (execWakeSendEnd p s) = some s.fix := by
  simp only [execWakeSendEnd, resFix_next, apply_ite resFix, ite_self, updMember_fix, setNz_fix]
theorem updChan_fix (s : State) (c : Nat) (f : ChanSt → ChanSt) : (updChan s c f).fix = s.fix := by
  simp only [updChan, fix_mk, fix_fold]
theorem updBank_fix (s : State) (f : BankSt → BankSt) : (updBank s f).fix = s.fix := by
  simp only [updBank, fix_mk, fix_fold]
theorem updVdsp_fix (s : State) (k : Nat) (f : VdspSt → VdspSt) : (updVdsp s k f).fix = s.fix := by
  simp only [updVdsp, fix_mk, fix_fold, apply_ite State.fix, ite_self, mefPme_fix]
theorem wakeSeen_fix (s : State) (code n : Nat) : (wakeSeen s code n).fix = s.fix := by
  simp only [wakeSeen, fix_mk, fix_fold, apply_ite State.fix, ite_self]
theorem setChState_fix (s : State) (c n : Nat) : (setChState s c n).fix = s.fix := by
  simp only [setChState, wrF_fix]
theorem slotNote_fix (s : State) (c : Nat) (f : VdspSt → VdspSt) : (slotNote s c f).fix = s.fix := by
  generalize hff : @slotNote = ff
  delta slotNote at hff
  subst hff
  beta_reduce
  split <;> simp only [updVdsp_fix]
theorem setPerst_fix (s : State) (c : Nat) (low : Bool) : (setPerst s c low).fix = s.fix := by
  simp only [setPerst, emit_fix, wrB_fix]
theorem setGate_fix (s : State) (c : Nat) (on : Bool) : (setGate s c on).fix = s.fix := by
  simp only [setGate, apply_ite State.fix, ite_self, emit_fix, updChan_fix]
theorem setWarn_fix (s : State) (c : Nat) (low : Bool) : (setWarn s c low).fix = s.fix := by
  simp only [setWarn, apply_ite State.fix, ite_self, emit_fix, wrB_fix]
theorem noteSlots_fix (s : State) : (noteSlots s).fix = s.fix := by
  simp only [noteSlots, wrN_fix]
theorem chClear_fix (s : State) (c : Nat) : (chClear s c).fix = s.fix := by
  simp only [chClear, wrB_fix, wrF_fix, updChan_fix]
theorem noteHeld_fix (s : State) (c : Nat) : (noteHeld s c).fix = s.fix := by
  simp only [noteHeld, wrB_fix]
theorem cmdDone_fix (s : State) (c : Nat) : (cmdDone s c).fix = s.fix := by
  simp only [cmdDone, foldl_fix, implies_true, updChan_fix, updVdsp_fix]
theorem rampStart_fix (s : State) (c : Nat) : (rampStart s c).fix = s.fix := by
  simp only [rampStart, updChan_fix, setGate_fix, setChState_fix]
theorem turnOn_fix (s : State) (c : Nat) : (turnOn s c).fix = s.fix := by
  simp only [turnOn, apply_ite State.fix, ite_self, updChan_fix, setChState_fix, rampStart_fix]
theorem tryTurnOn_fix (s : State) (c : Nat) : (tryTurnOn s c).fix = s.fix := by
  simp only [tryTurnOn, apply_ite State.fix, ite_self, foldl_fix, implies_true, turnOn_fix, setPerst_fix, updChan_fix, noteHeld_fix, cmdDone_fix]
theorem retryTurnOn_fix (s : State) : (retryTurnOn s).fix = s.fix := by
  simp only [retryTurnOn, apply_ite State.fix, ite_self, foldl_fix, implies_true, tryTurnOn_fix, noteHeld_fix, cmdDone_fix]
theorem turnOff_fix (s : State) (c : Nat) : (turnOff s c).fix = s.fix := by
  simp only [turnOff, apply_ite State.fix, ite_self, foldl_fix, implies_true, setPerst_fix, updChan_fix, chClear_fix, setChState_fix, noteSlots_fix,
    cmdDone_fix, noteHeld_fix]
theorem chCut_fix (s : State) (c n : Nat) : (chCut s c n).fix = s.fix := by
  simp only [chCut, updChan_fix, chClear_fix, setPerst_fix, setGate_fix, setChState_fix]
theorem chCause_fix (s : State) (c cause : Nat) : (chCause s c cause).fix = s.fix := by
  simp only [chCause, wrN_fix]
theorem tripOne_fix (s : State) (c cause : Nat) : (tripOne s c cause).fix = s.fix := by
  simp only [tripOne, apply_ite State.fix, ite_self, chCut_fix, chCause_fix, wrB_fix, bumpF_fix, updChan_fix, slotNote_fix, faultP_fix]
theorem trip_fix (s : State) (c cause : Nat) : (trip s c cause).fix = s.fix := by
  simp only [trip, apply_ite State.fix, ite_self, foldl_fix, implies_true, tripOne_fix, wakeSeen_fix, noteSlots_fix]
theorem damage_fix (s : State) (c cause : Nat) : (damage s c cause).fix = s.fix := by
  simp only [damage, chCause_fix, chCut_fix, noteSlots_fix, faultP_fix]
theorem takeEntry_fix (s : State) (c : Nat) (v : Word) : (takeEntry s c v).fix = s.fix := by
  simp only [takeEntry, apply_ite State.fix, ite_self, wr_fix, noteSlots_fix, faultP_fix, chCause_fix, setChState_fix]
theorem applyCfg_fix (s : State) (c : Nat) : (applyCfg s c).fix = s.fix := by
  generalize hff : @applyCfg = ff
  delta applyCfg at hff
  subst hff
  beta_reduce
  split <;> simp only [apply_ite State.fix, ite_self, takeEntry_fix, updChan_fix]
theorem clearLatch_fix (s : State) (c : Nat) : (clearLatch s c).fix = s.fix := by
  simp only [clearLatch, apply_ite State.fix, ite_self, foldl_fix, implies_true, setChState_fix, noteSlots_fix]
theorem noteCharger_fix (s : State) : (noteCharger s).fix = s.fix := by
  simp only [noteCharger, apply_ite State.fix, ite_self, wrB_fix, emit_fix]
theorem noteBank_fix (s : State) : (noteBank s).fix = s.fix := by
  simp only [noteBank, apply_ite State.fix, ite_self, wrB_fix, emit_fix, noteCharger_fix]
theorem bankEvent_fix (s : State) (code : Nat) : (bankEvent s code).fix = s.fix := by
  simp only [bankEvent, wrF_fix, bump_fix, wakeSeen_fix, noteBank_fix, faultU_fix]
theorem setDischarge_fix (s : State) (on : Bool) : (setDischarge s on).fix = s.fix := by
  simp only [setDischarge, apply_ite State.fix, ite_self, emit_fix, wrB_fix]
theorem updRails_fix (s : State) (f : RailSt → RailSt) : (updRails s f).fix = s.fix := by
  simp only [updRails, fix_mk, fix_fold]
theorem pmbusGo_fix (s : State) : (pmbusGo s).fix = s.fix := by
  generalize hff : @pmbusGo = ff
  delta pmbusGo at hff
  subst hff
  beta_reduce
  split <;> simp only [emit_fix, updRails_fix]
theorem pmbusAsk_fix (s : State) (cs : List (Nat × Nat)) : (pmbusAsk s cs).fix = s.fix := by
  simp only [pmbusAsk, pmbusGo_fix, updRails_fix]
theorem railsUp_fix (s : State) : (railsUp s).fix = s.fix := by
  simp only [railsUp, pmbusAsk_fix, updRails_fix]
theorem railsCut_fix (s : State) : (railsCut s).fix = s.fix := by
  simp only [railsCut, foldl_fix, implies_true, updRails_fix, emit_fix, wrB_fix, wrF_fix]
theorem updPwr_fix (s : State) (f : PwrSt → PwrSt) : (updPwr s f).fix = s.fix := by
  simp only [updPwr, fix_mk, fix_fold]
theorem setResult_fix (s : State) (n : Nat) : (setResult s n).fix = s.fix := by
  simp only [setResult, wrF_fix]
theorem powerReply_fix (s : State) (q : Option ReqSrc) (result : Nat) : (powerReply s q result).fix = s.fix := by
  generalize hff : @powerReply = ff
  delta powerReply at hff
  subst hff
  beta_reduce
  split <;> simp only [reply_fix]
theorem releaseCredits_fix (s : State) : (releaseCredits s).fix = s.fix := by
  simp only [releaseCredits, fix_mk, fix_fold, apply_ite State.fix, ite_self, foldl_fix, implies_true, tagAll_fix, returnCredits_fix]
theorem wakePort_fix (s : State) (p : Nat) : (wakePort s p).fix = s.fix := by
  simp only [wakePort, updMember_fix, wakeSend_fix, beginTraining_fix]
theorem wakePorts_fix (s : State) : (wakePorts s).fix = s.fix := by
  simp only [wakePorts, apply_ite State.fix, ite_self, foldl_fix, implies_true, wakePort_fix, updMember_fix, wrB_fix, wrF_fix]
theorem entryOver_fix (s : State) : (entryOver s).fix = s.fix := by
  simp only [entryOver, releaseCredits_fix, updPwr_fix, wrF_fix]
theorem abortEntry_fix (s : State) (result : Nat) : (abortEntry s result).fix = s.fix := by
  simp only [abortEntry, apply_ite State.fix, ite_self, foldl_fix, implies_true, wakePorts_fix, entryOver_fix, railsUp_fix, beginTraining_fix,
    powerReply_fix, setResult_fix]
theorem warmFail_fix (s : State) : (warmFail s).fix = s.fix := by
  simp only [warmFail, fix_mk, fix_fold, fuses_mk, fuses_fold]
theorem flashPut_fix (s : State) (a : Nat) (n : List Byte) : (flashPut s a n).fix = s.fix := by
  induction n generalizing s a with
  | nil => simp only [flashPut, fix_mk, fix_fold, fuses_mk, fuses_fold, resFix_next, apply_ite State.fix, apply_ite resFix, ite_self, foldl_fix,
    implies_true]
  | cons x n ih => simp only [flashPut, ih, fix_mk, fix_fold, fuses_mk, fuses_fold, resFix_next, apply_ite State.fix, apply_ite resFix, ite_self,
    foldl_fix, implies_true]
theorem eraseCopy_fix (s : State) (c : Nat) : (eraseCopy s c).fix = s.fix := by
  simp only [eraseCopy, fix_mk, fix_fold]
theorem tearBytes_fix (s : State) (a : Nat) (n : Nat) : (tearBytes s a n).fix = s.fix := by
  induction n generalizing s a with
  | zero => simp only [tearBytes, fix_mk, fix_fold, fuses_mk, fuses_fold, resFix_next, apply_ite State.fix, apply_ite resFix, ite_self, foldl_fix,
    implies_true, freshBits_fix, flashPut_fix]
  | succ n ih => simp only [tearBytes, ih, fix_mk, fix_fold, fuses_mk, fuses_fold, resFix_next, apply_ite State.fix, apply_ite resFix, ite_self,
    foldl_fix, implies_true, freshBits_fix, flashPut_fix]
theorem tearPage_fix (s : State) : (tearPage s).fix = s.fix := by
  generalize hff : @tearPage = ff
  delta tearPage at hff
  subst hff
  beta_reduce
  split <;> simp only [tearBytes_fix]
theorem stopSeedUpdate_fix (s : State) : (stopSeedUpdate s).fix = s.fix := by
  simp only [stopSeedUpdate, fix_mk, fix_fold, apply_ite State.fix, ite_self, tearPage_fix, wrF_fix]
theorem endSeedUpdate_fix (s : State) : (endSeedUpdate s).fix = s.fix := by
  generalize hff : @endSeedUpdate = ff
  delta endSeedUpdate at hff
  subst hff
  beta_reduce
  split <;> simp only [stopSeedUpdate_fix, reply_fix]
theorem dropAttest_fix (s : State) : (dropAttest s).fix = s.fix := by
  generalize hff : @dropAttest = ff
  delta dropAttest at hff
  subst hff
  beta_reduce
  split
  · rfl
  · have e := freshBits_fix s 1
    simp only [fixBox_eq, State.fix] at e ⊢
    simp only [Fix.mk.injEq] at e ⊢
    exact ⟨e.1, e.2.1, rfl⟩
theorem newStart_fix (s : State) (warm por forced : Bool) (cause : Nat) : (newStart s warm por forced cause).fix = s.fix := by
  simp only [newStart, fix_mk, fix_fold, fuses_mk, fuses_fold, apply_ite State.fix, ite_self, foldl_fix, implies_true, dropAttest_fix,
    stopSeedUpdate_fix, wrF_fix, wrB_fix, wrN_fix, fltStatus_fix, emit_fix, railsUp_fix, setPerst_fix, chCut_fix, noteBank_fix, noteSlots_fix,
      railsCut_fix]
theorem resetNow_fix (s : State) (bit : Nat) (held : Bool) : (resetNow s bit held).fix = s.fix := by
  simp only [resetNow, apply_ite State.fix, ite_self, warmFail_fix, newStart_fix]
theorem retainRecord_fix (s : State) : (retainRecord s).fix = s.fix := by
  simp only [retainRecord, fix_mk, fix_fold, apply_ite State.fix, ite_self]
theorem retention_fix (s : State) (bit : Nat) (held : Bool) (selfRefresh : Nat) : (retention s bit held selfRefresh).fix = s.fix := by
  simp only [retention, fix_mk, fix_fold, apply_ite State.fix, ite_self, stopTests_fix, resetNow_fix, retainRecord_fix]
theorem noteLeft_fix (s : State) (st : Nat) : (noteLeft s st).fix = s.fix := by
  simp only [noteLeft, setResult_fix, wrF_fix]
theorem exitReset_fix (s : State) (bit : Nat) : (exitReset s bit).fix = s.fix := by
  simp only [exitReset, apply_ite State.fix, ite_self, resetNow_fix, retainRecord_fix, updPwr_fix, wrB_fix, noteLeft_fix]
theorem warmCause_fix (s : State) (bit selfRefresh : Nat) : (warmCause s bit selfRefresh).fix = s.fix := by
  simp only [warmCause, fix_mk, fix_fold, fuses_mk, fuses_fold, apply_ite State.fix, ite_self, exitReset_fix, retention_fix]
theorem actHeld_fix (s : State) : (actHeld s).fix = s.fix := by
  generalize hff : @actHeld = ff
  delta actHeld at hff
  subst hff
  beta_reduce
  split <;> simp only [fix_mk, fix_fold, fuses_mk, fuses_fold, freshBits_fix, retention_fix]

end Sys2Proof.Machine
end

