-- ==== Sys2Proof/Laws/FixFlush.lean ====
section
/-! SUPPORT. Each definition over the state in FlushOps, PowerFail keeps the queue, the time and the fuses; a row
that ends a stated span of time may move the time on. -/

set_option linter.unusedSimpArgs false

namespace Sys2Proof.Machine

open Sys2Proof

theorem updPf_fix (s : State) (f : PfailSt → PfailSt) : (updPf s f).fix = s.fix := by
  simp only [updPf, fix_mk, fix_fold]
theorem updTherm_fix (s : State) (f : ThermSt → ThermSt) : (updTherm s f).fix = s.fix := by
  simp only [updTherm, fix_mk, fix_fold]
theorem notePf_fix (s : State) : (notePf s).fix = s.fix := by
  simp only [notePf, wrF_fix]
theorem noteInput_fix (s : State) (mv : Nat) : (noteInput s mv).fix = s.fix := by
  simp only [noteInput, apply_ite State.fix, ite_self, wrF_fix, updPf_fix]
theorem warnAll_fix (s : State) (low : Bool) : (warnAll s low).fix = s.fix := by
  simp only [warnAll, apply_ite State.fix, ite_self, foldl_fix, implies_true, setWarn_fix, wrB_fix]
theorem braceNote_fix (s : State) : (braceNote s).fix = s.fix := by
  simp only [braceNote, foldl_fix, implies_true, noteCharger_fix, noteBank_fix, noteAdmit_fix, noteLedger_fix, noteHeld_fix]
theorem braceStart_fix (s : State) : (braceStart s).fix = s.fix := by
  simp only [braceStart, apply_ite State.fix, ite_self, updPf_fix, abortEntry_fix, wr64_fix, wrB_fix, count_fix, bump_fix, notePf_fix, updBank_fix,
    endSeedUpdate_fix, braceNote_fix]
theorem sendDown_fix (s : State) (kind ep : Nat) (ws : List Nat) : (sendDown s kind ep ws).fix = s.fix := by
  simp only [sendDown, foldl_fix, implies_true, sendMsg_fix]
theorem setBraceId_fix (s : State) (id : Nat) : (setBraceId s id).fix = s.fix := by
  simp only [setBraceId, updPf_fix, wrN_fix]
theorem leaderBrace_fix (s : State) : (leaderBrace s).fix = s.fix := by
  simp only [leaderBrace, setBraceId_fix, updPf_fix, sendDown_fix, braceStart_fix]
theorem noteRecovered_fix (s : State) (sw : Nat) : (noteRecovered s sw).fix = s.fix := by
  simp only [noteRecovered, updPf_fix]
theorem noteBraced_fix (s : State) (sw : Nat) : (noteBraced s sw).fix = s.fix := by
  simp only [noteBraced, updPf_fix]
theorem ownBrace_fix (s : State) : (ownBrace s).fix = s.fix := by
  simp only [ownBrace, apply_ite State.fix, ite_self, warnAll_fix, wrB_fix, leaderBrace_fix, notePf_fix, noteBraced_fix, updPf_fix, braceStart_fix,
    sendMsg_fix]
theorem holdCut_fix (s : State) (c : Nat) (isLocal partial_ : Bool) (leader term : Nat) : (holdCut s c isLocal partial_ leader term).fix = s.fix := by
  simp only [holdCut, apply_ite State.fix, ite_self, updPf_fix, wr64_fix, wrB_fix, notePf_fix, hvOffer_fix]
theorem declareCut_fix (s : State) (partial_ : Bool) : (declareCut s partial_).fix = s.fix := by
  simp only [declareCut, apply_ite State.fix, ite_self, holdCut_fix, sendDown_fix]
theorem tryHigh_fix (s : State) : (tryHigh s).fix = s.fix := by
  simp only [tryHigh, apply_ite State.fix, ite_self, declareCut_fix, updPf_fix, sendMsg_fix]
theorem standDown_fix (s : State) (c : Nat) : (standDown s c).fix = s.fix := by
  simp only [standDown, apply_ite State.fix, ite_self, wr64_fix, wrF_fix, wrN_fix, hvOffer_fix, count_fix, bump_fix, updPf_fix, wrB_fix, notePf_fix,
    updQos_fix, updLand_fix, retryTurnOn_fix, braceNote_fix, tagAll_fix, ownBrace_fix, actHeld_fix]
theorem tryStandDown_fix (s : State) : (tryStandDown s).fix = s.fix := by
  simp only [tryStandDown, apply_ite State.fix, ite_self, standDown_fix, sendDown_fix]
theorem updMover_fix (s : State) (t : Nat) (f : Mover → Mover) : (updMover s t f).fix = s.fix := by
  simp only [updMover, updPf_fix]
theorem issueCmd_fix (s : State) (t : Nat) (c : FlushCmd) (what : String) (n : Nat) (data : List Word) : (issueCmd s t c what n data).fix = s.fix := by
  simp only [issueCmd, updMover_fix, emit_fix]
theorem readPage_fix (s : State) (p : Nat) : (readPage s p).fix = s.fix := by
  generalize hff : @readPage = ff
  delta readPage at hff
  subst hff
  beta_reduce
  dsimp only
  rw [updPf_fix]
  refine foldl_snd_fix _ _ _ _ (fun x i => ?_) rfl
  split
  · rfl
  · simp only [apply_ite State.fix, updPf_fix, readWord_fix, ite_self]
theorem issueRuns_fix (s : State) (t : Nat) (n : Nat) : (issueRuns s t n).fix = s.fix := by
  induction n generalizing s t with
  | zero => simp only [issueRuns, fix_mk, fix_fold, fuses_mk, fuses_fold, resFix_next, apply_ite State.fix, apply_ite resFix, ite_self, foldl_fix,
    implies_true, readPage_fix, updMover_fix, issueCmd_fix]
  | succ n ih =>
    unfold issueRuns
    split <;> simp only [ih, fix_mk, fix_fold, fuses_mk, fuses_fold, resFix_next, apply_ite State.fix, apply_ite resFix, ite_self, foldl_fix,
      implies_true, readPage_fix, updMover_fix, issueCmd_fix]
theorem moverPages_fix (s : State) (t : Nat) : (moverPages s t).fix = s.fix := by
  simp only [moverPages, updMover_fix, issueRuns_fix]
theorem issueTodo_fix (s : State) (t : Nat) (n : Nat) : (issueTodo s t n).fix = s.fix := by
  induction n generalizing s t with
  | zero => simp only [issueTodo, fix_mk, fix_fold, fuses_mk, fuses_fold, resFix_next, apply_ite State.fix, apply_ite resFix, ite_self, foldl_fix,
    implies_true, updMover_fix, issueCmd_fix]
  | succ n ih =>
    unfold issueTodo
    split <;> simp only [ih, fix_mk, fix_fold, fuses_mk, fuses_fold, resFix_next, apply_ite State.fix, apply_ite resFix, ite_self, foldl_fix,
      implies_true, updMover_fix, issueCmd_fix]
theorem moverTable_fix (s : State) (t : Nat) : (moverTable s t).fix = s.fix := by
  simp only [moverTable, issueTodo_fix, updMover_fix]
theorem powerOff_fix (s : State) : (powerOff s).fix = s.fix := by
  simp only [powerOff, fix_mk, fix_fold, fuses_mk, fuses_fold, apply_ite State.fix, ite_self, foldl_fix, implies_true, chCut_fix, setDischarge_fix,
    railsCut_fix, noteSlots_fix]
theorem flushRestart_fix (s : State) : (flushRestart s).fix = s.fix := by
  generalize hff : @flushRestart = ff
  delta flushRestart at hff
  subst hff
  beta_reduce
  split <;> simp only [apply_ite State.fix, ite_self, newStart_fix]
theorem flushDone_fix (s : State) : (flushDone s).fix = s.fix := by
  simp only [flushDone, apply_ite State.fix, ite_self, flushRestart_fix, powerOff_fix]
theorem moverNext_fix (s : State) (t : Nat) : (moverNext s t).fix = s.fix := by
  generalize hff : @moverNext = ff
  delta moverNext at hff
  subst hff
  beta_reduce
  (try simp only [fix_mk, fix_fold, fuses_mk, fuses_fold, resFix_next, apply_ite State.fix, apply_ite resFix, ite_self, foldl_fix, implies_true,
    moverPages_fix, issueCmd_fix, updMover_fix, updPf_fix])
  (repeat' split) <;> simp only [fix_mk, fix_fold, fuses_mk, fuses_fold, resFix_next, apply_ite State.fix, apply_ite resFix, ite_self, foldl_fix,
    implies_true, moverPages_fix, issueCmd_fix, updMover_fix, updPf_fix]
theorem tableBarrier_fix (s : State) : (tableBarrier s).fix = s.fix := by
  simp only [tableBarrier, apply_ite State.fix, ite_self, foldl_fix, implies_true, moverTable_fix]
theorem moverPump_fix (s : State) (t : Nat) : (moverPump s t).fix = s.fix := by
  simp only [moverPump, flushDone_fix, tableBarrier_fix, moverNext_fix]
theorem markPages_fix (s : State) (ps : List Nat) (set clear : Nat) : (markPages s ps set clear).fix = s.fix := by
  simp only [markPages, foldl_fix, implies_true, updPf_fix]
theorem moverStop_fix (s : State) (t : Nat) : (moverStop s t).fix = s.fix := by
  simp only [moverStop, apply_ite State.fix, ite_self, updMover_fix, markPages_fix, updPf_fix, flushDone_fix, tableBarrier_fix]
theorem targetLost_fix (s : State) (c : Nat) : (targetLost s c).fix = s.fix := by
  generalize hff : @targetLost = ff
  delta targetLost at hff
  subst hff
  beta_reduce
  split <;> simp only [moverStop_fix]
theorem bankEnds_fix (s : State) : (bankEnds s).fix = s.fix := by
  simp only [bankEnds, apply_ite State.fix, ite_self, setDischarge_fix, flushRestart_fix, powerOff_fix, updPf_fix]
theorem switchover_fix (s : State) : (switchover s).fix = s.fix := by
  simp only [switchover, apply_ite State.fix, ite_self, updPf_fix, emit_fix, bankEnds_fix, setDischarge_fix]
theorem commitSlots_fix (s : State) (all : Bool) : (commitSlots s all).fix = s.fix := by
  simp only [commitSlots, apply_ite State.fix, ite_self, foldl_fix, implies_true, noteSlots_fix, cmdDone_fix, updChan_fix, noteHeld_fix, chCut_fix]
theorem laneCloche_fix (s : State) (n : Nat) : (laneCloche s n).fix = s.fix := by
  simp only [laneCloche, apply_ite State.fix, ite_self, marginAbort_fix, testAbort_fix, emit_fix, wrF_fix]
theorem portCloche_fix (s : State) (p : Nat) : (portCloche s p).fix = s.fix := by
  simp only [portCloche, apply_ite State.fix, ite_self, wrB_fix, wrF_fix]
theorem clocheUnits_fix (s : State) : (clocheUnits s).fix = s.fix := by
  simp only [clocheUnits, fix_mk, fix_fold, foldl_fix, implies_true, portCloche_fix, dropAttest_fix, laneCloche_fix]
theorem flushBegin_fix (s : State) : (flushBegin s).fix = s.fix := by
  simp only [flushBegin, apply_ite State.fix, ite_self, foldl_fix, implies_true, markPages_fix, issueCmd_fix, updMover_fix, updPf_fix, flushDone_fix]
theorem landAll_fix (s : State) : (landAll s).fix = s.fix := by
  simp only [landAll, foldl_fix, implies_true, landOne_fix, updLand_fix]
theorem commit_fix (s : State) (byLimit remote low : Bool) : (commit s byLimit remote low).fix = s.fix := by
  simp only [commit, fix_mk, fix_fold, fuses_mk, fuses_fold, apply_ite State.fix, ite_self, braceStart_fix, holdCut_fix, landAll_fix, updBank_fix,
    updTherm_fix, updPf_fix, clocheUnits_fix, commitSlots_fix, noteCharger_fix, stopSeedUpdate_fix, flushRestart_fix, powerOff_fix, switchover_fix,
      flushBegin_fix]
theorem sendCommit_fix (s : State) (byLimit : Bool) : (sendCommit s byLimit).fix = s.fix := by
  simp only [sendCommit, apply_ite State.fix, ite_self, foldl_fix, implies_true, emit_fix]
theorem execInputDip_fix (mv : Nat) (s : State) : resFix (execInputDip mv s) = some s.fix := by
  simp only [execInputDip, resFix_next, apply_ite State.fix, apply_ite resFix, ite_self, noteInput_fix, notePf_fix, updPf_fix]
theorem execBraceQualified_later (s : State) : Later s (resFix (execBraceQualified s)) := by
  generalize hff : @execBraceQualified = ff
  delta execBraceQualified at hff
  subst hff
  beta_reduce
  (repeat' split) <;> (try simp only [resFix_next, apply_ite resFix, ite_self, updPf_fix, warnAll_fix, wrB_fix, wakeSeen_fix,
    ownBrace_fix]) <;> (repeat' split) <;> first | exact later_refl s | exact later_to s _
theorem execInputRise_fix (mv : Nat) (s : State) : resFix (execInputRise mv s) = some s.fix := by
  simp only [execInputRise, resFix_next, apply_ite State.fix, apply_ite resFix, ite_self, noteInput_fix, count_fix, bump_fix, updPf_fix, notePf_fix]
theorem execStandDownQualified_later (s : State) : Later s (resFix (execStandDownQualified s)) := by
  generalize hff : @execStandDownQualified = ff
  delta execStandDownQualified at hff
  subst hff
  beta_reduce
  (repeat' split) <;> (try simp only [resFix_next, apply_ite resFix, ite_self, warnAll_fix, wrB_fix, updTherm_fix, notePf_fix, updPf_fix, updPwr_fix,
    actHeld_fix, tryStandDown_fix, noteRecovered_fix, sendMsg_fix]) <;> (repeat' split) <;> first | exact later_refl s | exact later_to s _
theorem execSwitchoverLevel_fix (s : State) : resFix (execSwitchoverLevel s) = some s.fix := by
  generalize hff : @execSwitchoverLevel = ff
  delta execSwitchoverLevel at hff
  subst hff
  beta_reduce
  (try simp only [fix_mk, fix_fold, fuses_mk, fuses_fold, resFix_next, apply_ite State.fix, apply_ite resFix, ite_self, foldl_fix, implies_true,
    updPf_fix, switchover_fix, updPwr_fix, wakeSeen_fix, commit_fix, sendCommit_fix])
  (repeat' split) <;> simp only [fix_mk, fix_fold, fuses_mk, fuses_fold, resFix_next, apply_ite State.fix, apply_ite resFix, ite_self, foldl_fix,
    implies_true, updPf_fix, switchover_fix, updPwr_fix, wakeSeen_fix, commit_fix, sendCommit_fix]
theorem execBraceLimitExpiry_later (s : State) : Later s (resFix (execBraceLimitExpiry s)) := by
  generalize hff : @execBraceLimitExpiry = ff
  delta execBraceLimitExpiry at hff
  subst hff
  beta_reduce
  (repeat' split) <;> (try simp only [resFix_next, commit_fix,
    sendCommit_fix]) <;> (repeat' split) <;> first | exact later_refl s | exact later_to s _
theorem memberBrace_fix (s : State) (m : BraceMsg) : (memberBrace s m).fix = s.fix := by
  simp only [memberBrace, apply_ite State.fix, ite_self, setBraceId_fix, updPf_fix, braceStart_fix, sendDown_fix, sendMsg_fix, tryHigh_fix]
theorem useBrace_fix (s : State) (m : BraceMsg) : (useBrace s m).fix = s.fix := by
  simp only [useBrace, apply_ite State.fix, ite_self, memberBrace_fix, leaderBrace_fix, noteBraced_fix]
theorem useHigh_fix (s : State) (m : BraceMsg) : (useHigh s m).fix = s.fix := by
  simp only [useHigh, apply_ite State.fix, ite_self, tryHigh_fix, updPf_fix]
theorem useCut_fix (s : State) (m : BraceMsg) : (useCut s m).fix = s.fix := by
  simp only [useCut, apply_ite State.fix, ite_self, sendDown_fix, holdCut_fix]
theorem useCommit_fix (s : State) (m : BraceMsg) : (useCommit s m).fix = s.fix := by
  simp only [useCommit, apply_ite State.fix, ite_self, commit_fix, updPf_fix]
theorem useStandDown_fix (s : State) (m : BraceMsg) : (useStandDown s m).fix = s.fix := by
  simp only [useStandDown, apply_ite State.fix, ite_self, standDown_fix, sendDown_fix]
theorem useMsg_fix (s : State) (m : BraceMsg) : (useMsg s m).fix = s.fix := by
  generalize hff : @useMsg = ff
  delta useMsg at hff
  subst hff
  beta_reduce
  split <;> simp only [useBrace_fix, useHigh_fix, useCut_fix, useCommit_fix, useStandDown_fix]
theorem takeMsg_fix (s : State) (m : BraceMsg) : (takeMsg s m).fix = s.fix := by
  simp only [takeMsg, apply_ite State.fix, ite_self, updPf_fix, updLand_fix, useMsg_fix]
theorem takeEarly_fix (s : State) : (takeEarly s).fix = s.fix := by
  simp only [takeEarly, foldl_fix, implies_true, takeMsg_fix, updPf_fix]
theorem execBraceReceive_fix (sender : BitVec 12) (fromLeader : Bool) (id term : BitVec 16) (own : Bool) (se : Epoch) (s : State) : resFix (execBraceReceive sender fromLeader id term own se s) = some s.fix := by
  simp only [execBraceReceive, resFix_next, takeMsg_fix]
theorem execPendDrained_fix (s : State) : resFix (execPendDrained s) = some s.fix := by
  simp only [execPendDrained, resFix_next, apply_ite resFix, ite_self, tryHigh_fix, updPf_fix]
theorem execHighReceive_fix (child : Nat) (h : Epoch) (id term : BitVec 16) (bitmap : DWord) (s : State) : resFix (execHighReceive child h id term bitmap s) = some s.fix := by
  simp only [execHighReceive, resFix_next, takeMsg_fix]
theorem execCutDeadlineExpiry_later (s : State) : Later s (resFix (execCutDeadlineExpiry s)) := by
  generalize hff : @execCutDeadlineExpiry = ff
  delta execCutDeadlineExpiry at hff
  subst hff
  beta_reduce
  (repeat' split) <;> (try simp only [resFix_next, declareCut_fix]) <;> (repeat' split) <;> first | exact later_refl s | exact later_to s _
theorem execLocalCutExpiry_later (s : State) : Later s (resFix (execLocalCutExpiry s)) := by
  generalize hff : @execLocalCutExpiry = ff
  delta execLocalCutExpiry at hff
  subst hff
  beta_reduce
  (repeat' split) <;> (try simp only [resFix_next, holdCut_fix]) <;> (repeat' split) <;> first | exact later_refl s | exact later_to s _
theorem execCutReceive_fix (c : Epoch) (id term : BitVec 16) (partial_ : Bool) (leader : BitVec 12) (bitmap : DWord) (s : State) : resFix (execCutReceive c id term partial_ leader bitmap s) = some s.fix := by
  simp only [execCutReceive, resFix_next, takeMsg_fix]
theorem execRecoveredReceive_fix (sender : BitVec 12) (id : BitVec 16) (s : State) : resFix (execRecoveredReceive sender id s) = some s.fix := by
  simp only [execRecoveredReceive, resFix_next, apply_ite resFix, ite_self, tryStandDown_fix, noteRecovered_fix]
theorem execStandDownReceive_fix (c : Epoch) (id term : BitVec 16) (s : State) : resFix (execStandDownReceive c id term s) = some s.fix := by
  simp only [execStandDownReceive, resFix_next, takeMsg_fix]
theorem execCommitReceive_fix (c : Epoch) (id term : BitVec 16) (sender : BitVec 12) (cause : Bool) (s : State) : resFix (execCommitReceive c id term sender cause s) = some s.fix := by
  simp only [execCommitReceive, resFix_next, takeMsg_fix]
theorem execClusterSealReceive_fix (e : Epoch) (set : DWord) (term : BitVec 16) (unattr : Bool) (leader : BitVec 12) (s : State) : resFix (execClusterSealReceive e set term unattr leader s) = some s.fix := by
  simp only [execClusterSealReceive, resFix_next, apply_ite State.fix, apply_ite resFix, ite_self, count_fix, setLeader_fix, setSealSet_fix,
    updLand_fix, adoptSe_fix, reportAll_fix, sendSeal_fix, sendRejoin_fix, wrB_fix, takeEarly_fix, sealPump_fix, tagAll_fix]
theorem execClaimReceive_fix (sw : BitVec 12) (_se : Epoch) (term : BitVec 16) (s : State) : resFix (execClaimReceive sw _se term s) = some s.fix := by
  generalize hff : @execClaimReceive = ff
  delta execClaimReceive at hff
  subst hff
  beta_reduce
  (try simp only [fix_mk, fix_fold, fuses_mk, fuses_fold, resFix_next, apply_ite State.fix, apply_ite resFix, ite_self, foldl_fix, implies_true,
    setLeader_fix, updLand_fix, takeEarly_fix, sendMsg_fix, sendReport_fix])
  (repeat' split) <;> simp only [fix_mk, fix_fold, fuses_mk, fuses_fold, resFix_next, apply_ite State.fix, apply_ite resFix, ite_self, foldl_fix,
    implies_true, setLeader_fix, updLand_fix, takeEarly_fix, sendMsg_fix, sendReport_fix]
theorem execIncludeReceive_fix (eJoin : Epoch) (set : DWord) (term : BitVec 16) (clusterSe : Epoch) (s : State) : resFix (execIncludeReceive eJoin set term clusterSe s) = some s.fix := by
  simp only [execIncludeReceive, resFix_next, apply_ite State.fix, apply_ite resFix, ite_self, setLeader_fix, setSealSet_fix, joinAt_fix,
    adoptSe_fix, reportAll_fix, takeEarly_fix, landPump_fix, tagAll_fix]
theorem repeatCmd_fix (s : State) (t : Nat) (c : FlushCmd) : (repeatCmd s t c).fix = s.fix := by
  simp only [repeatCmd, issueCmd_fix]
theorem execFlushCommandComplete_fix (t i : Nat) (ok : Bool) (s : State) : resFix (execFlushCommandComplete t i ok s) = some s.fix := by
  generalize hff : @execFlushCommandComplete = ff
  delta execFlushCommandComplete at hff
  subst hff
  beta_reduce
  (try simp only [fix_mk, fix_fold, fuses_mk, fuses_fold, resFix_next, apply_ite State.fix, apply_ite resFix, ite_self, foldl_fix, implies_true,
    updMover_fix, markPages_fix, moverPump_fix, issueTodo_fix, issueRuns_fix, repeatCmd_fix, moverStop_fix])
  (repeat' split) <;> simp only [fix_mk, fix_fold, fuses_mk, fuses_fold, resFix_next, apply_ite State.fix, apply_ite resFix, ite_self, foldl_fix,
    implies_true, updMover_fix, markPages_fix, moverPump_fix, issueTodo_fix, issueRuns_fix, repeatCmd_fix, moverStop_fix]
theorem execFlushTargetStall_fix (t : Nat) (s : State) : resFix (execFlushTargetStall t s) = some s.fix := by
  simp only [execFlushTargetStall, resFix_next, moverStop_fix]
theorem execFlushTargetLinkDown_fix (t : Nat) (s : State) : resFix (execFlushTargetLinkDown t s) = some s.fix := by
  simp only [execFlushTargetLinkDown, resFix_next, apply_ite resFix, ite_self, moverStop_fix, faultP_fix, wrB_fix]
theorem execInputGoodHoldExpiry_later (s : State) : Later s (resFix (execInputGoodHoldExpiry s)) := by
  generalize hff : @execInputGoodHoldExpiry = ff
  delta execInputGoodHoldExpiry at hff
  subst hff
  beta_reduce
  (repeat' split) <;> (try simp only [resFix_next, flushRestart_fix,
    emit_fix]) <;> (repeat' split) <;> first | exact later_refl s | exact later_to s _
theorem execBankAtVmin_fix (s : State) : resFix (execBankAtVmin s) = some s.fix := by
  simp only [execBankAtVmin, resFix_next, apply_ite resFix, ite_self, bankEnds_fix]
theorem execPfailReadGo_fix (v : Word) (s : State) : resFix (execPfailReadGo v s) = some s.fix := by
  simp only [execPfailReadGo, resFix_next, apply_ite resFix, ite_self, wrN_fix, wrF_fix, updPf_fix, emit_fix]
theorem copyNext_fix (s : State) (c : CopySt) : (copyNext s c).fix = s.fix := by
  simp only [copyNext, emit_fix, updPf_fix]
theorem copyBlock_fix (s : State) (c : CopySt) (ok : Bool) (data : List Word) : (copyBlock s c ok data).fix = s.fix := by
  simp only [copyBlock, apply_ite State.fix, ite_self, reply_fix, updPf_fix, mefWrite_fix, copyNext_fix]
theorem execPfailReadDone_fix (ok : Bool) (data : List Word) (s : State) : resFix (execPfailReadDone ok data s) = some s.fix := by
  generalize hff : @execPfailReadDone = ff
  delta execPfailReadDone at hff
  subst hff
  beta_reduce
  split <;> simp only [resFix_next, apply_ite resFix, ite_self, updPf_fix, wrF_fix, wrWords_fix, copyBlock_fix]
theorem execImageCopy_fix (q : ReqSrc) (t lba cnt : Nat) (addr : BitVec 64) (pasid : Option (BitVec 20)) (s : State) : resFix (execImageCopy q t lba cnt addr pasid s) = some s.fix := by
  simp only [execImageCopy, resFix_next, apply_ite State.fix, ite_self, implies_true, serve_fix, reply_fix, copyNext_fix]

end Sys2Proof.Machine
end

