-- ==== Sys2Proof/Laws/FixSlots.lean ====
section
/-! SUPPORT. Each definition over the state in Slots, Bank, Bridge, HedgeCtl keeps the queue, the time and the fuses; a row
that ends a stated span of time may move the time on. -/

set_option linter.unusedSimpArgs false

namespace Sys2Proof.Machine

open Sys2Proof

theorem tripSlot_fix (s : State) (c cause : Nat) : (tripSlot s c cause).fix = s.fix := by
  simp only [tripSlot, apply_ite State.fix, ite_self, trip_fix, targetLost_fix]
theorem removeOne_fix (s : State) (c : Nat) : (removeOne s c).fix = s.fix := by
  simp only [removeOne, apply_ite State.fix, ite_self, targetLost_fix, chCut_fix, updChan_fix, setGate_fix, setChState_fix]
theorem execPrsntAssert_fix (c : Nat) (s : State) : resFix (execPrsntAssert c s) = some s.fix := by
  simp only [execPrsntAssert, resFix_next, apply_ite State.fix, apply_ite resFix, ite_self, foldl_fix, implies_true, wrB_fix, updChan_fix,
    setChState_fix]
theorem execPrsntDeassert_fix (c : Nat) (s : State) : resFix (execPrsntDeassert c s) = some s.fix := by
  simp only [execPrsntDeassert, resFix_next, apply_ite State.fix, apply_ite resFix, ite_self, foldl_fix, implies_true, wrB_fix, updChan_fix,
    removeOne_fix, slotNote_fix, noteSlots_fix]
theorem execSeatingComplete_fix (c : Nat) (s : State) : resFix (execSeatingComplete c s) = some s.fix := by
  simp only [execSeatingComplete, resFix_next, apply_ite State.fix, apply_ite resFix, ite_self, foldl_fix, implies_true, wrB_fix, setChState_fix,
    slotNote_fix, tryTurnOn_fix]
theorem execPreTurnOnCheckDone_fix (c : Nat) (s : State) : resFix (execPreTurnOnCheckDone c s) = some s.fix := by
  simp only [execPreTurnOnCheckDone, resFix_next, apply_ite resFix, ite_self, rampStart_fix]
theorem execPreTurnOnCheckTimeout_fix (c : Nat) (s : State) : resFix (execPreTurnOnCheckTimeout c s) = some s.fix := by
  simp only [execPreTurnOnCheckTimeout, resFix_next, apply_ite resFix, ite_self, damage_fix]
theorem execGateThresholdExpiry_fix (c : Nat) (s : State) : resFix (execGateThresholdExpiry c s) = some s.fix := by
  simp only [execGateThresholdExpiry, resFix_next, apply_ite resFix, ite_self, damage_fix]
theorem execOutputReachesPgLevel_fix (c : Nat) (s : State) : resFix (execOutputReachesPgLevel c s) = some s.fix := by
  simp only [execOutputReachesPgLevel, resFix_next, apply_ite resFix, ite_self, setChState_fix]
theorem execPgWindowComplete_fix (c : Nat) (s : State) : resFix (execPgWindowComplete c s) = some s.fix := by
  simp only [execPgWindowComplete, resFix_next, apply_ite resFix, ite_self, foldl_fix, implies_true, updChan_fix, wrN_fix, wrB_fix, setChState_fix,
    noteSlots_fix]
theorem execNoRampExpiry_fix (c : Nat) (s : State) : resFix (execNoRampExpiry c s) = some s.fix := by
  simp only [execNoRampExpiry, resFix_next, apply_ite resFix, ite_self, tripSlot_fix]
theorem execPerstReleaseExpiry_fix (c : Nat) (s : State) : resFix (execPerstReleaseExpiry c s) = some s.fix := by
  simp only [execPerstReleaseExpiry, resFix_next, apply_ite resFix, ite_self, setPerst_fix, updChan_fix]
theorem execLimitEntry_fix (c : Nat) (s : State) : resFix (execLimitEntry c s) = some s.fix := by
  simp only [execLimitEntry, resFix_next, apply_ite resFix, ite_self, updChan_fix, bump_fix, wrB_fix]
theorem execLimitExit_fix (c countedUs : Nat) (s : State) : resFix (execLimitExit c countedUs s) = some s.fix := by
  simp only [execLimitExit, resFix_next, apply_ite resFix, ite_self, tripSlot_fix, updChan_fix, wrB_fix, wrF_fix]
theorem execOutOfLimitReset_fix (c : Nat) (s : State) : resFix (execOutOfLimitReset c s) = some s.fix := by
  simp only [execOutOfLimitReset, resFix_next, apply_ite resFix, ite_self, wrF_fix, updChan_fix]
theorem execFaultTimerExpiry_later (c : Nat) (s : State) : Later s (resFix (execFaultTimerExpiry c s)) := by
  simp only [execFaultTimerExpiry, resFix_next, apply_ite resFix, tripSlot_fix]
  all_goals (repeat' split)
  all_goals first | exact later_refl s | exact later_to s _
theorem fastOverTimer_fix (s : State) (c : Nat) : (fastOverTimer s c).fix = s.fix := by
  simp only [fastOverTimer, chCause_fix, wrF_fix, bumpF_fix]
theorem execFastComparatorTrip_fix (c : Nat) (s : State) : resFix (execFastComparatorTrip c s) = some s.fix := by
  simp only [execFastComparatorTrip, resFix_next, apply_ite resFix, ite_self, tripSlot_fix, fastOverTimer_fix, updChan_fix, setGate_fix]
theorem execMonitorAdcReading_fix (c ma vout : Nat) (s : State) : resFix (execMonitorAdcReading c ma vout s) = some s.fix := by
  simp only [execMonitorAdcReading, resFix_next, apply_ite resFix, ite_self, wrF_fix, updChan_fix, tripSlot_fix]
theorem execCooldownExpiry_fix (c : Nat) (s : State) : resFix (execCooldownExpiry c s) = some s.fix := by
  simp only [execCooldownExpiry, resFix_next, apply_ite resFix, ite_self, retryTurnOn_fix, wrB_fix]
theorem execAttentionButtonPress_fix (c : Nat) (s : State) : resFix (execAttentionButtonPress c s) = some s.fix := by
  simp only [execAttentionButtonPress, resFix_next, apply_ite resFix, ite_self, clearLatch_fix, slotNote_fix, tryTurnOn_fix]
theorem execPrsntAbsentExpiry_later (c : Nat) (s : State) : Later s (resFix (execPrsntAbsentExpiry c s)) := by
  generalize hff : @execPrsntAbsentExpiry = ff
  delta execPrsntAbsentExpiry at hff
  subst hff
  beta_reduce
  (repeat' split) <;> (try simp only [resFix_next, clearLatch_fix]) <;> (repeat' split) <;> first | exact later_refl s | exact later_to s _
theorem execGateRemovalExpiry_fix (c : Nat) (s : State) : resFix (execGateRemovalExpiry c s) = some s.fix := by
  simp only [execGateRemovalExpiry, resFix_next, apply_ite resFix, ite_self, updChan_fix, setGate_fix, retryTurnOn_fix, applyCfg_fix]
theorem execOffStateDrainExpiry_fix (c : Nat) (below : Bool) (s : State) : resFix (execOffStateDrainExpiry c below s) = some s.fix := by
  simp only [execOffStateDrainExpiry, resFix_next, apply_ite resFix, ite_self, updChan_fix, damage_fix]
theorem execOffStateOutputHigh_fix (c : Nat) (s : State) : resFix (execOffStateOutputHigh c s) = some s.fix := by
  simp only [execOffStateOutputHigh, resFix_next, apply_ite resFix, ite_self, damage_fix]
theorem execSlotPower_fix (q : ReqSrc) (c : Nat) (on : Bool) (s : State) : resFix (execSlotPower q c on s) = some s.fix := by
  simp only [execSlotPower, resFix_next, apply_ite State.fix, ite_self, implies_true, serve_fix, reply_fix, clearLatch_fix, turnOff_fix,
    tryTurnOn_fix]
theorem execRcClockFault_fix (dev : BitVec 16) (s : State) : resFix (execRcClockFault dev s) = some s.fix := by
  simp only [execRcClockFault, resFix_next, apply_ite State.fix, ite_self, foldl_fix, implies_true, wrB_fix, wrF_fix, faultU_fix, tripSlot_fix,
    noteCharger_fix]
theorem execRcClockRestored_fix (s : State) : resFix (execRcClockRestored s) = some s.fix := by
  simp only [execRcClockRestored, resFix_next, retryTurnOn_fix, noteCharger_fix, wrB_fix]
theorem execXtalLoss_fix (s : State) : resFix (execXtalLoss s) = some s.fix := by
  simp only [execXtalLoss, resFix_next, faultU_fix, wrB_fix]
theorem sumCheck_fix (s : State) : (sumCheck s).fix = s.fix := by
  generalize hff : @sumCheck = ff
  delta sumCheck at hff
  subst hff
  beta_reduce
  split <;> simp only [apply_ite State.fix, ite_self, updBank_fix, faultU_fix]
theorem isoTest_fix (s : State) : (isoTest s).fix = s.fix := by
  generalize hff : @isoTest = ff
  delta isoTest at hff
  subst hff
  beta_reduce
  split <;> simp only [apply_ite State.fix, ite_self, noteBank_fix, updBank_fix, wrF_fix, bankEvent_fix]
theorem execBankVoltageSample_later (a b : Nat) (validA validB : Bool) (s : State) : Later s (resFix (execBankVoltageSample a b validA validB s)) := by
  simp only [execBankVoltageSample, resFix_next, apply_ite State.fix, ite_self, wrN_fix, updQos_fix, wrB_fix, updBank_fix, bankEvent_fix,
    noteBank_fix, isoTest_fix, sumCheck_fix]
  all_goals (repeat' split)
  all_goals first | exact later_refl s | exact later_to s _
theorem execChargerCurrentLow_fix (s : State) : resFix (execChargerCurrentLow s) = some s.fix := by
  simp only [execChargerCurrentLow, resFix_next, apply_ite resFix, ite_self, noteCharger_fix, updBank_fix]
theorem execCellReading_fix (mv : List Int) (s : State) : resFix (execCellReading mv s) = some s.fix := by
  simp only [execCellReading, resFix_next, apply_ite State.fix, apply_ite resFix, ite_self, foldl_fix, implies_true, wr_fix, wrF_fix, updBank_fix,
    bankEvent_fix, noteBank_fix]
theorem execCellOvervoltageTrip_fix (i : Nat) (s : State) : resFix (execCellOvervoltageTrip i s) = some s.fix := by
  simp only [execCellOvervoltageTrip, resFix_next, apply_ite resFix, ite_self, wrB_fix, bankEvent_fix]
theorem execBankOvervoltageTrip_fix (s : State) : resFix (execBankOvervoltageTrip s) = some s.fix := by
  simp only [execBankOvervoltageTrip, resFix_next, apply_ite resFix, ite_self, bankEvent_fix, wrB_fix]
theorem execNtcReading_fix (a b : Int) (s : State) : resFix (execNtcReading a b s) = some s.fix := by
  simp only [execNtcReading, resFix_next, apply_ite State.fix, apply_ite resFix, ite_self, wrN_fix, updBank_fix, bankEvent_fix, wrB_fix, bankEnds_fix]
theorem execBankRiseChargerOff_fix (s : State) : resFix (execBankRiseChargerOff s) = some s.fix := by
  simp only [execBankRiseChargerOff, resFix_next, apply_ite resFix, ite_self, bankEnds_fix, bankEvent_fix, updBank_fix]
theorem execReverseCurrentTrip_fix (s : State) : resFix (execReverseCurrentTrip s) = some s.fix := by
  simp only [execReverseCurrentTrip, resFix_next, apply_ite resFix, ite_self, bankEvent_fix, updBank_fix]
theorem execDischargeOvercurrentTrip_fix (s : State) : resFix (execDischargeOvercurrentTrip s) = some s.fix := by
  simp only [execDischargeOvercurrentTrip, resFix_next, apply_ite resFix, ite_self, bankEnds_fix, bankEvent_fix, updBank_fix]
theorem execProtectionAutoClear_later (code : BitVec 4) (s : State) : Later s (resFix (execProtectionAutoClear code s)) := by
  simp only [execProtectionAutoClear, resFix_next, apply_ite resFix, retryTurnOn_fix, noteBank_fix, updBank_fix, wrB_fix]
  all_goals (repeat' split)
  all_goals first | exact later_refl s | exact later_to s _
theorem clearBank_fix (s : State) (m : Nat) : (clearBank s m).fix = s.fix := by
  simp only [clearBank, apply_ite State.fix, ite_self, foldl_fix, implies_true, updBank_fix, wrB_fix, noteBank_fix]
theorem execBankClear_fix (q : ReqSrc) (s : State) : resFix (execBankClear q s) = some s.fix := by
  simp only [execBankClear, resFix_next, apply_ite State.fix, ite_self, implies_true, serve_fix, reply_fix, clearBank_fix]
theorem updBrg_fix (s : State) (f : BrgSt → BrgSt) : (updBrg s f).fix = s.fix := by
  simp only [updBrg, fix_mk, fix_fold]
theorem setLock_fix (s : State) (n : Nat) : (setLock s n).fix = s.fix := by
  simp only [setLock, wrF_fix]
theorem setPeer_fix (s : State) (sw port : Nat) : (setPeer s sw port).fix = s.fix := by
  simp only [setPeer, wrN_fix]
theorem noteBrg_fix (s : State) : (noteBrg s).fix = s.fix := by
  simp only [noteBrg, wrF_fix, wrB_fix]
theorem brgRefuse_fix (s : State) (r : BrgReq) (status : Nat) : (brgRefuse s r status).fix = s.fix := by
  simp only [brgRefuse, apply_ite State.fix, ite_self, reportUr_fix, bump_fix, emit_fix]
theorem brgLeave_fix (s : State) (r : BrgReq) : (brgLeave s r).fix = s.fix := by
  simp only [brgLeave, apply_ite State.fix, ite_self, count_fix, bump_fix, updBrg_fix, noteBrg_fix, routeOut_fix]
theorem brgSend_fix (s : State) (r : BrgReq) : (brgSend s r).fix = s.fix := by
  simp only [brgSend, noteBrg_fix, brgLeave_fix, updBrg_fix]
theorem brgPump_fix (s : State) (n : Nat) : (brgPump s n).fix = s.fix := by
  induction n generalizing s with
  | zero => simp only [brgPump, fix_mk, fix_fold, fuses_mk, fuses_fold, resFix_next, apply_ite State.fix, apply_ite resFix, ite_self, foldl_fix,
    implies_true, noteBrg_fix, brgSend_fix, updBrg_fix]
  | succ n ih =>
    unfold brgPump
    (try simp only [fix_mk, fix_fold, fuses_mk, fuses_fold, resFix_next, apply_ite State.fix, apply_ite resFix, ite_self, foldl_fix, implies_true,
      noteBrg_fix, brgSend_fix, updBrg_fix])
    (repeat' split) <;> simp only [ih, fix_mk, fix_fold, fuses_mk, fuses_fold, resFix_next, apply_ite State.fix, apply_ite resFix, ite_self,
      foldl_fix, implies_true, noteBrg_fix, brgSend_fix, updBrg_fix]
theorem brgGo_fix (s : State) : (brgGo s).fix = s.fix := by
  simp only [brgGo, brgPump_fix]
theorem brgQueue_fix (s : State) (r : BrgReq) : (brgQueue s r).fix = s.fix := by
  simp only [brgQueue, brgGo_fix, updBrg_fix]
theorem farNote_fix (s : State) (r : BrgReq) : (farNote s r).fix = s.fix := by
  simp only [farNote, apply_ite State.fix, ite_self, updVdsp_fix]
theorem brgHedge_fix (s : State) (r : BrgReq) (slot : Nat) (ps : List Part) : (brgHedge s r slot ps).fix = s.fix := by
  simp only [brgHedge, apply_ite State.fix, ite_self, hedgeRefuse_fix, emit_fix]
theorem execBridgeRequest_fix (r : BrgReq) (s : State) : resFix (execBridgeRequest r s) = some s.fix := by
  simp only [execBridgeRequest, resFix_next, apply_ite resFix, ite_self, farNote_fix, brgRefuse_fix, emit_fix, brgHedge_fix, brgQueue_fix]
theorem toHost_fix (s : State) (r : BrgReq) (x : BrgResp) : (toHost s r x).fix = s.fix := by
  simp only [toHost, apply_ite State.fix, ite_self, emit_fix, updBrg_fix]
theorem heldGo_fix (s : State) (k : Nat) : (heldGo s k).fix = s.fix := by
  simp only [heldGo, apply_ite State.fix, ite_self, foldl_fix, implies_true, updBrg_fix, emit_fix]
theorem brgClose_fix (s : State) (t : BrgTxn) : (brgClose s t).fix = s.fix := by
  simp only [brgClose, noteBrg_fix, updBrg_fix]
theorem advisory_fix (s : State) (r : BrgReq) : (advisory s r).fix = s.fix := by
  simp only [advisory, reportAdvisory_fix, count_fix, bump_fix]
theorem brgEnd_fix (s : State) (t : BrgTxn) (status : Nat) : (brgEnd s t status).fix = s.fix := by
  simp only [brgEnd, apply_ite State.fix, ite_self, advisory_fix, toHost_fix]
theorem lockAcquire_fix (s : State) (r : BrgReq) : (lockAcquire s r).fix = s.fix := by
  simp only [lockAcquire, setPeer_fix, setLock_fix, brgQueue_fix, updBrg_fix]
theorem lockIdle_fix (s : State) : (lockIdle s).fix = s.fix := by
  generalize hff : @lockIdle = ff
  delta lockIdle at hff
  subst hff
  beta_reduce
  (try simp only [fix_mk, fix_fold, fuses_mk, fuses_fold, resFix_next, apply_ite State.fix, apply_ite resFix, ite_self, foldl_fix, implies_true,
    updBrg_fix, wrN_fix, setLock_fix, lockAcquire_fix])
  (repeat' split) <;> simp only [fix_mk, fix_fold, fuses_mk, fuses_fold, resFix_next, apply_ite State.fix, apply_ite resFix, ite_self, foldl_fix,
    implies_true, updBrg_fix, wrN_fix, setLock_fix, lockAcquire_fix]
theorem sendUnlock_fix (s : State) : (sendUnlock s).fix = s.fix := by
  generalize hff : @sendUnlock = ff
  delta sendUnlock at hff
  subst hff
  beta_reduce
  split <;> simp only [apply_ite State.fix, ite_self, brgQueue_fix]
theorem acquired_fix (s : State) (t : BrgTxn) (ok : Bool) : (acquired s t ok).fix = s.fix := by
  simp only [acquired, apply_ite State.fix, ite_self, lockIdle_fix, setLock_fix, sendUnlock_fix, updBrg_fix]
theorem lockYield_fix (s : State) : (lockYield s).fix = s.fix := by
  simp only [lockYield, updBrg_fix]
theorem brgTimedOut_fix (s : State) (t : BrgTxn) : (brgTimedOut s t).fix = s.fix := by
  simp only [brgTimedOut, apply_ite State.fix, ite_self, count_fix, bump_fix, brgEnd_fix, brgClose_fix, acquired_fix, lockIdle_fix, brgGo_fix]
theorem uncollected_fix (s : State) : (uncollected s).fix = s.fix := by
  simp only [uncollected, count_fix, bump_fix]
theorem brgBusy_fix (s : State) (t : BrgTxn) : (brgBusy s t).fix = s.fix := by
  simp only [brgBusy, apply_ite State.fix, ite_self, count_fix, bump_fix, brgGo_fix, uncollected_fix, brgClose_fix, updBrg_fix, brgTimedOut_fix,
    lockIdle_fix]
theorem execBridgeResponseReceive_fix (r : BrgResp) (s : State) : resFix (execBridgeResponseReceive r s) = some s.fix := by
  generalize hff : @execBridgeResponseReceive = ff
  delta execBridgeResponseReceive at hff
  subst hff
  beta_reduce
  split <;> simp only [resFix_next, apply_ite State.fix, apply_ite resFix, ite_self, uncollected_fix, brgBusy_fix, brgClose_fix, brgEnd_fix,
    toHost_fix, acquired_fix, lockIdle_fix, brgGo_fix]
theorem execBridgeTimeout_later (btag : Nat) (s : State) : Later s (resFix (execBridgeTimeout btag s)) := by
  generalize hff : @execBridgeTimeout = ff
  delta execBridgeTimeout at hff
  subst hff
  beta_reduce
  (repeat' split) <;> (try simp only [resFix_next, brgTimedOut_fix]) <;> (repeat' split) <;> first | exact later_refl s | exact later_to s _
theorem brgAgain_fix (s : State) (t : BrgTxn) : (brgAgain s t).fix = s.fix := by
  simp only [brgAgain, updBrg_fix, noteBrg_fix, brgLeave_fix]
theorem execBridgeBusyRetryExpiry_later (btag : Nat) (s : State) : Later s (resFix (execBridgeBusyRetryExpiry btag s)) := by
  generalize hff : @execBridgeBusyRetryExpiry = ff
  delta execBridgeBusyRetryExpiry at hff
  subst hff
  beta_reduce
  (repeat' split) <;> (try simp only [resFix_next, brgAgain_fix]) <;> (repeat' split) <;> first | exact later_refl s | exact later_to s _
theorem execBridgeResponseStall_later (btag : Nat) (s : State) : Later s (resFix (execBridgeResponseStall btag s)) := by
  generalize hff : @execBridgeResponseStall = ff
  delta execBridgeResponseStall at hff
  subst hff
  beta_reduce
  (repeat' split) <;> (try simp only [resFix_next, uncollected_fix,
    updBrg_fix]) <;> (repeat' split) <;> first | exact later_refl s | exact later_to s _
theorem orphanBy_fix (s : State) (f : BrgReq → Bool) : (orphanBy s f).fix = s.fix := by
  simp only [orphanBy, apply_ite State.fix, ite_self, updBrg_fix, sendUnlock_fix, lockIdle_fix, brgGo_fix]
theorem brgOrphan_fix (s : State) (k : Nat) : (brgOrphan s k).fix = s.fix := by
  simp only [brgOrphan, orphanBy_fix]
theorem brgOrphanVdsp_fix (s : State) (k j : Nat) : (brgOrphanVdsp s k j).fix = s.fix := by
  simp only [brgOrphanVdsp, orphanBy_fix]
theorem farReply_fix (s : State) (src : Nat) (r : BrgReq) (status : Nat) : (farReply s src r status).fix = s.fix := by
  simp only [farReply, apply_ite State.fix, ite_self, count_fix, bump_fix, routeOut_fix]
theorem farRefuse_fix (s : State) (src : Nat) (r : BrgReq) : (farRefuse s src r).fix = s.fix := by
  simp only [farRefuse, farReply_fix, faultP_fix, bump_fix]
theorem farTake_fix (s : State) (src : Nat) (r : BrgReq) (f : State → State) (hf : ∀ s, (f s).fix = s.fix) : (farTake s src r f).fix = s.fix := by
  generalize hff : @farTake = ff
  delta farTake at hff
  subst hff
  beta_reduce
  (try simp only [fix_mk, fix_fold, fuses_mk, fuses_fold, resFix_next, apply_ite State.fix, apply_ite resFix, ite_self, foldl_fix, implies_true, hf,
    count_fix, bump_fix, farRefuse_fix, farReply_fix])
  (repeat' split) <;> simp only [fix_mk, fix_fold, fuses_mk, fuses_fold, resFix_next, apply_ite State.fix, apply_ite resFix, ite_self, foldl_fix,
    implies_true, hf, count_fix, bump_fix, farRefuse_fix, farReply_fix]
theorem farStore_fix (s : State) (src : Nat) (r : BrgReq) : (farStore s src r).fix = s.fix := by
  simp only [farStore, apply_ite State.fix, ite_self, farReply_fix, noteBrg_fix, updBrg_fix]
theorem execBridgeFrameReceive_fix (srcSw : BitVec 12) (r : BrgReq) (s : State) : resFix (execBridgeFrameReceive srcSw r s) = some s.fix := by
  simp only [execBridgeFrameReceive, resFix_next, apply_ite State.fix, apply_ite resFix, ite_self, implies_true, farTake_fix, farReply_fix,
    updBrg_fix, farStore_fix]
theorem farSend_fix (s : State) (e : Nat × BrgReq) : (farSend s e).fix = s.fix := by
  simp only [farSend, apply_ite State.fix, ite_self, noteBrg_fix, updBrg_fix, farReply_fix, emit_fix, updFwd_fix]
theorem execBridgeFarIssue_fix (p : Nat) (s : State) : resFix (execBridgeFarIssue p s) = some s.fix := by
  generalize hff : @execBridgeFarIssue = ff
  delta execBridgeFarIssue at hff
  subst hff
  beta_reduce
  (repeat' split) <;> simp only [resFix_next, farReply_fix, noteBrg_fix, updBrg_fix, farSend_fix]
theorem lockTake_fix (s : State) (r : BrgReq) : (lockTake s r).fix = s.fix := by
  simp only [lockTake, apply_ite State.fix, ite_self, lockAcquire_fix, brgQueue_fix, updBrg_fix]
theorem execLegacyMrdlk_fix (r : BrgReq) (s : State) : resFix (execLegacyMrdlk r s) = some s.fix := by
  simp only [execLegacyMrdlk, resFix_next, apply_ite resFix, ite_self, brgRefuse_fix, count_fix, bump_fix, brgHedge_fix, lockTake_fix]
theorem lockTarget_fix (s : State) (src : Nat) (r : BrgReq) : (lockTarget s src r).fix = s.fix := by
  simp only [lockTarget, apply_ite State.fix, ite_self, farReply_fix, lockYield_fix, setPeer_fix, setLock_fix, farStore_fix, updBrg_fix]
theorem execMemRdLkReceive_fix (srcSw : BitVec 12) (r : BrgReq) (s : State) : resFix (execMemRdLkReceive srcSw r s) = some s.fix := by
  simp only [execMemRdLkReceive, resFix_next, apply_ite State.fix, apply_ite resFix, ite_self, implies_true, farTake_fix, lockTarget_fix,
    farStore_fix, updBrg_fix, farReply_fix]
theorem execLegacyUnlock_fix (s : State) : resFix (execLegacyUnlock s) = some s.fix := by
  simp only [execLegacyUnlock, resFix_next, apply_ite resFix, ite_self, sendUnlock_fix]
theorem execUnlockReceive_fix (srcSw : BitVec 12) (r : BrgReq) (s : State) : resFix (execUnlockReceive srcSw r s) = some s.fix := by
  simp only [execUnlockReceive, resFix_next, apply_ite State.fix, apply_ite resFix, ite_self, implies_true, farTake_fix, farReply_fix, lockIdle_fix,
    emit_fix]
theorem execLockBackoffExpiry_later (s : State) : Later s (resFix (execLockBackoffExpiry s)) := by
  generalize hff : @execLockBackoffExpiry = ff
  delta execLockBackoffExpiry at hff
  subst hff
  beta_reduce
  (repeat' split) <;> (try simp only [resFix_next, count_fix, bump_fix, updBrg_fix, setPeer_fix, setLock_fix, brgAgain_fix,
    lockAcquire_fix]) <;> (repeat' split) <;> first | exact later_refl s | exact later_to s _
theorem lockForce_fix (s : State) : (lockForce s).fix = s.fix := by
  simp only [lockForce, apply_ite State.fix, ite_self, faultP_fix, count_fix, bump_fix, lockIdle_fix, emit_fix]
theorem execLockIdleExpiry_later (s : State) : Later s (resFix (execLockIdleExpiry s)) := by
  simp only [execLockIdleExpiry, resFix_next, apply_ite resFix, lockForce_fix]
  all_goals (repeat' split)
  all_goals first | exact later_refl s | exact later_to s _
theorem lockPortLost_fix (s : State) (p : Nat) : (lockPortLost s p).fix = s.fix := by
  simp only [lockPortLost, apply_ite State.fix, ite_self, lockForce_fix]
theorem updHedge_fix (s : State) (f : HedgeSt → HedgeSt) : (updHedge s f).fix = s.fix := by
  simp only [updHedge, fix_mk, fix_fold]
theorem noteUpdating_fix (s : State) : (noteUpdating s).fix = s.fix := by
  generalize hff : @noteUpdating = ff
  delta noteUpdating at hff
  subst hff
  beta_reduce
  split <;> simp only [wrF_fix, wrB_fix]
theorem hedgeStart_fix (s : State) (u : Nat) : (hedgeStart s u).fix = s.fix := by
  simp only [hedgeStart, apply_ite State.fix, ite_self, wrF_fix, wrB_fix, noteUpdating_fix, updHedge_fix]
theorem hedgeQueue_fix (s : State) (u : Nat) (r : HedgeReq) : (hedgeQueue s u r).fix = s.fix := by
  simp only [hedgeQueue, apply_ite State.fix, ite_self, updHedge_fix, hedgeStart_fix]
theorem noteHold_fix (s : State) (u : Nat) : (noteHold s u).fix = s.fix := by
  simp only [noteHold, wrN_fix]
theorem engGo_fix (s : State) (e : Nat) (h : EngHeld) : (engGo s e h).fix = s.fix := by
  generalize hff : @engGo = ff
  delta engGo at hff
  subst hff
  beta_reduce
  (repeat' split) <;> simp only [apply_ite State.fix, ite_self, takePkt_fix, ownCheck_fix, spillDone_fix, readDelivered_fix]
theorem hedgeRelease_fix (s : State) (u : Nat) : (hedgeRelease s u).fix = s.fix := by
  simp only [hedgeRelease, foldl_fix, implies_true, noteHold_fix, wrB_fix, updHedge_fix, noteUpdating_fix, takeArrival_fix, engGo_fix,
    checkWrite_fix, sealPump_fix, pumpOpen_fix, brgGo_fix]
theorem writeSlot_fix (s : State) (u : Nat) (e : HedgeEntry) : (writeSlot s u e).fix = s.fix := by
  simp only [writeSlot, wr64_fix, wrF_fix, updHedge_fix]
theorem hedgeNext_fix (s : State) (u : Nat) : (hedgeNext s u).fix = s.fix := by
  simp only [hedgeNext, updHedge_fix, hedgeStart_fix, wrF_fix]
theorem hedgeCommit_fix (s : State) (u : Nat) (r : HedgeReq) : (hedgeCommit s u r).fix = s.fix := by
  simp only [hedgeCommit, foldl_fix, implies_true, writeSlot_fix, hedgeRelease_fix, count_fix, bump_fix]
theorem hedgeAbandon_fix (s : State) (u : Nat) : (hedgeAbandon s u).fix = s.fix := by
  simp only [hedgeAbandon, updHedge_fix, hedgeRelease_fix, count_fix, bump_fix]

end Sys2Proof.Machine
end

