-- ==== Sys2Proof/Laws/FixScion.lean ====
section
/-! SUPPORT. Each definition over the state in ScionOps, Scion, Hedge keeps the queue, the time and the fuses; a row
that ends a stated span of time may move the time on. -/

set_option linter.unusedSimpArgs false

namespace Sys2Proof.Machine

open Sys2Proof

theorem updScion_fix (s : State) (f : ScionSt → ScionSt) : (updScion s f).fix = s.fix := by
  simp only [updScion, fix_mk, fix_fold]
theorem updSc_fix (s : State) (sc : Nat) (f : ScionRec → ScionRec) : (updSc s sc f).fix = s.fix := by
  simp only [updSc, updScion_fix]
theorem setScState_fix (s : State) (sc n : Nat) : (setScState s sc n).fix = s.fix := by
  simp only [setScState, wrF_fix]
theorem noteScions_fix (s : State) : (noteScions s).fix = s.fix := by
  simp only [noteScions, apply_ite State.fix, ite_self, foldl_fix, implies_true, wrF_fix]
theorem devWrite_fix (s : State) (d addr : Nat) (v : Word) : (devWrite s d addr v).fix = s.fix := by
  simp only [devWrite, emit_fix]
theorem instWrite_fix (s : State) (sc off : Nat) (v : Word) : (instWrite s sc off v).fix = s.fix := by
  simp only [instWrite, devWrite_fix]
theorem bumpGen_fix (s : State) (sc : Nat) : (bumpGen s sc).fix = s.fix := by
  simp only [bumpGen, wrN_fix, wrF_fix]
theorem scionEvent_fix (s : State) (sc : Nat) : (scionEvent s sc).fix = s.fix := by
  simp only [scionEvent, apply_ite State.fix, ite_self, msix_fix]
theorem scionPresence_fix (s : State) (sc : Nat) (b : Bool) : (scionPresence s sc b).fix = s.fix := by
  simp only [scionPresence, updVdsp_fix]
theorem scionMsi_fix (s : State) (sc v : Nat) : (scionMsi s sc v).fix = s.fix := by
  simp only [scionMsi, apply_ite State.fix, ite_self, emit_fix, updSc_fix]
theorem scionPending_fix (s : State) (sc : Nat) : (scionPending s sc).fix = s.fix := by
  simp only [scionPending, apply_ite State.fix, ite_self, foldl_fix, implies_true, emit_fix, updSc_fix]
theorem dirtyBack_fix (s : State) (sc : Nat) (l : DirtySt) (w : Nat × Nat) : (dirtyBack s sc l w).fix = s.fix := by
  simp only [dirtyBack, mefWrite_fix]
theorem updDirty_fix (s : State) (sc : Nat) (f : DirtySt → DirtySt) : (updDirty s sc f).fix = s.fix := by
  simp only [updDirty, updSc_fix]
theorem dirtyRoom_fix (s : State) (sc : Nat) : (dirtyRoom s sc).fix = s.fix := by
  generalize hff : @dirtyRoom = ff
  delta dirtyRoom at hff
  subst hff
  beta_reduce
  (repeat' split)
  · rfl
  · rw [updDirty_fix]
    rename_i l _
    cases l.cache.head?
    · rfl
    · exact dirtyBack_fix _ _ _ _
  · rfl
theorem dirtyPage_fix (s : State) (sc n : Nat) : (dirtyPage s sc n).fix = s.fix := by
  generalize hff : @dirtyPage = ff
  delta dirtyPage at hff
  subst hff
  beta_reduce
  split <;> simp only [apply_ite State.fix, ite_self, updDirty_fix, dirtyRoom_fix, bump_fix, mefRead_fix]
theorem dirtyMark_fix (s : State) (sc addr len : Nat) : (dirtyMark s sc addr len).fix = s.fix := by
  generalize hff : @dirtyMark = ff
  delta dirtyMark at hff
  subst hff
  beta_reduce
  split <;> simp only [apply_ite State.fix, ite_self, foldl_fix, implies_true, bump_fix, dirtyPage_fix]
theorem dirtyEnd_fix (s : State) (sc : Nat) : (dirtyEnd s sc).fix = s.fix := by
  simp only [dirtyEnd, noteScions_fix, wrB_fix, updSc_fix]
theorem dirtySyncGo_fix (s : State) (sc : Nat) : (dirtySyncGo s sc).fix = s.fix := by
  generalize hff : @dirtySyncGo = ff
  delta dirtySyncGo at hff
  subst hff
  beta_reduce
  (repeat' split) <;> simp only [foldl_fix, implies_true, dirtyBack_fix, updDirty_fix, wrB_fix, dirtyEnd_fix, reply_fix]
theorem noteHeldCells_fix (s : State) (sc : Nat) : (noteHeldCells s sc).fix = s.fix := by
  simp only [noteHeldCells, wrF_fix]
theorem scionPass_fix (s : State) (sc : Nat) (t : Tlp) : (scionPass s sc t).fix = s.fix := by
  simp only [scionPass, apply_ite State.fix, ite_self, foldl_fix, implies_true, updSc_fix, dirtyMark_fix, count_fix, takeArrival_fix]
theorem scionPump_fix (s : State) (sc : Nat) (n : Nat) : (scionPump s sc n).fix = s.fix := by
  induction n generalizing s sc with
  | zero => simp only [scionPump, fix_mk, fix_fold, fuses_mk, fuses_fold, resFix_next, apply_ite State.fix, apply_ite resFix, ite_self, foldl_fix,
    implies_true, updSc_fix, scionPass_fix, noteHeldCells_fix]
  | succ n ih =>
    unfold scionPump
    split <;> simp only [ih, fix_mk, fix_fold, fuses_mk, fuses_fold, resFix_next, apply_ite State.fix, apply_ite resFix, ite_self, foldl_fix,
      implies_true, updSc_fix, scionPass_fix, noteHeldCells_fix]
theorem scionRefuse_fix (s : State) (p cnt : Nat) (t : Tlp) : (scionRefuse s p cnt t).fix = s.fix := by
  simp only [scionRefuse, apply_ite State.fix, ite_self, bump_fix, emit_fix]
theorem scionTake_fix (s : State) (p : Nat) (t : Tlp) : (scionTake s p t).2.fix = s.fix := by
  generalize hff : @scionTake = ff
  delta scionTake at hff
  subst hff
  beta_reduce
  (repeat' split) <;> simp only [scionRefuse_fix, updSc_fix, wrB_fix, noteHeldCells_fix, scionPump_fix]
theorem scionWaiting_fix (s : State) (p : Nat) (n : Nat) : (scionWaiting s p n).fix = s.fix := by
  induction n generalizing s p with
  | zero => simp only [scionWaiting, fix_mk, fix_fold, fuses_mk, fuses_fold, resFix_next, apply_ite State.fix, apply_ite resFix, ite_self, foldl_fix,
    implies_true, scionTake_fix, updScion_fix]
  | succ n ih =>
    unfold scionWaiting
    split <;> simp only [ih, fix_mk, fix_fold, fuses_mk, fuses_fold, resFix_next, apply_ite State.fix, apply_ite resFix, ite_self, foldl_fix,
      implies_true, scionTake_fix, updScion_fix]
theorem scionGo_fix (s : State) : (scionGo s).fix = s.fix := by
  simp only [scionGo, foldl_fix, implies_true, scionPump_fix, scionWaiting_fix]
theorem hostReqsEnd_fix (s : State) (sc : Nat) : (hostReqsEnd s sc).fix = s.fix := by
  simp only [hostReqsEnd, foldl_fix, implies_true, emit_fix, updFwd_fix, freeEntry_fix]
theorem scionLose_fix (s : State) (sc : Nat) (f : Frame) : (scionLose s sc f).fix = s.fix := by
  generalize hff : @scionLose = ff
  delta scionLose at hff
  subst hff
  beta_reduce
  (try simp only [fix_mk, fix_fold, fuses_mk, fuses_fold, resFix_next, apply_ite State.fix, apply_ite resFix, ite_self, foldl_fix, implies_true,
    bump_fix, emit_fix, updSc_fix])
  (repeat' split) <;> simp only [fix_mk, fix_fold, fuses_mk, fuses_fold, resFix_next, apply_ite State.fix, apply_ite resFix, ite_self, foldl_fix,
    implies_true, bump_fix, emit_fix, updSc_fix]
theorem scionSweep_fix (s : State) (sc : Nat) : (scionSweep s sc).fix = s.fix := by
  simp only [scionSweep, foldl_fix, implies_true, updHedge_fix, scionLose_fix, takeQueue_fix, dropEntry_fix, updFwd_fix, freeEntry_fix]
theorem dirtyReset_fix (s : State) (sc : Nat) : (dirtyReset s sc).fix = s.fix := by
  simp only [dirtyReset, apply_ite State.fix, ite_self, updDirty_fix, dirtyEnd_fix]
theorem resetSteps_fix (s : State) (sc : Nat) : (resetSteps s sc).fix = s.fix := by
  simp only [resetSteps, foldl_fix, implies_true, bumpGen_fix, noteHeldCells_fix, updSc_fix, scionSweep_fix, scionRefuse_fix, hostReqsEnd_fix,
    wrB_fix, instWrite_fix, dirtyReset_fix, scionWaiting_fix]
theorem scionResetGo_fix (s : State) (sc : Nat) (removes contain byDpc : Bool) (w : Option (ReqSrc × Nat)) : (scionResetGo s sc removes contain byDpc w).fix = s.fix := by
  simp only [scionResetGo, apply_ite State.fix, ite_self, updSc_fix, setScState_fix, resetSteps_fix]
theorem scionClean_fix (s : State) (sc : Nat) : (scionClean s sc).fix = s.fix := by
  simp only [scionClean, cfgClear_fix, wrB_fix, updSc_fix]
theorem scionReplies_fix (s : State) (sc : Nat) : (scionReplies s sc).fix = s.fix := by
  simp only [scionReplies, foldl_fix, implies_true, reply_fix, updSc_fix]
theorem scionGone_fix (s : State) (sc : Nat) (forced : Bool) : (scionGone s sc forced).fix = s.fix := by
  simp only [scionGone, apply_ite State.fix, ite_self, foldl_fix, implies_true, reply_fix, scionPresence_fix, wrN_fix, wrF_fix, updScion_fix,
    hedgeQueue_fix, noteScions_fix]
theorem scionResetEnd_fix (s : State) (sc : Nat) (forced : Bool) : (scionResetEnd s sc forced).fix = s.fix := by
  simp only [scionResetEnd, apply_ite State.fix, ite_self, resetSteps_fix, updSc_fix, count_fix, bump_fix, wrB_fix, fault_fix, scionClean_fix,
    scionReplies_fix, scionGone_fix, msix_fix, setScState_fix, instWrite_fix, scionEvent_fix]
theorem deviceTake_fix (s : State) (info : DevIn) : (deviceTake s info).fix = s.fix := by
  simp only [deviceTake, apply_ite State.fix, ite_self, foldl_fix, implies_true, updScion_fix, emit_fix, devWrite_fix, noteScions_fix, wrF_fix,
    faultP_fix]
theorem createEnd_fix (s : State) (sc : Nat) (q : ReqSrc) : (createEnd s sc q).fix = s.fix := by
  simp only [createEnd, instWrite_fix, updSc_fix, scionPresence_fix, setScState_fix, reply_fix, noteScions_fix]
theorem createGo_fix (s : State) (q : ReqSrc) (d vdsp sc inst db vec qu dbCount vecCount queues cells rate size evVec : Nat) : (createGo s q d vdsp sc inst db vec qu dbCount vecCount queues cells rate size evVec).fix = s.fix := by
  simp only [createGo, apply_ite State.fix, ite_self, wrN_fix, updSc_fix, hedgeQueue_fix, createEnd_fix]
theorem execScionCreate_fix (q : ReqSrc) (dev vdsp dbCount vecCount queues cells : Nat) (rate : BitVec 21) (size : BitVec 18) (evVec : Nat) (s : State) : resFix (execScionCreate q dev vdsp dbCount vecCount queues cells rate size evVec s) = some s.fix := by
  generalize hff : @execScionCreate = ff
  delta execScionCreate at hff
  subst hff
  beta_reduce
  refine congrArg some (serve_fix _ _ _ _ _ _ _ (fun s => ?_))
  (repeat' split) <;> simp only [fix_mk, fix_fold, fuses_mk, fuses_fold, resFix_next, apply_ite State.fix, apply_ite resFix, ite_self, foldl_fix,
    implies_true, serve_fix, reply_fix, createGo_fix]
theorem createUndo_fix (s : State) (sc : Nat) : (createUndo s sc).fix = s.fix := by
  simp only [createUndo, wrN_fix, noteScions_fix, updScion_fix]
theorem execScionReset_fix (q : ReqSrc) (sc : Nat) (s : State) : resFix (execScionReset q sc s) = some s.fix := by
  simp only [execScionReset, resFix_next, apply_ite State.fix, ite_self, implies_true, serve_fix, notFound_fix, scionResetGo_fix]
theorem execScionRemove_fix (q : ReqSrc) (sc : Nat) (s : State) : resFix (execScionRemove q sc s) = some s.fix := by
  simp only [execScionRemove, resFix_next, apply_ite State.fix, ite_self, implies_true, serve_fix, notFound_fix, scionResetGo_fix]
theorem execScionShape_fix (q : ReqSrc) (sc : Nat) (rate : BitVec 21) (size : BitVec 18) (fill : Bool) (s : State) : resFix (execScionShape q sc rate size fill s) = some s.fix := by
  simp only [execScionShape, resFix_next, apply_ite State.fix, ite_self, implies_true, serve_fix, notFound_fix, reply_fix, updSc_fix, scionGo_fix,
    instWrite_fix]
theorem execScionQuiesced_fix (sc : Nat) (s : State) : resFix (execScionQuiesced sc s) = some s.fix := by
  simp only [execScionQuiesced, resFix_next, apply_ite resFix, ite_self, noteScions_fix, updScion_fix, wrB_fix, scionResetEnd_fix]
theorem execScionQuiesceTimeout_later (sc : Nat) (s : State) : Later s (resFix (execScionQuiesceTimeout sc s)) := by
  generalize hff : @execScionQuiesceTimeout = ff
  delta execScionQuiesceTimeout at hff
  subst hff
  beta_reduce
  (repeat' split) <;> (try simp only [resFix_next, updSc_fix,
    scionResetEnd_fix]) <;> (repeat' split) <;> first | exact later_refl s | exact later_to s _
theorem execScionTagHoldExpiry_later (sc tag : Nat) (s : State) : Later s (resFix (execScionTagHoldExpiry sc tag s)) := by
  generalize hff : @execScionTagHoldExpiry = ff
  delta execScionTagHoldExpiry at hff
  subst hff
  beta_reduce
  (repeat' split) <;> (try simp only [resFix_next, scionGo_fix, updSc_fix]) <;> (repeat' split) <;> first | exact later_refl s | exact later_to s _
theorem msixPut_fix (s : State) (sc o : Nat) (v : Word) : (msixPut s sc o v).fix = s.fix := by
  simp only [msixPut, apply_ite State.fix, ite_self, updSc_fix, scionPending_fix]
theorem hostUr_fix (s : State) (k : Nat) (t : Tlp) : (hostUr s k t).fix = s.fix := by
  simp only [hostUr, apply_ite State.fix, ite_self, emit_fix]
theorem msixPage_fix (s : State) (sc o : Nat) (t : Tlp) : (msixPage s sc o t).fix = s.fix := by
  simp only [msixPage, apply_ite State.fix, ite_self, foldl_fix, implies_true, hostUr_fix, emit_fix, msixPut_fix]
theorem scionAsk_fix (s : State) (sc p : Nat) (t : Tlp) : (scionAsk s sc p t).fix = s.fix := by
  simp only [scionAsk, apply_ite State.fix, ite_self, allocFrame_fix, updFwd_fix, emit_fix]
theorem execScionHostRequest_fix (sc off : Nat) (t : Tlp) (s : State) : resFix (execScionHostRequest sc off t s) = some s.fix := by
  simp only [execScionHostRequest, resFix_next, apply_ite resFix, ite_self, hostUr_fix, msixPage_fix, scionAsk_fix, emit_fix]
theorem execScionDeviceRequest_fix (p : Nat) (t : Tlp) (s : State) : resFix (execScionDeviceRequest p t s) = some s.fix := by
  simp only [execScionDeviceRequest, resFix_next, apply_ite resFix, ite_self, countIn_fix, updScion_fix, scionTake_fix]
theorem execScionDeviceMsix_fix (p v : Nat) (s : State) : resFix (execScionDeviceMsix p v s) = some s.fix := by
  generalize hff : @execScionDeviceMsix = ff
  delta execScionDeviceMsix at hff
  subst hff
  beta_reduce
  (try simp only [fix_mk, fix_fold, fuses_mk, fuses_fold, resFix_next, apply_ite State.fix, apply_ite resFix, ite_self, foldl_fix, implies_true,
    bump_fix, scionMsi_fix])
  (repeat' split) <;> simp only [fix_mk, fix_fold, fuses_mk, fuses_fold, resFix_next, apply_ite State.fix, apply_ite resFix, ite_self, foldl_fix,
    implies_true, bump_fix, scionMsi_fix]
theorem execScionQueueWaitExpiry_later (sc : Nat) (s : State) : Later s (resFix (execScionQueueWaitExpiry sc s)) := by
  simp only [execScionQueueWaitExpiry, resFix_next, apply_ite resFix, scionResetGo_fix, fault_fix]
  all_goals (repeat' split)
  all_goals first | exact later_refl s | exact later_to s _
theorem execDirtyStart_fix (q : ReqSrc) (sc : Nat) (base : BitVec 64) (log2 : Nat) (bufA bufB : BitVec 64) (pasid : Option (BitVec 20)) (s : State) : resFix (execDirtyStart q sc base log2 bufA bufB pasid s) = some s.fix := by
  simp only [execDirtyStart, resFix_next, apply_ite State.fix, ite_self, implies_true, serve_fix, notFound_fix, reply_fix, updSc_fix, wrF_fix,
    noteScions_fix]
theorem dirtyAsk_fix (s : State) (q : ReqSrc) (sc code : Nat) (stop : Bool) : (dirtyAsk s q sc code stop).fix = s.fix := by
  simp only [dirtyAsk, apply_ite State.fix, ite_self, notFound_fix, reply_fix, scionGo_fix, dirtySyncGo_fix, updDirty_fix]
theorem execDirtyStop_fix (q : ReqSrc) (sc : Nat) (s : State) : resFix (execDirtyStop q sc s) = some s.fix := by
  simp only [execDirtyStop, resFix_next, implies_true, serve_fix, dirtyAsk_fix]
theorem execDirtySync_fix (q : ReqSrc) (sc : Nat) (s : State) : resFix (execDirtySync q sc s) = some s.fix := by
  simp only [execDirtySync, resFix_next, implies_true, serve_fix, dirtyAsk_fix]
theorem execDirtyWordFill_fix (sc wordIdx : Nat) (data : BitVec 64) (s : State) : resFix (execDirtyWordFill sc wordIdx data s) = some s.fix := by
  generalize hff : @execDirtyWordFill = ff
  delta execDirtyWordFill at hff
  subst hff
  beta_reduce
  (repeat' split) <;> simp only [resFix_next, updDirty_fix, scionGo_fix, dirtySyncGo_fix]
theorem sharedTrigger_fix (s : State) (p : Nat) : (sharedTrigger s p).fix = s.fix := by
  generalize hff : @sharedTrigger = ff
  delta sharedTrigger at hff
  subst hff
  beta_reduce
  split <;> simp only [apply_ite State.fix, ite_self, foldl_fix, implies_true, faultP_fix, wrB_fix, scionResetGo_fix, updFwd_fix, updScion_fix,
    wrF_fix]
theorem execSharedPortTrigger_fix (p : Nat) (s : State) : resFix (execSharedPortTrigger p s) = some s.fix := by
  simp only [execSharedPortTrigger, resFix_next, sharedTrigger_fix]
theorem sharedBack_fix (s : State) (sc : Nat) : (sharedBack s sc).fix = s.fix := by
  simp only [sharedBack, apply_ite State.fix, ite_self, updSc_fix, scionResetEnd_fix, instWrite_fix, scionEvent_fix, setScState_fix]
theorem execSharedPortRetrainExpiry_later (p : Nat) (ok : Bool) (s : State) : Later s (resFix (execSharedPortRetrainExpiry p ok s)) := by
  generalize hff : @execSharedPortRetrainExpiry = ff
  delta execSharedPortRetrainExpiry at hff
  subst hff
  beta_reduce
  (repeat' split) <;> (try simp only [resFix_next, apply_ite resFix, ite_self, foldl_fix, implies_true, wrB_fix, wrF_fix, updScion_fix,
    deviceTake_fix, scionGo_fix, noteScions_fix, sharedBack_fix]) <;> (repeat' split) <;> first | exact later_refl s | exact later_to s _
theorem execShaperRefill_later (s : State) : Later s (resFix (execShaperRefill s)) := by
  simp only [execShaperRefill, resFix_next, foldl_fix, implies_true, refillOne_fix, updScion_fix, scionGo_fix]
  all_goals (repeat' split)
  all_goals first | exact later_refl s | exact later_tick s _ (by decide)
theorem execHedgeRule_fix (q : ReqSrc) (unit : Nat) (es : List HedgeEntry) (s : State) : resFix (execHedgeRule q unit es s) = some s.fix := by
  simp only [execHedgeRule, resFix_next, apply_ite State.fix, ite_self, implies_true, serve_fix, reply_fix, hedgeQueue_fix]
theorem ruleDone_fix (s : State) (r : HedgeReq) : (ruleDone s r).fix = s.fix := by
  generalize hff : @ruleDone = ff
  delta ruleDone at hff
  subst hff
  beta_reduce
  split <;> simp only [apply_ite State.fix, ite_self, createEnd_fix, reply_fix]
theorem execHedgeInflightDrained_fix (unit : Nat) (s : State) : resFix (execHedgeInflightDrained unit s) = some s.fix := by
  generalize hff : @execHedgeInflightDrained = ff
  delta execHedgeInflightDrained at hff
  subst hff
  beta_reduce
  split <;> simp only [resFix_next, apply_ite resFix, ite_self, hedgeNext_fix, ruleDone_fix, hedgeCommit_fix]
theorem ruleBusy_fix (s : State) (r : HedgeReq) : (ruleBusy s r).fix = s.fix := by
  generalize hff : @ruleBusy = ff
  delta ruleBusy at hff
  subst hff
  beta_reduce
  split <;> simp only [reply_fix, createUndo_fix]
theorem execHedgeHoldExpiry_later (unit : Nat) (s : State) : Later s (resFix (execHedgeHoldExpiry unit s)) := by
  generalize hff : @execHedgeHoldExpiry = ff
  delta execHedgeHoldExpiry at hff
  subst hff
  beta_reduce
  (repeat' split) <;> (try simp only [resFix_next, apply_ite resFix, ite_self, hedgeAbandon_fix, hedgeNext_fix, ruleBusy_fix,
    wrF_fix]) <;> (repeat' split) <;> first | exact later_refl s | exact later_to s _
theorem execHedgeRetryExpiry_later (unit : Nat) (s : State) : Later s (resFix (execHedgeRetryExpiry unit s)) := by
  simp only [execHedgeRetryExpiry, resFix_next, apply_ite resFix, hedgeStart_fix]
  all_goals (repeat' split)
  all_goals first | exact later_refl s | exact later_to s _
theorem notePw_fix (s : State) (k : Nat) : (notePw s k).fix = s.fix := by
  simp only [notePw, wrB_fix]
theorem execPwSet_fix (q : ReqSrc) (w : Nat) (valid : Bool) (srcBase srcLimit tgtBase : BitVec 64) (target : Nat) (s : State) : resFix (execPwSet q w valid srcBase srcLimit tgtBase target s) = some s.fix := by
  simp only [execPwSet, resFix_next, apply_ite State.fix, ite_self, implies_true, serve_fix, reply_fix, wr64_fix, wrN_fix, notePw_fix]
theorem pwCopy_fix (s : State) (k : Nat) : (pwCopy s k).fix = s.fix := by
  simp only [pwCopy, foldl_fix, implies_true, wr64_fix, wr_fix]
theorem execPwCommit_fix (q : ReqSrc) (s : State) : resFix (execPwCommit q s) = some s.fix := by
  simp only [execPwCommit, resFix_next, apply_ite State.fix, ite_self, implies_true, serve_fix, reply_fix, bump_fix, pwCopy_fix, wrF_fix, notePw_fix,
    count_fix]

end Sys2Proof.Machine
end

