-- ==== Sys2Proof/Laws/FixPcie.lean ====
section
/-! SUPPORT. Each definition over the state in MefOps, CfgSpace, Pcie, Lanes, Faults, MgmtOps, Mgmt keeps the queue, the time and the fuses; a row
that ends a stated span of time may move the time on. -/

set_option linter.unusedSimpArgs false

namespace Sys2Proof.Machine

open Sys2Proof

theorem setMefD_fix (s : State) (k n : Nat) : (setMefD s k n).fix = s.fix := by
  simp only [setMefD, wrF_fix]
theorem setBme_fix (s : State) (k : Nat) (b : Bool) : (setBme s k b).fix = s.fix := by
  simp only [setBme, wrB_fix]
theorem msixPending_fix (s : State) (k : Nat) : (msixPending s k).fix = s.fix := by
  simp only [msixPending, apply_ite State.fix, ite_self, foldl_fix, implies_true, count_fix, emit_fix, updMef_fix]
theorem takeFetched_fix (s : State) (k sq : Nat) (ep : Bool) (n : Nat) (ws : List Word) : (takeFetched s k sq ep n ws).fix = s.fix := by
  induction n generalizing s ws with
  | zero => rfl
  | succ n ih =>
    unfold takeFetched
    exact (ih _ _).trans (takeWqe_fix _ _ _ _)
theorem failWqe_fix (s : State) (k sq : Nat) : (failWqe s k sq).fix = s.fix := by
  simp only [failWqe, freshBits_fix, finishMsg_fix, takeWqe_fix]
theorem failFetch_fix (s : State) (k sq : Nat) (n : Nat) : (failFetch s k sq n).fix = s.fix := by
  induction n generalizing s k sq with
  | zero => simp only [failFetch, fix_mk, fix_fold, fuses_mk, fuses_fold, resFix_next, apply_ite State.fix, apply_ite resFix, ite_self, foldl_fix,
    implies_true, failWqe_fix]
  | succ n ih => simp only [failFetch, ih, fix_mk, fix_fold, fuses_mk, fuses_fold, resFix_next, apply_ite State.fix, apply_ite resFix, ite_self,
    foldl_fix, implies_true, failWqe_fix]
theorem endRead_fix (s : State) (k : Nat) (r : MefRd) : (endRead s k r).fix = s.fix := by
  simp only [endRead, readGo_fix, mefTp_fix, readFree_fix, updMef_fix]
theorem readGives_fix (s : State) (k : Nat) (o : MefOwner) (ok poison : Bool) (data : List Word) : (readGives s k o ok poison data).fix = s.fix := by
  generalize hff : @readGives = ff
  delta readGives at hff
  subst hff
  beta_reduce
  split <;> simp only [apply_ite State.fix, ite_self, takeFetched_fix, failFetch_fix, sqFetch_fix, sqDestroy_fix, srcDone_fix, fillDone_fix]
theorem readLost_fix (s : State) (k : Nat) (o : MefOwner) : (readLost s k o).fix = s.fix := by
  generalize hff : @readLost = ff
  delta readLost at hff
  subst hff
  beta_reduce
  split <;> simp only [srcDone_fix, updMef_fix]
theorem askAgain_fix (s : State) (k : Nat) (o : MefOwner) : (askAgain s k o).fix = s.fix := by
  generalize hff : @askAgain = ff
  delta askAgain at hff
  subst hff
  beta_reduce
  (repeat' split) <;> simp only [apply_ite State.fix, ite_self, engRead_fix, mefRead_fix]
theorem discardWrite_fix (s : State) (k : Nat) (e : QEntry) (o : MefOwner) : (discardWrite s k e o).fix = s.fix := by
  generalize hff : @discardWrite = ff
  delta discardWrite at hff
  subst hff
  beta_reduce
  (try simp only [fix_mk, fix_fold, fuses_mk, fuses_fold, resFix_next, apply_ite State.fix, apply_ite resFix, ite_self, foldl_fix, implies_true,
    dropEntry_fix, count_fix, bump_fix, clEnd_fix, connError_fix, regionDone_fix, reply_fix, updPf_fix, updMef_fix])
  (repeat' split) <;> simp only [fix_mk, fix_fold, fuses_mk, fuses_fold, resFix_next, apply_ite State.fix, apply_ite resFix, ite_self, foldl_fix,
    implies_true, dropEntry_fix, count_fix, bump_fix, clEnd_fix, connError_fix, regionDone_fix, reply_fix, updPf_fix, updMef_fix]
theorem discardWrites_fix (s : State) (k : Nat) : (discardWrites s k).fix = s.fix := by
  generalize hff : @discardWrites = ff
  delta discardWrites at hff
  subst hff
  beta_reduce
  (repeat' (first | split | refine foldl_fix_to _ _ _ _ (fun _ _ => ?_) ?_)) <;> simp only [takeQueue_fix, discardWrite_fix]
theorem mefStop_fix (s : State) (k : Nat) : (mefStop s k).fix = s.fix := by
  simp only [mefStop, discardWrites_fix, setBme_fix, mefTp_fix, wrF_fix]
theorem bmeOff_fix (s : State) (k : Nat) : (bmeOff s k).fix = s.fix := by
  simp only [bmeOff, apply_ite State.fix, ite_self, mefStop_fix]
theorem writeAgain_fix (s : State) (k : Nat) (w : MefWrite) : (writeAgain s k w).fix = s.fix := by
  generalize hff : @writeAgain = ff
  delta writeAgain at hff
  subst hff
  beta_reduce
  split <;> simp only [apply_ite State.fix, ite_self, engWrite_fix, spillDone_fix, mefWrite_fix]
theorem rmeResume_fix (s : State) (k : Nat) : (rmeResume s k).fix = s.fix := by
  simp only [rmeResume, foldl_fix, implies_true, updMef_fix, writeAgain_fix, askAgain_fix, wrB_fix, sqFetch_fix, fillCtx_fix, askData_fix, askCl_fix,
    dirtySyncGo_fix, readGo_fix, scionGo_fix]
theorem bmeOn_fix (s : State) (k : Nat) : (bmeOn s k).fix = s.fix := by
  simp only [bmeOn, apply_ite State.fix, ite_self, rmeResume_fix, msixPending_fix, setBme_fix]
theorem endFences_fix (s : State) (k : Nat) : (endFences s k).fix = s.fix := by
  simp only [endFences, foldl_fix, implies_true, finishFence_fix, updLand_fix, emit_fix]
theorem endBar2_fix (s : State) (k : Nat) : (endBar2 s k).fix = s.fix := by
  simp only [endBar2, foldl_fix, implies_true, emit_fix, updLand_fix]
theorem orphanMsg_fix (s : State) (m : RMsg) : (orphanMsg s m).fix = s.fix := by
  simp only [orphanMsg, apply_ite State.fix, ite_self, setResp_fix, updMsg_fix, updRme_fix]
theorem closeQueues_fix (s : State) (k : Nat) : (closeQueues s k).fix = s.fix := by
  simp only [closeQueues, foldl_fix, implies_true, orphanMsg_fix, updRme_fix, reply_fix, noteQueues_fix]
theorem closeConns_fix (s : State) (k : Nat) : (closeConns s k).fix = s.fix := by
  simp only [closeConns, foldl_fix, implies_true, closePump_fix, updCtx_fix]
theorem drainRegions_fix (s : State) (k : Nat) : (drainRegions s k).fix = s.fix := by
  generalize hff : @drainRegions = ff
  delta drainRegions at hff
  subst hff
  beta_reduce
  (repeat' (first | split | refine foldl_fix_to _ _ _ _ (fun _ _ => ?_) ?_)) <;> simp only [updRme_fix, updRegion_fix, sendCtrl_fix]
theorem rmeReset_fix (s : State) (k : Nat) : (rmeReset s k).fix = s.fix := by
  simp only [rmeReset, closeQueues_fix, updRme_fix, flrAreas_fix, noteRme_fix, drainRegions_fix, closeConns_fix]
theorem mailReset_fix (s : State) (k : Nat) : (mailReset s k).fix = s.fix := by
  simp only [mailReset, fix_mk, fix_fold]
theorem flrEnd_fix (s : State) (k : Nat) : (flrEnd s k).fix = s.fix := by
  simp only [flrEnd, fix_mk, fix_fold, cfgClear_fix, wrN_fix]
theorem flrTry_fix (s : State) (k : Nat) : (flrTry s k).fix = s.fix := by
  simp only [flrTry, apply_ite State.fix, ite_self, flrEnd_fix]
theorem mefReset_fix (s : State) (k : Nat) : (mefReset s k).fix = s.fix := by
  generalize hff : @mefReset = ff
  delta mefReset at hff
  subst hff
  beta_reduce
  split
  · rfl
  have hg : ∀ (s : State) (a : MefAsk), (a.tag.elim s (hedgeDrop s)).fix = s.fix := fun s a => by
    cases a.tag
    · rfl
    · exact hedgeDrop_fix _ _
  simp only [hg, fix_mk, fix_fold, fuses_mk, fuses_fold, resFix_next, apply_ite State.fix, apply_ite resFix, ite_self, foldl_fix, implies_true,
    endBar2_fix, endFences_fix, updMef_fix, mefStop_fix, wrB_fix, flrTry_fix, mailReset_fix, rmeReset_fix]
theorem readEnds_fix (s : State) (k tag : Nat) (f : State → Bool → MefRd → State) (hf : ∀ s b o, (f s b o).fix = s.fix) : (readEnds s k tag
    f).fix = s.fix := by
  generalize hff : @readEnds = ff
  delta readEnds at hff
  subst hff
  beta_reduce
  split <;> simp only [hf, flrTry_fix, endRead_fix]
theorem setLtssm_fix (s : State) (p n : Nat) : (setLtssm s p n).fix = s.fix := by
  simp only [setLtssm, wrF_fix]
theorem portNote_fix (s : State) (p : Nat) (f : VdspSt → VdspSt) : (portNote s p f).fix = s.fix := by
  generalize hff : @portNote = ff
  delta portNote at hff
  subst hff
  beta_reduce
  split <;> simp only [updVdsp_fix]
theorem dlDown_fix (s : State) (p : Nat) : (dlDown s p).fix = s.fix := by
  simp only [dlDown, apply_ite State.fix, ite_self, foldl_fix, implies_true, wrB_fix, count_fix, bump_fix, lockPortLost_fix, portNote_fix]
theorem portDrain_fix (s : State) (p status : Nat) : (portDrain s p status).fix = s.fix := by
  generalize hff : @portDrain = ff
  delta portDrain at hff
  subst hff
  beta_reduce
  refine foldl_fix_to _ _ _ _ (fun s c => (mapComplete_fix _ _ _ _ _ _ _).trans (freshBits_fix _ _)) ?_
  rw [updFwd_fix]
  refine foldl_fix_to _ _ _ _ (fun s e => emit_fix _ _) ?_
  rw [fix_mk, fix_fold]
  refine foldl_fix_to _ _ _ _ (fun s e => ?_) ?_
  · simp only [completeTo_fix, dropEntry_fix]
  rw [updFwd_fix]
  refine foldl_fix_to _ _ _ _ (fun s t => ?_) ?_
  · refine foldl_fix_to _ _ _ _ (fun s e => ?_) (takeQueue_fix _ _ _ _)
    simp only [completeTo_fix, dropEntry_fix]
  refine foldl_fix_to _ _ _ _ (fun s c => ?_) rfl
  split <;> simp only [fix_mk, fix_fold, fuses_mk, fuses_fold, resFix_next, apply_ite State.fix, apply_ite resFix, ite_self, foldl_fix, implies_true,
    updFwd_fix, completeTo_fix, dropEntry_fix, bump_fix]
theorem contain_fix (s : State) (p : Nat) (c : DpcCause) : (contain s p c).fix = s.fix := by
  simp only [contain, faultP_fix, wrB_fix, setLtssm_fix, portNote_fix, dlDown_fix, portDrain_fix]
theorem release_fix (s : State) (p : Nat) : (release s p).fix = s.fix := by
  simp only [release, apply_ite State.fix, ite_self, wrB_fix, setLtssm_fix, portNote_fix, bump_fix]
theorem retrain_fix (s : State) (p rate : Nat) : (retrain s p rate).fix = s.fix := by
  simp only [retrain, fix_mk, fix_fold, apply_ite State.fix, ite_self, setLtssm_fix]
theorem vdspRetrain_fix (s : State) (k j : Nat) : (vdspRetrain s k j).fix = s.fix := by
  generalize hff : @vdspRetrain = ff
  delta vdspRetrain at hff
  subst hff
  beta_reduce
  split <;> simp only [apply_ite State.fix, ite_self, retrain_fix]
theorem vdspDisable_fix (s : State) (k j : Nat) (b : Bool) : (vdspDisable s k j b).fix = s.fix := by
  generalize hff : @vdspDisable = ff
  delta vdspDisable at hff
  subst hff
  beta_reduce
  (try simp only [fix_mk, fix_fold, fuses_mk, fuses_fold, resFix_next, apply_ite State.fix, apply_ite resFix, ite_self, foldl_fix, implies_true,
    cfgF_fix, dlDown_fix, setLtssm_fix])
  (repeat' split) <;> simp only [fix_mk, fix_fold, fuses_mk, fuses_fold, resFix_next, apply_ite State.fix, apply_ite resFix, ite_self, foldl_fix,
    implies_true, cfgF_fix, dlDown_fix, setLtssm_fix]
theorem awaitCmd_fix (s : State) (c key : Nat) : (awaitCmd s c key).fix = s.fix := by
  simp only [awaitCmd, updChan_fix]
theorem powerOffSlot_fix (s : State) (k j : Nat) : (powerOffSlot s k j).fix = s.fix := by
  generalize hff : @powerOffSlot = ff
  delta powerOffSlot at hff
  subst hff
  beta_reduce
  (try simp only [fix_mk, fix_fold, fuses_mk, fuses_fold, resFix_next, apply_ite State.fix, apply_ite resFix, ite_self, foldl_fix, implies_true,
    cfgF_fix, turnOff_fix, awaitCmd_fix, dlDown_fix, setLtssm_fix])
  (repeat' split) <;> simp only [fix_mk, fix_fold, fuses_mk, fuses_fold, resFix_next, apply_ite State.fix, apply_ite resFix, ite_self, foldl_fix,
    implies_true, cfgF_fix, turnOff_fix, awaitCmd_fix, dlDown_fix, setLtssm_fix]
theorem powerOnSlot_fix (s : State) (k j : Nat) : (powerOnSlot s k j).fix = s.fix := by
  generalize hff : @powerOnSlot = ff
  delta powerOnSlot at hff
  subst hff
  beta_reduce
  (try simp only [fix_mk, fix_fold, fuses_mk, fuses_fold, resFix_next, apply_ite State.fix, apply_ite resFix, ite_self, foldl_fix, implies_true,
    cfgF_fix, cmdDone_fix, awaitCmd_fix, tryTurnOn_fix])
  (repeat' split) <;> simp only [fix_mk, fix_fold, fuses_mk, fuses_fold, resFix_next, apply_ite State.fix, apply_ite resFix, ite_self, foldl_fix,
    implies_true, cfgF_fix, cmdDone_fix, awaitCmd_fix, tryTurnOn_fix]
theorem indicate_fix (s : State) (c : Nat) (pwr attn : Bool) : (indicate s c pwr attn).fix = s.fix := by
  simp only [indicate, apply_ite State.fix, ite_self, emit_fix, updChan_fix]
theorem slotControl_fix (s : State) (k j : Nat) (v : Word) : (slotControl s k j v).fix = s.fix := by
  generalize hff : @slotControl = ff
  delta slotControl at hff
  subst hff
  beta_reduce
  (try simp only [fix_mk, fix_fold, fuses_mk, fuses_fold, resFix_next, apply_ite State.fix, apply_ite resFix, ite_self, foldl_fix, implies_true,
    indicate_fix, powerOffSlot_fix, powerOnSlot_fix])
  (repeat' split) <;> simp only [fix_mk, fix_fold, fuses_mk, fuses_fold, resFix_next, apply_ite State.fix, apply_ite resFix, ite_self, foldl_fix,
    implies_true, indicate_fix, powerOffSlot_fix, powerOnSlot_fix]
theorem dpcSoft_fix (s : State) (k j : Nat) (trigger : Bool) : (dpcSoft s k j trigger).fix = s.fix := by
  simp only [dpcSoft, apply_ite State.fix, ite_self, foldl_fix, implies_true, updVdsp_fix, contain_fix, release_fix, brgOrphanVdsp_fix, updSc_fix,
    scionResetGo_fix]
theorem writePmcsr_fix (s : State) (k d : Nat) : (writePmcsr s k d).fix = s.fix := by
  simp only [writePmcsr, apply_ite State.fix, ite_self, setMefD_fix, mefReset_fix, bump_fix]
theorem mefFlr_fix (s : State) (k : Nat) : (mefFlr s k).fix = s.fix := by
  simp only [mefFlr, apply_ite State.fix, ite_self, mefReset_fix, bump_fix]
theorem mefEffect_fix (s : State) (k cap off : Nat) (m v : Word) : (mefEffect s k cap off m v).fix = s.fix := by
  simp only [mefEffect, apply_ite State.fix, ite_self, bmeOn_fix, bmeOff_fix, mefFlr_fix, writePmcsr_fix, msixPending_fix]
theorem vdspEffect_fix (s : State) (k j cap off : Nat) (m v : Word) (wasDis : Bool) : (vdspEffect s k j cap off m v wasDis).fix = s.fix := by
  simp only [vdspEffect, apply_ite State.fix, ite_self, vdspDisable_fix, vdspRetrain_fix, slotControl_fix, updVdsp_fix, dpcSoft_fix]
theorem scionEffect_fix (s : State) (sc cap off : Nat) (m v : Word) : (scionEffect s sc cap off m v).fix = s.fix := by
  simp only [scionEffect, apply_ite State.fix, ite_self, scionGo_fix, scionPending_fix, wrB_fix, updSc_fix, scionResetGo_fix]
theorem cfgWrite_fix (s : State) (k : Nat) (f : VFn) (cap off : Nat) (be : BitVec 4) (v : Word) : (cfgWrite s k f cap off be v).fix = s.fix := by
  generalize hff : @cfgWrite = ff
  delta cfgWrite at hff
  subst hff
  beta_reduce
  (repeat' split) <;> simp only [cfgSet_fix, mefEffect_fix, vdspEffect_fix, scionEffect_fix]
theorem cfgCpl_fix (s : State) (p : Nat) (c : CfgIn) (status : Nat) (data : List Word) : (cfgCpl s p c status data).fix = s.fix := by
  simp only [cfgCpl, emit_fix]
theorem cfgServe_fix (s : State) (p k : Nat) (f : VFn) (c : CfgIn) : (cfgServe s p k f c).fix = s.fix := by
  generalize hff : @cfgServe = ff
  delta cfgServe at hff
  subst hff
  beta_reduce
  split <;> simp only [cfgCpl_fix, cfgWrite_fix]
theorem cfgEmpty_fix (s : State) (p : Nat) (c : CfgIn) (beyond : Bool) : (cfgEmpty s p c beyond).fix = s.fix := by
  simp only [cfgEmpty, apply_ite State.fix, ite_self, cfgCpl_fix]
theorem cfgBelow_fix (s : State) (p k j : Nat) (beyond : Bool) (c : CfgIn) : (cfgBelow s p k j beyond c).fix = s.fix := by
  generalize hff : @cfgBelow = ff
  delta cfgBelow at hff
  subst hff
  beta_reduce
  (repeat' split) <;> simp only [apply_ite State.fix, ite_self, cfgCpl_fix, npPush_fix, cfgEmpty_fix, cfgServe_fix]
theorem execConfigRequest_fix (p : Nat) (c : CfgIn) (s : State) : resFix (execConfigRequest p c s) = some s.fix := by
  generalize hff : @execConfigRequest = ff
  delta execConfigRequest at hff
  subst hff
  beta_reduce
  (repeat' split) <;> simp only [resFix_next, cfgCpl_fix, cfgServe_fix, cfgBelow_fix]
theorem msixWrite_fix (s : State) (k o : Nat) (v : Word) : (msixWrite s k o v).fix = s.fix := by
  simp only [msixWrite, apply_ite State.fix, ite_self, msixPending_fix, updMef_fix]
theorem execMefMemoryRequest_fix (host : Nat) (posted : Bool) (bar off : Nat) (prot : Bool) (reqId : BitVec 16) (tag : BitVec 10) (v : Word) (s : State) : resFix (execMefMemoryRequest host posted bar off prot reqId tag v s) = some s.fix := by
  simp only [execMefMemoryRequest, resFix_next, apply_ite resFix, ite_self, emit_fix, msixWrite_fix, noteReqFree_fix, recFault_fix, recLast_fix,
    updRec_fix]
theorem execMsixSend_fix (host v : Nat) (s : State) : resFix (execMsixSend host v s) = some s.fix := by
  simp only [execMsixSend, resFix_next, apply_ite resFix, ite_self, count_fix, emit_fix, updMef_fix]
theorem execPmeSignal_fix (host : Nat) (s : State) : resFix (execPmeSignal host s) = some s.fix := by
  simp only [execPmeSignal, resFix_next, mefPme_fix]
theorem execPmeTurnOff_fix (host : Nat) (s : State) : resFix (execPmeTurnOff host s) = some s.fix := by
  simp only [execPmeTurnOff, resFix_next, turnOffAck_fix, updMef_fix]
theorem execD3hotToD0_fix (host : Nat) (s : State) : resFix (execD3hotToD0 host s) = some s.fix := by
  simp only [execD3hotToD0, resFix_next, writePmcsr_fix]
theorem execBmeClear_fix (host : Nat) (s : State) : resFix (execBmeClear host s) = some s.fix := by
  simp only [execBmeClear, resFix_next, bmeOff_fix]
theorem execBmeSet_fix (host : Nat) (s : State) : resFix (execBmeSet host s) = some s.fix := by
  simp only [execBmeSet, resFix_next, bmeOn_fix]
theorem execMefCompletionReceive_fix (host tag : Nat) (ok poison : Bool) (data : List Word) (s : State) : resFix (execMefCompletionReceive host tag ok poison data s) = some s.fix := by
  simp only [execMefCompletionReceive, resFix_next, apply_ite State.fix, ite_self, implies_true, readEnds_fix, count_fix, bump_fix, readLost_fix,
    readGives_fix]
theorem readTimedOut_fix (s : State) (k : Nat) (old : Bool) (o : MefOwner) : (readTimedOut s k old o).fix = s.fix := by
  simp only [readTimedOut, apply_ite State.fix, ite_self, reportUnc_fix, bump_fix, readLost_fix, readGives_fix]
theorem execMefCompletionTimeout_later (host tag : Nat) (s : State) : Later s (resFix (execMefCompletionTimeout host tag s)) := by
  generalize hff : @execMefCompletionTimeout = ff
  delta execMefCompletionTimeout at hff
  subst hff
  beta_reduce
  (repeat' split) <;> (try simp only [resFix_next, implies_true, readEnds_fix,
    readTimedOut_fix]) <;> (repeat' split) <;> first | exact later_refl s | exact later_to s _
theorem execFunctionLevelReset_fix (host : Nat) (s : State) : resFix (execFunctionLevelReset host s) = some s.fix := by
  simp only [execFunctionLevelReset, resFix_next, mefFlr_fix]
theorem execFlrDrainExpiry_fix (host : Nat) (s : State) : resFix (execFlrDrainExpiry host s) = some s.fix := by
  simp only [execFlrDrainExpiry, resFix_next, apply_ite resFix, ite_self, foldl_fix, implies_true, readEnds_fix, readTimedOut_fix]
theorem hierReset_fix (s : State) (k : Nat) : (hierReset s k).fix = s.fix := by
  generalize hff : @hierReset = ff
  delta hierReset at hff
  subst hff
  beta_reduce
  rw [brgOrphan_fix]
  refine foldl_fix_to _ _ _ _ (fun s c => scionResetGo_fix _ _ _ _ _ _) ?_
  rw [cfgClearHost_fix]
  refine foldl_fix_to _ _ _ _ (fun s j => ?_) (mefReset_fix _ _)
  rw [updVdsp_fix]
  split <;> simp only [fix_mk, fix_fold, fuses_mk, fuses_fold, resFix_next, apply_ite State.fix, apply_ite resFix, ite_self, foldl_fix, implies_true,
    wrB_fix, setLtssm_fix, emit_fix, portDrain_fix, dlDown_fix]
theorem execUpstreamLinkDown_fix (host : Nat) (s : State) : resFix (execUpstreamLinkDown host s) = some s.fix := by
  simp only [execUpstreamLinkDown, resFix_next, apply_ite resFix, ite_self, hierReset_fix, dlDown_fix, setLtssm_fix]
theorem execHotReset_fix (host : Nat) (s : State) : resFix (execHotReset host s) = some s.fix := by
  simp only [execHotReset, resFix_next, apply_ite resFix, ite_self, hierReset_fix, dlDown_fix, setLtssm_fix]
theorem execVdspRetrainLink_fix (host j : Nat) (s : State) : resFix (execVdspRetrainLink host j s) = some s.fix := by
  simp only [execVdspRetrainLink, resFix_next, vdspRetrain_fix]
theorem execVdspLinkDisable_fix (host j : Nat) (s : State) : resFix (execVdspLinkDisable host j s) = some s.fix := by
  simp only [execVdspLinkDisable, resFix_next, vdspDisable_fix]
theorem execPcieLinkRetrain_fix (p : Nat) (v : Word) (s : State) : resFix (execPcieLinkRetrain p v s) = some s.fix := by
  simp only [execPcieLinkRetrain, resFix_next, apply_ite resFix, ite_self, wrF_fix, retrain_fix]
theorem dlUpRole_fix (s : State) (p : Nat) : (dlUpRole s p).fix = s.fix := by
  generalize hff : @dlUpRole = ff
  delta dlUpRole at hff
  subst hff
  beta_reduce
  (repeat' split) <;> simp only [apply_ite State.fix, ite_self, wrN_fix, updMef_fix, emit_fix, heldGo_fix, wrB_fix]
theorem noteLanes_fix (s : State) (p : Nat) (lanes : List LaneEq) : (noteLanes s p lanes).fix = s.fix := by
  simp only [noteLanes, fix_mk, fix_fold, foldl_fix, implies_true, wrB_fix, wr_fix]
theorem noteLow_fix (s : State) (p : Nat) (x : LinkLow) : (noteLow s p x).fix = s.fix := by
  simp only [noteLow, foldl_fix, implies_true, bumpBy_fix, wrN_fix]
theorem execPcieDlUp_fix (p : Nat) (rate : BitVec 3) (width : BitVec 2) (flit : Bool) (lanes : List LaneEq) (low : LinkLow) (s : State) : resFix (execPcieDlUp p rate width flit lanes low s) = some s.fix := by
  simp only [execPcieDlUp, fix_mk, fix_fold, resFix_next, apply_ite State.fix, apply_ite resFix, ite_self, foldl_fix, implies_true, wrB_fix, wrF_fix,
    setLtssm_fix, emit_fix, noteLow_fix, noteLanes_fix, dlUpRole_fix, portNote_fix]
theorem execUpWakePulseExpiry_fix (host : Nat) (s : State) : resFix (execUpWakePulseExpiry host s) = some s.fix := by
  simp only [execUpWakePulseExpiry, resFix_next, apply_ite resFix, ite_self, emit_fix, updMef_fix]
theorem reportError_fix (s : State) (p : Nat) (c : DpcCause) : (reportError s p c).fix = s.fix := by
  generalize hff : @reportError = ff
  delta reportError at hff
  subst hff
  beta_reduce
  split <;> simp only [reportUnc_fix, emit_fix]
theorem portTrigger_fix (s : State) (p : Nat) (c : DpcCause) : (portTrigger s p c).fix = s.fix := by
  generalize hff : @portTrigger = ff
  delta portTrigger at hff
  subst hff
  beta_reduce
  (try simp only [fix_mk, fix_fold, fuses_mk, fuses_fold, resFix_next, apply_ite State.fix, apply_ite resFix, ite_self, foldl_fix, implies_true,
    reportError_fix, contain_fix, faultP_fix, sharedTrigger_fix, dlDown_fix, setLtssm_fix, moverStop_fix, wrB_fix])
  (repeat' split) <;> simp only [fix_mk, fix_fold, fuses_mk, fuses_fold, resFix_next, apply_ite State.fix, apply_ite resFix, ite_self, foldl_fix,
    implies_true, reportError_fix, contain_fix, faultP_fix, sharedTrigger_fix, dlDown_fix, setLtssm_fix, moverStop_fix, wrB_fix]
theorem linkLost_fix (s : State) (p : Nat) : (linkLost s p).fix = s.fix := by
  simp only [linkLost, apply_ite State.fix, ite_self, setLtssm_fix, hierReset_fix, dlDown_fix, portTrigger_fix]
theorem execDpcTrigger_fix (p : Nat) (c : DpcCause) (s : State) : resFix (execDpcTrigger p c s) = some s.fix := by
  simp only [execDpcTrigger, resFix_next, apply_ite resFix, ite_self, portTrigger_fix]
theorem execDpcRelease_fix (p : Nat) (s : State) : resFix (execDpcRelease p s) = some s.fix := by
  simp only [execDpcRelease, resFix_next, release_fix]
theorem execPowerControllerOff_fix (host j : Nat) (s : State) : resFix (execPowerControllerOff host j s) = some s.fix := by
  simp only [execPowerControllerOff, resFix_next, powerOffSlot_fix]
theorem execPowerControllerOn_fix (host j : Nat) (s : State) : resFix (execPowerControllerOn host j s) = some s.fix := by
  simp only [execPowerControllerOn, resFix_next, powerOnSlot_fix]
theorem updPg_fix (s : State) (k : Nat) (f : PgSt → PgSt) : (updPg s k f).fix = s.fix := by
  simp only [updPg, fix_mk, fix_fold]
theorem refPortDown_fix (s : State) (k p : Nat) : (refPortDown s k p).fix = s.fix := by
  simp only [refPortDown, apply_ite State.fix, ite_self, faultP_fix, memberDown_fix, setNz_fix, updMember_fix, linkLost_fix]
theorem refLost_fix (s : State) (k : Nat) : (refLost s k).fix = s.fix := by
  simp only [refLost, apply_ite State.fix, ite_self, foldl_fix, implies_true, bump_fix, wrB_fix, updPg_fix, prbsUnlock_fix, wrF_fix, refPortDown_fix]
theorem execPgRefEdgeLoss_fix (k : Nat) (s : State) : resFix (execPgRefEdgeLoss k s) = some s.fix := by
  simp only [execPgRefEdgeLoss, resFix_next, apply_ite resFix, ite_self, refLost_fix, wrB_fix]
theorem execPgRefWindow_fix (k : Nat) (offset spread : BitVec 16) (s : State) : resFix (execPgRefWindow k offset spread s) = some s.fix := by
  simp only [execPgRefWindow, resFix_next, apply_ite State.fix, apply_ite resFix, ite_self, wrF_fix, wrB_fix, refLost_fix]
theorem execPgRefRestored_fix (k : Nat) (s : State) : resFix (execPgRefRestored k s) = some s.fix := by
  simp only [execPgRefRestored, resFix_next, apply_ite State.fix, apply_ite resFix, ite_self, foldl_fix, implies_true, updPg_fix, wrB_fix,
    updMember_fix, beginTraining_fix]
theorem execAlnTransmit_fix (p : Nat) (s : State) : resFix (execAlnTransmit p s) = some s.fix := by
  simp only [execAlnTransmit, resFix_next, apply_ite resFix, ite_self, alnSend_fix]
theorem alignStep_fix (s : State) (n pos : Nat) : (alignStep s n pos).fix = s.fix := by
  simp only [alignStep, apply_ite State.fix, ite_self, updLane_fix, wrB_fix, bump_fix]
theorem moveFill_fix (s : State) (z : List (Nat × Int)) : (moveFill s z).fix = s.fix := by
  simp only [moveFill, foldl_fix, implies_true, updLane_fix]
theorem execAlnReceive_fix (p : Nat) (g : LaneGroups) (inFrame : Bool) (drift : List Int) (at_ : List Nat) (s : State) : resFix (execAlnReceive p g inFrame drift at_ s) = some s.fix := by
  generalize hff : @execAlnReceive = ff
  delta execAlnReceive at hff
  subst hff
  beta_reduce
  split <;> simp only [resFix_next, apply_ite State.fix, apply_ite resFix, ite_self, foldl_fix, implies_true, receiveGroups_fix, alignStep_fix,
    moveFill_fix, bumpF_fix]
theorem execElasticBufferSlip_fix (lane : Nat) (s : State) : resFix (execElasticBufferSlip lane s) = some s.fix := by
  simp only [execElasticBufferSlip, resFix_next, updLane_fix, faultP_fix, wrB_fix]
theorem testRefuse_fix (s : State) (n : Nat) : (testRefuse s n).fix = s.fix := by
  simp only [testRefuse, wrB_fix]
theorem holdPort_fix (s : State) (n : Nat) : (holdPort s n).fix = s.fix := by
  simp only [holdPort, apply_ite State.fix, ite_self, updMember_fix, setNz_fix, setLtssm_fix]
theorem startGenerator_fix (s : State) (n : Nat) (v : Word) : (startGenerator s n v).fix = s.fix := by
  simp only [startGenerator, apply_ite State.fix, ite_self, emit_fix]
theorem testBegin_fix (s : State) (n : Nat) (v : Word) : (testBegin s n v).fix = s.fix := by
  simp only [testBegin, wrF_fix, wrN_fix, holdPort_fix, startGenerator_fix, wr64_fix]
theorem testEnd_fix (s : State) (n : Nat) : (testEnd s n).fix = s.fix := by
  simp only [testEnd, emit_fix, wrF_fix, prbsEnd_fix]
theorem testWrite_fix (s : State) (n : Nat) (v : Word) : (testWrite s n v).fix = s.fix := by
  simp only [testWrite, apply_ite State.fix, ite_self, testRefuse_fix, testEnd_fix, wrB_fix, wrN_fix, testBegin_fix, holdPort_fix]
theorem execLaneTestStart_fix (lane : Nat) (v : Word) (s : State) : resFix (execLaneTestStart lane v s) = some s.fix := by
  simp only [execLaneTestStart, resFix_next, testWrite_fix]
theorem execLaneTestStop_fix (lane : Nat) (v : Word) (s : State) : resFix (execLaneTestStop lane v s) = some s.fix := by
  simp only [execLaneTestStop, resFix_next, testWrite_fix]
theorem execPrbsCheckerLock_fix (lane : Nat) (bits : List Bool) (s : State) : resFix (execPrbsCheckerLock lane bits s) = some s.fix := by
  simp only [execPrbsCheckerLock, resFix_next, apply_ite State.fix, apply_ite resFix, ite_self, emit_fix, updLane_fix, wrB_fix]
theorem execPrbsLockLoss_fix (lane : Nat) (bits : List Bool) (s : State) : resFix (execPrbsLockLoss lane bits s) = some s.fix := by
  simp only [execPrbsLockLoss, resFix_next, apply_ite resFix, ite_self, prbsUnlock_fix]
theorem injectBit_fix (s : State) (n : Nat) : (injectBit s n).fix = s.fix := by
  simp only [injectBit, apply_ite State.fix, ite_self, emit_fix, wr64_fix]
theorem execInjectShot_fix (lane : Nat) (s : State) : resFix (execInjectShot lane s) = some s.fix := by
  simp only [execInjectShot, resFix_next, apply_ite resFix, ite_self, injectBit_fix, updLane_fix]
theorem execInjectRateTick_fix (lane : Nat) (s : State) : resFix (execInjectRateTick lane s) = some s.fix := by
  simp only [execInjectRateTick, resFix_next, apply_ite resFix, ite_self, injectBit_fix]
theorem execMarginStart_fix (lane : Nat) (v : Word) (s : State) : resFix (execMarginStart lane v s) = some s.fix := by
  simp only [execMarginStart, resFix_next, apply_ite resFix, ite_self, wrF_fix, wrN_fix]
theorem execMarginDone_fix (lane errs blocks : Nat) (s : State) : resFix (execMarginDone lane errs blocks s) = some s.fix := by
  simp only [execMarginDone, resFix_next, apply_ite resFix, ite_self, wrN_fix, wrF_fix]
theorem linkTakes_fix (s : State) (n : Nat) (step : Bool × Bool × Nat) : (linkTakes s n step).fix = s.fix := by
  simp only [linkTakes, apply_ite State.fix, ite_self, updLane_fix, wrF_fix]
theorem marginCap_fix (s : State) (n k : Nat) : (marginCap s n k).2.fix = s.fix := by
  generalize hff : @marginCap = ff
  delta marginCap at hff
  subst hff
  beta_reduce
  split <;> simp only [freshBits_fix]
theorem execLinkMarginCommand_fix (lane : Nat) (c : MarginCmd) (eyes : List Nat) (s : State) : resFix (execLinkMarginCommand lane c eyes s) = some s.fix := by
  generalize hff : @execLinkMarginCommand = ff
  delta execLinkMarginCommand at hff
  subst hff
  beta_reduce
  (repeat' split) <;> simp only [resFix_next, apply_ite resFix, ite_self, emit_fix, linkTakes_fix, marginCap_fix, updLane_fix]
theorem faultMark_fix (s : State) (f : FaultSrc) : (faultMark s f).fix = s.fix := by
  simp only [faultMark, fix_mk, fix_fold, apply_ite State.fix, ite_self, bumpF_fix, bufferOut_fix]
theorem execFaultArrival_fix (f : FaultSrc) (s : State) : resFix (execFaultArrival f s) = some s.fix := by
  simp only [execFaultArrival, resFix_next, faultMark_fix, recordFault_fix]
theorem errN_fix (s : State) (st : Nat) : (errN s st).fix = s.fix := by
  simp only [errN, wrF_fix, emit_fix]
theorem execErrNPulseEnd_later (s : State) : Later s (resFix (execErrNPulseEnd s)) := by
  simp only [execErrNPulseEnd, fix_mk, fix_fold, resFix_next, apply_ite resFix, errN_fix]
  all_goals (repeat' split)
  all_goals first | exact later_refl s | exact later_to s _
theorem execErrNClear_fix (s : State) : resFix (execErrNClear s) = some s.fix := by
  simp only [execErrNClear, fix_mk, fix_fold, resFix_next, apply_ite resFix, ite_self, errN_fix]
theorem execFaultRecordClear_fix (unit : Nat) (s : State) : resFix (execFaultRecordClear unit s) = some s.fix := by
  simp only [execFaultRecordClear, resFix_next, fltStatus_fix, wrF_fix]
theorem execCounterOvfClear_fix (g j : Nat) (wraps : Bool) (s : State) : resFix (execCounterOvfClear g j wraps s) = some s.fix := by
  simp only [execCounterOvfClear, resFix_next, wrB_fix]
theorem updHv_fix (s : State) (f : HvstSt → HvstSt) : (updHv s f).fix = s.fix := by
  simp only [updHv, fix_mk, fix_fold]
theorem flowSet_fix (s : State) : (flowSet s).fix = s.fix := by
  simp only [flowSet, updHv_fix, wrB_fix]
theorem execXoffReceive_fix (s : State) : resFix (execXoffReceive s) = some s.fix := by
  simp only [execXoffReceive, resFix_next, apply_ite State.fix, apply_ite resFix, ite_self, count_fix, bump_fix, flowSet_fix, wrF_fix]
theorem execXonReceive_fix (s : State) : resFix (execXonReceive s) = some s.fix := by
  simp only [execXonReceive, resFix_next, apply_ite resFix, ite_self, hvGo_fix, wrF_fix, flowSet_fix]
theorem execHarvestFlowLostExpiry_later (s : State) : Later s (resFix (execHarvestFlowLostExpiry s)) := by
  simp only [execHarvestFlowLostExpiry, resFix_next, apply_ite resFix, faultU_fix, bump_fix, wrB_fix, wrF_fix]
  all_goals (repeat' split)
  all_goals first | exact later_refl s | exact later_to s _
theorem execHarvestRecordEnd_fix (s : State) : resFix (execHarvestRecordEnd s) = some s.fix := by
  generalize hff : @execHarvestRecordEnd = ff
  delta execHarvestRecordEnd at hff
  subst hff
  beta_reduce
  split <;> simp only [resFix_next, wrF_fix, countBy_fix, count_fix, bump_fix, bumpBy_fix, updHv_fix, wrB_fix, hvGo_fix]
theorem execHarvestDropExpiry_later (s : State) : Later s (resFix (execHarvestDropExpiry s)) := by
  simp only [execHarvestDropExpiry, resFix_next, apply_ite State.fix, apply_ite resFix, ite_self, hvOffer_fix, updHv_fix]
  all_goals (repeat' split)
  all_goals first | exact later_refl s | exact later_to s _
theorem execHarvestSnapshotExpiry_later (s : State) : Later s (resFix (execHarvestSnapshotExpiry s)) := by
  simp only [execHarvestSnapshotExpiry, resFix_next, apply_ite resFix, ite_self, updHv_fix, count_fix, bump_fix]
  all_goals (repeat' split)
  all_goals first | exact later_refl s | exact later_to s _
theorem refuseForm_fix (s : State) (r : MgmtReq) : (refuseForm s r).fix = s.fix := by
  generalize hff : @refuseForm = ff
  delta refuseForm at hff
  subst hff
  beta_reduce
  split <;> simp only [apply_ite State.fix, ite_self, reply_fix]
theorem refuseForms_fix (s : State) : (refuseForms s).fix = s.fix := by
  simp only [refuseForms, foldl_fix, implies_true, refuseForm_fix]
theorem enterQueue_fix (s : State) (src : ReqSrc) (ws : List Word) : (enterQueue s src ws).fix = s.fix := by
  simp only [enterQueue, fix_mk, fix_fold, refuseForms_fix, mgmtCount_fix]
theorem refreshViews_fix (s : State) : (refreshViews s).fix = s.fix := by
  simp only [refreshViews, fix_mk, fix_fold]
theorem execMbRing_fix (host slot : Nat) (s : State) : resFix (execMbRing host slot s) = some s.fix := by
  simp only [execMbRing, resFix_next, apply_ite resFix, ite_self, bump_fix, wrB_fix, count_fix, enterQueue_fix]
theorem execMbAck_fix (host slot : Nat) (s : State) : resFix (execMbAck host slot s) = some s.fix := by
  simp only [execMbAck, resFix_next, apply_ite resFix, ite_self, wrB_fix]
theorem execMctpRequest_fix (slot : Nat) (words : List Word) (s : State) : resFix (execMctpRequest slot words s) = some s.fix := by
  simp only [execMctpRequest, resFix_next, apply_ite resFix, ite_self, enterQueue_fix]
theorem execSetEndpointId_fix (eid : Byte) (s : State) : resFix (execSetEndpointId eid s) = some s.fix := by
  simp only [execSetEndpointId, fix_mk, fix_fold, resFix_next]
theorem execGetStatus_fix (q : ReqSrc) (s : State) : resFix (execGetStatus q s) = some s.fix := by
  simp only [execGetStatus, resFix_next, implies_true, serve_fix, reply_fix]
theorem execView_fix (q : ReqSrc) (kind first : Nat) (s : State) : resFix (execView q kind first s) = some s.fix := by
  simp only [execView, resFix_next, apply_ite State.fix, ite_self, implies_true, serve_fix, reply_fix]
theorem execCounterRead_fix (q : ReqSrc) (g : Nat) (s : State) : resFix (execCounterRead q g s) = some s.fix := by
  simp only [execCounterRead, resFix_next, apply_ite State.fix, ite_self, implies_true, serve_fix, reply_fix]
theorem noteSlotsOf_fix (s : State) (k : Nat) : (noteSlotsOf s k).fix = s.fix := by
  simp only [noteSlotsOf, wrN_fix]
theorem execCounterMap_fix (q : ReqSrc) (g : Nat) (s : State) : resFix (execCounterMap q g s) = some s.fix := by
  generalize hff : @execCounterMap = ff
  delta execCounterMap at hff
  subst hff
  beta_reduce
  refine congrArg some (serve_fix _ _ _ _ _ _ _ (fun s => ?_))
  (repeat' split) <;> simp only [fix_mk, fix_fold, fuses_mk, fuses_fold, resFix_next, apply_ite State.fix, apply_ite resFix, ite_self, foldl_fix,
    implies_true, serve_fix, reply_fix, noteSlotsOf_fix]
theorem execCounterUnmap_fix (q : ReqSrc) (g : Nat) (s : State) : resFix (execCounterUnmap q g s) = some s.fix := by
  simp only [execCounterUnmap, fix_mk, fix_fold, resFix_next, apply_ite State.fix, ite_self, foldl_fix, implies_true, serve_fix, reply_fix,
    notFound_fix, noteSlotsOf_fix]
theorem noteLeaf_fix (s : State) : (noteLeaf s).fix = s.fix := by
  simp only [noteLeaf, wrN_fix]
theorem execAttest_fix (q : ReqSrc) (nonce : BitVec 256) (s : State) : resFix (execAttest q nonce s) = some s.fix := by
  simp only [execAttest, fix_mk, fix_fold, resFix_next, apply_ite State.fix, apply_ite resFix, ite_self, implies_true, serve_fix, reply_fix, emit_fix]
theorem execAttestLeafConfirm_fix (s : State) : resFix (execAttestLeafConfirm s) = some s.fix := by
  generalize hff : @execAttestLeafConfirm = ff
  delta execAttestLeafConfirm at hff
  subst hff
  beta_reduce
  split <;> simp only [fix_mk, fix_fold, fuses_mk, fuses_fold, resFix_next, bumpF_fix, noteLeaf_fix, reply_fix]
theorem execAttestLeafTimeout_later (s : State) : Later s (resFix (execAttestLeafTimeout s)) := by
  generalize hff : @execAttestLeafTimeout = ff
  delta execAttestLeafTimeout at hff
  subst hff
  beta_reduce
  (repeat' split) <;> (try simp only [fix_mk, fix_fold, fuses_mk, fuses_fold, resFix_next, freshBits_fix, reply_fix,
    noteLeaf_fix]) <;> (repeat' split) <;> first | exact later_refl s | exact later_to s _

end Sys2Proof.Machine
end

