-- ==== Sys2Proof/Laws/FixStarts.lean ====
section
/-! SUPPORT. Each definition over the state in PolicyOps, SeedOps, Seed, Starts keeps the queue, the time and the fuses; a row
that ends a stated span of time may move the time on. -/

set_option linter.unusedSimpArgs false

namespace Sys2Proof.Machine

open Sys2Proof

theorem loadSlot_fix (s : State) (c : Nat) (v : Word) : (loadSlot s c v).fix = s.fix := by
  simp only [loadSlot, apply_ite State.fix, ite_self, turnOff_fix, updChan_fix, applyCfg_fix, takeEntry_fix]
theorem loadShapers_fix (s : State) : (loadShapers s).fix = s.fix := by
  simp only [loadShapers, foldl_fix, implies_true, wrF_fix]
theorem loadShared_fix (s : State) : (loadShared s).fix = s.fix := by
  simp only [loadShared, wrN_fix]
theorem loadViews_fix (s : State) : (loadViews s).fix = s.fix := by
  simp only [loadViews, foldl_fix, implies_true, wrN_fix]
theorem fixedSlot_fix (s : State) (u k base size ctrl : Nat) : (fixedSlot s u k base size ctrl).fix = s.fix := by
  simp only [fixedSlot, wrN_fix, wr64_fix]
theorem loadFixed_fix (s : State) : (loadFixed s).fix = s.fix := by
  simp only [loadFixed, apply_ite State.fix, ite_self, foldl_fix, implies_true, fixedSlot_fix]
theorem loadPolicy_fix (s : State) (p : Config.Policy) : (loadPolicy s p).fix = s.fix := by
  simp only [loadPolicy, fix_mk, fix_fold, foldl_fix, implies_true, wr_fix, wrB_fix, wrN_fix, wrF_fix, loadSlot_fix, loadFixed_fix, loadViews_fix,
    loadShared_fix, loadShapers_fix]
theorem noteSeed_fix (s : State) (ch : Chosen) (c : Nat) : (noteSeed s ch c).fix = s.fix := by
  simp only [noteSeed, foldl_fix, implies_true, wrN_fix]
theorem noteFuses_fix (s : State) : (noteFuses s).fix = s.fix := by
  simp only [noteFuses, wrN_fix]
theorem seedServe_fix (s : State) (q : ReqSrc) (code : Nat) (f : State → State) (hf : ∀ s, (f s).fix = s.fix) : (seedServe s q code f).fix
    = s.fix := by
  simp only [seedServe, apply_ite State.fix, ite_self, implies_true, hf, serve_fix, reply_fix]
theorem execSeedBegin_fix (q : ReqSrc) (copy : Nat) (s : State) : resFix (execSeedBegin q copy s) = some s.fix := by
  simp only [execSeedBegin, fix_mk, fix_fold, resFix_next, apply_ite State.fix, ite_self, implies_true, seedServe_fix, reply_fix, eraseCopy_fix,
    wrN_fix, emit_fix]
theorem seedFail_fix (s : State) (q : ReqSrc) (code : Nat) : (seedFail s q code).fix = s.fix := by
  simp only [seedFail, fix_mk, fix_fold, reply_fix, wrF_fix]
theorem execSeedEraseDone_fix (ok : Bool) (s : State) : resFix (execSeedEraseDone ok s) = some s.fix := by
  generalize hff : @execSeedEraseDone = ff
  delta execSeedEraseDone at hff
  subst hff
  beta_reduce
  split <;> simp only [fix_mk, fix_fold, resFix_next, apply_ite resFix, ite_self, seedFail_fix, reply_fix, wrF_fix]
theorem programPage_fix (s : State) (off : Nat) (bs : List Byte) : (programPage s off bs).fix = s.fix := by
  simp only [programPage, fix_mk, fix_fold, emit_fix]
theorem execSeedWrite_fix (q : ReqSrc) (off : Nat) (data : List Word) (s : State) : resFix (execSeedWrite q off data s) = some s.fix := by
  simp only [execSeedWrite, fix_mk, fix_fold, resFix_next, apply_ite State.fix, ite_self, implies_true, seedServe_fix, reply_fix, programPage_fix]
theorem execSeedEnd_fix (q : ReqSrc) (s : State) : resFix (execSeedEnd q s) = some s.fix := by
  simp only [execSeedEnd, fix_mk, fix_fold, resFix_next, apply_ite State.fix, ite_self, implies_true, seedServe_fix, reply_fix, programPage_fix]
theorem execSeedProgramDone_fix (ok : Bool) (s : State) : resFix (execSeedProgramDone ok s) = some s.fix := by
  generalize hff : @execSeedProgramDone = ff
  delta execSeedProgramDone at hff
  subst hff
  beta_reduce
  (try simp only [fix_mk, fix_fold, fuses_mk, fuses_fold, resFix_next, apply_ite State.fix, apply_ite resFix, ite_self, foldl_fix, implies_true,
    seedFail_fix, tearPage_fix, bumpF_fix, flashPut_fix, reply_fix, programPage_fix, wrF_fix])
  (repeat' split) <;> simp only [fix_mk, fix_fold, fuses_mk, fuses_fold, resFix_next, apply_ite State.fix, apply_ite resFix, ite_self, foldl_fix,
    implies_true, seedFail_fix, tearPage_fix, bumpF_fix, flashPut_fix, reply_fix, programPage_fix, wrF_fix]
theorem execInternalLinkSilent_fix (s : State) : resFix (execInternalLinkSilent s) = some s.fix := by
  simp only [execInternalLinkSilent, fix_mk, fix_fold, fuses_mk, fuses_fold, resFix_next, apply_ite resFix, ite_self, emit_fix, bump_fix, wrB_fix]
theorem linkBack_fix (s : State) : (linkBack s).fix = s.fix := by
  simp only [linkBack, fix_mk, fix_fold, fuses_mk, fuses_fold, apply_ite State.fix, ite_self, retryTurnOn_fix]
theorem execRootstockActionRequest_fix (act : RootAct) (s : State) : resFix (execRootstockActionRequest act s) = some s.fix := by
  generalize hff : @execRootstockActionRequest = ff
  delta execRootstockActionRequest at hff
  subst hff
  beta_reduce
  split <;> simp only [resFix_next, apply_ite State.fix, ite_self, linkBack_fix, tryTurnOn_fix, turnOff_fix, updChan_fix]
theorem execVauxFall_fix (s : State) : resFix (execVauxFall s) = some s.fix := by
  generalize hff : @execVauxFall = ff
  delta execVauxFall at hff
  subst hff
  beta_reduce
  split
  · rfl
  · refine congrArg some ?_
    have e : ((List.range 16).foldl (fun s c => if chOn s c then chCut s c 2 else s) (dropAttest (stopSeedUpdate s))).fix = s.fix := by
      simp only [fix_mk, fix_fold, fuses_mk, fuses_fold, resFix_next, apply_ite State.fix, apply_ite resFix, ite_self, foldl_fix, implies_true,
        dropAttest_fix, stopSeedUpdate_fix, chCut_fix]
    simp only [fix_mk]
    rw [← e, ← fix_fold]
    rfl
theorem execVauxRise_fix (s : State) : resFix (execVauxRise s) = some s.fix := by
  simp only [execVauxRise, fix_mk, fix_fold, fuses_mk, fuses_fold, resFix_next, apply_ite resFix, ite_self, newStart_fix]
theorem execSysRstAssert_fix (lowNs : Nat) (selfRefresh : BitVec 4) (s : State) : resFix (execSysRstAssert lowNs selfRefresh s) = some s.fix := by
  simp only [execSysRstAssert, resFix_next, apply_ite resFix, ite_self, warmCause_fix]
theorem execRetentionWindowExpiry_fix (s : State) : resFix (execRetentionWindowExpiry s) = some s.fix := by
  generalize hff : @execRetentionWindowExpiry = ff
  delta execRetentionWindowExpiry at hff
  subst hff
  beta_reduce
  split <;> simp only [fix_mk, fix_fold, resFix_next, apply_ite resFix, ite_self, resetNow_fix]
theorem execWarmReset_fix (q : ReqSrc) (s : State) : resFix (execWarmReset q s) = some s.fix := by
  simp only [execWarmReset, fix_mk, fix_fold, resFix_next, apply_ite State.fix, apply_ite resFix, ite_self, implies_true, warmCause_fix, serve_fix,
    reply_fix]
theorem execWarmQuiesceDone_later (selfRefresh : BitVec 4) (s : State) : Later s (resFix (execWarmQuiesceDone selfRefresh s)) := by
  generalize hff : @execWarmQuiesceDone = ff
  delta execWarmQuiesceDone at hff
  subst hff
  beta_reduce
  (repeat' split) <;> (try simp only [fix_mk, fix_fold, resFix_next, apply_ite State.fix, ite_self, warmCause_fix,
    releaseCredits_fix]) <;> (repeat' split) <;> first | exact later_refl s | exact later_to s _
theorem execWatchdogExpiry_later (selfRefresh : BitVec 4) (s : State) : Later s (resFix (execWatchdogExpiry selfRefresh s)) := by
  simp only [execWatchdogExpiry, fix_mk, fix_fold, resFix_next, apply_ite resFix, faultU_fix, wrB_fix, warmCause_fix]
  all_goals (repeat' split)
  all_goals first | exact later_refl s | exact later_to s _
theorem execWatchdogKick_fix (s : State) : resFix (execWatchdogKick s) = some s.fix := by
  simp only [execWatchdogKick, fix_mk, fix_fold, resFix_next, apply_ite resFix, ite_self]
theorem execWarmStartDeadline_later (s : State) : Later s (resFix (execWarmStartDeadline s)) := by
  simp only [execWarmStartDeadline, fix_mk, fix_fold, resFix_next, apply_ite resFix, warmFail_fix, wrF_fix]
  all_goals (repeat' split)
  all_goals first | exact later_refl s | exact later_to s _
theorem startFail_fix (s : State) (code n : Nat) : (startFail s code n).fix = s.fix := by
  simp only [startFail, apply_ite State.fix, ite_self, wrN_fix, faultU_fix]
theorem stepTo_fix (s : State) (n : Nat) : (stepTo s n).fix = s.fix := by
  simp only [stepTo, wrF_fix]
theorem bankCheck_fix (s : State) (failed : Bool) (r : StepReadings) : (bankCheck s failed r).fix = s.fix := by
  simp only [bankCheck, fix_mk, fix_fold, apply_ite State.fix, ite_self, foldl_fix, implies_true, wrN_fix, wrF_fix, wrB_fix, startFail_fix]
theorem railFail_fix (s : State) (n : Nat) : (railFail s n).fix = s.fix := by
  simp only [railFail, fix_mk, fix_fold, fuses_mk, fuses_fold, apply_ite State.fix, ite_self, railsCut_fix, emit_fix]
theorem execRegulatorRetryWaitExpiry_fix (s : State) : resFix (execRegulatorRetryWaitExpiry s) = some s.fix := by
  simp only [execRegulatorRetryWaitExpiry, fix_mk, fix_fold, resFix_next, apply_ite resFix, ite_self, railsUp_fix, stepTo_fix]
theorem clocksUp_fix (s : State) : (clocksUp s).fix = s.fix := by
  simp only [clocksUp, wrN_fix]
theorem bufCleared_fix (s : State) : (bufCleared s).fix = s.fix := by
  simp only [bufCleared, wrB_fix]
theorem romRuns_fix (s : State) : (romRuns s).fix = s.fix := by
  simp only [romRuns, wrB_fix]
theorem seedStop_fix (s : State) (state a b : Nat) (ran : Bool) : (seedStop s state a b ran).fix = s.fix := by
  simp only [seedStop, fix_mk, fix_fold, fuses_mk, fuses_fold, apply_ite State.fix, ite_self, foldl_fix, implies_true, wrN_fix, wrB_fix, turnOff_fix,
    noteCharger_fix]
theorem flashReset_fix (s : State) : (flashReset s).fix = s.fix := by
  simp only [flashReset, emit_fix]
theorem flashEnter_fix (s : State) : (flashEnter s).fix = s.fix := by
  simp only [flashEnter, apply_ite State.fix, ite_self, emit_fix, wrF_fix]
theorem harvestStart_fix (s : State) : (harvestStart s).fix = s.fix := by
  simp only [harvestStart, fix_mk, fix_fold, apply_ite State.fix, ite_self, wrF_fix]
theorem seedLoaded_fix (s : State) (ch : Chosen) (c : Nat) (p : Config.Policy) (next : Nat) : (seedLoaded s ch c p next).fix = s.fix := by
  simp only [seedLoaded, fix_mk, fix_fold, apply_ite State.fix, ite_self, foldl_fix, implies_true, noteSeed_fix, loadPolicy_fix, wrN_fix, wrB_fix,
    startFail_fix, noteCharger_fix, harvestStart_fix, tryTurnOn_fix, stepTo_fix]
theorem seedStep_fix (s : State) (flashOk : Bool) (next : Nat) : (seedStep s flashOk next).fix = s.fix := by
  generalize hff : @seedStep = ff
  delta seedStep at hff
  subst hff
  beta_reduce
  (try simp only [fix_mk, fix_fold, fuses_mk, fuses_fold, resFix_next, apply_ite State.fix, apply_ite resFix, ite_self, foldl_fix, implies_true,
    noteFuses_fix, seedStop_fix, flashEnter_fix, seedLoaded_fix])
  (repeat' split) <;> simp only [fix_mk, fix_fold, fuses_mk, fuses_fold, resFix_next, apply_ite State.fix, apply_ite resFix, ite_self, foldl_fix,
    implies_true, noteFuses_fix, seedStop_fix, flashEnter_fix, seedLoaded_fix]
theorem calibrated_fix (s : State) (bad : List Nat) (r : StepReadings) (next : Nat) : (calibrated s bad r next).fix = s.fix := by
  simp only [calibrated, fix_mk, fix_fold, apply_ite State.fix, ite_self, foldl_fix, implies_true, wrB_fix, startFail_fix, faultP_fix, setPerst_fix,
    wrN_fix, wrF_fix, stepTo_fix, beginTraining_fix, updMember_fix]
theorem linksDone_fix (s : State) (r : StepReadings) (next : Nat) : (linksDone s r next).fix = s.fix := by
  simp only [linksDone, foldl_fix, implies_true, stepTo_fix, deviceTake_fix]
theorem setEpochs_fix (s : State) (se : Option Nat) : (setEpochs s se).fix = s.fix := by
  simp only [setEpochs, wr64_fix, updLand_fix]
theorem noteRecords_fix (s : State) : (noteRecords s).fix = s.fix := by
  simp only [noteRecords, noteAdmit_fix, noteLedger_fix, wrB_fix]
theorem setRecord_fix (s : State) (t cls id cut : Nat) : (setRecord s t cls id cut).fix = s.fix := by
  simp only [setRecord, apply_ite State.fix, ite_self, wrF_fix, wr64_fix, wrN_fix, startFail_fix, faultP_fix]
theorem enableTarget_fix (s : State) (t : Nat) : (enableTarget s t).fix = s.fix := by
  simp only [enableTarget, wrB_fix, freshBits_fix, fixedSlot_fix]
theorem readTarget_fix (s : State) (r : StepReadings) (t : Nat) : (readTarget s r t).fix = s.fix := by
  simp only [readTarget, apply_ite State.fix, ite_self, setRecord_fix, enableTarget_fix]
theorem execFlushTargetWaitExpiry_fix (t : Nat) (s : State) : resFix (execFlushTargetWaitExpiry t s) = some s.fix := by
  simp only [execFlushTargetWaitExpiry, resFix_next, apply_ite resFix, ite_self, setRecord_fix]
theorem beginService_fix (s : State) (step : Nat) : (beginService s step).fix = s.fix := by
  simp only [beginService, fix_mk, fix_fold, fuses_mk, fuses_fold, apply_ite State.fix, ite_self, wrB_fix, noteFuses_fix, wrN_fix, stepTo_fix,
    noteRecords_fix, sendRejoin_fix]
theorem p3BraceGo_fix (s : State) : (p3BraceGo s).fix = s.fix := by
  simp only [p3BraceGo, apply_ite State.fix, ite_self, braceStart_fix, updPwr_fix, wrB_fix, holdCut_fix, updPf_fix, commit_fix]
theorem landingCold_fix (s : State) (r : StepReadings) : (landingCold s r).fix = s.fix := by
  simp only [landingCold, apply_ite State.fix, ite_self, foldl_fix, implies_true, updPf_fix, readTarget_fix, msix_fix, wrF_fix, setEpochs_fix,
    wrB_fix, p3BraceGo_fix, beginService_fix]
theorem landingWarm_fix (s : State) (r : StepReadings) : (landingWarm s r).fix = s.fix := by
  simp only [landingWarm, apply_ite State.fix, ite_self, foldl_fix, implies_true, updPf_fix, enableTarget_fix, wr64_fix, updLand_fix, wrN_fix,
    startFail_fix, setEpochs_fix, wrB_fix, p3BraceGo_fix, beginService_fix]
theorem selfRefreshExit_fix (s : State) (r : StepReadings) : (selfRefreshExit s r).fix = s.fix := by
  simp only [selfRefreshExit, fix_mk, fix_fold, apply_ite State.fix, ite_self, startFail_fix, updLand_fix]
theorem dramTrained_fix (s : State) (bad : List Nat) : (dramTrained s bad).fix = s.fix := by
  simp only [dramTrained, fix_mk, fix_fold, foldl_fix, implies_true, startFail_fix]
theorem recordLost_fix (s : State) : (recordLost s).fix = s.fix := by
  simp only [recordLost, fix_mk, fix_fold, fuses_mk, fuses_fold]
theorem coldInstead_fix (s : State) (item : Nat) : (coldInstead s item).fix = s.fix := by
  have hs : ∀ n, ({ s with root := { s.root with startCounter := n } } : State).fix = s.fix := fun n => by
    rw [fix_mk, fuses_mk, fuses_fold, fix_fold]
  unfold coldInstead
  exact (startFail_fix _ _ _).trans ((newStart_fix _ _ _ _ _).trans ((recordLost_fix _).trans (hs _)))
theorem recordCheck_fix (s : State) (r : StepReadings) : (recordCheck s r).fix = s.fix := by
  generalize hff : @recordCheck = ff
  delta recordCheck at hff
  subst hff
  beta_reduce
  split <;> simp only [apply_ite State.fix, ite_self, startFail_fix, recordLost_fix]
theorem coldStep_fix (s : State) (r : StepResult) (rd : StepReadings) : (coldStep s r rd).fix = s.fix := by
  generalize hff : @coldStep = ff
  delta coldStep at hff
  subst hff
  beta_reduce
  (repeat' split) <;> simp only [fix_mk, fix_fold, fuses_mk, fuses_fold, apply_ite State.fix, ite_self, railsUp_fix, stepTo_fix, bankCheck_fix,
    recordCheck_fix, startFail_fix, railFail_fix, clocksUp_fix, dramTrained_fix, bufCleared_fix, flashReset_fix, romRuns_fix, seedStep_fix,
      calibrated_fix, linksDone_fix, landingCold_fix]
theorem warmStep_fix (s : State) (r : StepResult) (rd : StepReadings) : (warmStep s r rd).fix = s.fix := by
  generalize hff : @warmStep = ff
  delta warmStep at hff
  subst hff
  beta_reduce
  (repeat' split) <;> simp only [fix_mk, fix_fold, fuses_mk, fuses_fold, coldInstead_fix, stepTo_fix, clocksUp_fix, wrN_fix, bufCleared_fix,
    selfRefreshExit_fix, dramTrained_fix, flashReset_fix, romRuns_fix, seedStep_fix, startFail_fix, calibrated_fix, linksDone_fix, landingWarm_fix]
theorem execStartStepReady_fix (r : StepResult) (rd : StepReadings) (s : State) : resFix (execStartStepReady r rd s) = some s.fix := by
  simp only [execStartStepReady, resFix_next, apply_ite State.fix, apply_ite resFix, ite_self, warmStep_fix, coldStep_fix]
theorem execSeedBurstDone_fix (flashAddr : Nat) (s : State) : resFix (execSeedBurstDone flashAddr s) = some s.fix := by
  simp only [execSeedBurstDone, fix_mk, fix_fold, resFix_next, apply_ite resFix, ite_self, flashEnter_fix, wrF_fix]
theorem execSeedBurstTimeout_fix (flashAddr : Nat) (s : State) : resFix (execSeedBurstTimeout flashAddr s) = some s.fix := by
  simp only [execSeedBurstTimeout, fix_mk, fix_fold, resFix_next, apply_ite resFix, ite_self, bump_fix, flashEnter_fix, faultU_fix, emit_fix]
theorem execRecordConsume_fix (q : ReqSrc) (s : State) : resFix (execRecordConsume q s) = some s.fix := by
  simp only [execRecordConsume, resFix_next, apply_ite State.fix, ite_self, foldl_fix, implies_true, serve_fix, reply_fix, setRecord_fix, emit_fix,
    updPf_fix, noteRecords_fix]
theorem execTargetAck_fix (q : ReqSrc) (t : Nat) (s : State) : resFix (execTargetAck q t s) = some s.fix := by
  simp only [execTargetAck, resFix_next, apply_ite State.fix, ite_self, implies_true, serve_fix, reply_fix, updPf_fix, noteRecords_fix]
theorem shadowCopy_fix (s : State) : (shadowCopy s).fix = s.fix := by
  simp only [shadowCopy, fix_mk, fix_fold]
theorem snapshotGo_fix (s : State) : (snapshotGo s).fix = s.fix := by
  simp only [snapshotGo, apply_ite State.fix, ite_self, wrB_fix, shadowCopy_fix]
theorem execSnapshotTake_fix (s : State) : resFix (execSnapshotTake s) = some s.fix := by
  simp only [execSnapshotTake, resFix_next, snapshotGo_fix]
theorem execSnapshotComplete_fix (s : State) : resFix (execSnapshotComplete s) = some s.fix := by
  simp only [execSnapshotComplete, resFix_next, apply_ite resFix, ite_self, refreshViews_fix, wrN_fix, wrB_fix]
theorem execViewAgeSnapshot_later (s : State) : Later s (resFix (execViewAgeSnapshot s)) := by
  simp only [execViewAgeSnapshot, resFix_next, snapshotGo_fix]
  all_goals (repeat' split)
  all_goals first | exact later_refl s | exact later_to s _

end Sys2Proof.Machine
end

