-- ==== Sys2Proof/Laws/FixPower.lean ====
section
/-! SUPPORT. Each definition over the state in Power, Registers, Flags keeps the queue, the time and the fuses; a row
that ends a stated span of time may move the time on. -/

set_option linter.unusedSimpArgs false

namespace Sys2Proof.Machine

open Sys2Proof

theorem execP1IdleExpiry_fix (s : State) : resFix (execP1IdleExpiry s) = some s.fix := by
  simp only [execP1IdleExpiry, resFix_next, apply_ite resFix, ite_self, count_fix, bump_fix, wrF_fix, updPwr_fix]
theorem leaveP1_fix (s : State) : (leaveP1 s).fix = s.fix := by
  simp only [leaveP1, apply_ite State.fix, ite_self, bumpBy_fix, updPwr_fix, wrF_fix]
theorem execP1Exit_fix (s : State) : resFix (execP1Exit s) = some s.fix := by
  simp only [execP1Exit, resFix_next, leaveP1_fix]
theorem sleepPorts_fix (s : State) : (sleepPorts s).fix = s.fix := by
  simp only [sleepPorts, apply_ite State.fix, ite_self, foldl_fix, implies_true, sleepRequest_fix, emit_fix]
theorem linksIdle_fix (s : State) : (linksIdle s).fix = s.fix := by
  simp only [linksIdle, apply_ite State.fix, ite_self, foldl_fix, implies_true, setNz_fix, memberDown_fix, setLtssm_fix, dlDown_fix]
theorem entryPhase_fix (s : State) (n : Nat) : (entryPhase s n).fix = s.fix := by
  simp only [entryPhase, updPwr_fix]
theorem retainP3_fix (s : State) : (retainP3 s).fix = s.fix := by
  simp only [retainP3, fix_mk, fix_fold, apply_ite State.fix, ite_self, retainRecord_fix]
theorem quiesceEnd_fix (s : State) : (quiesceEnd s).fix = s.fix := by
  simp only [quiesceEnd, apply_ite State.fix, ite_self, abortEntry_fix, sleepPorts_fix, entryPhase_fix, pmbusAsk_fix, linksIdle_fix, retainP3_fix]
theorem entryPump_fix (s : State) : (entryPump s).fix = s.fix := by
  simp only [entryPump, apply_ite State.fix, ite_self, quiesceEnd_fix, entryPhase_fix]
theorem enterP4_fix (s : State) : (enterP4 s).fix = s.fix := by
  simp only [enterP4, apply_ite State.fix, ite_self, foldl_fix, implies_true, turnOff_fix, emit_fix, wrB_fix, entryPump_fix, pmbusAsk_fix,
    entryPhase_fix]
theorem powerGo_fix (s : State) (target : Nat) (q : Option ReqSrc) (sr : Nat) : (powerGo s target q sr).fix = s.fix := by
  simp only [powerGo, apply_ite State.fix, ite_self, leaveP1_fix, powerReply_fix, setResult_fix, wrF_fix, updPwr_fix, enterP4_fix, entryPump_fix]
theorem pwrCtrl_fix (s : State) (target : Nat) (p1En : Bool) : (pwrCtrl s target p1En).fix = s.fix := by
  simp only [pwrCtrl, wrB_fix, wrF_fix]
theorem execPwrCtrlGoP2_fix (p1En : Bool) (s : State) : resFix (execPwrCtrlGoP2 p1En s) = some s.fix := by
  simp only [execPwrCtrlGoP2, resFix_next, powerGo_fix, pwrCtrl_fix]
theorem execPwrCtrlGoP3_fix (p1En : Bool) (selfRefresh : BitVec 4) (s : State) : resFix (execPwrCtrlGoP3 p1En selfRefresh s) = some s.fix := by
  simp only [execPwrCtrlGoP3, resFix_next, powerGo_fix, pwrCtrl_fix]
theorem execPwrCtrlGoP4_fix (p1En : Bool) (s : State) : resFix (execPwrCtrlGoP4 p1En s) = some s.fix := by
  simp only [execPwrCtrlGoP4, resFix_next, powerGo_fix, pwrCtrl_fix]
theorem execPowerState_fix (q : ReqSrc) (target : Nat) (selfRefresh : BitVec 4) (s : State) : resFix (execPowerState q target selfRefresh s) = some s.fix := by
  simp only [execPowerState, resFix_next, apply_ite State.fix, ite_self, implies_true, serve_fix, reply_fix, powerGo_fix]
theorem execSleepAckReceive_fix (p : Nat) (g : LaneGroups) (s : State) : resFix (execSleepAckReceive p g s) = some s.fix := by
  simp only [execSleepAckReceive, apply_ite State.fix, ite_self, implies_true, sameSet_fix, entryPump_fix, setNz_fix, updMember_fix]
theorem execSleepNakReceive_fix (p : Nat) (g : LaneGroups) (s : State) : resFix (execSleepNakReceive p g s) = some s.fix := by
  simp only [execSleepNakReceive, apply_ite State.fix, ite_self, implies_true, sameSet_fix, updMember_fix, abortEntry_fix]
theorem execPcieL1Entry_fix (p : Nat) (sub : Bool) (s : State) : resFix (execPcieL1Entry p sub s) = some s.fix := by
  simp only [execPcieL1Entry, resFix_next, apply_ite resFix, ite_self, entryPump_fix, wrB_fix, setLtssm_fix]
theorem execP2L1WaitExpiry_later (p : Nat) (s : State) : Later s (resFix (execP2L1WaitExpiry p s)) := by
  simp only [execP2L1WaitExpiry, resFix_next, apply_ite resFix, abortEntry_fix]
  all_goals (repeat' split)
  all_goals first | exact later_refl s | exact later_to s _
theorem noteWake_fix (s : State) (st code n : Nat) : (noteWake s st code n).fix = s.fix := by
  simp only [noteWake, wrN_fix]
theorem exitP2_fix (s : State) : (exitP2 s).fix = s.fix := by
  simp only [exitP2, fix_mk, fix_fold, apply_ite State.fix, ite_self, wakePorts_fix, entryOver_fix, clocksUp_fix, updLand_fix, updPwr_fix,
    powerReply_fix, noteLeft_fix, ownBrace_fix, updPf_fix, commit_fix, sendCommit_fix]
theorem wakeUp_fix (s : State) (code n : Nat) : (wakeUp s code n).fix = s.fix := by
  simp only [wakeUp, apply_ite State.fix, ite_self, exitP2_fix, noteWake_fix, exitReset_fix, noteLeft_fix, newStart_fix]
theorem execStateEntryComplete_fix (waiting : Option (Nat × Nat)) (s : State) : resFix (execStateEntryComplete waiting s) = some s.fix := by
  generalize hff : @execStateEntryComplete = ff
  delta execStateEntryComplete at hff
  subst hff
  beta_reduce
  (repeat' split) <;> simp only [fix_mk, fix_fold, fuses_mk, fuses_fold, resFix_next, apply_ite State.fix, apply_ite resFix, ite_self, updPwr_fix,
    wrN_fix, bumpF_fix, wakeUp_fix]
theorem execWakeEvent_fix (code n : Nat) (lastCycles : Bool) (s : State) : resFix (execWakeEvent code n lastCycles s) = some s.fix := by
  simp only [execWakeEvent, resFix_next, apply_ite resFix, ite_self, wakeUp_fix, abortEntry_fix]
theorem powerTick_fix (s : State) : (powerTick s).fix = s.fix := by
  generalize hff : @powerTick = ff
  delta powerTick at hff
  subst hff
  beta_reduce
  split <;> simp only [apply_ite State.fix, ite_self, wakeUp_fix, entryPump_fix]
theorem avsStep_fix (s : State) : (avsStep s).fix = s.fix := by
  simp only [avsStep, apply_ite State.fix, ite_self, pmbusAsk_fix, updPwr_fix]
theorem execAvsEvaluationExpiry_later (osc : BitVec 10) (s : State) : Later s (resFix (execAvsEvaluationExpiry osc s)) := by
  simp only [execAvsEvaluationExpiry, resFix_next, apply_ite resFix, ite_self, wrF_fix, updPwr_fix, freshBits_fix, avsStep_fix]
  all_goals (repeat' split)
  all_goals first | exact later_refl s | exact later_to s _
theorem execAvsStepExpiry_later (s : State) : Later s (resFix (execAvsStepExpiry s)) := by
  simp only [execAvsStepExpiry, resFix_next, apply_ite resFix, avsStep_fix]
  all_goals (repeat' split)
  all_goals first | exact later_refl s | exact later_to s _
theorem execPmbusChangeAck_fix (rail : Nat) (mv status : BitVec 16) (s : State) : resFix (execPmbusChangeAck rail mv status s) = some s.fix := by
  generalize hff : @execPmbusChangeAck = ff
  delta execPmbusChangeAck at hff
  subst hff
  beta_reduce
  split <;> simp only [resFix_next, apply_ite State.fix, apply_ite resFix, ite_self, wrN_fix, wrF_fix, wrB_fix, entryPump_fix, pmbusGo_fix,
    updRails_fix]
theorem execPmbusAckTimeout_later (rail : Nat) (s : State) : Later s (resFix (execPmbusAckTimeout rail s)) := by
  generalize hff : @execPmbusAckTimeout = ff
  delta execPmbusAckTimeout at hff
  subst hff
  beta_reduce
  (repeat' split) <;> (try simp only [resFix_next, apply_ite resFix, ite_self, emit_fix, updRails_fix, railFail_fix, wrB_fix, count_fix, bump_fix,
    faultU_fix, updPwr_fix, abortEntry_fix, entryPump_fix, pmbusGo_fix]) <;> (repeat' split) <;> first | exact later_refl s | exact later_to s _
theorem clockLost_fix (s : State) (n : Nat) : (clockLost s n).fix = s.fix := by
  simp only [clockLost, fix_mk, fix_fold, apply_ite State.fix, ite_self, count_fix, bump_fix, wrB_fix, faultU_fix, endSeedUpdate_fix, wrF_fix]
theorem execClockCheckTick_fix (xtalOk : Bool) (s : State) : resFix (execClockCheckTick xtalOk s) = some s.fix := by
  simp only [execClockCheckTick, resFix_next, apply_ite resFix, ite_self, clockLost_fix]
theorem execPllLockLoss_fix (n : Nat) (s : State) : resFix (execPllLockLoss n s) = some s.fix := by
  simp only [execPllLockLoss, resFix_next, clockLost_fix]
theorem execThermalReading_fix (degs : List Int) (s : State) : resFix (execThermalReading degs s) = some s.fix := by
  simp only [execThermalReading, resFix_next, apply_ite State.fix, ite_self, emit_fix, notePf_fix, updTherm_fix]
theorem execThermalBraceExpiry_later (s : State) : Later s (resFix (execThermalBraceExpiry s)) := by
  simp only [execThermalBraceExpiry, resFix_next, apply_ite resFix, ite_self, updTherm_fix, updPf_fix, wakeSeen_fix, warnAll_fix, wrB_fix,
    notePf_fix, ownBrace_fix]
  all_goals (repeat' split)
  all_goals first | exact later_refl s | exact later_to s _
theorem execThermalCoolExpiry_later (s : State) : Later s (resFix (execThermalCoolExpiry s)) := by
  generalize hff : @execThermalCoolExpiry = ff
  delta execThermalCoolExpiry at hff
  subst hff
  beta_reduce
  (repeat' split) <;> (try simp only [resFix_next, flushRestart_fix]) <;> (repeat' split) <;> first | exact later_refl s | exact later_to s _
theorem liveLane_fix (s : State) (a : Nat) : (liveLane s a).fix = s.fix := by
  simp only [liveLane, apply_ite State.fix, ite_self, prbsCatch_fix, freshBits_fix, wrN_fix]
theorem readReg_fix (s : State) (a : Nat) (r : RegRow) : (readReg s a r).2.fix = s.fix := by
  generalize hff : @readReg = ff
  delta readReg at hff
  subst hff
  beta_reduce
  (try simp only [fix_mk, fix_fold, fuses_mk, fuses_fold, resFix_next, apply_ite State.fix, apply_ite resFix, ite_self, foldl_fix, implies_true,
    liveLane_fix, wr_fix, freshBits_fix])
  (repeat' split) <;> simp only [fix_mk, fix_fold, fuses_mk, fuses_fold, resFix_next, apply_ite State.fix, apply_ite resFix, ite_self, foldl_fix,
    implies_true, liveLane_fix, wr_fix, freshBits_fix]
theorem readAt_fix (s : State) (host off : Nat) : (readAt s host off).2.fix = s.fix := by
  generalize hff : @readAt = ff
  delta readAt at hff
  subst hff
  beta_reduce
  split <;> simp only [readReg_fix]
theorem answer_fix (s : State) (host req off : Nat) (ws : List Word) : (answer s host req off ws).fix = s.fix := by
  simp only [answer, emit_fix]
theorem setLatch_fix (s : State) (host req : Nat) (v : Option (Nat × Word)) : (setLatch s host req v).fix = s.fix := by
  simp only [setLatch, fix_mk, fix_fold]
theorem fenceAt_fix (s : State) (host req a : Nat) (wide : Bool) : (fenceAt s host req a wide).fix = s.fix := by
  simp only [fenceAt, takeFence_fix]
theorem execPairLoRead_fix (host req off : Nat) (s : State) : resFix (execPairLoRead host req off s) = some s.fix := by
  generalize hff : @execPairLoRead = ff
  delta execPairLoRead at hff
  subst hff
  beta_reduce
  refine congrArg some (mefAnswered_fix _ _ _ _ (fun s => ?_))
  (repeat' split) <;> simp only [fix_mk, fix_fold, fuses_mk, fuses_fold, resFix_next, apply_ite State.fix, apply_ite resFix, ite_self, foldl_fix,
    implies_true, answer_fix, fenceAt_fix, readReg_fix, setLatch_fix]
theorem execPairHiRead_fix (host req off : Nat) (s : State) : resFix (execPairHiRead host req off s) = some s.fix := by
  generalize hff : @execPairHiRead = ff
  delta execPairHiRead at hff
  subst hff
  beta_reduce
  refine congrArg some (mefAnswered_fix _ _ _ _ (fun s => ?_))
  (repeat' split) <;> (try dsimp only) <;> (repeat' split) <;> simp only [fix_mk, fix_fold, fuses_mk, fuses_fold, resFix_next, apply_ite State.fix,
    apply_ite resFix, ite_self, foldl_fix, implies_true, answer_fix, fenceAt_fix, readReg_fix, setLatch_fix]
theorem wideRead_fix (s : State) (host req off : Nat) : (wideRead s host req off).fix = s.fix := by
  simp only [wideRead, readAt_fix, answer_fix]
theorem execRcFieldRead_fix (host req off : Nat) (wide : Bool) (s : State) : resFix (execRcFieldRead host req off wide s) = some s.fix := by
  simp only [execRcFieldRead, resFix_next, apply_ite State.fix, ite_self, implies_true, mefAnswered_fix, readAt_fix, wideRead_fix, answer_fix]
theorem connView_fix (s : State) (v : Word) : (connView s v).fix = s.fix := by
  simp only [connView, apply_ite State.fix, ite_self, wrN_fix, wrWords_fix]
theorem writeAct_fix (s : State) (a : Nat) (v : Word) : (writeAct s a v).fix = s.fix := by
  simp only [writeAct, apply_ite State.fix, ite_self, connView_fix, errN_fix, setResult_fix, wrF_fix]
theorem writeReg_fix (s : State) (a : Nat) (r : RegRow) (v collide : Word) : (writeReg s a r v collide).fix = s.fix := by
  simp only [writeReg, apply_ite State.fix, ite_self, writeAct_fix, wr_fix]
theorem plainWrite_fix (s : State) (host off : Nat) (v collide : Word) : (plainWrite s host off v collide).fix = s.fix := by
  generalize hff : @plainWrite = ff
  delta plainWrite at hff
  subst hff
  beta_reduce
  split <;> simp only [apply_ite State.fix, ite_self, writeReg_fix]
theorem execRegisterWrite_fix (host off : Nat) (v collide : Word) (s : State) : resFix (execRegisterWrite host off v collide s) = some s.fix := by
  simp only [execRegisterWrite, resFix_next, implies_true, mefWritten_fix, plainWrite_fix]
theorem execPairLoWrite_fix (host req off : Nat) (v : Word) (s : State) : resFix (execPairLoWrite host req off v s) = some s.fix := by
  generalize hff : @execPairLoWrite = ff
  delta execPairLoWrite at hff
  subst hff
  beta_reduce
  refine congrArg some (mefWritten_fix _ _ _ (fun s => ?_))
  (repeat' split) <;> simp only [fix_mk, fix_fold, fuses_mk, fuses_fold, resFix_next, apply_ite State.fix, apply_ite resFix, ite_self, foldl_fix,
    implies_true, fenceAt_fix]
theorem writePair_fix (s : State) (host req a : Nat) (lo hi : Word) : (writePair s host req a lo hi).fix = s.fix := by
  generalize hff : @writePair = ff
  delta writePair at hff
  subst hff
  beta_reduce
  (repeat' split) <;> simp only [releaseGo_fix, writeReg_fix]
theorem execPairHiWrite_fix (host req off : Nat) (v : Word) (s : State) : resFix (execPairHiWrite host req off v s) = some s.fix := by
  generalize hff : @execPairHiWrite = ff
  delta execPairHiWrite at hff
  subst hff
  beta_reduce
  refine congrArg some (mefWritten_fix _ _ _ (fun s => ?_))
  (repeat' split) <;> simp only [fix_mk, fix_fold, fuses_mk, fuses_fold, resFix_next, apply_ite State.fix, apply_ite resFix, ite_self, foldl_fix,
    implies_true, writePair_fix, dropHold_fix]
theorem execPairWideAccess_fix (host req off : Nat) (w : Option DWord) (s : State) : resFix (execPairWideAccess host req off w s) = some s.fix := by
  generalize hff : @execPairWideAccess = ff
  delta execPairWideAccess at hff
  subst hff
  beta_reduce
  (try simp only [fix_mk, fix_fold, fuses_mk, fuses_fold, resFix_next, apply_ite State.fix, apply_ite resFix, ite_self, foldl_fix, implies_true,
    mefAnswered_fix, fenceAt_fix, wideRead_fix, mefWritten_fix, writePair_fix, plainWrite_fix])
  (repeat' split) <;> simp only [fix_mk, fix_fold, fuses_mk, fuses_fold, resFix_next, apply_ite State.fix, apply_ite resFix, ite_self, foldl_fix,
    implies_true, mefAnswered_fix, fenceAt_fix, wideRead_fix, mefWritten_fix, writePair_fix, plainWrite_fix]
theorem execBar0MalformedAccess_fix (host req off len : Nat) (s : State) : resFix (execBar0MalformedAccess host req off len s) = some s.fix := by
  simp only [execBar0MalformedAccess, resFix_next, apply_ite resFix, ite_self, implies_true, mefAnswered_fix, faultP_fix, bump_fix, emit_fix]
theorem noteFull_fix (s : State) : (noteFull s).fix = s.fix := by
  simp only [noteFull, apply_ite State.fix, ite_self, wrN_fix, wrB_fix]
theorem errRelease_fix (s : State) : (errRelease s).fix = s.fix := by
  generalize hff : @errRelease = ff
  delta errRelease at hff
  subst hff
  beta_reduce
  split <;> simp only [fix_mk, fix_fold, fuses_mk, fuses_fold, apply_ite State.fix, ite_self, wrB_fix, emit_fix]

end Sys2Proof.Machine
end

