-- ==== Sys2Proof/Laws/FixAll.lean ====
section
/-! SUPPORT. What no command but PROVISION changes, over every command at once, and over a tick. -/

namespace Sys2Proof.Machine

open Sys2Proof

/-- Every command but PROVISION answers a next state, with the queue and the fuses as they were, at the same time or later. -/
theorem exec_later (c : Instr) (s : State) (hp : ∀ q h0 h1 secret, c ≠ .provision q h0 h1 secret) :
    Later s (resFix (exec c s)) := by
  cases c with
  | bar0MalformedAccess host req off len => exact later_of_fix (execBar0MalformedAccess_fix host req off len s)
  | pairLoRead host req off => exact later_of_fix (execPairLoRead_fix host req off s)
  | pairHiRead host req off => exact later_of_fix (execPairHiRead_fix host req off s)
  | pairLoWrite host req off v => exact later_of_fix (execPairLoWrite_fix host req off v s)
  | pairHiWrite host req off v => exact later_of_fix (execPairHiWrite_fix host req off v s)
  | pairWideAccess host req off wr => exact later_of_fix (execPairWideAccess_fix host req off wr s)
  | rcFieldRead host req off wide => exact later_of_fix (execRcFieldRead_fix host req off wide s)
  | registerWrite host off v collide => exact later_of_fix (execRegisterWrite_fix host off v collide s)
  | internalLinkSilent => exact later_of_fix (execInternalLinkSilent_fix s)
  | rootstockActionRequest act => exact later_of_fix (execRootstockActionRequest_fix act s)
  | vauxRise => exact later_of_fix (execVauxRise_fix s)
  | vauxFall => exact later_of_fix (execVauxFall_fix s)
  | sysRstAssert lowNs selfRefresh => exact later_of_fix (execSysRstAssert_fix lowNs selfRefresh s)
  | retentionWindowExpiry => exact later_of_fix (execRetentionWindowExpiry_fix s)
  | warmReset q => exact later_of_fix (execWarmReset_fix q s)
  | warmQuiesceDone selfRefresh => exact execWarmQuiesceDone_later selfRefresh s
  | watchdogExpiry selfRefresh => exact execWatchdogExpiry_later selfRefresh s
  | watchdogKick => exact later_of_fix (execWatchdogKick_fix s)
  | warmStartDeadline => exact execWarmStartDeadline_later s
  | startStepReady r rd => exact later_of_fix (execStartStepReady_fix r rd s)
  | regulatorRetryWaitExpiry => exact later_of_fix (execRegulatorRetryWaitExpiry_fix s)
  | seedBurstDone flashAddr => exact later_of_fix (execSeedBurstDone_fix flashAddr s)
  | seedBurstTimeout flashAddr => exact later_of_fix (execSeedBurstTimeout_fix flashAddr s)
  | flushTargetWaitExpiry t => exact later_of_fix (execFlushTargetWaitExpiry_fix t s)
  | recordConsume q => exact later_of_fix (execRecordConsume_fix q s)
  | targetAck q t => exact later_of_fix (execTargetAck_fix q t s)
  | snapshotTake => exact later_of_fix (execSnapshotTake_fix s)
  | snapshotComplete => exact later_of_fix (execSnapshotComplete_fix s)
  | viewAgeSnapshot => exact execViewAgeSnapshot_later s
  | seedBegin q copy => exact later_of_fix (execSeedBegin_fix q copy s)
  | seedEraseDone ok => exact later_of_fix (execSeedEraseDone_fix ok s)
  | seedWrite q off data => exact later_of_fix (execSeedWrite_fix q off data s)
  | seedEnd q => exact later_of_fix (execSeedEnd_fix q s)
  | seedProgramDone ok => exact later_of_fix (execSeedProgramDone_fix ok s)
  | pgRefEdgeLoss k => exact later_of_fix (execPgRefEdgeLoss_fix k s)
  | pgRefWindow k offset spread => exact later_of_fix (execPgRefWindow_fix k offset spread s)
  | pgRefRestored k => exact later_of_fix (execPgRefRestored_fix k s)
  | alnTransmit p => exact later_of_fix (execAlnTransmit_fix p s)
  | alnReceive p g inFrame drift at_ => exact later_of_fix (execAlnReceive_fix p g inFrame drift at_ s)
  | elasticBufferSlip lane => exact later_of_fix (execElasticBufferSlip_fix lane s)
  | laneTestStart lane v => exact later_of_fix (execLaneTestStart_fix lane v s)
  | laneTestStop lane v => exact later_of_fix (execLaneTestStop_fix lane v s)
  | prbsCheckerLock lane bits => exact later_of_fix (execPrbsCheckerLock_fix lane bits s)
  | prbsLockLoss lane bits => exact later_of_fix (execPrbsLockLoss_fix lane bits s)
  | injectShot lane => exact later_of_fix (execInjectShot_fix lane s)
  | injectRateTick lane => exact later_of_fix (execInjectRateTick_fix lane s)
  | marginStart lane v => exact later_of_fix (execMarginStart_fix lane v s)
  | marginDone lane errs blocks => exact later_of_fix (execMarginDone_fix lane errs blocks s)
  | linkMarginCommand lane c eyes => exact later_of_fix (execLinkMarginCommand_fix lane c eyes s)
  | dataFrameReceive p g => exact later_of_fix (execDataFrameReceive_fix p g s)
  | lcfReceive p g => exact later_of_fix (execLcfReceive_fix p g s)
  | lcfAckDelayExpiry p => exact later_of_fix (execLcfAckDelayExpiry_fix p s)
  | lcfPeriodExpiry p => exact later_of_fix (execLcfPeriodExpiry_fix p s)
  | nakRepeatExpiry p => exact later_of_fix (execNakRepeatExpiry_fix p s)
  | replayTimerExpiry p => exact later_of_fix (execReplayTimerExpiry_fix p s)
  | dataFrameTransmit p => exact later_of_fix (execDataFrameTransmit_fix p s)
  | laneLockLossTimeout lane => exact later_of_fix (execLaneLockLossTimeout_fix lane s)
  | downIdleExpiry p => exact execDownIdleExpiry_later p s
  | sequenceHoldExpiry p session => exact execSequenceHoldExpiry_later p session s
  | signalPresent p => exact later_of_fix (execSignalPresent_fix p s)
  | trainingStepDone p lanesUp inverted skew => exact later_of_fix (execTrainingStepDone_fix p lanesUp inverted skew s)
  | trainingStepTimeout p skew => exact later_of_fix (execTrainingStepTimeout_fix p skew s)
  | trainingRetryExpiry p => exact execTrainingRetryExpiry_later p s
  | laneSetReceive p g => exact later_of_fix (execLaneSetReceive_fix p g s)
  | peerSwReceive p g => exact later_of_fix (execPeerSwReceive_fix p g s)
  | peerPortReceive p g => exact later_of_fix (execPeerPortReceive_fix p g s)
  | sessionReceive p g => exact later_of_fix (execSessionReceive_fix p g s)
  | presetReqReceive p g => exact later_of_fix (execPresetReqReceive_fix p g s)
  | presetAckReceive p g => exact later_of_fix (execPresetAckReceive_fix p g s)
  | presetAdaptExpiry p eye => exact later_of_fix (execPresetAdaptExpiry_fix p eye s)
  | readyReceive p g newSession => exact later_of_fix (execReadyReceive_fix p g newSession s)
  | nzlResetGo p v => exact later_of_fix (execNzlResetGo_fix p v s)
  | bringupResetBegin p => exact later_of_fix (execBringupResetBegin_fix p s)
  | lrsReceive p g => exact later_of_fix (execLrsReceive_fix p g s)
  | lrsAckTimeout p => exact later_of_fix (execLrsAckTimeout_fix p s)
  | sleepReqReceive p g => exact later_of_fix (execSleepReqReceive_fix p g s)
  | sleepAckReceive p g => exact later_of_fix (execSleepAckReceive_fix p g s)
  | sleepNakReceive p g => exact later_of_fix (execSleepNakReceive_fix p g s)
  | wakeReceive p => exact later_of_fix (execWakeReceive_fix p s)
  | wakeSendEnd p => exact later_of_fix (execWakeSendEnd_fix p s)
  | configRequest p c => exact later_of_fix (execConfigRequest_fix p c s)
  | mefMemoryRequest host posted bar off prot reqId tag v => exact later_of_fix (execMefMemoryRequest_fix host posted bar off prot reqId tag v s)
  | msixSend host v => exact later_of_fix (execMsixSend_fix host v s)
  | pmeSignal host => exact later_of_fix (execPmeSignal_fix host s)
  | pmeTurnOff host => exact later_of_fix (execPmeTurnOff_fix host s)
  | d3hotToD0 host => exact later_of_fix (execD3hotToD0_fix host s)
  | bmeClear host => exact later_of_fix (execBmeClear_fix host s)
  | bmeSet host => exact later_of_fix (execBmeSet_fix host s)
  | mefCompletionReceive host tag ok poison data => exact later_of_fix (execMefCompletionReceive_fix host tag ok poison data s)
  | mefCompletionTimeout host tag => exact execMefCompletionTimeout_later host tag s
  | functionLevelReset host => exact later_of_fix (execFunctionLevelReset_fix host s)
  | flrDrainExpiry host => exact later_of_fix (execFlrDrainExpiry_fix host s)
  | upstreamLinkDown host => exact later_of_fix (execUpstreamLinkDown_fix host s)
  | hotReset host => exact later_of_fix (execHotReset_fix host s)
  | vdspRetrainLink host j => exact later_of_fix (execVdspRetrainLink_fix host j s)
  | vdspLinkDisable host j => exact later_of_fix (execVdspLinkDisable_fix host j s)
  | pcieLinkRetrain p v => exact later_of_fix (execPcieLinkRetrain_fix p v s)
  | dpcTrigger p c => exact later_of_fix (execDpcTrigger_fix p c s)
  | dpcRelease p => exact later_of_fix (execDpcRelease_fix p s)
  | powerControllerOff host j => exact later_of_fix (execPowerControllerOff_fix host j s)
  | powerControllerOn host j => exact later_of_fix (execPowerControllerOn_fix host j s)
  | tlpReceive p t => exact later_of_fix (execTlpReceive_fix p t s)
  | frameHeaderKnown p h checksAgree fc parity => exact later_of_fix (execFrameHeaderKnown_fix p h checksAgree fc parity s)
  | ingressVerdict p good flip addrFlip wordIdx parity late => exact later_of_fix (execIngressVerdict_fix p good flip addrFlip wordIdx parity late s)
  | egressFrameBoundary p flip addrFlip wordIdx parity fc => exact later_of_fix (execEgressFrameBoundary_fix p flip addrFlip wordIdx parity fc s)
  | nonpostedIssue p reqId tag srcSw srcPort => exact later_of_fix (execNonpostedIssue_fix p reqId tag srcSw srcPort s)
  | deviceCompletionReceive p c => exact later_of_fix (execDeviceCompletionReceive_fix p c s)
  | linkStateReceive p origin start seq adj => exact later_of_fix (execLinkStateReceive_fix p origin start seq adj s)
  | discoveryQuietExpiry => exact execDiscoveryQuietExpiry_later s
  | discoveryPartialExpiry => exact execDiscoveryPartialExpiry_later s
  | adjacencyDownExpiry p => exact execAdjacencyDownExpiry_later p s
  | meterTokenTick => exact execMeterTokenTick_later s
  | shaperRefill => exact execShaperRefill_later s
  | shaper q p t rate size fill => exact later_of_fix (execShaper_fix q p t rate size fill s)
  | bankVoltageSample a b validA validB => exact execBankVoltageSample_later a b validA validB s
  | ledgerSample => exact later_of_fix (execLedgerSample_fix s)
  | admitReceive region originHost openB held deficit block allow => exact later_of_fix (execAdmitReceive_fix region originHost openB held deficit block allow s)
  | admitHoldoffExpiry region => exact execAdmitHoldoffExpiry_later region s
  | admitRepeatExpiry => exact execAdmitRepeatExpiry_later s
  | protectedWriteIngress p host reqId off len beOk release data poison tc => exact later_of_fix (execProtectedWriteIngress_fix p host reqId off len beOk release data poison tc s)
  | vc1InputArrive p flip addrFlip wordIdx parity => exact later_of_fix (execVc1InputArrive_fix p flip addrFlip wordIdx parity s)
  | writeLanded => exact later_of_fix (execWriteLanded_fix s)
  | epochTimerExpiry => exact execEpochTimerExpiry_later s
  | markerReceive p e catchup => exact later_of_fix (execMarkerReceive_fix p e catchup s)
  | markerSend p => exact later_of_fix (execMarkerSend_fix p s)
  | lossReceive e reqId srcPort kind home n => exact later_of_fix (execLossReceive_fix e reqId srcPort kind home n s)
  | reportReceive child e sent landed lost bitmap maxSe term update => exact later_of_fix (execReportReceive_fix child e sent landed lost bitmap maxSe term update s)
  | unattrWaitExpiry e => exact execUnattrWaitExpiry_later e s
  | clusterSealPeriodExpiry => exact execClusterSealPeriodExpiry_later s
  | clusterSealReceive e set term unattr leader => exact later_of_fix (execClusterSealReceive_fix e set term unattr leader s)
  | failoverTimeout => exact later_of_fix (execFailoverTimeout_fix s)
  | claimReceive sw se term => exact later_of_fix (execClaimReceive_fix sw se term s)
  | memberRemovalExpiry m => exact later_of_fix (execMemberRemovalExpiry_fix m s)
  | rejoinReceive sw se eOpen kept => exact later_of_fix (execRejoinReceive_fix sw se eOpen kept s)
  | includeReceive eJoin set term clusterSe => exact later_of_fix (execIncludeReceive_fix eJoin set term clusterSe s)
  | regionLostReceive se region host => exact later_of_fix (execRegionLostReceive_fix se region host s)
  | durabilityFence host reqId wide => exact later_of_fix (execDurabilityFence_fix host reqId wide s)
  | fenceTimeout host => exact execFenceTimeout_later host s
  | connFenceRead host reqId idx wide => exact later_of_fix (execConnFenceRead_fix host reqId idx wide s)
  | bar2Read host reqId tag off len => exact later_of_fix (execBar2Read_fix host reqId tag off len s)
  | bar2ReadAbort host => exact execBar2ReadAbort_later host s
  | landRelease host req hi => exact later_of_fix (execLandRelease_fix host req hi s)
  | patrolRead w flip addrFlip => exact later_of_fix (execPatrolRead_fix w flip addrFlip s)
  | landDiagGo v flip => exact later_of_fix (execLandDiagGo_fix v flip s)
  | dramChannelFail c => exact later_of_fix (execDramChannelFail_fix c s)
  | inputDip mv => exact later_of_fix (execInputDip_fix mv s)
  | braceQualified => exact execBraceQualified_later s
  | braceReceive sender fromLeader id term own se => exact later_of_fix (execBraceReceive_fix sender fromLeader id term own se s)
  | pendDrained => exact later_of_fix (execPendDrained_fix s)
  | highReceive child h id term bitmap => exact later_of_fix (execHighReceive_fix child h id term bitmap s)
  | cutDeadlineExpiry => exact execCutDeadlineExpiry_later s
  | localCutExpiry => exact execLocalCutExpiry_later s
  | cutReceive c id term partial_ leader bitmap => exact later_of_fix (execCutReceive_fix c id term partial_ leader bitmap s)
  | inputRise mv => exact later_of_fix (execInputRise_fix mv s)
  | standDownQualified => exact execStandDownQualified_later s
  | recoveredReceive sender id => exact later_of_fix (execRecoveredReceive_fix sender id s)
  | standDownReceive c id term => exact later_of_fix (execStandDownReceive_fix c id term s)
  | switchoverLevel => exact later_of_fix (execSwitchoverLevel_fix s)
  | braceLimitExpiry => exact execBraceLimitExpiry_later s
  | commitReceive c id term sender cause => exact later_of_fix (execCommitReceive_fix c id term sender cause s)
  | flushCommandComplete t idx ok => exact later_of_fix (execFlushCommandComplete_fix t idx ok s)
  | flushTargetStall t => exact later_of_fix (execFlushTargetStall_fix t s)
  | inputGoodHoldExpiry => exact execInputGoodHoldExpiry_later s
  | bankAtVmin => exact later_of_fix (execBankAtVmin_fix s)
  | flushTargetLinkDown t => exact later_of_fix (execFlushTargetLinkDown_fix t s)
  | pfailReadGo v => exact later_of_fix (execPfailReadGo_fix v s)
  | pfailReadDone ok data => exact later_of_fix (execPfailReadDone_fix ok data s)
  | imageCopy q t lba cnt addr pasid => exact later_of_fix (execImageCopy_fix q t lba cnt addr pasid s)
  | prsntAssert c => exact later_of_fix (execPrsntAssert_fix c s)
  | prsntDeassert c => exact later_of_fix (execPrsntDeassert_fix c s)
  | seatingComplete c => exact later_of_fix (execSeatingComplete_fix c s)
  | preTurnOnCheckDone c => exact later_of_fix (execPreTurnOnCheckDone_fix c s)
  | preTurnOnCheckTimeout c => exact later_of_fix (execPreTurnOnCheckTimeout_fix c s)
  | gateThresholdExpiry c => exact later_of_fix (execGateThresholdExpiry_fix c s)
  | outputReachesPgLevel c => exact later_of_fix (execOutputReachesPgLevel_fix c s)
  | pgWindowComplete c => exact later_of_fix (execPgWindowComplete_fix c s)
  | noRampExpiry c => exact later_of_fix (execNoRampExpiry_fix c s)
  | perstReleaseExpiry c => exact later_of_fix (execPerstReleaseExpiry_fix c s)
  | limitEntry c => exact later_of_fix (execLimitEntry_fix c s)
  | limitExit c countedUs => exact later_of_fix (execLimitExit_fix c countedUs s)
  | outOfLimitReset c => exact later_of_fix (execOutOfLimitReset_fix c s)
  | faultTimerExpiry c => exact execFaultTimerExpiry_later c s
  | fastComparatorTrip c => exact later_of_fix (execFastComparatorTrip_fix c s)
  | monitorAdcReading c ma vout => exact later_of_fix (execMonitorAdcReading_fix c ma vout s)
  | cooldownExpiry c => exact later_of_fix (execCooldownExpiry_fix c s)
  | attentionButtonPress c => exact later_of_fix (execAttentionButtonPress_fix c s)
  | prsntAbsentExpiry c => exact execPrsntAbsentExpiry_later c s
  | gateRemovalExpiry c => exact later_of_fix (execGateRemovalExpiry_fix c s)
  | offStateDrainExpiry c below => exact later_of_fix (execOffStateDrainExpiry_fix c below s)
  | offStateOutputHigh c => exact later_of_fix (execOffStateOutputHigh_fix c s)
  | slotPower q c on => exact later_of_fix (execSlotPower_fix q c on s)
  | cellReading mv => exact later_of_fix (execCellReading_fix mv s)
  | ntcReading a b => exact later_of_fix (execNtcReading_fix a b s)
  | chargerCurrentLow => exact later_of_fix (execChargerCurrentLow_fix s)
  | cellOvervoltageTrip idx => exact later_of_fix (execCellOvervoltageTrip_fix idx s)
  | bankOvervoltageTrip => exact later_of_fix (execBankOvervoltageTrip_fix s)
  | bankRiseChargerOff => exact later_of_fix (execBankRiseChargerOff_fix s)
  | reverseCurrentTrip => exact later_of_fix (execReverseCurrentTrip_fix s)
  | dischargeOvercurrentTrip => exact later_of_fix (execDischargeOvercurrentTrip_fix s)
  | protectionAutoClear code => exact execProtectionAutoClear_later code s
  | bankClear q => exact later_of_fix (execBankClear_fix q s)
  | rcClockFault dev => exact later_of_fix (execRcClockFault_fix dev s)
  | xtalLoss => exact later_of_fix (execXtalLoss_fix s)
  | sqTailWrite host sq v => exact later_of_fix (execSqTailWrite_fix host sq v s)
  | cqHeadWrite host cq v => exact later_of_fix (execCqHeadWrite_fix host cq v s)
  | cqArmWrite host cq v => exact later_of_fix (execCqArmWrite_fix host cq v s)
  | wqeFetchDone host sq w => exact later_of_fix (execWqeFetchDone_fix host sq w s)
  | cqeWrite host cq => exact later_of_fix (execCqeWrite_fix host cq s)
  | rmePacketSend eng conn => exact later_of_fix (execRmePacketSend_fix eng conn s)
  | rmeWriteReceive eng k => exact later_of_fix (execRmeWriteReceive_fix eng k s)
  | readReqReceive eng k => exact later_of_fix (execReadReqReceive_fix eng k s)
  | readRespReceive eng k => exact later_of_fix (execReadRespReceive_fix eng k s)
  | ctrlReceive eng k => exact later_of_fix (execCtrlReceive_fix eng k s)
  | rmeAckReceive conn cum status errPsn marked covered bitmap srcSw poison => exact later_of_fix (execRmeAckReceive_fix conn cum status errPsn marked covered bitmap srcSw poison s)
  | nakListReceive conn cum status psns poison => exact later_of_fix (execNakListReceive_fix conn cum status psns poison s)
  | landedReceive conn status entries poison => exact later_of_fix (execLandedReceive_fix conn status entries poison s)
  | clAckReceive eng srcSw msgId received status result poison => exact later_of_fix (execClAckReceive_fix eng srcSw msgId received status result poison s)
  | rmeAckDelayExpiry conn => exact later_of_fix (execRmeAckDelayExpiry_fix conn s)
  | nakListExpiry conn psn => exact execNakListExpiry_later conn psn s
  | rtoExpiry conn => exact later_of_fix (execRtoExpiry_fix conn s)
  | rateIncreaseExpiry conn => exact execRateIncreaseExpiry_later conn s
  | landedReportExpiry srcSw conn => exact later_of_fix (execLandedReportExpiry_fix srcSw conn s)
  | clResendExpiry eng msgId => exact execClResendExpiry_later eng msgId s
  | clAckDelayExpiry eng key => exact later_of_fix (execClAckDelayExpiry_fix eng key s)
  | clEntryExpiry eng key => exact execClEntryExpiry_later eng key s
  | contextFillDone conn slot readOk ep => exact later_of_fix (execContextFillDone_fix conn slot readOk ep s)
  | contextSpillDone conn => exact later_of_fix (execContextSpillDone_fix conn s)
  | compostAdd q pos base log2 pasid => exact later_of_fix (execCompostAdd_fix q pos base log2 pasid s)
  | compostRemove q pos => exact later_of_fix (execCompostRemove_fix q pos s)
  | sqCreate q base log2 cq tc pasid => exact later_of_fix (execSqCreate_fix q base log2 cq tc pasid s)
  | cqCreate q base log2 vec pasid => exact later_of_fix (execCqCreate_fix q base log2 vec pasid s)
  | queueDestroy q isCq n => exact later_of_fix (execQueueDestroy_fix q isCq n s)
  | connCreate q prot => exact later_of_fix (execConnCreate_fix q prot s)
  | connConnect q conn peerSw peerConn => exact later_of_fix (execConnConnect_fix q conn peerSw peerConn s)
  | connClose q conn => exact later_of_fix (execConnClose_fix q conn s)
  | regRegion q landing base len pasid perm peers peerSw => exact later_of_fix (execRegRegion_fix q landing base len pasid perm peers peerSw s)
  | revokeRegion q key => exact later_of_fix (execRevokeRegion_fix q key s)
  | regionOutstandingZero idx => exact later_of_fix (execRegionOutstandingZero_fix idx s)
  | regionQueryExpiry key => exact later_of_fix (execRegionQueryExpiry_fix key s)
  | connCloseExpiry host => exact later_of_fix (execConnCloseExpiry_fix host s)
  | hedgeRule q unit es => exact later_of_fix (execHedgeRule_fix q unit es s)
  | hedgeInflightDrained unit => exact later_of_fix (execHedgeInflightDrained_fix unit s)
  | hedgeHoldExpiry unit => exact execHedgeHoldExpiry_later unit s
  | hedgeRetryExpiry unit => exact execHedgeRetryExpiry_later unit s
  | pwSet q w valid srcBase srcLimit tgtBase target => exact later_of_fix (execPwSet_fix q w valid srcBase srcLimit tgtBase target s)
  | pwCommit q => exact later_of_fix (execPwCommit_fix q s)
  | bridgeRequest r => exact later_of_fix (execBridgeRequest_fix r s)
  | bridgeFrameReceive srcSw r => exact later_of_fix (execBridgeFrameReceive_fix srcSw r s)
  | bridgeFarIssue p => exact later_of_fix (execBridgeFarIssue_fix p s)
  | bridgeResponseReceive r => exact later_of_fix (execBridgeResponseReceive_fix r s)
  | bridgeTimeout btag => exact execBridgeTimeout_later btag s
  | bridgeBusyRetryExpiry btag => exact execBridgeBusyRetryExpiry_later btag s
  | bridgeResponseStall btag => exact execBridgeResponseStall_later btag s
  | legacyMrdlk r => exact later_of_fix (execLegacyMrdlk_fix r s)
  | memRdLkReceive srcSw r => exact later_of_fix (execMemRdLkReceive_fix srcSw r s)
  | legacyUnlock => exact later_of_fix (execLegacyUnlock_fix s)
  | unlockReceive srcSw r => exact later_of_fix (execUnlockReceive_fix srcSw r s)
  | lockBackoffExpiry => exact execLockBackoffExpiry_later s
  | lockIdleExpiry => exact execLockIdleExpiry_later s
  | scionCreate q dev vdsp dbCount vecCount queues cells rate size evVec => exact later_of_fix (execScionCreate_fix q dev vdsp dbCount vecCount queues cells rate size evVec s)
  | scionReset q sc => exact later_of_fix (execScionReset_fix q sc s)
  | scionRemove q sc => exact later_of_fix (execScionRemove_fix q sc s)
  | scionShape q sc rate size fill => exact later_of_fix (execScionShape_fix q sc rate size fill s)
  | dirtyStart q sc base log2 bufA bufB pasid => exact later_of_fix (execDirtyStart_fix q sc base log2 bufA bufB pasid s)
  | dirtyStop q sc => exact later_of_fix (execDirtyStop_fix q sc s)
  | dirtySync q sc => exact later_of_fix (execDirtySync_fix q sc s)
  | dirtyWordFill sc wordIdx data => exact later_of_fix (execDirtyWordFill_fix sc wordIdx data s)
  | scionQuiesced sc => exact later_of_fix (execScionQuiesced_fix sc s)
  | scionQuiesceTimeout sc => exact execScionQuiesceTimeout_later sc s
  | scionTagHoldExpiry sc tag => exact execScionTagHoldExpiry_later sc tag s
  | scionHostRequest sc off t => exact later_of_fix (execScionHostRequest_fix sc off t s)
  | scionDeviceRequest p t => exact later_of_fix (execScionDeviceRequest_fix p t s)
  | scionDeviceMsix p v => exact later_of_fix (execScionDeviceMsix_fix p v s)
  | scionQueueWaitExpiry sc => exact execScionQueueWaitExpiry_later sc s
  | sharedPortTrigger p => exact later_of_fix (execSharedPortTrigger_fix p s)
  | sharedPortRetrainExpiry p ok => exact execSharedPortRetrainExpiry_later p ok s
  | p1IdleExpiry => exact later_of_fix (execP1IdleExpiry_fix s)
  | p1Exit => exact later_of_fix (execP1Exit_fix s)
  | pwrCtrlGoP2 p1En => exact later_of_fix (execPwrCtrlGoP2_fix p1En s)
  | pwrCtrlGoP3 p1En selfRefresh => exact later_of_fix (execPwrCtrlGoP3_fix p1En selfRefresh s)
  | pwrCtrlGoP4 p1En => exact later_of_fix (execPwrCtrlGoP4_fix p1En s)
  | powerState q target selfRefresh => exact later_of_fix (execPowerState_fix q target selfRefresh s)
  | stateEntryComplete waiting => exact later_of_fix (execStateEntryComplete_fix waiting s)
  | wakeEvent code n lastCycles => exact later_of_fix (execWakeEvent_fix code n lastCycles s)
  | avsEvaluationExpiry osc => exact execAvsEvaluationExpiry_later osc s
  | avsStepExpiry => exact execAvsStepExpiry_later s
  | pmbusChangeAck rail mv status => exact later_of_fix (execPmbusChangeAck_fix rail mv status s)
  | pmbusAckTimeout rail => exact execPmbusAckTimeout_later rail s
  | clockCheckTick xtalOk => exact later_of_fix (execClockCheckTick_fix xtalOk s)
  | pllLockLoss n => exact later_of_fix (execPllLockLoss_fix n s)
  | thermalReading degs => exact later_of_fix (execThermalReading_fix degs s)
  | thermalBraceExpiry => exact execThermalBraceExpiry_later s
  | thermalCoolExpiry => exact execThermalCoolExpiry_later s
  | faultArrival f => exact later_of_fix (execFaultArrival_fix f s)
  | errNPulseEnd => exact execErrNPulseEnd_later s
  | errNClear => exact later_of_fix (execErrNClear_fix s)
  | faultRecordClear unit => exact later_of_fix (execFaultRecordClear_fix unit s)
  | counterOvfClear g j wraps => exact later_of_fix (execCounterOvfClear_fix g j wraps s)
  | xoffReceive => exact later_of_fix (execXoffReceive_fix s)
  | xonReceive => exact later_of_fix (execXonReceive_fix s)
  | harvestFlowLostExpiry => exact execHarvestFlowLostExpiry_later s
  | harvestRecordEnd => exact later_of_fix (execHarvestRecordEnd_fix s)
  | harvestDropExpiry => exact execHarvestDropExpiry_later s
  | harvestSnapshotExpiry => exact execHarvestSnapshotExpiry_later s
  | mbRing host slot => exact later_of_fix (execMbRing_fix host slot s)
  | mbAck host slot => exact later_of_fix (execMbAck_fix host slot s)
  | mctpRequest slot words => exact later_of_fix (execMctpRequest_fix slot words s)
  | getStatus q => exact later_of_fix (execGetStatus_fix q s)
  | view q kind first => exact later_of_fix (execView_fix q kind first s)
  | provision q h0 h1 secret => exact absurd rfl (hp q h0 h1 secret)
  | counterRead q g => exact later_of_fix (execCounterRead_fix q g s)
  | counterMap q g => exact later_of_fix (execCounterMap_fix q g s)
  | counterUnmap q g => exact later_of_fix (execCounterUnmap_fix q g s)
  | attest q nonce => exact later_of_fix (execAttest_fix q nonce s)
  | attestLeafConfirm => exact later_of_fix (execAttestLeafConfirm_fix s)
  | attestLeafTimeout => exact execAttestLeafTimeout_later s
  | pcieDlUp p rate width flit lanes low => exact later_of_fix (execPcieDlUp_fix p rate width flit lanes low s)
  | pcieL1Entry p sub => exact later_of_fix (execPcieL1Entry_fix p sub s)
  | p2L1WaitExpiry p => exact execP2L1WaitExpiry_later p s
  | rcClockRestored => exact later_of_fix (execRcClockRestored_fix s)
  | setEndpointId eid => exact later_of_fix (execSetEndpointId_fix eid s)
  | bringupMemberDownExpiry p => exact execBringupMemberDownExpiry_later p s
  | upWakePulseExpiry host => exact later_of_fix (execUpWakePulseExpiry_fix host s)

/-- `fix` read as its parts. -/
theorem fix_iff (s t : State) : t.fix = s.fix ↔ t.pending = s.pending ∧ t.now = s.now ∧ t.root.fuses = s.root.fuses := by
  unfold State.fix
  rw [fixBox_eq, fixBox_eq, Fix.mk.injEq]

/-- A command's answer, from what it says of `fix`. -/
theorem next_of_resFix (r : Res) (s : State) (h : resFix r = some s.fix) : ∃ t, r = .next t ∧ t.fix = s.fix := by
  cases r with
  | next t => exact ⟨t, rfl, Option.some.inj h⟩
  | fault f => cases h
  | refused f => cases h

/-- A command's answer, from what it says of the queue, the time and the fuses. -/
theorem next_of_later (r : Res) (s : State) (h : Later s (resFix r)) :
    ∃ t, r = .next t ∧ t.pending = s.pending ∧ s.now ≤ t.now ∧ t.root.fuses = s.root.fuses := by
  obtain ⟨n, hn, h⟩ := h
  obtain ⟨t, e, h⟩ := next_of_resFix r { s with now := n } h
  obtain ⟨a, b, c⟩ := (fix_iff { s with now := n } t).mp h
  exact ⟨t, e, a, by rw [b]; exact hn, c⟩

/-- PROVISION answers a next state: the queue and the time as they were, and the fuses as they were unless it was not provisioned. -/
theorem execProvision_fuses (q : ReqSrc) (h0 h1 secret : BitVec 256) (s : State) :
    ∃ t, execProvision q h0 h1 secret s = .next t ∧ t.pending = s.pending ∧ t.now = s.now ∧
      (t.root.fuses = s.root.fuses ∨ s.root.provisioned = false ∧ t.root.fuses = ⟨true, h0, h1, secret⟩) := by
  refine ⟨_, rfl, ?_⟩
  unfold serve
  split
  · exact ⟨rfl, rfl, .inl rfl⟩
  · split
    · obtain ⟨a, b, c⟩ := (fix_iff _ _).mp (reply_fix s q 0x0101 0x02 [])
      exact ⟨a, b, .inl c⟩
    · split
      · obtain ⟨a, b, c⟩ := (fix_iff _ _).mp (reply_fix s q 0x0101 0x07 [])
        exact ⟨a, b, .inl c⟩
      · have eb := (fix_iff _ _).mp (beginReq_fix s q)
        have hb : (beginReq s q).root = s.root := by
          unfold beginReq
          split <;> rfl
        beta_reduce
        revert hb eb
        generalize beginReq s q = u
        intro eb hb
        by_cases hp : u.root.provisioned = true
        · rw [if_pos hp]
          obtain ⟨a, b, c⟩ := (fix_iff _ _).mp (reply_fix u q 0x0101 0x07 [])
          exact ⟨a.trans eb.1, b.trans eb.2.1, .inl (c.trans eb.2.2)⟩
        · rw [if_neg hp]
          obtain ⟨a, b, c⟩ := (fix_iff _ _).mp ((reply_fix _ q 0x0101 0 _).trans (wrB_fix
            { u with root := { u.root with keyHash0 := h0, keyHash1 := h1, attSecret := secret, provisioned := true } } Reg.SEED_FUSE_STATE 0 true))
          exact ⟨a.trans eb.1, b.trans eb.2.1, .inr ⟨by rw [← hb]; simpa using hp, c⟩⟩

/-- A tick keeps the queue and the fuses, and moves the time on by one core cycle. -/
theorem tick_fuses (s : State) : (tick s).pending = s.pending ∧ (tick s).now = s.now + 1 ∧ (tick s).root.fuses = s.root.fuses := by
  have e : (tick s).fix = ({ s with now := s.now + 1 } : State).fix :=
    (noteFull_fix _).trans ((refuseForms_fix _).trans ((powerTick_fix _).trans ((errRelease_fix _).trans ((cntOut_fix _).trans
      ((sampleOut_fix _).trans (pmeLate_fix _))))))
  exact (fix_iff _ _).mp e

end Sys2Proof.Machine
end

