-- ==== Sys2Proof/Laws/Tab.lean ====
section
/-! SUPPORT. Laws of the sparse tables: a read after a write, and that every operation keeps the canonical form, so that equal
tables are equal data. -/

set_option linter.unusedSectionVars false

namespace Sys2Proof.Machine.Tab

variable {α : Type} [Inhabited α] [DecidableEq α]

/-! ### Reading what was written -/

theorem find_drop_self (l : List (Nat × α)) (k : Nat) : find (drop l k) k = none := by
  induction l with
  | nil => rfl
  | cons c l ih =>
    obtain ⟨j, v⟩ := c
    by_cases h : j = k
    · simp [drop, h, ih]
    · simp [drop, h, find, ih]

theorem find_drop_ne (l : List (Nat × α)) (k j : Nat) (h : j ≠ k) : find (drop l k) j = find l j := by
  induction l with
  | nil => rfl
  | cons c l ih =>
    obtain ⟨i, v⟩ := c
    by_cases hk : i = k
    · subst hk; simp [drop, find, Ne.symm h, ih]
    · by_cases hj : i = j
      · subst hj; simp [drop, find, hk]
      · simp [drop, find, hk, hj, ih]

theorem find_ins_self (l : List (Nat × α)) (k : Nat) (v : α) (h : find l k = none) : find (ins l k v) k = some v := by
  induction l with
  | nil => simp [ins, find]
  | cons c l ih =>
    obtain ⟨j, u⟩ := c
    by_cases hj : j = k
    · simp [find, hj] at h
    · have h' : find l k = none := by simpa [find, hj] using h
      by_cases hk : k < j <;> simp [ins, find, hk, hj, ih h']

theorem find_ins_ne (l : List (Nat × α)) (k j : Nat) (v : α) (h : j ≠ k) : find (ins l k v) j = find l j := by
  induction l with
  | nil => simp [ins, find, Ne.symm h]
  | cons c l ih =>
    obtain ⟨i, u⟩ := c
    by_cases hk : k < i
    · simp [ins, find, hk, Ne.symm h]
    · simp [ins, find, hk, ih]

/-- A read of the index just written gives the value written. -/
@[simp] theorem get_set_self (t : Tab α) (k : Nat) (v : α) : (t.set k v).get k = v := by
  unfold set get
  by_cases h : v = default
  · simp [h, find_drop_self]
  · simp [h, find_ins_self _ _ _ (find_drop_self t.cells k)]

/-- A write leaves every other index alone. -/
@[simp] theorem get_set_ne (t : Tab α) (k j : Nat) (v : α) (h : j ≠ k) : (t.set k v).get j = t.get j := by
  unfold set get
  by_cases hv : v = default
  · simp [hv, find_drop_ne _ _ _ h]
  · simp [hv, find_ins_ne _ _ _ _ h, find_drop_ne _ _ _ h]

@[simp] theorem get_upd_self (t : Tab α) (k : Nat) (f : α → α) : (t.upd k f).get k = f (t.get k) := get_set_self t k _

@[simp] theorem get_upd_ne (t : Tab α) (k j : Nat) (f : α → α) (h : j ≠ k) : (t.upd k f).get j = t.get j := get_set_ne t k j _ h

@[simp] theorem get_empty (k : Nat) : (Tab.empty : Tab α).get k = default := rfl

/-! ### The canonical form -/

/-- Every index of a list is above `k`. -/
def above (k : Nat) : List (Nat × α) → Bool
  | [] => true
  | (j, _) :: l => decide (k < j) && above k l

theorem above_mono {k m : Nat} (h : k ≤ m) (l : List (Nat × α)) (e : above m l = true) : above k l = true := by
  induction l with
  | nil => rfl
  | cons c l ih =>
    obtain ⟨j, v⟩ := c
    simp only [above, Bool.and_eq_true, decide_eq_true_eq] at e ⊢
    exact ⟨by omega, ih e.2⟩

theorem rising_cons (j : Nat) (v : α) (l : List (Nat × α)) :
    rising ((j, v) :: l) = true ↔ above j l = true ∧ rising l = true := by
  induction l generalizing j v with
  | nil => simp [rising, above]
  | cons c l ih =>
    obtain ⟨k, u⟩ := c
    have e : rising ((j, v) :: (k, u) :: l) = (decide (j < k) && rising ((k, u) :: l)) := rfl
    rw [e, Bool.and_eq_true, decide_eq_true_eq, ih k u]
    simp only [above, Bool.and_eq_true, decide_eq_true_eq]
    constructor
    · rintro ⟨h, a, r⟩; exact ⟨⟨h, above_mono (by omega) l a⟩, a, r⟩
    · rintro ⟨⟨h, _⟩, a, r⟩; exact ⟨h, a, r⟩

theorem above_drop (k m : Nat) (l : List (Nat × α)) (h : above m l = true) : above m (drop l k) = true := by
  induction l with
  | nil => rfl
  | cons c l ih =>
    obtain ⟨j, v⟩ := c
    simp only [above, Bool.and_eq_true] at h
    by_cases hj : j = k
    · simp [drop, hj, ih h.2]
    · simp [drop, hj, above, h.1, ih h.2]

theorem rising_drop (k : Nat) (l : List (Nat × α)) (h : rising l = true) : rising (drop l k) = true := by
  induction l with
  | nil => rfl
  | cons c l ih =>
    obtain ⟨j, v⟩ := c
    rw [rising_cons] at h
    by_cases hj : j = k
    · simp [drop, hj, ih h.2]
    · simp only [drop, hj, if_false]
      exact (rising_cons j v _).mpr ⟨above_drop k j l h.1, ih h.2⟩

theorem above_ins (k m : Nat) (v : α) (l : List (Nat × α)) (hm : m < k) (h : above m l = true) : above m (ins l k v) = true := by
  induction l with
  | nil => simp [ins, above, hm]
  | cons c l ih =>
    obtain ⟨j, u⟩ := c
    simp only [above, Bool.and_eq_true, decide_eq_true_eq] at h
    by_cases hk : k < j
    · simp [ins, hk, above, hm, h.1, h.2]
    · simp [ins, hk, above, h.1, ih h.2]

theorem rising_ins (k : Nat) (v : α) (l : List (Nat × α)) (hn : find l k = none) (h : rising l = true) :
    rising (ins l k v) = true := by
  induction l with
  | nil => simp [ins, rising]
  | cons c l ih =>
    obtain ⟨j, u⟩ := c
    have hj : j ≠ k := by intro e; simp [find, e] at hn
    have hn' : find l k = none := by simpa [find, hj] using hn
    have h' := (rising_cons j u l).mp h
    by_cases hk : k < j
    · simp only [ins, hk, if_true]
      refine (rising_cons k v _).mpr ⟨?_, h⟩
      simp only [above, Bool.and_eq_true, decide_eq_true_eq]
      exact ⟨hk, above_mono (by omega) l h'.1⟩
    · simp only [ins, hk, if_false]
      exact (rising_cons j u _).mpr ⟨above_ins k j v l (by omega) h'.1, ih hn' h'.2⟩

theorem all_drop (p : Nat × α → Bool) (k : Nat) (l : List (Nat × α)) (h : l.all p = true) : (drop l k).all p = true := by
  induction l with
  | nil => rfl
  | cons c l ih =>
    obtain ⟨j, v⟩ := c
    simp only [List.all_cons, Bool.and_eq_true] at h
    by_cases hj : j = k
    · simp [drop, hj, ih h.2]
    · simp [drop, hj, h.1, ih h.2]

theorem all_ins (p : Nat × α → Bool) (k : Nat) (v : α) (l : List (Nat × α)) (hv : p (k, v) = true) (h : l.all p = true) :
    (ins l k v).all p = true := by
  induction l with
  | nil => simp [ins, hv]
  | cons c l ih =>
    obtain ⟨j, u⟩ := c
    simp only [List.all_cons, Bool.and_eq_true] at h
    by_cases hk : k < j
    · simp [ins, hk, hv, h.1, h.2]
    · simp [ins, hk, h.1, ih h.2]

/-- A write keeps the canonical form. -/
theorem wf_set (t : Tab α) (k : Nat) (v : α) (h : t.wf = true) : (t.set k v).wf = true := by
  unfold wf at h ⊢
  rw [Bool.and_eq_true] at h ⊢
  unfold set
  by_cases hv : v = default
  · rw [if_pos hv]
    exact ⟨rising_drop k _ h.1, all_drop _ k _ h.2⟩
  · rw [if_neg hv]
    exact ⟨rising_ins k v _ (find_drop_self _ k) (rising_drop k _ h.1),
      all_ins _ k v _ (by simpa using hv) (all_drop _ k _ h.2)⟩

/-- A change of one entry keeps the canonical form. -/
theorem wf_upd (t : Tab α) (k : Nat) (f : α → α) (h : t.wf = true) : (t.upd k f).wf = true := wf_set t k _ h

theorem above_filter (m : Nat) (p : Nat × α → Bool) (l : List (Nat × α)) (h : above m l = true) : above m (l.filter p) = true := by
  induction l with
  | nil => rfl
  | cons c l ih =>
    obtain ⟨j, v⟩ := c
    simp only [above, Bool.and_eq_true] at h
    by_cases hp : p (j, v) = true
    · simp [hp, above, h.1, ih h.2]
    · simp [hp, ih h.2]

theorem rising_filter (p : Nat × α → Bool) (l : List (Nat × α)) (h : rising l = true) : rising (l.filter p) = true := by
  induction l with
  | nil => rfl
  | cons c l ih =>
    obtain ⟨j, v⟩ := c
    rw [rising_cons] at h
    by_cases hp : p (j, v) = true
    · simp only [List.filter_cons, hp, if_true]
      exact (rising_cons j v _).mpr ⟨above_filter j p l h.1, ih h.2⟩
    · simp [hp, ih h.2]

/-- Keeping some entries keeps the canonical form. -/
theorem wf_keep (t : Tab α) (f : Nat → α → Bool) (h : t.wf = true) : (t.keep f).wf = true := by
  unfold wf at h ⊢
  rw [Bool.and_eq_true] at h ⊢
  refine ⟨rising_filter _ _ h.1, ?_⟩
  rw [List.all_eq_true] at h ⊢
  exact fun c hc => h.2 c (List.mem_of_mem_filter hc)

theorem above_map (m : Nat) (g : Nat × α → α) (l : List (Nat × α)) : above m (l.map fun c => (c.1, g c)) = above m l := by
  induction l with
  | nil => rfl
  | cons c l ih => obtain ⟨j, v⟩ := c; simp [above, ih]

theorem rising_map (g : Nat × α → α) (l : List (Nat × α)) (h : rising l = true) :
    rising (l.map fun c => (c.1, g c)) = true := by
  induction l with
  | nil => rfl
  | cons c l ih =>
    obtain ⟨j, v⟩ := c
    rw [rising_cons] at h
    exact (rising_cons j _ _).mpr ⟨by rw [above_map]; exact h.1, ih h.2⟩

/-- Changing every listed value keeps the canonical form. -/
theorem wf_mapVals (t : Tab α) (f : Nat → α → α) (h : t.wf = true) : (t.mapVals f).wf = true := by
  unfold wf at h ⊢
  rw [Bool.and_eq_true] at h ⊢
  refine ⟨rising_filter _ _ (rising_map (fun c => f c.1 c.2) _ h.1), ?_⟩
  rw [List.all_eq_true]
  intro c hc
  exact (List.mem_filter.mp hc).2

/-- The empty table is in canonical form. -/
theorem wf_empty : (Tab.empty : Tab α).wf = true := rfl

end Sys2Proof.Machine.Tab
end

