-- ==== Sys2Proof/Laws/Regs.lean ====
section
/-! SUPPORT. Laws of the register operations: a field read after it was written, and that a write leaves every other register and every
other part of the state alone. -/

namespace Sys2Proof.Machine

open Sys2Proof

/-! ### Fields -/

/-- A number split at the two ends of a field. -/
theorem split_field (x lo w : Nat) : x = (x / 2 ^ (lo + w)) * 2 ^ (lo + w) + (x / 2 ^ lo % 2 ^ w) * 2 ^ lo + x % 2 ^ lo := by
  have h1 := Nat.div_add_mod x (2 ^ lo)
  have h2 := Nat.div_add_mod (x / 2 ^ lo) (2 ^ w)
  have h3 : x / 2 ^ lo / 2 ^ w = x / 2 ^ (lo + w) := by rw [Nat.div_div_eq_div_mul, pow_add]
  rw [h3] at h2
  calc x = 2 ^ lo * (x / 2 ^ lo) + x % 2 ^ lo := h1.symm
    _ = 2 ^ lo * (2 ^ w * (x / 2 ^ (lo + w)) + x / 2 ^ lo % 2 ^ w) + x % 2 ^ lo := by rw [h2]
    _ = _ := by ring

/-- The number with its field replaced. -/
def putNat (x lo w m : Nat) : Nat := (x / 2 ^ (lo + w)) * 2 ^ (lo + w) + m * 2 ^ lo + x % 2 ^ lo

theorem putNat_lt (x lo w m : Nat) (hw : lo + w ≤ 32) (hx : x < 2 ^ 32) (hm : m < 2 ^ w) : putNat x lo w m < 2 ^ 32 := by
  unfold putNat
  have hr : x % 2 ^ lo < 2 ^ lo := Nat.mod_lt _ (by positivity)
  have hlow : m * 2 ^ lo + x % 2 ^ lo < 2 ^ (lo + w) := by
    rw [pow_add, mul_comm (2 ^ lo)]
    have : (m + 1) * 2 ^ lo ≤ 2 ^ w * 2 ^ lo := Nat.mul_le_mul_right _ hm
    rw [Nat.add_mul, Nat.one_mul] at this
    omega
  obtain ⟨d, hd⟩ := Nat.exists_eq_add_of_le hw
  have h32 : 2 ^ 32 = 2 ^ d * 2 ^ (lo + w) := by rw [hd, pow_add, mul_comm]
  have hq : x / 2 ^ (lo + w) < 2 ^ d := by
    rw [Nat.div_lt_iff_lt_mul (by positivity), ← h32]
    exact hx
  have : (x / 2 ^ (lo + w) + 1) * 2 ^ (lo + w) ≤ 2 ^ d * 2 ^ (lo + w) := Nat.mul_le_mul_right _ hq
  rw [Nat.add_mul, Nat.one_mul, ← h32] at this
  omega

theorem setF_toNat (v : Word) (hi lo n : Nat) (hl : lo ≤ hi) (hh : hi < 32) :
    (setF v hi lo n).toNat = putNat v.toNat lo (hi + 1 - lo) (n % 2 ^ (hi + 1 - lo)) := by
  have hw : lo + (hi + 1 - lo) ≤ 32 := by omega
  have e : v.toNat - getF v hi lo * 2 ^ lo + n % 2 ^ (hi + 1 - lo) * 2 ^ lo =
      putNat v.toNat lo (hi + 1 - lo) (n % 2 ^ (hi + 1 - lo)) := by
    unfold getF putNat
    have := split_field v.toNat lo (hi + 1 - lo)
    omega
  unfold setF
  rw [BitVec.toNat_ofNat, e]
  exact Nat.mod_eq_of_lt (putNat_lt _ _ _ _ hw v.isLt (Nat.mod_lt _ (by positivity)))

theorem putNat_field (x lo w m : Nat) (hm : m < 2 ^ w) : putNat x lo w m / 2 ^ lo % 2 ^ w = m := by
  unfold putNat
  have hr : x % 2 ^ lo < 2 ^ lo := Nat.mod_lt _ (by positivity)
  have e : x / 2 ^ (lo + w) * 2 ^ (lo + w) + m * 2 ^ lo + x % 2 ^ lo = 2 ^ lo * (x / 2 ^ (lo + w) * 2 ^ w + m) + x % 2 ^ lo := by
    rw [pow_add]; ring
  rw [e, Nat.mul_add_div (by positivity), Nat.div_eq_of_lt hr, Nat.add_zero, Nat.mul_comm, Nat.mul_add_mod, Nat.mod_eq_of_lt hm]

/-- A field just written reads as what was written, cut to its width. -/
theorem getF_setF (v : Word) (hi lo n : Nat) (hl : lo ≤ hi) (hh : hi < 32) : getF (setF v hi lo n) hi lo = n % 2 ^ (hi + 1 - lo) := by
  unfold getF
  rw [setF_toNat v hi lo n hl hh]
  exact putNat_field _ _ _ _ (Nat.mod_lt _ (by positivity))

theorem putNat_low (x lo w m k : Nat) (hk : k ≤ lo) : putNat x lo w m % 2 ^ k = x % 2 ^ k := by
  obtain ⟨d, rfl⟩ := Nat.exists_eq_add_of_le hk
  have e : putNat x (k + d) w m = 2 ^ k * (x / 2 ^ (k + d + w) * 2 ^ (d + w) + m * 2 ^ d) + x % 2 ^ (k + d) := by
    unfold putNat; rw [pow_add, pow_add 2 k d, pow_add 2 d w]; ring
  rw [e, Nat.mul_add_mod, Nat.mod_mod_of_dvd _ (pow_dvd_pow 2 (Nat.le_add_right k d))]

theorem putNat_high (x lo w m k : Nat) (hm : m < 2 ^ w) (hk : lo + w ≤ k) : putNat x lo w m / 2 ^ k = x / 2 ^ k := by
  obtain ⟨d, rfl⟩ := Nat.exists_eq_add_of_le hk
  have hlow : m * 2 ^ lo + x % 2 ^ lo < 2 ^ (lo + w) := by
    have hr : x % 2 ^ lo < 2 ^ lo := Nat.mod_lt _ (by positivity)
    rw [pow_add, mul_comm (2 ^ lo)]
    have : (m + 1) * 2 ^ lo ≤ 2 ^ w * 2 ^ lo := Nat.mul_le_mul_right _ hm
    rw [Nat.add_mul, Nat.one_mul] at this
    omega
  have e : putNat x lo w m / 2 ^ (lo + w) = x / 2 ^ (lo + w) := by
    unfold putNat
    rw [Nat.add_assoc, Nat.mul_comm, Nat.mul_add_div (by positivity), Nat.div_eq_of_lt hlow, Nat.add_zero]
  rw [pow_add, ← Nat.div_div_eq_div_mul, e, Nat.div_div_eq_div_mul]

/-- A field below the one written reads as before. -/
theorem getF_setF_below (v : Word) (hi lo n i j : Nat) (hl : lo ≤ hi) (hh : hi < 32) (hj : j ≤ i) (hi' : i < lo) :
    getF (setF v hi lo n) i j = getF v i j := by
  have key : ∀ x : Nat, x / 2 ^ j % 2 ^ (i + 1 - j) = x % 2 ^ (i + 1) / 2 ^ j := fun x => by
    have : 2 ^ (i + 1) = 2 ^ j * 2 ^ (i + 1 - j) := by rw [← pow_add]; congr 1; omega
    rw [this, Nat.mod_mul_right_div_self]
  unfold getF
  rw [setF_toNat v hi lo n hl hh, key, key, putNat_low _ _ _ _ _ (by omega)]

/-- A field above the one written reads as before. -/
theorem getF_setF_above (v : Word) (hi lo n i j : Nat) (hl : lo ≤ hi) (hh : hi < 32) (hj : hi < j) :
    getF (setF v hi lo n) i j = getF v i j := by
  unfold getF
  rw [setF_toNat v hi lo n hl hh, putNat_high _ _ _ _ _ (Nat.mod_lt _ (by positivity)) (by omega)]

/-- A bit just written reads as what was written. -/
theorem getB_setB (v : Word) (i : Nat) (b : Bool) (hi : i < 32) : getB (setB v i b) i = b := by
  unfold getB setB
  rw [getF_setF v i i b.toNat (Nat.le_refl i) hi]
  have : i + 1 - i = 1 := by omega
  cases b <;> simp [this]

/-- A bit just written, where the field operation wrote it. -/
theorem getB_setF_self (v : Word) (i : Nat) (b : Bool) (hi : i < 32) : getB (setF v i i b.toNat) i = b := getB_setB v i b hi

/-- A bit outside the field written reads as before. -/
theorem getB_setF_ne (v : Word) (hi lo n i : Nat) (hl : lo ≤ hi) (hh : hi < 32) (h : i < lo ∨ hi < i) :
    getB (setF v hi lo n) i = getB v i := by
  unfold getB
  rcases h with h | h
  · rw [getF_setF_below v hi lo n i i hl hh (Nat.le_refl i) h]
  · rw [getF_setF_above v hi lo n i i hl hh h]

/-! ### Registers -/

@[simp] theorem rd_wr_self (s : State) (a : Nat) (v : Word) : rd (wr s a v) a = v := Tab.get_set_self s.regs a v

theorem rd_wr_ne (s : State) (a b : Nat) (v : Word) (h : b ≠ a) : rd (wr s a v) b = rd s b := Tab.get_set_ne s.regs a b v h

theorem rd_wrF_ne (s : State) (a b hi lo n : Nat) (h : b ≠ a) : rd (wrF s a hi lo n) b = rd s b := rd_wr_ne s a b _ h

theorem rd_wrB_ne (s : State) (a b i : Nat) (v : Bool) (h : b ≠ a) : rd (wrB s a i v) b = rd s b := rd_wr_ne s a b _ h

theorem rd_wrN_ne (s : State) (a b n : Nat) (h : b ≠ a) : rd (wrN s a n) b = rd s b := rd_wr_ne s a b _ h

theorem rdF_wrF_self (s : State) (a hi lo n : Nat) (hl : lo ≤ hi) (hh : hi < 32) :
    rdF (wrF s a hi lo n) a hi lo = n % 2 ^ (hi + 1 - lo) := by
  unfold rdF wrF
  rw [rd_wr_self]
  exact getF_setF _ _ _ _ hl hh

theorem rdF_wrF_ne (s : State) (a b hi lo n i j : Nat) (h : b ≠ a) : rdF (wrF s a hi lo n) b i j = rdF s b i j := by
  unfold rdF
  rw [rd_wrF_ne s a b hi lo n h]

theorem rdB_wrB_self (s : State) (a i : Nat) (b : Bool) (hi : i < 32) : rdB (wrB s a i b) a i = b := by
  unfold rdB wrB wrF
  rw [rd_wr_self]
  exact getB_setB _ _ _ hi

theorem rdB_wrB_ne (s : State) (a b i j : Nat) (v : Bool) (h : b ≠ a) : rdB (wrB s a i v) b j = rdB s b j := by
  unfold rdB
  rw [rd_wrB_ne s a b i v h]

theorem rdB_wrF_ne (s : State) (a b hi lo n j : Nat) (h : b ≠ a) : rdB (wrF s a hi lo n) b j = rdB s b j := by
  unfold rdB
  rw [rd_wrF_ne s a b hi lo n h]

theorem rdF_wrB_ne (s : State) (a b k i j : Nat) (v : Bool) (h : b ≠ a) : rdF (wrB s a k v) b i j = rdF s b i j := by
  unfold rdF
  rw [rd_wrB_ne s a b k v h]

theorem rdN_wrN_self (s : State) (a n : Nat) : rdN (wrN s a n) a = n % 2 ^ 32 := by
  unfold rdN wrN w32
  rw [rd_wr_self, BitVec.toNat_ofNat]

/-- A counter raised: its value and one more, held at its maximum (R11). -/
theorem rdN_bump (s : State) (a : Nat) : rdN (bump s a) a = if rdN s a < 0xFFFFFFFF then rdN s a + 1 else 0xFFFFFFFF := by
  unfold bump bumpBy
  rw [rdN_wrN_self]
  have h : rdN s a < 2 ^ 32 := (rd s a).isLt
  unfold satAdd
  split <;> split <;> omega

theorem rd_bump_ne (s : State) (a b : Nat) (h : b ≠ a) : rd (bump s a) b = rd s b := rd_wr_ne s a b _ h

/-- A register written keeps the canonical form of the register table. -/
theorem regs_wf_wr (s : State) (a : Nat) (v : Word) (h : s.regs.wf = true) : (wr s a v).regs.wf = true := Tab.wf_set s.regs a v h

/-- An output leaves after those before it. -/
@[simp] theorem emit_out (s : State) (o : Out) : (emit s o).out = s.out ++ [o] := rfl

end Sys2Proof.Machine
end

