-- ==== Sys2Proof/Laws/State.lean ====
section
/-! SUPPORT. Each named update of the state, field by field: what it changes and that it leaves every other field alone. All hold by
rfl, so that no later proof unfolds a record update. -/

namespace Sys2Proof.Machine

open Sys2Proof

/-! ### wr -/

@[simp] theorem wr_pending (s : State) (a : Nat) (v : Word) : (wr s a v).pending = s.pending := rfl
@[simp] theorem wr_out (s : State) (a : Nat) (v : Word) : (wr s a v).out = s.out := rfl
@[simp] theorem wr_now (s : State) (a : Nat) (v : Word) : (wr s a v).now = s.now := rfl
@[simp] theorem wr_t0 (s : State) (a : Nat) (v : Word) : (wr s a v).t0 = s.t0 := rfl
@[simp] theorem wr_free (s : State) (a : Nat) (v : Word) : (wr s a v).free = s.free := rfl
@[simp] theorem wr_access (s : State) (a : Nat) (v : Word) : (wr s a v).access = s.access := rfl
@[simp] theorem wr_root (s : State) (a : Nat) (v : Word) : (wr s a v).root = s.root := rfl
@[simp] theorem wr_ret (s : State) (a : Nat) (v : Word) : (wr s a v).ret = s.ret := rfl
@[simp] theorem wr_start (s : State) (a : Nat) (v : Word) : (wr s a v).start = s.start := rfl
@[simp] theorem wr_seed (s : State) (a : Nat) (v : Word) : (wr s a v).seed = s.seed := rfl
@[simp] theorem wr_lane (s : State) (a : Nat) (v : Word) : (wr s a v).lane = s.lane := rfl
@[simp] theorem wr_pg (s : State) (a : Nat) (v : Word) : (wr s a v).pg = s.pg := rfl
@[simp] theorem wr_pair (s : State) (a : Nat) (v : Word) : (wr s a v).pair = s.pair := rfl
@[simp] theorem wr_member (s : State) (a : Nat) (v : Word) : (wr s a v).member = s.member := rfl
@[simp] theorem wr_pcie (s : State) (a : Nat) (v : Word) : (wr s a v).pcie = s.pcie := rfl
@[simp] theorem wr_flt (s : State) (a : Nat) (v : Word) : (wr s a v).flt = s.flt := rfl
@[simp] theorem wr_hvst (s : State) (a : Nat) (v : Word) : (wr s a v).hvst = s.hvst := rfl
@[simp] theorem wr_mgmt (s : State) (a : Nat) (v : Word) : (wr s a v).mgmt = s.mgmt := rfl
@[simp] theorem wr_fwd (s : State) (a : Nat) (v : Word) : (wr s a v).fwd = s.fwd := rfl
@[simp] theorem wr_qos (s : State) (a : Nat) (v : Word) : (wr s a v).qos = s.qos := rfl
@[simp] theorem wr_land (s : State) (a : Nat) (v : Word) : (wr s a v).land = s.land := rfl
@[simp] theorem wr_rme (s : State) (a : Nat) (v : Word) : (wr s a v).rme = s.rme := rfl
@[simp] theorem wr_hedge (s : State) (a : Nat) (v : Word) : (wr s a v).hedge = s.hedge := rfl
@[simp] theorem wr_rootSt (s : State) (a : Nat) (v : Word) : (wr s a v).rootSt = s.rootSt := rfl
@[simp] theorem wr_pfail (s : State) (a : Nat) (v : Word) : (wr s a v).pfail = s.pfail := rfl
@[simp] theorem wr_brg (s : State) (a : Nat) (v : Word) : (wr s a v).brg = s.brg := rfl
@[simp] theorem wr_scion (s : State) (a : Nat) (v : Word) : (wr s a v).scion = s.scion := rfl
@[simp] theorem wr_pwr (s : State) (a : Nat) (v : Word) : (wr s a v).pwr = s.pwr := rfl

/-! ### wrF -/

@[simp] theorem wrF_pending (s : State) (a hi lo n : Nat) : (wrF s a hi lo n).pending = s.pending := rfl
@[simp] theorem wrF_out (s : State) (a hi lo n : Nat) : (wrF s a hi lo n).out = s.out := rfl
@[simp] theorem wrF_now (s : State) (a hi lo n : Nat) : (wrF s a hi lo n).now = s.now := rfl
@[simp] theorem wrF_t0 (s : State) (a hi lo n : Nat) : (wrF s a hi lo n).t0 = s.t0 := rfl
@[simp] theorem wrF_free (s : State) (a hi lo n : Nat) : (wrF s a hi lo n).free = s.free := rfl
@[simp] theorem wrF_access (s : State) (a hi lo n : Nat) : (wrF s a hi lo n).access = s.access := rfl
@[simp] theorem wrF_root (s : State) (a hi lo n : Nat) : (wrF s a hi lo n).root = s.root := rfl
@[simp] theorem wrF_ret (s : State) (a hi lo n : Nat) : (wrF s a hi lo n).ret = s.ret := rfl
@[simp] theorem wrF_start (s : State) (a hi lo n : Nat) : (wrF s a hi lo n).start = s.start := rfl
@[simp] theorem wrF_seed (s : State) (a hi lo n : Nat) : (wrF s a hi lo n).seed = s.seed := rfl
@[simp] theorem wrF_lane (s : State) (a hi lo n : Nat) : (wrF s a hi lo n).lane = s.lane := rfl
@[simp] theorem wrF_pg (s : State) (a hi lo n : Nat) : (wrF s a hi lo n).pg = s.pg := rfl
@[simp] theorem wrF_pair (s : State) (a hi lo n : Nat) : (wrF s a hi lo n).pair = s.pair := rfl
@[simp] theorem wrF_member (s : State) (a hi lo n : Nat) : (wrF s a hi lo n).member = s.member := rfl
@[simp] theorem wrF_pcie (s : State) (a hi lo n : Nat) : (wrF s a hi lo n).pcie = s.pcie := rfl
@[simp] theorem wrF_flt (s : State) (a hi lo n : Nat) : (wrF s a hi lo n).flt = s.flt := rfl
@[simp] theorem wrF_hvst (s : State) (a hi lo n : Nat) : (wrF s a hi lo n).hvst = s.hvst := rfl
@[simp] theorem wrF_mgmt (s : State) (a hi lo n : Nat) : (wrF s a hi lo n).mgmt = s.mgmt := rfl
@[simp] theorem wrF_fwd (s : State) (a hi lo n : Nat) : (wrF s a hi lo n).fwd = s.fwd := rfl
@[simp] theorem wrF_qos (s : State) (a hi lo n : Nat) : (wrF s a hi lo n).qos = s.qos := rfl
@[simp] theorem wrF_land (s : State) (a hi lo n : Nat) : (wrF s a hi lo n).land = s.land := rfl
@[simp] theorem wrF_rme (s : State) (a hi lo n : Nat) : (wrF s a hi lo n).rme = s.rme := rfl
@[simp] theorem wrF_hedge (s : State) (a hi lo n : Nat) : (wrF s a hi lo n).hedge = s.hedge := rfl
@[simp] theorem wrF_rootSt (s : State) (a hi lo n : Nat) : (wrF s a hi lo n).rootSt = s.rootSt := rfl
@[simp] theorem wrF_pfail (s : State) (a hi lo n : Nat) : (wrF s a hi lo n).pfail = s.pfail := rfl
@[simp] theorem wrF_brg (s : State) (a hi lo n : Nat) : (wrF s a hi lo n).brg = s.brg := rfl
@[simp] theorem wrF_scion (s : State) (a hi lo n : Nat) : (wrF s a hi lo n).scion = s.scion := rfl
@[simp] theorem wrF_pwr (s : State) (a hi lo n : Nat) : (wrF s a hi lo n).pwr = s.pwr := rfl

/-! ### wrB -/

@[simp] theorem wrB_pending (s : State) (a i : Nat) (b : Bool) : (wrB s a i b).pending = s.pending := rfl
@[simp] theorem wrB_out (s : State) (a i : Nat) (b : Bool) : (wrB s a i b).out = s.out := rfl
@[simp] theorem wrB_now (s : State) (a i : Nat) (b : Bool) : (wrB s a i b).now = s.now := rfl
@[simp] theorem wrB_t0 (s : State) (a i : Nat) (b : Bool) : (wrB s a i b).t0 = s.t0 := rfl
@[simp] theorem wrB_free (s : State) (a i : Nat) (b : Bool) : (wrB s a i b).free = s.free := rfl
@[simp] theorem wrB_access (s : State) (a i : Nat) (b : Bool) : (wrB s a i b).access = s.access := rfl
@[simp] theorem wrB_root (s : State) (a i : Nat) (b : Bool) : (wrB s a i b).root = s.root := rfl
@[simp] theorem wrB_ret (s : State) (a i : Nat) (b : Bool) : (wrB s a i b).ret = s.ret := rfl
@[simp] theorem wrB_start (s : State) (a i : Nat) (b : Bool) : (wrB s a i b).start = s.start := rfl
@[simp] theorem wrB_seed (s : State) (a i : Nat) (b : Bool) : (wrB s a i b).seed = s.seed := rfl
@[simp] theorem wrB_lane (s : State) (a i : Nat) (b : Bool) : (wrB s a i b).lane = s.lane := rfl
@[simp] theorem wrB_pg (s : State) (a i : Nat) (b : Bool) : (wrB s a i b).pg = s.pg := rfl
@[simp] theorem wrB_pair (s : State) (a i : Nat) (b : Bool) : (wrB s a i b).pair = s.pair := rfl
@[simp] theorem wrB_member (s : State) (a i : Nat) (b : Bool) : (wrB s a i b).member = s.member := rfl
@[simp] theorem wrB_pcie (s : State) (a i : Nat) (b : Bool) : (wrB s a i b).pcie = s.pcie := rfl
@[simp] theorem wrB_flt (s : State) (a i : Nat) (b : Bool) : (wrB s a i b).flt = s.flt := rfl
@[simp] theorem wrB_hvst (s : State) (a i : Nat) (b : Bool) : (wrB s a i b).hvst = s.hvst := rfl
@[simp] theorem wrB_mgmt (s : State) (a i : Nat) (b : Bool) : (wrB s a i b).mgmt = s.mgmt := rfl
@[simp] theorem wrB_fwd (s : State) (a i : Nat) (b : Bool) : (wrB s a i b).fwd = s.fwd := rfl
@[simp] theorem wrB_qos (s : State) (a i : Nat) (b : Bool) : (wrB s a i b).qos = s.qos := rfl
@[simp] theorem wrB_land (s : State) (a i : Nat) (b : Bool) : (wrB s a i b).land = s.land := rfl
@[simp] theorem wrB_rme (s : State) (a i : Nat) (b : Bool) : (wrB s a i b).rme = s.rme := rfl
@[simp] theorem wrB_hedge (s : State) (a i : Nat) (b : Bool) : (wrB s a i b).hedge = s.hedge := rfl
@[simp] theorem wrB_rootSt (s : State) (a i : Nat) (b : Bool) : (wrB s a i b).rootSt = s.rootSt := rfl
@[simp] theorem wrB_pfail (s : State) (a i : Nat) (b : Bool) : (wrB s a i b).pfail = s.pfail := rfl
@[simp] theorem wrB_brg (s : State) (a i : Nat) (b : Bool) : (wrB s a i b).brg = s.brg := rfl
@[simp] theorem wrB_scion (s : State) (a i : Nat) (b : Bool) : (wrB s a i b).scion = s.scion := rfl
@[simp] theorem wrB_pwr (s : State) (a i : Nat) (b : Bool) : (wrB s a i b).pwr = s.pwr := rfl

/-! ### wrN -/

@[simp] theorem wrN_pending (s : State) (a n : Nat) : (wrN s a n).pending = s.pending := rfl
@[simp] theorem wrN_out (s : State) (a n : Nat) : (wrN s a n).out = s.out := rfl
@[simp] theorem wrN_now (s : State) (a n : Nat) : (wrN s a n).now = s.now := rfl
@[simp] theorem wrN_t0 (s : State) (a n : Nat) : (wrN s a n).t0 = s.t0 := rfl
@[simp] theorem wrN_free (s : State) (a n : Nat) : (wrN s a n).free = s.free := rfl
@[simp] theorem wrN_access (s : State) (a n : Nat) : (wrN s a n).access = s.access := rfl
@[simp] theorem wrN_root (s : State) (a n : Nat) : (wrN s a n).root = s.root := rfl
@[simp] theorem wrN_ret (s : State) (a n : Nat) : (wrN s a n).ret = s.ret := rfl
@[simp] theorem wrN_start (s : State) (a n : Nat) : (wrN s a n).start = s.start := rfl
@[simp] theorem wrN_seed (s : State) (a n : Nat) : (wrN s a n).seed = s.seed := rfl
@[simp] theorem wrN_lane (s : State) (a n : Nat) : (wrN s a n).lane = s.lane := rfl
@[simp] theorem wrN_pg (s : State) (a n : Nat) : (wrN s a n).pg = s.pg := rfl
@[simp] theorem wrN_pair (s : State) (a n : Nat) : (wrN s a n).pair = s.pair := rfl
@[simp] theorem wrN_member (s : State) (a n : Nat) : (wrN s a n).member = s.member := rfl
@[simp] theorem wrN_pcie (s : State) (a n : Nat) : (wrN s a n).pcie = s.pcie := rfl
@[simp] theorem wrN_flt (s : State) (a n : Nat) : (wrN s a n).flt = s.flt := rfl
@[simp] theorem wrN_hvst (s : State) (a n : Nat) : (wrN s a n).hvst = s.hvst := rfl
@[simp] theorem wrN_mgmt (s : State) (a n : Nat) : (wrN s a n).mgmt = s.mgmt := rfl
@[simp] theorem wrN_fwd (s : State) (a n : Nat) : (wrN s a n).fwd = s.fwd := rfl
@[simp] theorem wrN_qos (s : State) (a n : Nat) : (wrN s a n).qos = s.qos := rfl
@[simp] theorem wrN_land (s : State) (a n : Nat) : (wrN s a n).land = s.land := rfl
@[simp] theorem wrN_rme (s : State) (a n : Nat) : (wrN s a n).rme = s.rme := rfl
@[simp] theorem wrN_hedge (s : State) (a n : Nat) : (wrN s a n).hedge = s.hedge := rfl
@[simp] theorem wrN_rootSt (s : State) (a n : Nat) : (wrN s a n).rootSt = s.rootSt := rfl
@[simp] theorem wrN_pfail (s : State) (a n : Nat) : (wrN s a n).pfail = s.pfail := rfl
@[simp] theorem wrN_brg (s : State) (a n : Nat) : (wrN s a n).brg = s.brg := rfl
@[simp] theorem wrN_scion (s : State) (a n : Nat) : (wrN s a n).scion = s.scion := rfl
@[simp] theorem wrN_pwr (s : State) (a n : Nat) : (wrN s a n).pwr = s.pwr := rfl

/-! ### bump -/

@[simp] theorem bump_pending (s : State) (a : Nat) : (bump s a).pending = s.pending := rfl
@[simp] theorem bump_out (s : State) (a : Nat) : (bump s a).out = s.out := rfl
@[simp] theorem bump_now (s : State) (a : Nat) : (bump s a).now = s.now := rfl
@[simp] theorem bump_t0 (s : State) (a : Nat) : (bump s a).t0 = s.t0 := rfl
@[simp] theorem bump_free (s : State) (a : Nat) : (bump s a).free = s.free := rfl
@[simp] theorem bump_access (s : State) (a : Nat) : (bump s a).access = s.access := rfl
@[simp] theorem bump_root (s : State) (a : Nat) : (bump s a).root = s.root := rfl
@[simp] theorem bump_ret (s : State) (a : Nat) : (bump s a).ret = s.ret := rfl
@[simp] theorem bump_start (s : State) (a : Nat) : (bump s a).start = s.start := rfl
@[simp] theorem bump_seed (s : State) (a : Nat) : (bump s a).seed = s.seed := rfl
@[simp] theorem bump_lane (s : State) (a : Nat) : (bump s a).lane = s.lane := rfl
@[simp] theorem bump_pg (s : State) (a : Nat) : (bump s a).pg = s.pg := rfl
@[simp] theorem bump_pair (s : State) (a : Nat) : (bump s a).pair = s.pair := rfl
@[simp] theorem bump_member (s : State) (a : Nat) : (bump s a).member = s.member := rfl
@[simp] theorem bump_pcie (s : State) (a : Nat) : (bump s a).pcie = s.pcie := rfl
@[simp] theorem bump_flt (s : State) (a : Nat) : (bump s a).flt = s.flt := rfl
@[simp] theorem bump_hvst (s : State) (a : Nat) : (bump s a).hvst = s.hvst := rfl
@[simp] theorem bump_mgmt (s : State) (a : Nat) : (bump s a).mgmt = s.mgmt := rfl
@[simp] theorem bump_fwd (s : State) (a : Nat) : (bump s a).fwd = s.fwd := rfl
@[simp] theorem bump_qos (s : State) (a : Nat) : (bump s a).qos = s.qos := rfl
@[simp] theorem bump_land (s : State) (a : Nat) : (bump s a).land = s.land := rfl
@[simp] theorem bump_rme (s : State) (a : Nat) : (bump s a).rme = s.rme := rfl
@[simp] theorem bump_hedge (s : State) (a : Nat) : (bump s a).hedge = s.hedge := rfl
@[simp] theorem bump_rootSt (s : State) (a : Nat) : (bump s a).rootSt = s.rootSt := rfl
@[simp] theorem bump_pfail (s : State) (a : Nat) : (bump s a).pfail = s.pfail := rfl
@[simp] theorem bump_brg (s : State) (a : Nat) : (bump s a).brg = s.brg := rfl
@[simp] theorem bump_scion (s : State) (a : Nat) : (bump s a).scion = s.scion := rfl
@[simp] theorem bump_pwr (s : State) (a : Nat) : (bump s a).pwr = s.pwr := rfl

/-! ### emit -/

@[simp] theorem emit_regs (s : State) (o : Out) : (emit s o).regs = s.regs := rfl
@[simp] theorem emit_pending (s : State) (o : Out) : (emit s o).pending = s.pending := rfl
@[simp] theorem emit_now (s : State) (o : Out) : (emit s o).now = s.now := rfl
@[simp] theorem emit_t0 (s : State) (o : Out) : (emit s o).t0 = s.t0 := rfl
@[simp] theorem emit_free (s : State) (o : Out) : (emit s o).free = s.free := rfl
@[simp] theorem emit_access (s : State) (o : Out) : (emit s o).access = s.access := rfl
@[simp] theorem emit_root (s : State) (o : Out) : (emit s o).root = s.root := rfl
@[simp] theorem emit_ret (s : State) (o : Out) : (emit s o).ret = s.ret := rfl
@[simp] theorem emit_start (s : State) (o : Out) : (emit s o).start = s.start := rfl
@[simp] theorem emit_seed (s : State) (o : Out) : (emit s o).seed = s.seed := rfl
@[simp] theorem emit_lane (s : State) (o : Out) : (emit s o).lane = s.lane := rfl
@[simp] theorem emit_pg (s : State) (o : Out) : (emit s o).pg = s.pg := rfl
@[simp] theorem emit_pair (s : State) (o : Out) : (emit s o).pair = s.pair := rfl
@[simp] theorem emit_member (s : State) (o : Out) : (emit s o).member = s.member := rfl
@[simp] theorem emit_pcie (s : State) (o : Out) : (emit s o).pcie = s.pcie := rfl
@[simp] theorem emit_flt (s : State) (o : Out) : (emit s o).flt = s.flt := rfl
@[simp] theorem emit_hvst (s : State) (o : Out) : (emit s o).hvst = s.hvst := rfl
@[simp] theorem emit_mgmt (s : State) (o : Out) : (emit s o).mgmt = s.mgmt := rfl
@[simp] theorem emit_fwd (s : State) (o : Out) : (emit s o).fwd = s.fwd := rfl
@[simp] theorem emit_qos (s : State) (o : Out) : (emit s o).qos = s.qos := rfl
@[simp] theorem emit_land (s : State) (o : Out) : (emit s o).land = s.land := rfl
@[simp] theorem emit_rme (s : State) (o : Out) : (emit s o).rme = s.rme := rfl
@[simp] theorem emit_hedge (s : State) (o : Out) : (emit s o).hedge = s.hedge := rfl
@[simp] theorem emit_rootSt (s : State) (o : Out) : (emit s o).rootSt = s.rootSt := rfl
@[simp] theorem emit_pfail (s : State) (o : Out) : (emit s o).pfail = s.pfail := rfl
@[simp] theorem emit_brg (s : State) (o : Out) : (emit s o).brg = s.brg := rfl
@[simp] theorem emit_scion (s : State) (o : Out) : (emit s o).scion = s.scion := rfl
@[simp] theorem emit_pwr (s : State) (o : Out) : (emit s o).pwr = s.pwr := rfl

/-! ### updLane -/

@[simp] theorem updLane_lane (s : State) (n : Nat) (f : LaneSt → LaneSt) : (updLane s n f).lane = s.lane.upd n f := rfl
@[simp] theorem updLane_regs (s : State) (n : Nat) (f : LaneSt → LaneSt) : (updLane s n f).regs = s.regs := rfl
@[simp] theorem updLane_pending (s : State) (n : Nat) (f : LaneSt → LaneSt) : (updLane s n f).pending = s.pending := rfl
@[simp] theorem updLane_out (s : State) (n : Nat) (f : LaneSt → LaneSt) : (updLane s n f).out = s.out := rfl
@[simp] theorem updLane_now (s : State) (n : Nat) (f : LaneSt → LaneSt) : (updLane s n f).now = s.now := rfl
@[simp] theorem updLane_t0 (s : State) (n : Nat) (f : LaneSt → LaneSt) : (updLane s n f).t0 = s.t0 := rfl
@[simp] theorem updLane_free (s : State) (n : Nat) (f : LaneSt → LaneSt) : (updLane s n f).free = s.free := rfl
@[simp] theorem updLane_access (s : State) (n : Nat) (f : LaneSt → LaneSt) : (updLane s n f).access = s.access := rfl
@[simp] theorem updLane_root (s : State) (n : Nat) (f : LaneSt → LaneSt) : (updLane s n f).root = s.root := rfl
@[simp] theorem updLane_ret (s : State) (n : Nat) (f : LaneSt → LaneSt) : (updLane s n f).ret = s.ret := rfl
@[simp] theorem updLane_start (s : State) (n : Nat) (f : LaneSt → LaneSt) : (updLane s n f).start = s.start := rfl
@[simp] theorem updLane_seed (s : State) (n : Nat) (f : LaneSt → LaneSt) : (updLane s n f).seed = s.seed := rfl
@[simp] theorem updLane_pg (s : State) (n : Nat) (f : LaneSt → LaneSt) : (updLane s n f).pg = s.pg := rfl
@[simp] theorem updLane_pair (s : State) (n : Nat) (f : LaneSt → LaneSt) : (updLane s n f).pair = s.pair := rfl
@[simp] theorem updLane_member (s : State) (n : Nat) (f : LaneSt → LaneSt) : (updLane s n f).member = s.member := rfl
@[simp] theorem updLane_pcie (s : State) (n : Nat) (f : LaneSt → LaneSt) : (updLane s n f).pcie = s.pcie := rfl
@[simp] theorem updLane_flt (s : State) (n : Nat) (f : LaneSt → LaneSt) : (updLane s n f).flt = s.flt := rfl
@[simp] theorem updLane_hvst (s : State) (n : Nat) (f : LaneSt → LaneSt) : (updLane s n f).hvst = s.hvst := rfl
@[simp] theorem updLane_mgmt (s : State) (n : Nat) (f : LaneSt → LaneSt) : (updLane s n f).mgmt = s.mgmt := rfl
@[simp] theorem updLane_fwd (s : State) (n : Nat) (f : LaneSt → LaneSt) : (updLane s n f).fwd = s.fwd := rfl
@[simp] theorem updLane_qos (s : State) (n : Nat) (f : LaneSt → LaneSt) : (updLane s n f).qos = s.qos := rfl
@[simp] theorem updLane_land (s : State) (n : Nat) (f : LaneSt → LaneSt) : (updLane s n f).land = s.land := rfl
@[simp] theorem updLane_rme (s : State) (n : Nat) (f : LaneSt → LaneSt) : (updLane s n f).rme = s.rme := rfl
@[simp] theorem updLane_hedge (s : State) (n : Nat) (f : LaneSt → LaneSt) : (updLane s n f).hedge = s.hedge := rfl
@[simp] theorem updLane_rootSt (s : State) (n : Nat) (f : LaneSt → LaneSt) : (updLane s n f).rootSt = s.rootSt := rfl
@[simp] theorem updLane_pfail (s : State) (n : Nat) (f : LaneSt → LaneSt) : (updLane s n f).pfail = s.pfail := rfl
@[simp] theorem updLane_brg (s : State) (n : Nat) (f : LaneSt → LaneSt) : (updLane s n f).brg = s.brg := rfl
@[simp] theorem updLane_scion (s : State) (n : Nat) (f : LaneSt → LaneSt) : (updLane s n f).scion = s.scion := rfl
@[simp] theorem updLane_pwr (s : State) (n : Nat) (f : LaneSt → LaneSt) : (updLane s n f).pwr = s.pwr := rfl

/-! ### updMef -/

@[simp] theorem updMef_regs (s : State) (k : Nat) (f : MefSt → MefSt) : (updMef s k f).regs = s.regs := rfl
@[simp] theorem updMef_pending (s : State) (k : Nat) (f : MefSt → MefSt) : (updMef s k f).pending = s.pending := rfl
@[simp] theorem updMef_out (s : State) (k : Nat) (f : MefSt → MefSt) : (updMef s k f).out = s.out := rfl
@[simp] theorem updMef_now (s : State) (k : Nat) (f : MefSt → MefSt) : (updMef s k f).now = s.now := rfl
@[simp] theorem updMef_t0 (s : State) (k : Nat) (f : MefSt → MefSt) : (updMef s k f).t0 = s.t0 := rfl
@[simp] theorem updMef_free (s : State) (k : Nat) (f : MefSt → MefSt) : (updMef s k f).free = s.free := rfl
@[simp] theorem updMef_access (s : State) (k : Nat) (f : MefSt → MefSt) : (updMef s k f).access = s.access := rfl
@[simp] theorem updMef_root (s : State) (k : Nat) (f : MefSt → MefSt) : (updMef s k f).root = s.root := rfl
@[simp] theorem updMef_ret (s : State) (k : Nat) (f : MefSt → MefSt) : (updMef s k f).ret = s.ret := rfl
@[simp] theorem updMef_start (s : State) (k : Nat) (f : MefSt → MefSt) : (updMef s k f).start = s.start := rfl
@[simp] theorem updMef_seed (s : State) (k : Nat) (f : MefSt → MefSt) : (updMef s k f).seed = s.seed := rfl
@[simp] theorem updMef_lane (s : State) (k : Nat) (f : MefSt → MefSt) : (updMef s k f).lane = s.lane := rfl
@[simp] theorem updMef_pg (s : State) (k : Nat) (f : MefSt → MefSt) : (updMef s k f).pg = s.pg := rfl
@[simp] theorem updMef_pair (s : State) (k : Nat) (f : MefSt → MefSt) : (updMef s k f).pair = s.pair := rfl
@[simp] theorem updMef_member (s : State) (k : Nat) (f : MefSt → MefSt) : (updMef s k f).member = s.member := rfl
@[simp] theorem updMef_flt (s : State) (k : Nat) (f : MefSt → MefSt) : (updMef s k f).flt = s.flt := rfl
@[simp] theorem updMef_hvst (s : State) (k : Nat) (f : MefSt → MefSt) : (updMef s k f).hvst = s.hvst := rfl
@[simp] theorem updMef_mgmt (s : State) (k : Nat) (f : MefSt → MefSt) : (updMef s k f).mgmt = s.mgmt := rfl
@[simp] theorem updMef_fwd (s : State) (k : Nat) (f : MefSt → MefSt) : (updMef s k f).fwd = s.fwd := rfl
@[simp] theorem updMef_qos (s : State) (k : Nat) (f : MefSt → MefSt) : (updMef s k f).qos = s.qos := rfl
@[simp] theorem updMef_land (s : State) (k : Nat) (f : MefSt → MefSt) : (updMef s k f).land = s.land := rfl
@[simp] theorem updMef_rme (s : State) (k : Nat) (f : MefSt → MefSt) : (updMef s k f).rme = s.rme := rfl
@[simp] theorem updMef_hedge (s : State) (k : Nat) (f : MefSt → MefSt) : (updMef s k f).hedge = s.hedge := rfl
@[simp] theorem updMef_rootSt (s : State) (k : Nat) (f : MefSt → MefSt) : (updMef s k f).rootSt = s.rootSt := rfl
@[simp] theorem updMef_pfail (s : State) (k : Nat) (f : MefSt → MefSt) : (updMef s k f).pfail = s.pfail := rfl
@[simp] theorem updMef_brg (s : State) (k : Nat) (f : MefSt → MefSt) : (updMef s k f).brg = s.brg := rfl
@[simp] theorem updMef_scion (s : State) (k : Nat) (f : MefSt → MefSt) : (updMef s k f).scion = s.scion := rfl
@[simp] theorem updMef_pwr (s : State) (k : Nat) (f : MefSt → MefSt) : (updMef s k f).pwr = s.pwr := rfl

/-! ### updLand -/

@[simp] theorem updLand_land (s : State) (f : LandSt → LandSt) : (updLand s f).land = f s.land := rfl
@[simp] theorem updLand_regs (s : State) (f : LandSt → LandSt) : (updLand s f).regs = s.regs := rfl
@[simp] theorem updLand_pending (s : State) (f : LandSt → LandSt) : (updLand s f).pending = s.pending := rfl
@[simp] theorem updLand_out (s : State) (f : LandSt → LandSt) : (updLand s f).out = s.out := rfl
@[simp] theorem updLand_now (s : State) (f : LandSt → LandSt) : (updLand s f).now = s.now := rfl
@[simp] theorem updLand_t0 (s : State) (f : LandSt → LandSt) : (updLand s f).t0 = s.t0 := rfl
@[simp] theorem updLand_free (s : State) (f : LandSt → LandSt) : (updLand s f).free = s.free := rfl
@[simp] theorem updLand_access (s : State) (f : LandSt → LandSt) : (updLand s f).access = s.access := rfl
@[simp] theorem updLand_root (s : State) (f : LandSt → LandSt) : (updLand s f).root = s.root := rfl
@[simp] theorem updLand_ret (s : State) (f : LandSt → LandSt) : (updLand s f).ret = s.ret := rfl
@[simp] theorem updLand_start (s : State) (f : LandSt → LandSt) : (updLand s f).start = s.start := rfl
@[simp] theorem updLand_seed (s : State) (f : LandSt → LandSt) : (updLand s f).seed = s.seed := rfl
@[simp] theorem updLand_lane (s : State) (f : LandSt → LandSt) : (updLand s f).lane = s.lane := rfl
@[simp] theorem updLand_pg (s : State) (f : LandSt → LandSt) : (updLand s f).pg = s.pg := rfl
@[simp] theorem updLand_pair (s : State) (f : LandSt → LandSt) : (updLand s f).pair = s.pair := rfl
@[simp] theorem updLand_member (s : State) (f : LandSt → LandSt) : (updLand s f).member = s.member := rfl
@[simp] theorem updLand_pcie (s : State) (f : LandSt → LandSt) : (updLand s f).pcie = s.pcie := rfl
@[simp] theorem updLand_flt (s : State) (f : LandSt → LandSt) : (updLand s f).flt = s.flt := rfl
@[simp] theorem updLand_hvst (s : State) (f : LandSt → LandSt) : (updLand s f).hvst = s.hvst := rfl
@[simp] theorem updLand_mgmt (s : State) (f : LandSt → LandSt) : (updLand s f).mgmt = s.mgmt := rfl
@[simp] theorem updLand_fwd (s : State) (f : LandSt → LandSt) : (updLand s f).fwd = s.fwd := rfl
@[simp] theorem updLand_qos (s : State) (f : LandSt → LandSt) : (updLand s f).qos = s.qos := rfl
@[simp] theorem updLand_rme (s : State) (f : LandSt → LandSt) : (updLand s f).rme = s.rme := rfl
@[simp] theorem updLand_hedge (s : State) (f : LandSt → LandSt) : (updLand s f).hedge = s.hedge := rfl
@[simp] theorem updLand_rootSt (s : State) (f : LandSt → LandSt) : (updLand s f).rootSt = s.rootSt := rfl
@[simp] theorem updLand_pfail (s : State) (f : LandSt → LandSt) : (updLand s f).pfail = s.pfail := rfl
@[simp] theorem updLand_brg (s : State) (f : LandSt → LandSt) : (updLand s f).brg = s.brg := rfl
@[simp] theorem updLand_scion (s : State) (f : LandSt → LandSt) : (updLand s f).scion = s.scion := rfl
@[simp] theorem updLand_pwr (s : State) (f : LandSt → LandSt) : (updLand s f).pwr = s.pwr := rfl

/-! ### updQos -/

@[simp] theorem updQos_qos (s : State) (f : QosSt → QosSt) : (updQos s f).qos = f s.qos := rfl
@[simp] theorem updQos_regs (s : State) (f : QosSt → QosSt) : (updQos s f).regs = s.regs := rfl
@[simp] theorem updQos_pending (s : State) (f : QosSt → QosSt) : (updQos s f).pending = s.pending := rfl
@[simp] theorem updQos_out (s : State) (f : QosSt → QosSt) : (updQos s f).out = s.out := rfl
@[simp] theorem updQos_now (s : State) (f : QosSt → QosSt) : (updQos s f).now = s.now := rfl
@[simp] theorem updQos_t0 (s : State) (f : QosSt → QosSt) : (updQos s f).t0 = s.t0 := rfl
@[simp] theorem updQos_free (s : State) (f : QosSt → QosSt) : (updQos s f).free = s.free := rfl
@[simp] theorem updQos_access (s : State) (f : QosSt → QosSt) : (updQos s f).access = s.access := rfl
@[simp] theorem updQos_root (s : State) (f : QosSt → QosSt) : (updQos s f).root = s.root := rfl
@[simp] theorem updQos_ret (s : State) (f : QosSt → QosSt) : (updQos s f).ret = s.ret := rfl
@[simp] theorem updQos_start (s : State) (f : QosSt → QosSt) : (updQos s f).start = s.start := rfl
@[simp] theorem updQos_seed (s : State) (f : QosSt → QosSt) : (updQos s f).seed = s.seed := rfl
@[simp] theorem updQos_lane (s : State) (f : QosSt → QosSt) : (updQos s f).lane = s.lane := rfl
@[simp] theorem updQos_pg (s : State) (f : QosSt → QosSt) : (updQos s f).pg = s.pg := rfl
@[simp] theorem updQos_pair (s : State) (f : QosSt → QosSt) : (updQos s f).pair = s.pair := rfl
@[simp] theorem updQos_member (s : State) (f : QosSt → QosSt) : (updQos s f).member = s.member := rfl
@[simp] theorem updQos_pcie (s : State) (f : QosSt → QosSt) : (updQos s f).pcie = s.pcie := rfl
@[simp] theorem updQos_flt (s : State) (f : QosSt → QosSt) : (updQos s f).flt = s.flt := rfl
@[simp] theorem updQos_hvst (s : State) (f : QosSt → QosSt) : (updQos s f).hvst = s.hvst := rfl
@[simp] theorem updQos_mgmt (s : State) (f : QosSt → QosSt) : (updQos s f).mgmt = s.mgmt := rfl
@[simp] theorem updQos_fwd (s : State) (f : QosSt → QosSt) : (updQos s f).fwd = s.fwd := rfl
@[simp] theorem updQos_land (s : State) (f : QosSt → QosSt) : (updQos s f).land = s.land := rfl
@[simp] theorem updQos_rme (s : State) (f : QosSt → QosSt) : (updQos s f).rme = s.rme := rfl
@[simp] theorem updQos_hedge (s : State) (f : QosSt → QosSt) : (updQos s f).hedge = s.hedge := rfl
@[simp] theorem updQos_rootSt (s : State) (f : QosSt → QosSt) : (updQos s f).rootSt = s.rootSt := rfl
@[simp] theorem updQos_pfail (s : State) (f : QosSt → QosSt) : (updQos s f).pfail = s.pfail := rfl
@[simp] theorem updQos_brg (s : State) (f : QosSt → QosSt) : (updQos s f).brg = s.brg := rfl
@[simp] theorem updQos_scion (s : State) (f : QosSt → QosSt) : (updQos s f).scion = s.scion := rfl
@[simp] theorem updQos_pwr (s : State) (f : QosSt → QosSt) : (updQos s f).pwr = s.pwr := rfl

/-! ### updRec -/

@[simp] theorem updRec_pending (s : State) (k : Nat) (f : ReqRec → ReqRec) : (updRec s k f).pending = s.pending := rfl
@[simp] theorem updRec_out (s : State) (k : Nat) (f : ReqRec → ReqRec) : (updRec s k f).out = s.out := rfl
@[simp] theorem updRec_now (s : State) (k : Nat) (f : ReqRec → ReqRec) : (updRec s k f).now = s.now := rfl
@[simp] theorem updRec_t0 (s : State) (k : Nat) (f : ReqRec → ReqRec) : (updRec s k f).t0 = s.t0 := rfl
@[simp] theorem updRec_free (s : State) (k : Nat) (f : ReqRec → ReqRec) : (updRec s k f).free = s.free := rfl
@[simp] theorem updRec_access (s : State) (k : Nat) (f : ReqRec → ReqRec) : (updRec s k f).access = s.access := rfl
@[simp] theorem updRec_root (s : State) (k : Nat) (f : ReqRec → ReqRec) : (updRec s k f).root = s.root := rfl
@[simp] theorem updRec_ret (s : State) (k : Nat) (f : ReqRec → ReqRec) : (updRec s k f).ret = s.ret := rfl
@[simp] theorem updRec_start (s : State) (k : Nat) (f : ReqRec → ReqRec) : (updRec s k f).start = s.start := rfl
@[simp] theorem updRec_seed (s : State) (k : Nat) (f : ReqRec → ReqRec) : (updRec s k f).seed = s.seed := rfl
@[simp] theorem updRec_lane (s : State) (k : Nat) (f : ReqRec → ReqRec) : (updRec s k f).lane = s.lane := rfl
@[simp] theorem updRec_pg (s : State) (k : Nat) (f : ReqRec → ReqRec) : (updRec s k f).pg = s.pg := rfl
@[simp] theorem updRec_pair (s : State) (k : Nat) (f : ReqRec → ReqRec) : (updRec s k f).pair = s.pair := rfl
@[simp] theorem updRec_member (s : State) (k : Nat) (f : ReqRec → ReqRec) : (updRec s k f).member = s.member := rfl
@[simp] theorem updRec_pcie (s : State) (k : Nat) (f : ReqRec → ReqRec) : (updRec s k f).pcie = s.pcie := rfl
@[simp] theorem updRec_flt (s : State) (k : Nat) (f : ReqRec → ReqRec) : (updRec s k f).flt = s.flt := rfl
@[simp] theorem updRec_hvst (s : State) (k : Nat) (f : ReqRec → ReqRec) : (updRec s k f).hvst = s.hvst := rfl
@[simp] theorem updRec_mgmt (s : State) (k : Nat) (f : ReqRec → ReqRec) : (updRec s k f).mgmt = s.mgmt := rfl
@[simp] theorem updRec_fwd (s : State) (k : Nat) (f : ReqRec → ReqRec) : (updRec s k f).fwd = s.fwd := rfl
@[simp] theorem updRec_qos (s : State) (k : Nat) (f : ReqRec → ReqRec) : (updRec s k f).qos = s.qos := rfl
@[simp] theorem updRec_rme (s : State) (k : Nat) (f : ReqRec → ReqRec) : (updRec s k f).rme = s.rme := rfl
@[simp] theorem updRec_hedge (s : State) (k : Nat) (f : ReqRec → ReqRec) : (updRec s k f).hedge = s.hedge := rfl
@[simp] theorem updRec_rootSt (s : State) (k : Nat) (f : ReqRec → ReqRec) : (updRec s k f).rootSt = s.rootSt := rfl
@[simp] theorem updRec_pfail (s : State) (k : Nat) (f : ReqRec → ReqRec) : (updRec s k f).pfail = s.pfail := rfl
@[simp] theorem updRec_brg (s : State) (k : Nat) (f : ReqRec → ReqRec) : (updRec s k f).brg = s.brg := rfl
@[simp] theorem updRec_scion (s : State) (k : Nat) (f : ReqRec → ReqRec) : (updRec s k f).scion = s.scion := rfl
@[simp] theorem updRec_pwr (s : State) (k : Nat) (f : ReqRec → ReqRec) : (updRec s k f).pwr = s.pwr := rfl

/-! ### updRme -/

@[simp] theorem updRme_rme (s : State) (f : RmeSt → RmeSt) : (updRme s f).rme = f s.rme := rfl
@[simp] theorem updRme_regs (s : State) (f : RmeSt → RmeSt) : (updRme s f).regs = s.regs := rfl
@[simp] theorem updRme_pending (s : State) (f : RmeSt → RmeSt) : (updRme s f).pending = s.pending := rfl
@[simp] theorem updRme_out (s : State) (f : RmeSt → RmeSt) : (updRme s f).out = s.out := rfl
@[simp] theorem updRme_now (s : State) (f : RmeSt → RmeSt) : (updRme s f).now = s.now := rfl
@[simp] theorem updRme_t0 (s : State) (f : RmeSt → RmeSt) : (updRme s f).t0 = s.t0 := rfl
@[simp] theorem updRme_free (s : State) (f : RmeSt → RmeSt) : (updRme s f).free = s.free := rfl
@[simp] theorem updRme_access (s : State) (f : RmeSt → RmeSt) : (updRme s f).access = s.access := rfl
@[simp] theorem updRme_root (s : State) (f : RmeSt → RmeSt) : (updRme s f).root = s.root := rfl
@[simp] theorem updRme_ret (s : State) (f : RmeSt → RmeSt) : (updRme s f).ret = s.ret := rfl
@[simp] theorem updRme_start (s : State) (f : RmeSt → RmeSt) : (updRme s f).start = s.start := rfl
@[simp] theorem updRme_seed (s : State) (f : RmeSt → RmeSt) : (updRme s f).seed = s.seed := rfl
@[simp] theorem updRme_lane (s : State) (f : RmeSt → RmeSt) : (updRme s f).lane = s.lane := rfl
@[simp] theorem updRme_pg (s : State) (f : RmeSt → RmeSt) : (updRme s f).pg = s.pg := rfl
@[simp] theorem updRme_pair (s : State) (f : RmeSt → RmeSt) : (updRme s f).pair = s.pair := rfl
@[simp] theorem updRme_member (s : State) (f : RmeSt → RmeSt) : (updRme s f).member = s.member := rfl
@[simp] theorem updRme_pcie (s : State) (f : RmeSt → RmeSt) : (updRme s f).pcie = s.pcie := rfl
@[simp] theorem updRme_flt (s : State) (f : RmeSt → RmeSt) : (updRme s f).flt = s.flt := rfl
@[simp] theorem updRme_hvst (s : State) (f : RmeSt → RmeSt) : (updRme s f).hvst = s.hvst := rfl
@[simp] theorem updRme_mgmt (s : State) (f : RmeSt → RmeSt) : (updRme s f).mgmt = s.mgmt := rfl
@[simp] theorem updRme_fwd (s : State) (f : RmeSt → RmeSt) : (updRme s f).fwd = s.fwd := rfl
@[simp] theorem updRme_qos (s : State) (f : RmeSt → RmeSt) : (updRme s f).qos = s.qos := rfl
@[simp] theorem updRme_land (s : State) (f : RmeSt → RmeSt) : (updRme s f).land = s.land := rfl
@[simp] theorem updRme_hedge (s : State) (f : RmeSt → RmeSt) : (updRme s f).hedge = s.hedge := rfl
@[simp] theorem updRme_rootSt (s : State) (f : RmeSt → RmeSt) : (updRme s f).rootSt = s.rootSt := rfl
@[simp] theorem updRme_pfail (s : State) (f : RmeSt → RmeSt) : (updRme s f).pfail = s.pfail := rfl
@[simp] theorem updRme_brg (s : State) (f : RmeSt → RmeSt) : (updRme s f).brg = s.brg := rfl
@[simp] theorem updRme_scion (s : State) (f : RmeSt → RmeSt) : (updRme s f).scion = s.scion := rfl
@[simp] theorem updRme_pwr (s : State) (f : RmeSt → RmeSt) : (updRme s f).pwr = s.pwr := rfl

/-! ### updCtx -/

@[simp] theorem updCtx_regs (s : State) (n : Nat) (f : Ctx → Ctx) : (updCtx s n f).regs = s.regs := rfl
@[simp] theorem updCtx_pending (s : State) (n : Nat) (f : Ctx → Ctx) : (updCtx s n f).pending = s.pending := rfl
@[simp] theorem updCtx_out (s : State) (n : Nat) (f : Ctx → Ctx) : (updCtx s n f).out = s.out := rfl
@[simp] theorem updCtx_now (s : State) (n : Nat) (f : Ctx → Ctx) : (updCtx s n f).now = s.now := rfl
@[simp] theorem updCtx_t0 (s : State) (n : Nat) (f : Ctx → Ctx) : (updCtx s n f).t0 = s.t0 := rfl
@[simp] theorem updCtx_free (s : State) (n : Nat) (f : Ctx → Ctx) : (updCtx s n f).free = s.free := rfl
@[simp] theorem updCtx_access (s : State) (n : Nat) (f : Ctx → Ctx) : (updCtx s n f).access = s.access := rfl
@[simp] theorem updCtx_root (s : State) (n : Nat) (f : Ctx → Ctx) : (updCtx s n f).root = s.root := rfl
@[simp] theorem updCtx_ret (s : State) (n : Nat) (f : Ctx → Ctx) : (updCtx s n f).ret = s.ret := rfl
@[simp] theorem updCtx_start (s : State) (n : Nat) (f : Ctx → Ctx) : (updCtx s n f).start = s.start := rfl
@[simp] theorem updCtx_seed (s : State) (n : Nat) (f : Ctx → Ctx) : (updCtx s n f).seed = s.seed := rfl
@[simp] theorem updCtx_lane (s : State) (n : Nat) (f : Ctx → Ctx) : (updCtx s n f).lane = s.lane := rfl
@[simp] theorem updCtx_pg (s : State) (n : Nat) (f : Ctx → Ctx) : (updCtx s n f).pg = s.pg := rfl
@[simp] theorem updCtx_pair (s : State) (n : Nat) (f : Ctx → Ctx) : (updCtx s n f).pair = s.pair := rfl
@[simp] theorem updCtx_member (s : State) (n : Nat) (f : Ctx → Ctx) : (updCtx s n f).member = s.member := rfl
@[simp] theorem updCtx_pcie (s : State) (n : Nat) (f : Ctx → Ctx) : (updCtx s n f).pcie = s.pcie := rfl
@[simp] theorem updCtx_flt (s : State) (n : Nat) (f : Ctx → Ctx) : (updCtx s n f).flt = s.flt := rfl
@[simp] theorem updCtx_hvst (s : State) (n : Nat) (f : Ctx → Ctx) : (updCtx s n f).hvst = s.hvst := rfl
@[simp] theorem updCtx_mgmt (s : State) (n : Nat) (f : Ctx → Ctx) : (updCtx s n f).mgmt = s.mgmt := rfl
@[simp] theorem updCtx_fwd (s : State) (n : Nat) (f : Ctx → Ctx) : (updCtx s n f).fwd = s.fwd := rfl
@[simp] theorem updCtx_qos (s : State) (n : Nat) (f : Ctx → Ctx) : (updCtx s n f).qos = s.qos := rfl
@[simp] theorem updCtx_land (s : State) (n : Nat) (f : Ctx → Ctx) : (updCtx s n f).land = s.land := rfl
@[simp] theorem updCtx_hedge (s : State) (n : Nat) (f : Ctx → Ctx) : (updCtx s n f).hedge = s.hedge := rfl
@[simp] theorem updCtx_rootSt (s : State) (n : Nat) (f : Ctx → Ctx) : (updCtx s n f).rootSt = s.rootSt := rfl
@[simp] theorem updCtx_pfail (s : State) (n : Nat) (f : Ctx → Ctx) : (updCtx s n f).pfail = s.pfail := rfl
@[simp] theorem updCtx_brg (s : State) (n : Nat) (f : Ctx → Ctx) : (updCtx s n f).brg = s.brg := rfl
@[simp] theorem updCtx_scion (s : State) (n : Nat) (f : Ctx → Ctx) : (updCtx s n f).scion = s.scion := rfl
@[simp] theorem updCtx_pwr (s : State) (n : Nat) (f : Ctx → Ctx) : (updCtx s n f).pwr = s.pwr := rfl

/-! ### updRegion -/

@[simp] theorem updRegion_regs (s : State) (idx : Nat) (f : Region → Region) : (updRegion s idx f).regs = s.regs := rfl
@[simp] theorem updRegion_pending (s : State) (idx : Nat) (f : Region → Region) : (updRegion s idx f).pending = s.pending := rfl
@[simp] theorem updRegion_out (s : State) (idx : Nat) (f : Region → Region) : (updRegion s idx f).out = s.out := rfl
@[simp] theorem updRegion_now (s : State) (idx : Nat) (f : Region → Region) : (updRegion s idx f).now = s.now := rfl
@[simp] theorem updRegion_t0 (s : State) (idx : Nat) (f : Region → Region) : (updRegion s idx f).t0 = s.t0 := rfl
@[simp] theorem updRegion_free (s : State) (idx : Nat) (f : Region → Region) : (updRegion s idx f).free = s.free := rfl
@[simp] theorem updRegion_access (s : State) (idx : Nat) (f : Region → Region) : (updRegion s idx f).access = s.access := rfl
@[simp] theorem updRegion_root (s : State) (idx : Nat) (f : Region → Region) : (updRegion s idx f).root = s.root := rfl
@[simp] theorem updRegion_ret (s : State) (idx : Nat) (f : Region → Region) : (updRegion s idx f).ret = s.ret := rfl
@[simp] theorem updRegion_start (s : State) (idx : Nat) (f : Region → Region) : (updRegion s idx f).start = s.start := rfl
@[simp] theorem updRegion_seed (s : State) (idx : Nat) (f : Region → Region) : (updRegion s idx f).seed = s.seed := rfl
@[simp] theorem updRegion_lane (s : State) (idx : Nat) (f : Region → Region) : (updRegion s idx f).lane = s.lane := rfl
@[simp] theorem updRegion_pg (s : State) (idx : Nat) (f : Region → Region) : (updRegion s idx f).pg = s.pg := rfl
@[simp] theorem updRegion_pair (s : State) (idx : Nat) (f : Region → Region) : (updRegion s idx f).pair = s.pair := rfl
@[simp] theorem updRegion_member (s : State) (idx : Nat) (f : Region → Region) : (updRegion s idx f).member = s.member := rfl
@[simp] theorem updRegion_pcie (s : State) (idx : Nat) (f : Region → Region) : (updRegion s idx f).pcie = s.pcie := rfl
@[simp] theorem updRegion_flt (s : State) (idx : Nat) (f : Region → Region) : (updRegion s idx f).flt = s.flt := rfl
@[simp] theorem updRegion_hvst (s : State) (idx : Nat) (f : Region → Region) : (updRegion s idx f).hvst = s.hvst := rfl
@[simp] theorem updRegion_mgmt (s : State) (idx : Nat) (f : Region → Region) : (updRegion s idx f).mgmt = s.mgmt := rfl
@[simp] theorem updRegion_fwd (s : State) (idx : Nat) (f : Region → Region) : (updRegion s idx f).fwd = s.fwd := rfl
@[simp] theorem updRegion_qos (s : State) (idx : Nat) (f : Region → Region) : (updRegion s idx f).qos = s.qos := rfl
@[simp] theorem updRegion_land (s : State) (idx : Nat) (f : Region → Region) : (updRegion s idx f).land = s.land := rfl
@[simp] theorem updRegion_hedge (s : State) (idx : Nat) (f : Region → Region) : (updRegion s idx f).hedge = s.hedge := rfl
@[simp] theorem updRegion_rootSt (s : State) (idx : Nat) (f : Region → Region) : (updRegion s idx f).rootSt = s.rootSt := rfl
@[simp] theorem updRegion_pfail (s : State) (idx : Nat) (f : Region → Region) : (updRegion s idx f).pfail = s.pfail := rfl
@[simp] theorem updRegion_brg (s : State) (idx : Nat) (f : Region → Region) : (updRegion s idx f).brg = s.brg := rfl
@[simp] theorem updRegion_scion (s : State) (idx : Nat) (f : Region → Region) : (updRegion s idx f).scion = s.scion := rfl
@[simp] theorem updRegion_pwr (s : State) (idx : Nat) (f : Region → Region) : (updRegion s idx f).pwr = s.pwr := rfl

/-! ### updMsg -/

@[simp] theorem updMsg_regs (s : State) (id : Nat) (f : RMsg → RMsg) : (updMsg s id f).regs = s.regs := rfl
@[simp] theorem updMsg_pending (s : State) (id : Nat) (f : RMsg → RMsg) : (updMsg s id f).pending = s.pending := rfl
@[simp] theorem updMsg_out (s : State) (id : Nat) (f : RMsg → RMsg) : (updMsg s id f).out = s.out := rfl
@[simp] theorem updMsg_now (s : State) (id : Nat) (f : RMsg → RMsg) : (updMsg s id f).now = s.now := rfl
@[simp] theorem updMsg_t0 (s : State) (id : Nat) (f : RMsg → RMsg) : (updMsg s id f).t0 = s.t0 := rfl
@[simp] theorem updMsg_free (s : State) (id : Nat) (f : RMsg → RMsg) : (updMsg s id f).free = s.free := rfl
@[simp] theorem updMsg_access (s : State) (id : Nat) (f : RMsg → RMsg) : (updMsg s id f).access = s.access := rfl
@[simp] theorem updMsg_root (s : State) (id : Nat) (f : RMsg → RMsg) : (updMsg s id f).root = s.root := rfl
@[simp] theorem updMsg_ret (s : State) (id : Nat) (f : RMsg → RMsg) : (updMsg s id f).ret = s.ret := rfl
@[simp] theorem updMsg_start (s : State) (id : Nat) (f : RMsg → RMsg) : (updMsg s id f).start = s.start := rfl
@[simp] theorem updMsg_seed (s : State) (id : Nat) (f : RMsg → RMsg) : (updMsg s id f).seed = s.seed := rfl
@[simp] theorem updMsg_lane (s : State) (id : Nat) (f : RMsg → RMsg) : (updMsg s id f).lane = s.lane := rfl
@[simp] theorem updMsg_pg (s : State) (id : Nat) (f : RMsg → RMsg) : (updMsg s id f).pg = s.pg := rfl
@[simp] theorem updMsg_pair (s : State) (id : Nat) (f : RMsg → RMsg) : (updMsg s id f).pair = s.pair := rfl
@[simp] theorem updMsg_member (s : State) (id : Nat) (f : RMsg → RMsg) : (updMsg s id f).member = s.member := rfl
@[simp] theorem updMsg_pcie (s : State) (id : Nat) (f : RMsg → RMsg) : (updMsg s id f).pcie = s.pcie := rfl
@[simp] theorem updMsg_flt (s : State) (id : Nat) (f : RMsg → RMsg) : (updMsg s id f).flt = s.flt := rfl
@[simp] theorem updMsg_hvst (s : State) (id : Nat) (f : RMsg → RMsg) : (updMsg s id f).hvst = s.hvst := rfl
@[simp] theorem updMsg_mgmt (s : State) (id : Nat) (f : RMsg → RMsg) : (updMsg s id f).mgmt = s.mgmt := rfl
@[simp] theorem updMsg_fwd (s : State) (id : Nat) (f : RMsg → RMsg) : (updMsg s id f).fwd = s.fwd := rfl
@[simp] theorem updMsg_qos (s : State) (id : Nat) (f : RMsg → RMsg) : (updMsg s id f).qos = s.qos := rfl
@[simp] theorem updMsg_land (s : State) (id : Nat) (f : RMsg → RMsg) : (updMsg s id f).land = s.land := rfl
@[simp] theorem updMsg_hedge (s : State) (id : Nat) (f : RMsg → RMsg) : (updMsg s id f).hedge = s.hedge := rfl
@[simp] theorem updMsg_rootSt (s : State) (id : Nat) (f : RMsg → RMsg) : (updMsg s id f).rootSt = s.rootSt := rfl
@[simp] theorem updMsg_pfail (s : State) (id : Nat) (f : RMsg → RMsg) : (updMsg s id f).pfail = s.pfail := rfl
@[simp] theorem updMsg_brg (s : State) (id : Nat) (f : RMsg → RMsg) : (updMsg s id f).brg = s.brg := rfl
@[simp] theorem updMsg_scion (s : State) (id : Nat) (f : RMsg → RMsg) : (updMsg s id f).scion = s.scion := rfl
@[simp] theorem updMsg_pwr (s : State) (id : Nat) (f : RMsg → RMsg) : (updMsg s id f).pwr = s.pwr := rfl

/-! ### updSq -/

@[simp] theorem updSq_regs (s : State) (key : Nat) (f : Sq → Sq) : (updSq s key f).regs = s.regs := rfl
@[simp] theorem updSq_pending (s : State) (key : Nat) (f : Sq → Sq) : (updSq s key f).pending = s.pending := rfl
@[simp] theorem updSq_out (s : State) (key : Nat) (f : Sq → Sq) : (updSq s key f).out = s.out := rfl
@[simp] theorem updSq_now (s : State) (key : Nat) (f : Sq → Sq) : (updSq s key f).now = s.now := rfl
@[simp] theorem updSq_t0 (s : State) (key : Nat) (f : Sq → Sq) : (updSq s key f).t0 = s.t0 := rfl
@[simp] theorem updSq_free (s : State) (key : Nat) (f : Sq → Sq) : (updSq s key f).free = s.free := rfl
@[simp] theorem updSq_access (s : State) (key : Nat) (f : Sq → Sq) : (updSq s key f).access = s.access := rfl
@[simp] theorem updSq_root (s : State) (key : Nat) (f : Sq → Sq) : (updSq s key f).root = s.root := rfl
@[simp] theorem updSq_ret (s : State) (key : Nat) (f : Sq → Sq) : (updSq s key f).ret = s.ret := rfl
@[simp] theorem updSq_start (s : State) (key : Nat) (f : Sq → Sq) : (updSq s key f).start = s.start := rfl
@[simp] theorem updSq_seed (s : State) (key : Nat) (f : Sq → Sq) : (updSq s key f).seed = s.seed := rfl
@[simp] theorem updSq_lane (s : State) (key : Nat) (f : Sq → Sq) : (updSq s key f).lane = s.lane := rfl
@[simp] theorem updSq_pg (s : State) (key : Nat) (f : Sq → Sq) : (updSq s key f).pg = s.pg := rfl
@[simp] theorem updSq_pair (s : State) (key : Nat) (f : Sq → Sq) : (updSq s key f).pair = s.pair := rfl
@[simp] theorem updSq_member (s : State) (key : Nat) (f : Sq → Sq) : (updSq s key f).member = s.member := rfl
@[simp] theorem updSq_pcie (s : State) (key : Nat) (f : Sq → Sq) : (updSq s key f).pcie = s.pcie := rfl
@[simp] theorem updSq_flt (s : State) (key : Nat) (f : Sq → Sq) : (updSq s key f).flt = s.flt := rfl
@[simp] theorem updSq_hvst (s : State) (key : Nat) (f : Sq → Sq) : (updSq s key f).hvst = s.hvst := rfl
@[simp] theorem updSq_mgmt (s : State) (key : Nat) (f : Sq → Sq) : (updSq s key f).mgmt = s.mgmt := rfl
@[simp] theorem updSq_fwd (s : State) (key : Nat) (f : Sq → Sq) : (updSq s key f).fwd = s.fwd := rfl
@[simp] theorem updSq_qos (s : State) (key : Nat) (f : Sq → Sq) : (updSq s key f).qos = s.qos := rfl
@[simp] theorem updSq_land (s : State) (key : Nat) (f : Sq → Sq) : (updSq s key f).land = s.land := rfl
@[simp] theorem updSq_hedge (s : State) (key : Nat) (f : Sq → Sq) : (updSq s key f).hedge = s.hedge := rfl
@[simp] theorem updSq_rootSt (s : State) (key : Nat) (f : Sq → Sq) : (updSq s key f).rootSt = s.rootSt := rfl
@[simp] theorem updSq_pfail (s : State) (key : Nat) (f : Sq → Sq) : (updSq s key f).pfail = s.pfail := rfl
@[simp] theorem updSq_brg (s : State) (key : Nat) (f : Sq → Sq) : (updSq s key f).brg = s.brg := rfl
@[simp] theorem updSq_scion (s : State) (key : Nat) (f : Sq → Sq) : (updSq s key f).scion = s.scion := rfl
@[simp] theorem updSq_pwr (s : State) (key : Nat) (f : Sq → Sq) : (updSq s key f).pwr = s.pwr := rfl

/-! ### updFwd -/

@[simp] theorem updFwd_fwd (s : State) (f : FwdSt → FwdSt) : (updFwd s f).fwd = f s.fwd := rfl
@[simp] theorem updFwd_regs (s : State) (f : FwdSt → FwdSt) : (updFwd s f).regs = s.regs := rfl
@[simp] theorem updFwd_pending (s : State) (f : FwdSt → FwdSt) : (updFwd s f).pending = s.pending := rfl
@[simp] theorem updFwd_out (s : State) (f : FwdSt → FwdSt) : (updFwd s f).out = s.out := rfl
@[simp] theorem updFwd_now (s : State) (f : FwdSt → FwdSt) : (updFwd s f).now = s.now := rfl
@[simp] theorem updFwd_t0 (s : State) (f : FwdSt → FwdSt) : (updFwd s f).t0 = s.t0 := rfl
@[simp] theorem updFwd_free (s : State) (f : FwdSt → FwdSt) : (updFwd s f).free = s.free := rfl
@[simp] theorem updFwd_access (s : State) (f : FwdSt → FwdSt) : (updFwd s f).access = s.access := rfl
@[simp] theorem updFwd_root (s : State) (f : FwdSt → FwdSt) : (updFwd s f).root = s.root := rfl
@[simp] theorem updFwd_ret (s : State) (f : FwdSt → FwdSt) : (updFwd s f).ret = s.ret := rfl
@[simp] theorem updFwd_start (s : State) (f : FwdSt → FwdSt) : (updFwd s f).start = s.start := rfl
@[simp] theorem updFwd_seed (s : State) (f : FwdSt → FwdSt) : (updFwd s f).seed = s.seed := rfl
@[simp] theorem updFwd_lane (s : State) (f : FwdSt → FwdSt) : (updFwd s f).lane = s.lane := rfl
@[simp] theorem updFwd_pg (s : State) (f : FwdSt → FwdSt) : (updFwd s f).pg = s.pg := rfl
@[simp] theorem updFwd_pair (s : State) (f : FwdSt → FwdSt) : (updFwd s f).pair = s.pair := rfl
@[simp] theorem updFwd_member (s : State) (f : FwdSt → FwdSt) : (updFwd s f).member = s.member := rfl
@[simp] theorem updFwd_pcie (s : State) (f : FwdSt → FwdSt) : (updFwd s f).pcie = s.pcie := rfl
@[simp] theorem updFwd_flt (s : State) (f : FwdSt → FwdSt) : (updFwd s f).flt = s.flt := rfl
@[simp] theorem updFwd_hvst (s : State) (f : FwdSt → FwdSt) : (updFwd s f).hvst = s.hvst := rfl
@[simp] theorem updFwd_mgmt (s : State) (f : FwdSt → FwdSt) : (updFwd s f).mgmt = s.mgmt := rfl
@[simp] theorem updFwd_qos (s : State) (f : FwdSt → FwdSt) : (updFwd s f).qos = s.qos := rfl
@[simp] theorem updFwd_land (s : State) (f : FwdSt → FwdSt) : (updFwd s f).land = s.land := rfl
@[simp] theorem updFwd_rme (s : State) (f : FwdSt → FwdSt) : (updFwd s f).rme = s.rme := rfl
@[simp] theorem updFwd_hedge (s : State) (f : FwdSt → FwdSt) : (updFwd s f).hedge = s.hedge := rfl
@[simp] theorem updFwd_rootSt (s : State) (f : FwdSt → FwdSt) : (updFwd s f).rootSt = s.rootSt := rfl
@[simp] theorem updFwd_pfail (s : State) (f : FwdSt → FwdSt) : (updFwd s f).pfail = s.pfail := rfl
@[simp] theorem updFwd_brg (s : State) (f : FwdSt → FwdSt) : (updFwd s f).brg = s.brg := rfl
@[simp] theorem updFwd_scion (s : State) (f : FwdSt → FwdSt) : (updFwd s f).scion = s.scion := rfl
@[simp] theorem updFwd_pwr (s : State) (f : FwdSt → FwdSt) : (updFwd s f).pwr = s.pwr := rfl

/-! ### updFlight -/

@[simp] theorem updFlight_regs (s : State) (n psn : Nat) (f : Flight → Flight) : (updFlight s n psn f).regs = s.regs := rfl
@[simp] theorem updFlight_pending (s : State) (n psn : Nat) (f : Flight → Flight) : (updFlight s n psn f).pending = s.pending := rfl
@[simp] theorem updFlight_out (s : State) (n psn : Nat) (f : Flight → Flight) : (updFlight s n psn f).out = s.out := rfl
@[simp] theorem updFlight_now (s : State) (n psn : Nat) (f : Flight → Flight) : (updFlight s n psn f).now = s.now := rfl
@[simp] theorem updFlight_t0 (s : State) (n psn : Nat) (f : Flight → Flight) : (updFlight s n psn f).t0 = s.t0 := rfl
@[simp] theorem updFlight_free (s : State) (n psn : Nat) (f : Flight → Flight) : (updFlight s n psn f).free = s.free := rfl
@[simp] theorem updFlight_access (s : State) (n psn : Nat) (f : Flight → Flight) : (updFlight s n psn f).access = s.access := rfl
@[simp] theorem updFlight_root (s : State) (n psn : Nat) (f : Flight → Flight) : (updFlight s n psn f).root = s.root := rfl
@[simp] theorem updFlight_ret (s : State) (n psn : Nat) (f : Flight → Flight) : (updFlight s n psn f).ret = s.ret := rfl
@[simp] theorem updFlight_start (s : State) (n psn : Nat) (f : Flight → Flight) : (updFlight s n psn f).start = s.start := rfl
@[simp] theorem updFlight_seed (s : State) (n psn : Nat) (f : Flight → Flight) : (updFlight s n psn f).seed = s.seed := rfl
@[simp] theorem updFlight_lane (s : State) (n psn : Nat) (f : Flight → Flight) : (updFlight s n psn f).lane = s.lane := rfl
@[simp] theorem updFlight_pg (s : State) (n psn : Nat) (f : Flight → Flight) : (updFlight s n psn f).pg = s.pg := rfl
@[simp] theorem updFlight_pair (s : State) (n psn : Nat) (f : Flight → Flight) : (updFlight s n psn f).pair = s.pair := rfl
@[simp] theorem updFlight_member (s : State) (n psn : Nat) (f : Flight → Flight) : (updFlight s n psn f).member = s.member := rfl
@[simp] theorem updFlight_pcie (s : State) (n psn : Nat) (f : Flight → Flight) : (updFlight s n psn f).pcie = s.pcie := rfl
@[simp] theorem updFlight_flt (s : State) (n psn : Nat) (f : Flight → Flight) : (updFlight s n psn f).flt = s.flt := rfl
@[simp] theorem updFlight_hvst (s : State) (n psn : Nat) (f : Flight → Flight) : (updFlight s n psn f).hvst = s.hvst := rfl
@[simp] theorem updFlight_mgmt (s : State) (n psn : Nat) (f : Flight → Flight) : (updFlight s n psn f).mgmt = s.mgmt := rfl
@[simp] theorem updFlight_fwd (s : State) (n psn : Nat) (f : Flight → Flight) : (updFlight s n psn f).fwd = s.fwd := rfl
@[simp] theorem updFlight_qos (s : State) (n psn : Nat) (f : Flight → Flight) : (updFlight s n psn f).qos = s.qos := rfl
@[simp] theorem updFlight_land (s : State) (n psn : Nat) (f : Flight → Flight) : (updFlight s n psn f).land = s.land := rfl
@[simp] theorem updFlight_hedge (s : State) (n psn : Nat) (f : Flight → Flight) : (updFlight s n psn f).hedge = s.hedge := rfl
@[simp] theorem updFlight_rootSt (s : State) (n psn : Nat) (f : Flight → Flight) : (updFlight s n psn f).rootSt = s.rootSt := rfl
@[simp] theorem updFlight_pfail (s : State) (n psn : Nat) (f : Flight → Flight) : (updFlight s n psn f).pfail = s.pfail := rfl
@[simp] theorem updFlight_brg (s : State) (n psn : Nat) (f : Flight → Flight) : (updFlight s n psn f).brg = s.brg := rfl
@[simp] theorem updFlight_scion (s : State) (n psn : Nat) (f : Flight → Flight) : (updFlight s n psn f).scion = s.scion := rfl
@[simp] theorem updFlight_pwr (s : State) (n psn : Nat) (f : Flight → Flight) : (updFlight s n psn f).pwr = s.pwr := rfl

/-! ### updMember -/

@[simp] theorem updMember_member (s : State) (p : Nat) (f : MemberSt → MemberSt) : (updMember s p f).member = s.member.upd p f := rfl
@[simp] theorem updMember_regs (s : State) (p : Nat) (f : MemberSt → MemberSt) : (updMember s p f).regs = s.regs := rfl
@[simp] theorem updMember_pending (s : State) (p : Nat) (f : MemberSt → MemberSt) : (updMember s p f).pending = s.pending := rfl
@[simp] theorem updMember_out (s : State) (p : Nat) (f : MemberSt → MemberSt) : (updMember s p f).out = s.out := rfl
@[simp] theorem updMember_now (s : State) (p : Nat) (f : MemberSt → MemberSt) : (updMember s p f).now = s.now := rfl
@[simp] theorem updMember_t0 (s : State) (p : Nat) (f : MemberSt → MemberSt) : (updMember s p f).t0 = s.t0 := rfl
@[simp] theorem updMember_free (s : State) (p : Nat) (f : MemberSt → MemberSt) : (updMember s p f).free = s.free := rfl
@[simp] theorem updMember_access (s : State) (p : Nat) (f : MemberSt → MemberSt) : (updMember s p f).access = s.access := rfl
@[simp] theorem updMember_root (s : State) (p : Nat) (f : MemberSt → MemberSt) : (updMember s p f).root = s.root := rfl
@[simp] theorem updMember_ret (s : State) (p : Nat) (f : MemberSt → MemberSt) : (updMember s p f).ret = s.ret := rfl
@[simp] theorem updMember_start (s : State) (p : Nat) (f : MemberSt → MemberSt) : (updMember s p f).start = s.start := rfl
@[simp] theorem updMember_seed (s : State) (p : Nat) (f : MemberSt → MemberSt) : (updMember s p f).seed = s.seed := rfl
@[simp] theorem updMember_lane (s : State) (p : Nat) (f : MemberSt → MemberSt) : (updMember s p f).lane = s.lane := rfl
@[simp] theorem updMember_pg (s : State) (p : Nat) (f : MemberSt → MemberSt) : (updMember s p f).pg = s.pg := rfl
@[simp] theorem updMember_pair (s : State) (p : Nat) (f : MemberSt → MemberSt) : (updMember s p f).pair = s.pair := rfl
@[simp] theorem updMember_pcie (s : State) (p : Nat) (f : MemberSt → MemberSt) : (updMember s p f).pcie = s.pcie := rfl
@[simp] theorem updMember_flt (s : State) (p : Nat) (f : MemberSt → MemberSt) : (updMember s p f).flt = s.flt := rfl
@[simp] theorem updMember_hvst (s : State) (p : Nat) (f : MemberSt → MemberSt) : (updMember s p f).hvst = s.hvst := rfl
@[simp] theorem updMember_mgmt (s : State) (p : Nat) (f : MemberSt → MemberSt) : (updMember s p f).mgmt = s.mgmt := rfl
@[simp] theorem updMember_fwd (s : State) (p : Nat) (f : MemberSt → MemberSt) : (updMember s p f).fwd = s.fwd := rfl
@[simp] theorem updMember_qos (s : State) (p : Nat) (f : MemberSt → MemberSt) : (updMember s p f).qos = s.qos := rfl
@[simp] theorem updMember_land (s : State) (p : Nat) (f : MemberSt → MemberSt) : (updMember s p f).land = s.land := rfl
@[simp] theorem updMember_rme (s : State) (p : Nat) (f : MemberSt → MemberSt) : (updMember s p f).rme = s.rme := rfl
@[simp] theorem updMember_hedge (s : State) (p : Nat) (f : MemberSt → MemberSt) : (updMember s p f).hedge = s.hedge := rfl
@[simp] theorem updMember_rootSt (s : State) (p : Nat) (f : MemberSt → MemberSt) : (updMember s p f).rootSt = s.rootSt := rfl
@[simp] theorem updMember_pfail (s : State) (p : Nat) (f : MemberSt → MemberSt) : (updMember s p f).pfail = s.pfail := rfl
@[simp] theorem updMember_brg (s : State) (p : Nat) (f : MemberSt → MemberSt) : (updMember s p f).brg = s.brg := rfl
@[simp] theorem updMember_scion (s : State) (p : Nat) (f : MemberSt → MemberSt) : (updMember s p f).scion = s.scion := rfl
@[simp] theorem updMember_pwr (s : State) (p : Nat) (f : MemberSt → MemberSt) : (updMember s p f).pwr = s.pwr := rfl

/-! ### updPair -/

@[simp] theorem updPair_pair (s : State) (p : Nat) (f : PairSt → PairSt) : (updPair s p f).pair = s.pair.upd (pairKey s p) f := rfl
@[simp] theorem updPair_regs (s : State) (p : Nat) (f : PairSt → PairSt) : (updPair s p f).regs = s.regs := rfl
@[simp] theorem updPair_pending (s : State) (p : Nat) (f : PairSt → PairSt) : (updPair s p f).pending = s.pending := rfl
@[simp] theorem updPair_out (s : State) (p : Nat) (f : PairSt → PairSt) : (updPair s p f).out = s.out := rfl
@[simp] theorem updPair_now (s : State) (p : Nat) (f : PairSt → PairSt) : (updPair s p f).now = s.now := rfl
@[simp] theorem updPair_t0 (s : State) (p : Nat) (f : PairSt → PairSt) : (updPair s p f).t0 = s.t0 := rfl
@[simp] theorem updPair_free (s : State) (p : Nat) (f : PairSt → PairSt) : (updPair s p f).free = s.free := rfl
@[simp] theorem updPair_access (s : State) (p : Nat) (f : PairSt → PairSt) : (updPair s p f).access = s.access := rfl
@[simp] theorem updPair_root (s : State) (p : Nat) (f : PairSt → PairSt) : (updPair s p f).root = s.root := rfl
@[simp] theorem updPair_ret (s : State) (p : Nat) (f : PairSt → PairSt) : (updPair s p f).ret = s.ret := rfl
@[simp] theorem updPair_start (s : State) (p : Nat) (f : PairSt → PairSt) : (updPair s p f).start = s.start := rfl
@[simp] theorem updPair_seed (s : State) (p : Nat) (f : PairSt → PairSt) : (updPair s p f).seed = s.seed := rfl
@[simp] theorem updPair_lane (s : State) (p : Nat) (f : PairSt → PairSt) : (updPair s p f).lane = s.lane := rfl
@[simp] theorem updPair_pg (s : State) (p : Nat) (f : PairSt → PairSt) : (updPair s p f).pg = s.pg := rfl
@[simp] theorem updPair_member (s : State) (p : Nat) (f : PairSt → PairSt) : (updPair s p f).member = s.member := rfl
@[simp] theorem updPair_pcie (s : State) (p : Nat) (f : PairSt → PairSt) : (updPair s p f).pcie = s.pcie := rfl
@[simp] theorem updPair_flt (s : State) (p : Nat) (f : PairSt → PairSt) : (updPair s p f).flt = s.flt := rfl
@[simp] theorem updPair_hvst (s : State) (p : Nat) (f : PairSt → PairSt) : (updPair s p f).hvst = s.hvst := rfl
@[simp] theorem updPair_mgmt (s : State) (p : Nat) (f : PairSt → PairSt) : (updPair s p f).mgmt = s.mgmt := rfl
@[simp] theorem updPair_fwd (s : State) (p : Nat) (f : PairSt → PairSt) : (updPair s p f).fwd = s.fwd := rfl
@[simp] theorem updPair_qos (s : State) (p : Nat) (f : PairSt → PairSt) : (updPair s p f).qos = s.qos := rfl
@[simp] theorem updPair_land (s : State) (p : Nat) (f : PairSt → PairSt) : (updPair s p f).land = s.land := rfl
@[simp] theorem updPair_rme (s : State) (p : Nat) (f : PairSt → PairSt) : (updPair s p f).rme = s.rme := rfl
@[simp] theorem updPair_hedge (s : State) (p : Nat) (f : PairSt → PairSt) : (updPair s p f).hedge = s.hedge := rfl
@[simp] theorem updPair_rootSt (s : State) (p : Nat) (f : PairSt → PairSt) : (updPair s p f).rootSt = s.rootSt := rfl
@[simp] theorem updPair_pfail (s : State) (p : Nat) (f : PairSt → PairSt) : (updPair s p f).pfail = s.pfail := rfl
@[simp] theorem updPair_brg (s : State) (p : Nat) (f : PairSt → PairSt) : (updPair s p f).brg = s.brg := rfl
@[simp] theorem updPair_scion (s : State) (p : Nat) (f : PairSt → PairSt) : (updPair s p f).scion = s.scion := rfl
@[simp] theorem updPair_pwr (s : State) (p : Nat) (f : PairSt → PairSt) : (updPair s p f).pwr = s.pwr := rfl

/-! ### updChan -/

@[simp] theorem updChan_regs (s : State) (c : Nat) (f : ChanSt → ChanSt) : (updChan s c f).regs = s.regs := rfl
@[simp] theorem updChan_pending (s : State) (c : Nat) (f : ChanSt → ChanSt) : (updChan s c f).pending = s.pending := rfl
@[simp] theorem updChan_out (s : State) (c : Nat) (f : ChanSt → ChanSt) : (updChan s c f).out = s.out := rfl
@[simp] theorem updChan_now (s : State) (c : Nat) (f : ChanSt → ChanSt) : (updChan s c f).now = s.now := rfl
@[simp] theorem updChan_t0 (s : State) (c : Nat) (f : ChanSt → ChanSt) : (updChan s c f).t0 = s.t0 := rfl
@[simp] theorem updChan_free (s : State) (c : Nat) (f : ChanSt → ChanSt) : (updChan s c f).free = s.free := rfl
@[simp] theorem updChan_access (s : State) (c : Nat) (f : ChanSt → ChanSt) : (updChan s c f).access = s.access := rfl
@[simp] theorem updChan_root (s : State) (c : Nat) (f : ChanSt → ChanSt) : (updChan s c f).root = s.root := rfl
@[simp] theorem updChan_ret (s : State) (c : Nat) (f : ChanSt → ChanSt) : (updChan s c f).ret = s.ret := rfl
@[simp] theorem updChan_start (s : State) (c : Nat) (f : ChanSt → ChanSt) : (updChan s c f).start = s.start := rfl
@[simp] theorem updChan_seed (s : State) (c : Nat) (f : ChanSt → ChanSt) : (updChan s c f).seed = s.seed := rfl
@[simp] theorem updChan_lane (s : State) (c : Nat) (f : ChanSt → ChanSt) : (updChan s c f).lane = s.lane := rfl
@[simp] theorem updChan_pg (s : State) (c : Nat) (f : ChanSt → ChanSt) : (updChan s c f).pg = s.pg := rfl
@[simp] theorem updChan_pair (s : State) (c : Nat) (f : ChanSt → ChanSt) : (updChan s c f).pair = s.pair := rfl
@[simp] theorem updChan_member (s : State) (c : Nat) (f : ChanSt → ChanSt) : (updChan s c f).member = s.member := rfl
@[simp] theorem updChan_pcie (s : State) (c : Nat) (f : ChanSt → ChanSt) : (updChan s c f).pcie = s.pcie := rfl
@[simp] theorem updChan_flt (s : State) (c : Nat) (f : ChanSt → ChanSt) : (updChan s c f).flt = s.flt := rfl
@[simp] theorem updChan_hvst (s : State) (c : Nat) (f : ChanSt → ChanSt) : (updChan s c f).hvst = s.hvst := rfl
@[simp] theorem updChan_mgmt (s : State) (c : Nat) (f : ChanSt → ChanSt) : (updChan s c f).mgmt = s.mgmt := rfl
@[simp] theorem updChan_fwd (s : State) (c : Nat) (f : ChanSt → ChanSt) : (updChan s c f).fwd = s.fwd := rfl
@[simp] theorem updChan_qos (s : State) (c : Nat) (f : ChanSt → ChanSt) : (updChan s c f).qos = s.qos := rfl
@[simp] theorem updChan_land (s : State) (c : Nat) (f : ChanSt → ChanSt) : (updChan s c f).land = s.land := rfl
@[simp] theorem updChan_rme (s : State) (c : Nat) (f : ChanSt → ChanSt) : (updChan s c f).rme = s.rme := rfl
@[simp] theorem updChan_hedge (s : State) (c : Nat) (f : ChanSt → ChanSt) : (updChan s c f).hedge = s.hedge := rfl
@[simp] theorem updChan_pfail (s : State) (c : Nat) (f : ChanSt → ChanSt) : (updChan s c f).pfail = s.pfail := rfl
@[simp] theorem updChan_brg (s : State) (c : Nat) (f : ChanSt → ChanSt) : (updChan s c f).brg = s.brg := rfl
@[simp] theorem updChan_scion (s : State) (c : Nat) (f : ChanSt → ChanSt) : (updChan s c f).scion = s.scion := rfl
@[simp] theorem updChan_pwr (s : State) (c : Nat) (f : ChanSt → ChanSt) : (updChan s c f).pwr = s.pwr := rfl

/-! ### updBank -/

@[simp] theorem updBank_regs (s : State) (f : BankSt → BankSt) : (updBank s f).regs = s.regs := rfl
@[simp] theorem updBank_pending (s : State) (f : BankSt → BankSt) : (updBank s f).pending = s.pending := rfl
@[simp] theorem updBank_out (s : State) (f : BankSt → BankSt) : (updBank s f).out = s.out := rfl
@[simp] theorem updBank_now (s : State) (f : BankSt → BankSt) : (updBank s f).now = s.now := rfl
@[simp] theorem updBank_t0 (s : State) (f : BankSt → BankSt) : (updBank s f).t0 = s.t0 := rfl
@[simp] theorem updBank_free (s : State) (f : BankSt → BankSt) : (updBank s f).free = s.free := rfl
@[simp] theorem updBank_access (s : State) (f : BankSt → BankSt) : (updBank s f).access = s.access := rfl
@[simp] theorem updBank_root (s : State) (f : BankSt → BankSt) : (updBank s f).root = s.root := rfl
@[simp] theorem updBank_ret (s : State) (f : BankSt → BankSt) : (updBank s f).ret = s.ret := rfl
@[simp] theorem updBank_start (s : State) (f : BankSt → BankSt) : (updBank s f).start = s.start := rfl
@[simp] theorem updBank_seed (s : State) (f : BankSt → BankSt) : (updBank s f).seed = s.seed := rfl
@[simp] theorem updBank_lane (s : State) (f : BankSt → BankSt) : (updBank s f).lane = s.lane := rfl
@[simp] theorem updBank_pg (s : State) (f : BankSt → BankSt) : (updBank s f).pg = s.pg := rfl
@[simp] theorem updBank_pair (s : State) (f : BankSt → BankSt) : (updBank s f).pair = s.pair := rfl
@[simp] theorem updBank_member (s : State) (f : BankSt → BankSt) : (updBank s f).member = s.member := rfl
@[simp] theorem updBank_pcie (s : State) (f : BankSt → BankSt) : (updBank s f).pcie = s.pcie := rfl
@[simp] theorem updBank_flt (s : State) (f : BankSt → BankSt) : (updBank s f).flt = s.flt := rfl
@[simp] theorem updBank_hvst (s : State) (f : BankSt → BankSt) : (updBank s f).hvst = s.hvst := rfl
@[simp] theorem updBank_mgmt (s : State) (f : BankSt → BankSt) : (updBank s f).mgmt = s.mgmt := rfl
@[simp] theorem updBank_fwd (s : State) (f : BankSt → BankSt) : (updBank s f).fwd = s.fwd := rfl
@[simp] theorem updBank_qos (s : State) (f : BankSt → BankSt) : (updBank s f).qos = s.qos := rfl
@[simp] theorem updBank_land (s : State) (f : BankSt → BankSt) : (updBank s f).land = s.land := rfl
@[simp] theorem updBank_rme (s : State) (f : BankSt → BankSt) : (updBank s f).rme = s.rme := rfl
@[simp] theorem updBank_hedge (s : State) (f : BankSt → BankSt) : (updBank s f).hedge = s.hedge := rfl
@[simp] theorem updBank_pfail (s : State) (f : BankSt → BankSt) : (updBank s f).pfail = s.pfail := rfl
@[simp] theorem updBank_brg (s : State) (f : BankSt → BankSt) : (updBank s f).brg = s.brg := rfl
@[simp] theorem updBank_scion (s : State) (f : BankSt → BankSt) : (updBank s f).scion = s.scion := rfl
@[simp] theorem updBank_pwr (s : State) (f : BankSt → BankSt) : (updBank s f).pwr = s.pwr := rfl

/-! ### updRails -/

@[simp] theorem updRails_regs (s : State) (f : RailSt → RailSt) : (updRails s f).regs = s.regs := rfl
@[simp] theorem updRails_pending (s : State) (f : RailSt → RailSt) : (updRails s f).pending = s.pending := rfl
@[simp] theorem updRails_out (s : State) (f : RailSt → RailSt) : (updRails s f).out = s.out := rfl
@[simp] theorem updRails_now (s : State) (f : RailSt → RailSt) : (updRails s f).now = s.now := rfl
@[simp] theorem updRails_t0 (s : State) (f : RailSt → RailSt) : (updRails s f).t0 = s.t0 := rfl
@[simp] theorem updRails_free (s : State) (f : RailSt → RailSt) : (updRails s f).free = s.free := rfl
@[simp] theorem updRails_access (s : State) (f : RailSt → RailSt) : (updRails s f).access = s.access := rfl
@[simp] theorem updRails_root (s : State) (f : RailSt → RailSt) : (updRails s f).root = s.root := rfl
@[simp] theorem updRails_ret (s : State) (f : RailSt → RailSt) : (updRails s f).ret = s.ret := rfl
@[simp] theorem updRails_start (s : State) (f : RailSt → RailSt) : (updRails s f).start = s.start := rfl
@[simp] theorem updRails_seed (s : State) (f : RailSt → RailSt) : (updRails s f).seed = s.seed := rfl
@[simp] theorem updRails_lane (s : State) (f : RailSt → RailSt) : (updRails s f).lane = s.lane := rfl
@[simp] theorem updRails_pg (s : State) (f : RailSt → RailSt) : (updRails s f).pg = s.pg := rfl
@[simp] theorem updRails_pair (s : State) (f : RailSt → RailSt) : (updRails s f).pair = s.pair := rfl
@[simp] theorem updRails_member (s : State) (f : RailSt → RailSt) : (updRails s f).member = s.member := rfl
@[simp] theorem updRails_pcie (s : State) (f : RailSt → RailSt) : (updRails s f).pcie = s.pcie := rfl
@[simp] theorem updRails_flt (s : State) (f : RailSt → RailSt) : (updRails s f).flt = s.flt := rfl
@[simp] theorem updRails_hvst (s : State) (f : RailSt → RailSt) : (updRails s f).hvst = s.hvst := rfl
@[simp] theorem updRails_mgmt (s : State) (f : RailSt → RailSt) : (updRails s f).mgmt = s.mgmt := rfl
@[simp] theorem updRails_fwd (s : State) (f : RailSt → RailSt) : (updRails s f).fwd = s.fwd := rfl
@[simp] theorem updRails_qos (s : State) (f : RailSt → RailSt) : (updRails s f).qos = s.qos := rfl
@[simp] theorem updRails_land (s : State) (f : RailSt → RailSt) : (updRails s f).land = s.land := rfl
@[simp] theorem updRails_rme (s : State) (f : RailSt → RailSt) : (updRails s f).rme = s.rme := rfl
@[simp] theorem updRails_hedge (s : State) (f : RailSt → RailSt) : (updRails s f).hedge = s.hedge := rfl
@[simp] theorem updRails_pfail (s : State) (f : RailSt → RailSt) : (updRails s f).pfail = s.pfail := rfl
@[simp] theorem updRails_brg (s : State) (f : RailSt → RailSt) : (updRails s f).brg = s.brg := rfl
@[simp] theorem updRails_scion (s : State) (f : RailSt → RailSt) : (updRails s f).scion = s.scion := rfl
@[simp] theorem updRails_pwr (s : State) (f : RailSt → RailSt) : (updRails s f).pwr = s.pwr := rfl

/-! ### updPwr -/

@[simp] theorem updPwr_pwr (s : State) (f : PwrSt → PwrSt) : (updPwr s f).pwr = f s.pwr := rfl
@[simp] theorem updPwr_regs (s : State) (f : PwrSt → PwrSt) : (updPwr s f).regs = s.regs := rfl
@[simp] theorem updPwr_pending (s : State) (f : PwrSt → PwrSt) : (updPwr s f).pending = s.pending := rfl
@[simp] theorem updPwr_out (s : State) (f : PwrSt → PwrSt) : (updPwr s f).out = s.out := rfl
@[simp] theorem updPwr_now (s : State) (f : PwrSt → PwrSt) : (updPwr s f).now = s.now := rfl
@[simp] theorem updPwr_t0 (s : State) (f : PwrSt → PwrSt) : (updPwr s f).t0 = s.t0 := rfl
@[simp] theorem updPwr_free (s : State) (f : PwrSt → PwrSt) : (updPwr s f).free = s.free := rfl
@[simp] theorem updPwr_access (s : State) (f : PwrSt → PwrSt) : (updPwr s f).access = s.access := rfl
@[simp] theorem updPwr_root (s : State) (f : PwrSt → PwrSt) : (updPwr s f).root = s.root := rfl
@[simp] theorem updPwr_ret (s : State) (f : PwrSt → PwrSt) : (updPwr s f).ret = s.ret := rfl
@[simp] theorem updPwr_start (s : State) (f : PwrSt → PwrSt) : (updPwr s f).start = s.start := rfl
@[simp] theorem updPwr_seed (s : State) (f : PwrSt → PwrSt) : (updPwr s f).seed = s.seed := rfl
@[simp] theorem updPwr_lane (s : State) (f : PwrSt → PwrSt) : (updPwr s f).lane = s.lane := rfl
@[simp] theorem updPwr_pg (s : State) (f : PwrSt → PwrSt) : (updPwr s f).pg = s.pg := rfl
@[simp] theorem updPwr_pair (s : State) (f : PwrSt → PwrSt) : (updPwr s f).pair = s.pair := rfl
@[simp] theorem updPwr_member (s : State) (f : PwrSt → PwrSt) : (updPwr s f).member = s.member := rfl
@[simp] theorem updPwr_pcie (s : State) (f : PwrSt → PwrSt) : (updPwr s f).pcie = s.pcie := rfl
@[simp] theorem updPwr_flt (s : State) (f : PwrSt → PwrSt) : (updPwr s f).flt = s.flt := rfl
@[simp] theorem updPwr_hvst (s : State) (f : PwrSt → PwrSt) : (updPwr s f).hvst = s.hvst := rfl
@[simp] theorem updPwr_mgmt (s : State) (f : PwrSt → PwrSt) : (updPwr s f).mgmt = s.mgmt := rfl
@[simp] theorem updPwr_fwd (s : State) (f : PwrSt → PwrSt) : (updPwr s f).fwd = s.fwd := rfl
@[simp] theorem updPwr_qos (s : State) (f : PwrSt → PwrSt) : (updPwr s f).qos = s.qos := rfl
@[simp] theorem updPwr_land (s : State) (f : PwrSt → PwrSt) : (updPwr s f).land = s.land := rfl
@[simp] theorem updPwr_rme (s : State) (f : PwrSt → PwrSt) : (updPwr s f).rme = s.rme := rfl
@[simp] theorem updPwr_hedge (s : State) (f : PwrSt → PwrSt) : (updPwr s f).hedge = s.hedge := rfl
@[simp] theorem updPwr_rootSt (s : State) (f : PwrSt → PwrSt) : (updPwr s f).rootSt = s.rootSt := rfl
@[simp] theorem updPwr_pfail (s : State) (f : PwrSt → PwrSt) : (updPwr s f).pfail = s.pfail := rfl
@[simp] theorem updPwr_brg (s : State) (f : PwrSt → PwrSt) : (updPwr s f).brg = s.brg := rfl
@[simp] theorem updPwr_scion (s : State) (f : PwrSt → PwrSt) : (updPwr s f).scion = s.scion := rfl

/-! ### updPf -/

@[simp] theorem updPf_pfail (s : State) (f : PfailSt → PfailSt) : (updPf s f).pfail = f s.pfail := rfl
@[simp] theorem updPf_regs (s : State) (f : PfailSt → PfailSt) : (updPf s f).regs = s.regs := rfl
@[simp] theorem updPf_pending (s : State) (f : PfailSt → PfailSt) : (updPf s f).pending = s.pending := rfl
@[simp] theorem updPf_out (s : State) (f : PfailSt → PfailSt) : (updPf s f).out = s.out := rfl
@[simp] theorem updPf_now (s : State) (f : PfailSt → PfailSt) : (updPf s f).now = s.now := rfl
@[simp] theorem updPf_t0 (s : State) (f : PfailSt → PfailSt) : (updPf s f).t0 = s.t0 := rfl
@[simp] theorem updPf_free (s : State) (f : PfailSt → PfailSt) : (updPf s f).free = s.free := rfl
@[simp] theorem updPf_access (s : State) (f : PfailSt → PfailSt) : (updPf s f).access = s.access := rfl
@[simp] theorem updPf_root (s : State) (f : PfailSt → PfailSt) : (updPf s f).root = s.root := rfl
@[simp] theorem updPf_ret (s : State) (f : PfailSt → PfailSt) : (updPf s f).ret = s.ret := rfl
@[simp] theorem updPf_start (s : State) (f : PfailSt → PfailSt) : (updPf s f).start = s.start := rfl
@[simp] theorem updPf_seed (s : State) (f : PfailSt → PfailSt) : (updPf s f).seed = s.seed := rfl
@[simp] theorem updPf_lane (s : State) (f : PfailSt → PfailSt) : (updPf s f).lane = s.lane := rfl
@[simp] theorem updPf_pg (s : State) (f : PfailSt → PfailSt) : (updPf s f).pg = s.pg := rfl
@[simp] theorem updPf_pair (s : State) (f : PfailSt → PfailSt) : (updPf s f).pair = s.pair := rfl
@[simp] theorem updPf_member (s : State) (f : PfailSt → PfailSt) : (updPf s f).member = s.member := rfl
@[simp] theorem updPf_pcie (s : State) (f : PfailSt → PfailSt) : (updPf s f).pcie = s.pcie := rfl
@[simp] theorem updPf_flt (s : State) (f : PfailSt → PfailSt) : (updPf s f).flt = s.flt := rfl
@[simp] theorem updPf_hvst (s : State) (f : PfailSt → PfailSt) : (updPf s f).hvst = s.hvst := rfl
@[simp] theorem updPf_mgmt (s : State) (f : PfailSt → PfailSt) : (updPf s f).mgmt = s.mgmt := rfl
@[simp] theorem updPf_fwd (s : State) (f : PfailSt → PfailSt) : (updPf s f).fwd = s.fwd := rfl
@[simp] theorem updPf_qos (s : State) (f : PfailSt → PfailSt) : (updPf s f).qos = s.qos := rfl
@[simp] theorem updPf_land (s : State) (f : PfailSt → PfailSt) : (updPf s f).land = s.land := rfl
@[simp] theorem updPf_rme (s : State) (f : PfailSt → PfailSt) : (updPf s f).rme = s.rme := rfl
@[simp] theorem updPf_hedge (s : State) (f : PfailSt → PfailSt) : (updPf s f).hedge = s.hedge := rfl
@[simp] theorem updPf_rootSt (s : State) (f : PfailSt → PfailSt) : (updPf s f).rootSt = s.rootSt := rfl
@[simp] theorem updPf_brg (s : State) (f : PfailSt → PfailSt) : (updPf s f).brg = s.brg := rfl
@[simp] theorem updPf_scion (s : State) (f : PfailSt → PfailSt) : (updPf s f).scion = s.scion := rfl
@[simp] theorem updPf_pwr (s : State) (f : PfailSt → PfailSt) : (updPf s f).pwr = s.pwr := rfl

/-! ### updTherm -/

@[simp] theorem updTherm_regs (s : State) (f : ThermSt → ThermSt) : (updTherm s f).regs = s.regs := rfl
@[simp] theorem updTherm_pending (s : State) (f : ThermSt → ThermSt) : (updTherm s f).pending = s.pending := rfl
@[simp] theorem updTherm_out (s : State) (f : ThermSt → ThermSt) : (updTherm s f).out = s.out := rfl
@[simp] theorem updTherm_now (s : State) (f : ThermSt → ThermSt) : (updTherm s f).now = s.now := rfl
@[simp] theorem updTherm_t0 (s : State) (f : ThermSt → ThermSt) : (updTherm s f).t0 = s.t0 := rfl
@[simp] theorem updTherm_free (s : State) (f : ThermSt → ThermSt) : (updTherm s f).free = s.free := rfl
@[simp] theorem updTherm_access (s : State) (f : ThermSt → ThermSt) : (updTherm s f).access = s.access := rfl
@[simp] theorem updTherm_root (s : State) (f : ThermSt → ThermSt) : (updTherm s f).root = s.root := rfl
@[simp] theorem updTherm_ret (s : State) (f : ThermSt → ThermSt) : (updTherm s f).ret = s.ret := rfl
@[simp] theorem updTherm_start (s : State) (f : ThermSt → ThermSt) : (updTherm s f).start = s.start := rfl
@[simp] theorem updTherm_seed (s : State) (f : ThermSt → ThermSt) : (updTherm s f).seed = s.seed := rfl
@[simp] theorem updTherm_lane (s : State) (f : ThermSt → ThermSt) : (updTherm s f).lane = s.lane := rfl
@[simp] theorem updTherm_pg (s : State) (f : ThermSt → ThermSt) : (updTherm s f).pg = s.pg := rfl
@[simp] theorem updTherm_pair (s : State) (f : ThermSt → ThermSt) : (updTherm s f).pair = s.pair := rfl
@[simp] theorem updTherm_member (s : State) (f : ThermSt → ThermSt) : (updTherm s f).member = s.member := rfl
@[simp] theorem updTherm_pcie (s : State) (f : ThermSt → ThermSt) : (updTherm s f).pcie = s.pcie := rfl
@[simp] theorem updTherm_flt (s : State) (f : ThermSt → ThermSt) : (updTherm s f).flt = s.flt := rfl
@[simp] theorem updTherm_hvst (s : State) (f : ThermSt → ThermSt) : (updTherm s f).hvst = s.hvst := rfl
@[simp] theorem updTherm_mgmt (s : State) (f : ThermSt → ThermSt) : (updTherm s f).mgmt = s.mgmt := rfl
@[simp] theorem updTherm_fwd (s : State) (f : ThermSt → ThermSt) : (updTherm s f).fwd = s.fwd := rfl
@[simp] theorem updTherm_qos (s : State) (f : ThermSt → ThermSt) : (updTherm s f).qos = s.qos := rfl
@[simp] theorem updTherm_land (s : State) (f : ThermSt → ThermSt) : (updTherm s f).land = s.land := rfl
@[simp] theorem updTherm_rme (s : State) (f : ThermSt → ThermSt) : (updTherm s f).rme = s.rme := rfl
@[simp] theorem updTherm_hedge (s : State) (f : ThermSt → ThermSt) : (updTherm s f).hedge = s.hedge := rfl
@[simp] theorem updTherm_pfail (s : State) (f : ThermSt → ThermSt) : (updTherm s f).pfail = s.pfail := rfl
@[simp] theorem updTherm_brg (s : State) (f : ThermSt → ThermSt) : (updTherm s f).brg = s.brg := rfl
@[simp] theorem updTherm_scion (s : State) (f : ThermSt → ThermSt) : (updTherm s f).scion = s.scion := rfl
@[simp] theorem updTherm_pwr (s : State) (f : ThermSt → ThermSt) : (updTherm s f).pwr = s.pwr := rfl

/-! ### updMover -/

@[simp] theorem updMover_regs (s : State) (t : Nat) (f : Mover → Mover) : (updMover s t f).regs = s.regs := rfl
@[simp] theorem updMover_pending (s : State) (t : Nat) (f : Mover → Mover) : (updMover s t f).pending = s.pending := rfl
@[simp] theorem updMover_out (s : State) (t : Nat) (f : Mover → Mover) : (updMover s t f).out = s.out := rfl
@[simp] theorem updMover_now (s : State) (t : Nat) (f : Mover → Mover) : (updMover s t f).now = s.now := rfl
@[simp] theorem updMover_t0 (s : State) (t : Nat) (f : Mover → Mover) : (updMover s t f).t0 = s.t0 := rfl
@[simp] theorem updMover_free (s : State) (t : Nat) (f : Mover → Mover) : (updMover s t f).free = s.free := rfl
@[simp] theorem updMover_access (s : State) (t : Nat) (f : Mover → Mover) : (updMover s t f).access = s.access := rfl
@[simp] theorem updMover_root (s : State) (t : Nat) (f : Mover → Mover) : (updMover s t f).root = s.root := rfl
@[simp] theorem updMover_ret (s : State) (t : Nat) (f : Mover → Mover) : (updMover s t f).ret = s.ret := rfl
@[simp] theorem updMover_start (s : State) (t : Nat) (f : Mover → Mover) : (updMover s t f).start = s.start := rfl
@[simp] theorem updMover_seed (s : State) (t : Nat) (f : Mover → Mover) : (updMover s t f).seed = s.seed := rfl
@[simp] theorem updMover_lane (s : State) (t : Nat) (f : Mover → Mover) : (updMover s t f).lane = s.lane := rfl
@[simp] theorem updMover_pg (s : State) (t : Nat) (f : Mover → Mover) : (updMover s t f).pg = s.pg := rfl
@[simp] theorem updMover_pair (s : State) (t : Nat) (f : Mover → Mover) : (updMover s t f).pair = s.pair := rfl
@[simp] theorem updMover_member (s : State) (t : Nat) (f : Mover → Mover) : (updMover s t f).member = s.member := rfl
@[simp] theorem updMover_pcie (s : State) (t : Nat) (f : Mover → Mover) : (updMover s t f).pcie = s.pcie := rfl
@[simp] theorem updMover_flt (s : State) (t : Nat) (f : Mover → Mover) : (updMover s t f).flt = s.flt := rfl
@[simp] theorem updMover_hvst (s : State) (t : Nat) (f : Mover → Mover) : (updMover s t f).hvst = s.hvst := rfl
@[simp] theorem updMover_mgmt (s : State) (t : Nat) (f : Mover → Mover) : (updMover s t f).mgmt = s.mgmt := rfl
@[simp] theorem updMover_fwd (s : State) (t : Nat) (f : Mover → Mover) : (updMover s t f).fwd = s.fwd := rfl
@[simp] theorem updMover_qos (s : State) (t : Nat) (f : Mover → Mover) : (updMover s t f).qos = s.qos := rfl
@[simp] theorem updMover_land (s : State) (t : Nat) (f : Mover → Mover) : (updMover s t f).land = s.land := rfl
@[simp] theorem updMover_rme (s : State) (t : Nat) (f : Mover → Mover) : (updMover s t f).rme = s.rme := rfl
@[simp] theorem updMover_hedge (s : State) (t : Nat) (f : Mover → Mover) : (updMover s t f).hedge = s.hedge := rfl
@[simp] theorem updMover_rootSt (s : State) (t : Nat) (f : Mover → Mover) : (updMover s t f).rootSt = s.rootSt := rfl
@[simp] theorem updMover_brg (s : State) (t : Nat) (f : Mover → Mover) : (updMover s t f).brg = s.brg := rfl
@[simp] theorem updMover_scion (s : State) (t : Nat) (f : Mover → Mover) : (updMover s t f).scion = s.scion := rfl
@[simp] theorem updMover_pwr (s : State) (t : Nat) (f : Mover → Mover) : (updMover s t f).pwr = s.pwr := rfl

/-! ### updBrg -/

@[simp] theorem updBrg_brg (s : State) (f : BrgSt → BrgSt) : (updBrg s f).brg = f s.brg := rfl
@[simp] theorem updBrg_regs (s : State) (f : BrgSt → BrgSt) : (updBrg s f).regs = s.regs := rfl
@[simp] theorem updBrg_pending (s : State) (f : BrgSt → BrgSt) : (updBrg s f).pending = s.pending := rfl
@[simp] theorem updBrg_out (s : State) (f : BrgSt → BrgSt) : (updBrg s f).out = s.out := rfl
@[simp] theorem updBrg_now (s : State) (f : BrgSt → BrgSt) : (updBrg s f).now = s.now := rfl
@[simp] theorem updBrg_t0 (s : State) (f : BrgSt → BrgSt) : (updBrg s f).t0 = s.t0 := rfl
@[simp] theorem updBrg_free (s : State) (f : BrgSt → BrgSt) : (updBrg s f).free = s.free := rfl
@[simp] theorem updBrg_access (s : State) (f : BrgSt → BrgSt) : (updBrg s f).access = s.access := rfl
@[simp] theorem updBrg_root (s : State) (f : BrgSt → BrgSt) : (updBrg s f).root = s.root := rfl
@[simp] theorem updBrg_ret (s : State) (f : BrgSt → BrgSt) : (updBrg s f).ret = s.ret := rfl
@[simp] theorem updBrg_start (s : State) (f : BrgSt → BrgSt) : (updBrg s f).start = s.start := rfl
@[simp] theorem updBrg_seed (s : State) (f : BrgSt → BrgSt) : (updBrg s f).seed = s.seed := rfl
@[simp] theorem updBrg_lane (s : State) (f : BrgSt → BrgSt) : (updBrg s f).lane = s.lane := rfl
@[simp] theorem updBrg_pg (s : State) (f : BrgSt → BrgSt) : (updBrg s f).pg = s.pg := rfl
@[simp] theorem updBrg_pair (s : State) (f : BrgSt → BrgSt) : (updBrg s f).pair = s.pair := rfl
@[simp] theorem updBrg_member (s : State) (f : BrgSt → BrgSt) : (updBrg s f).member = s.member := rfl
@[simp] theorem updBrg_pcie (s : State) (f : BrgSt → BrgSt) : (updBrg s f).pcie = s.pcie := rfl
@[simp] theorem updBrg_flt (s : State) (f : BrgSt → BrgSt) : (updBrg s f).flt = s.flt := rfl
@[simp] theorem updBrg_hvst (s : State) (f : BrgSt → BrgSt) : (updBrg s f).hvst = s.hvst := rfl
@[simp] theorem updBrg_mgmt (s : State) (f : BrgSt → BrgSt) : (updBrg s f).mgmt = s.mgmt := rfl
@[simp] theorem updBrg_fwd (s : State) (f : BrgSt → BrgSt) : (updBrg s f).fwd = s.fwd := rfl
@[simp] theorem updBrg_qos (s : State) (f : BrgSt → BrgSt) : (updBrg s f).qos = s.qos := rfl
@[simp] theorem updBrg_land (s : State) (f : BrgSt → BrgSt) : (updBrg s f).land = s.land := rfl
@[simp] theorem updBrg_rme (s : State) (f : BrgSt → BrgSt) : (updBrg s f).rme = s.rme := rfl
@[simp] theorem updBrg_hedge (s : State) (f : BrgSt → BrgSt) : (updBrg s f).hedge = s.hedge := rfl
@[simp] theorem updBrg_rootSt (s : State) (f : BrgSt → BrgSt) : (updBrg s f).rootSt = s.rootSt := rfl
@[simp] theorem updBrg_pfail (s : State) (f : BrgSt → BrgSt) : (updBrg s f).pfail = s.pfail := rfl
@[simp] theorem updBrg_scion (s : State) (f : BrgSt → BrgSt) : (updBrg s f).scion = s.scion := rfl
@[simp] theorem updBrg_pwr (s : State) (f : BrgSt → BrgSt) : (updBrg s f).pwr = s.pwr := rfl

/-! ### updHedge -/

@[simp] theorem updHedge_hedge (s : State) (f : HedgeSt → HedgeSt) : (updHedge s f).hedge = f s.hedge := rfl
@[simp] theorem updHedge_regs (s : State) (f : HedgeSt → HedgeSt) : (updHedge s f).regs = s.regs := rfl
@[simp] theorem updHedge_pending (s : State) (f : HedgeSt → HedgeSt) : (updHedge s f).pending = s.pending := rfl
@[simp] theorem updHedge_out (s : State) (f : HedgeSt → HedgeSt) : (updHedge s f).out = s.out := rfl
@[simp] theorem updHedge_now (s : State) (f : HedgeSt → HedgeSt) : (updHedge s f).now = s.now := rfl
@[simp] theorem updHedge_t0 (s : State) (f : HedgeSt → HedgeSt) : (updHedge s f).t0 = s.t0 := rfl
@[simp] theorem updHedge_free (s : State) (f : HedgeSt → HedgeSt) : (updHedge s f).free = s.free := rfl
@[simp] theorem updHedge_access (s : State) (f : HedgeSt → HedgeSt) : (updHedge s f).access = s.access := rfl
@[simp] theorem updHedge_root (s : State) (f : HedgeSt → HedgeSt) : (updHedge s f).root = s.root := rfl
@[simp] theorem updHedge_ret (s : State) (f : HedgeSt → HedgeSt) : (updHedge s f).ret = s.ret := rfl
@[simp] theorem updHedge_start (s : State) (f : HedgeSt → HedgeSt) : (updHedge s f).start = s.start := rfl
@[simp] theorem updHedge_seed (s : State) (f : HedgeSt → HedgeSt) : (updHedge s f).seed = s.seed := rfl
@[simp] theorem updHedge_lane (s : State) (f : HedgeSt → HedgeSt) : (updHedge s f).lane = s.lane := rfl
@[simp] theorem updHedge_pg (s : State) (f : HedgeSt → HedgeSt) : (updHedge s f).pg = s.pg := rfl
@[simp] theorem updHedge_pair (s : State) (f : HedgeSt → HedgeSt) : (updHedge s f).pair = s.pair := rfl
@[simp] theorem updHedge_member (s : State) (f : HedgeSt → HedgeSt) : (updHedge s f).member = s.member := rfl
@[simp] theorem updHedge_pcie (s : State) (f : HedgeSt → HedgeSt) : (updHedge s f).pcie = s.pcie := rfl
@[simp] theorem updHedge_flt (s : State) (f : HedgeSt → HedgeSt) : (updHedge s f).flt = s.flt := rfl
@[simp] theorem updHedge_hvst (s : State) (f : HedgeSt → HedgeSt) : (updHedge s f).hvst = s.hvst := rfl
@[simp] theorem updHedge_mgmt (s : State) (f : HedgeSt → HedgeSt) : (updHedge s f).mgmt = s.mgmt := rfl
@[simp] theorem updHedge_fwd (s : State) (f : HedgeSt → HedgeSt) : (updHedge s f).fwd = s.fwd := rfl
@[simp] theorem updHedge_qos (s : State) (f : HedgeSt → HedgeSt) : (updHedge s f).qos = s.qos := rfl
@[simp] theorem updHedge_land (s : State) (f : HedgeSt → HedgeSt) : (updHedge s f).land = s.land := rfl
@[simp] theorem updHedge_rme (s : State) (f : HedgeSt → HedgeSt) : (updHedge s f).rme = s.rme := rfl
@[simp] theorem updHedge_rootSt (s : State) (f : HedgeSt → HedgeSt) : (updHedge s f).rootSt = s.rootSt := rfl
@[simp] theorem updHedge_pfail (s : State) (f : HedgeSt → HedgeSt) : (updHedge s f).pfail = s.pfail := rfl
@[simp] theorem updHedge_brg (s : State) (f : HedgeSt → HedgeSt) : (updHedge s f).brg = s.brg := rfl
@[simp] theorem updHedge_scion (s : State) (f : HedgeSt → HedgeSt) : (updHedge s f).scion = s.scion := rfl
@[simp] theorem updHedge_pwr (s : State) (f : HedgeSt → HedgeSt) : (updHedge s f).pwr = s.pwr := rfl

/-! ### updScion -/

@[simp] theorem updScion_scion (s : State) (f : ScionSt → ScionSt) : (updScion s f).scion = f s.scion := rfl
@[simp] theorem updScion_regs (s : State) (f : ScionSt → ScionSt) : (updScion s f).regs = s.regs := rfl
@[simp] theorem updScion_pending (s : State) (f : ScionSt → ScionSt) : (updScion s f).pending = s.pending := rfl
@[simp] theorem updScion_out (s : State) (f : ScionSt → ScionSt) : (updScion s f).out = s.out := rfl
@[simp] theorem updScion_now (s : State) (f : ScionSt → ScionSt) : (updScion s f).now = s.now := rfl
@[simp] theorem updScion_t0 (s : State) (f : ScionSt → ScionSt) : (updScion s f).t0 = s.t0 := rfl
@[simp] theorem updScion_free (s : State) (f : ScionSt → ScionSt) : (updScion s f).free = s.free := rfl
@[simp] theorem updScion_access (s : State) (f : ScionSt → ScionSt) : (updScion s f).access = s.access := rfl
@[simp] theorem updScion_root (s : State) (f : ScionSt → ScionSt) : (updScion s f).root = s.root := rfl
@[simp] theorem updScion_ret (s : State) (f : ScionSt → ScionSt) : (updScion s f).ret = s.ret := rfl
@[simp] theorem updScion_start (s : State) (f : ScionSt → ScionSt) : (updScion s f).start = s.start := rfl
@[simp] theorem updScion_seed (s : State) (f : ScionSt → ScionSt) : (updScion s f).seed = s.seed := rfl
@[simp] theorem updScion_lane (s : State) (f : ScionSt → ScionSt) : (updScion s f).lane = s.lane := rfl
@[simp] theorem updScion_pg (s : State) (f : ScionSt → ScionSt) : (updScion s f).pg = s.pg := rfl
@[simp] theorem updScion_pair (s : State) (f : ScionSt → ScionSt) : (updScion s f).pair = s.pair := rfl
@[simp] theorem updScion_member (s : State) (f : ScionSt → ScionSt) : (updScion s f).member = s.member := rfl
@[simp] theorem updScion_pcie (s : State) (f : ScionSt → ScionSt) : (updScion s f).pcie = s.pcie := rfl
@[simp] theorem updScion_flt (s : State) (f : ScionSt → ScionSt) : (updScion s f).flt = s.flt := rfl
@[simp] theorem updScion_hvst (s : State) (f : ScionSt → ScionSt) : (updScion s f).hvst = s.hvst := rfl
@[simp] theorem updScion_mgmt (s : State) (f : ScionSt → ScionSt) : (updScion s f).mgmt = s.mgmt := rfl
@[simp] theorem updScion_fwd (s : State) (f : ScionSt → ScionSt) : (updScion s f).fwd = s.fwd := rfl
@[simp] theorem updScion_qos (s : State) (f : ScionSt → ScionSt) : (updScion s f).qos = s.qos := rfl
@[simp] theorem updScion_land (s : State) (f : ScionSt → ScionSt) : (updScion s f).land = s.land := rfl
@[simp] theorem updScion_rme (s : State) (f : ScionSt → ScionSt) : (updScion s f).rme = s.rme := rfl
@[simp] theorem updScion_hedge (s : State) (f : ScionSt → ScionSt) : (updScion s f).hedge = s.hedge := rfl
@[simp] theorem updScion_rootSt (s : State) (f : ScionSt → ScionSt) : (updScion s f).rootSt = s.rootSt := rfl
@[simp] theorem updScion_pfail (s : State) (f : ScionSt → ScionSt) : (updScion s f).pfail = s.pfail := rfl
@[simp] theorem updScion_brg (s : State) (f : ScionSt → ScionSt) : (updScion s f).brg = s.brg := rfl
@[simp] theorem updScion_pwr (s : State) (f : ScionSt → ScionSt) : (updScion s f).pwr = s.pwr := rfl

/-! ### updSc -/

@[simp] theorem updSc_regs (s : State) (sc : Nat) (f : ScionRec → ScionRec) : (updSc s sc f).regs = s.regs := rfl
@[simp] theorem updSc_pending (s : State) (sc : Nat) (f : ScionRec → ScionRec) : (updSc s sc f).pending = s.pending := rfl
@[simp] theorem updSc_out (s : State) (sc : Nat) (f : ScionRec → ScionRec) : (updSc s sc f).out = s.out := rfl
@[simp] theorem updSc_now (s : State) (sc : Nat) (f : ScionRec → ScionRec) : (updSc s sc f).now = s.now := rfl
@[simp] theorem updSc_t0 (s : State) (sc : Nat) (f : ScionRec → ScionRec) : (updSc s sc f).t0 = s.t0 := rfl
@[simp] theorem updSc_free (s : State) (sc : Nat) (f : ScionRec → ScionRec) : (updSc s sc f).free = s.free := rfl
@[simp] theorem updSc_access (s : State) (sc : Nat) (f : ScionRec → ScionRec) : (updSc s sc f).access = s.access := rfl
@[simp] theorem updSc_root (s : State) (sc : Nat) (f : ScionRec → ScionRec) : (updSc s sc f).root = s.root := rfl
@[simp] theorem updSc_ret (s : State) (sc : Nat) (f : ScionRec → ScionRec) : (updSc s sc f).ret = s.ret := rfl
@[simp] theorem updSc_start (s : State) (sc : Nat) (f : ScionRec → ScionRec) : (updSc s sc f).start = s.start := rfl
@[simp] theorem updSc_seed (s : State) (sc : Nat) (f : ScionRec → ScionRec) : (updSc s sc f).seed = s.seed := rfl
@[simp] theorem updSc_lane (s : State) (sc : Nat) (f : ScionRec → ScionRec) : (updSc s sc f).lane = s.lane := rfl
@[simp] theorem updSc_pg (s : State) (sc : Nat) (f : ScionRec → ScionRec) : (updSc s sc f).pg = s.pg := rfl
@[simp] theorem updSc_pair (s : State) (sc : Nat) (f : ScionRec → ScionRec) : (updSc s sc f).pair = s.pair := rfl
@[simp] theorem updSc_member (s : State) (sc : Nat) (f : ScionRec → ScionRec) : (updSc s sc f).member = s.member := rfl
@[simp] theorem updSc_pcie (s : State) (sc : Nat) (f : ScionRec → ScionRec) : (updSc s sc f).pcie = s.pcie := rfl
@[simp] theorem updSc_flt (s : State) (sc : Nat) (f : ScionRec → ScionRec) : (updSc s sc f).flt = s.flt := rfl
@[simp] theorem updSc_hvst (s : State) (sc : Nat) (f : ScionRec → ScionRec) : (updSc s sc f).hvst = s.hvst := rfl
@[simp] theorem updSc_mgmt (s : State) (sc : Nat) (f : ScionRec → ScionRec) : (updSc s sc f).mgmt = s.mgmt := rfl
@[simp] theorem updSc_fwd (s : State) (sc : Nat) (f : ScionRec → ScionRec) : (updSc s sc f).fwd = s.fwd := rfl
@[simp] theorem updSc_qos (s : State) (sc : Nat) (f : ScionRec → ScionRec) : (updSc s sc f).qos = s.qos := rfl
@[simp] theorem updSc_land (s : State) (sc : Nat) (f : ScionRec → ScionRec) : (updSc s sc f).land = s.land := rfl
@[simp] theorem updSc_rme (s : State) (sc : Nat) (f : ScionRec → ScionRec) : (updSc s sc f).rme = s.rme := rfl
@[simp] theorem updSc_hedge (s : State) (sc : Nat) (f : ScionRec → ScionRec) : (updSc s sc f).hedge = s.hedge := rfl
@[simp] theorem updSc_rootSt (s : State) (sc : Nat) (f : ScionRec → ScionRec) : (updSc s sc f).rootSt = s.rootSt := rfl
@[simp] theorem updSc_pfail (s : State) (sc : Nat) (f : ScionRec → ScionRec) : (updSc s sc f).pfail = s.pfail := rfl
@[simp] theorem updSc_brg (s : State) (sc : Nat) (f : ScionRec → ScionRec) : (updSc s sc f).brg = s.brg := rfl
@[simp] theorem updSc_pwr (s : State) (sc : Nat) (f : ScionRec → ScionRec) : (updSc s sc f).pwr = s.pwr := rfl

/-! ### updDirty -/

@[simp] theorem updDirty_regs (s : State) (sc : Nat) (f : DirtySt → DirtySt) : (updDirty s sc f).regs = s.regs := rfl
@[simp] theorem updDirty_pending (s : State) (sc : Nat) (f : DirtySt → DirtySt) : (updDirty s sc f).pending = s.pending := rfl
@[simp] theorem updDirty_out (s : State) (sc : Nat) (f : DirtySt → DirtySt) : (updDirty s sc f).out = s.out := rfl
@[simp] theorem updDirty_now (s : State) (sc : Nat) (f : DirtySt → DirtySt) : (updDirty s sc f).now = s.now := rfl
@[simp] theorem updDirty_t0 (s : State) (sc : Nat) (f : DirtySt → DirtySt) : (updDirty s sc f).t0 = s.t0 := rfl
@[simp] theorem updDirty_free (s : State) (sc : Nat) (f : DirtySt → DirtySt) : (updDirty s sc f).free = s.free := rfl
@[simp] theorem updDirty_access (s : State) (sc : Nat) (f : DirtySt → DirtySt) : (updDirty s sc f).access = s.access := rfl
@[simp] theorem updDirty_root (s : State) (sc : Nat) (f : DirtySt → DirtySt) : (updDirty s sc f).root = s.root := rfl
@[simp] theorem updDirty_ret (s : State) (sc : Nat) (f : DirtySt → DirtySt) : (updDirty s sc f).ret = s.ret := rfl
@[simp] theorem updDirty_start (s : State) (sc : Nat) (f : DirtySt → DirtySt) : (updDirty s sc f).start = s.start := rfl
@[simp] theorem updDirty_seed (s : State) (sc : Nat) (f : DirtySt → DirtySt) : (updDirty s sc f).seed = s.seed := rfl
@[simp] theorem updDirty_lane (s : State) (sc : Nat) (f : DirtySt → DirtySt) : (updDirty s sc f).lane = s.lane := rfl
@[simp] theorem updDirty_pg (s : State) (sc : Nat) (f : DirtySt → DirtySt) : (updDirty s sc f).pg = s.pg := rfl
@[simp] theorem updDirty_pair (s : State) (sc : Nat) (f : DirtySt → DirtySt) : (updDirty s sc f).pair = s.pair := rfl
@[simp] theorem updDirty_member (s : State) (sc : Nat) (f : DirtySt → DirtySt) : (updDirty s sc f).member = s.member := rfl
@[simp] theorem updDirty_pcie (s : State) (sc : Nat) (f : DirtySt → DirtySt) : (updDirty s sc f).pcie = s.pcie := rfl
@[simp] theorem updDirty_flt (s : State) (sc : Nat) (f : DirtySt → DirtySt) : (updDirty s sc f).flt = s.flt := rfl
@[simp] theorem updDirty_hvst (s : State) (sc : Nat) (f : DirtySt → DirtySt) : (updDirty s sc f).hvst = s.hvst := rfl
@[simp] theorem updDirty_mgmt (s : State) (sc : Nat) (f : DirtySt → DirtySt) : (updDirty s sc f).mgmt = s.mgmt := rfl
@[simp] theorem updDirty_fwd (s : State) (sc : Nat) (f : DirtySt → DirtySt) : (updDirty s sc f).fwd = s.fwd := rfl
@[simp] theorem updDirty_qos (s : State) (sc : Nat) (f : DirtySt → DirtySt) : (updDirty s sc f).qos = s.qos := rfl
@[simp] theorem updDirty_land (s : State) (sc : Nat) (f : DirtySt → DirtySt) : (updDirty s sc f).land = s.land := rfl
@[simp] theorem updDirty_rme (s : State) (sc : Nat) (f : DirtySt → DirtySt) : (updDirty s sc f).rme = s.rme := rfl
@[simp] theorem updDirty_hedge (s : State) (sc : Nat) (f : DirtySt → DirtySt) : (updDirty s sc f).hedge = s.hedge := rfl
@[simp] theorem updDirty_rootSt (s : State) (sc : Nat) (f : DirtySt → DirtySt) : (updDirty s sc f).rootSt = s.rootSt := rfl
@[simp] theorem updDirty_pfail (s : State) (sc : Nat) (f : DirtySt → DirtySt) : (updDirty s sc f).pfail = s.pfail := rfl
@[simp] theorem updDirty_brg (s : State) (sc : Nat) (f : DirtySt → DirtySt) : (updDirty s sc f).brg = s.brg := rfl
@[simp] theorem updDirty_pwr (s : State) (sc : Nat) (f : DirtySt → DirtySt) : (updDirty s sc f).pwr = s.pwr := rfl

/-! ### updPg -/

@[simp] theorem updPg_pg (s : State) (k : Nat) (f : PgSt → PgSt) : (updPg s k f).pg = s.pg.upd k f := rfl
@[simp] theorem updPg_regs (s : State) (k : Nat) (f : PgSt → PgSt) : (updPg s k f).regs = s.regs := rfl
@[simp] theorem updPg_pending (s : State) (k : Nat) (f : PgSt → PgSt) : (updPg s k f).pending = s.pending := rfl
@[simp] theorem updPg_out (s : State) (k : Nat) (f : PgSt → PgSt) : (updPg s k f).out = s.out := rfl
@[simp] theorem updPg_now (s : State) (k : Nat) (f : PgSt → PgSt) : (updPg s k f).now = s.now := rfl
@[simp] theorem updPg_t0 (s : State) (k : Nat) (f : PgSt → PgSt) : (updPg s k f).t0 = s.t0 := rfl
@[simp] theorem updPg_free (s : State) (k : Nat) (f : PgSt → PgSt) : (updPg s k f).free = s.free := rfl
@[simp] theorem updPg_access (s : State) (k : Nat) (f : PgSt → PgSt) : (updPg s k f).access = s.access := rfl
@[simp] theorem updPg_root (s : State) (k : Nat) (f : PgSt → PgSt) : (updPg s k f).root = s.root := rfl
@[simp] theorem updPg_ret (s : State) (k : Nat) (f : PgSt → PgSt) : (updPg s k f).ret = s.ret := rfl
@[simp] theorem updPg_start (s : State) (k : Nat) (f : PgSt → PgSt) : (updPg s k f).start = s.start := rfl
@[simp] theorem updPg_seed (s : State) (k : Nat) (f : PgSt → PgSt) : (updPg s k f).seed = s.seed := rfl
@[simp] theorem updPg_lane (s : State) (k : Nat) (f : PgSt → PgSt) : (updPg s k f).lane = s.lane := rfl
@[simp] theorem updPg_pair (s : State) (k : Nat) (f : PgSt → PgSt) : (updPg s k f).pair = s.pair := rfl
@[simp] theorem updPg_member (s : State) (k : Nat) (f : PgSt → PgSt) : (updPg s k f).member = s.member := rfl
@[simp] theorem updPg_pcie (s : State) (k : Nat) (f : PgSt → PgSt) : (updPg s k f).pcie = s.pcie := rfl
@[simp] theorem updPg_flt (s : State) (k : Nat) (f : PgSt → PgSt) : (updPg s k f).flt = s.flt := rfl
@[simp] theorem updPg_hvst (s : State) (k : Nat) (f : PgSt → PgSt) : (updPg s k f).hvst = s.hvst := rfl
@[simp] theorem updPg_mgmt (s : State) (k : Nat) (f : PgSt → PgSt) : (updPg s k f).mgmt = s.mgmt := rfl
@[simp] theorem updPg_fwd (s : State) (k : Nat) (f : PgSt → PgSt) : (updPg s k f).fwd = s.fwd := rfl
@[simp] theorem updPg_qos (s : State) (k : Nat) (f : PgSt → PgSt) : (updPg s k f).qos = s.qos := rfl
@[simp] theorem updPg_land (s : State) (k : Nat) (f : PgSt → PgSt) : (updPg s k f).land = s.land := rfl
@[simp] theorem updPg_rme (s : State) (k : Nat) (f : PgSt → PgSt) : (updPg s k f).rme = s.rme := rfl
@[simp] theorem updPg_hedge (s : State) (k : Nat) (f : PgSt → PgSt) : (updPg s k f).hedge = s.hedge := rfl
@[simp] theorem updPg_rootSt (s : State) (k : Nat) (f : PgSt → PgSt) : (updPg s k f).rootSt = s.rootSt := rfl
@[simp] theorem updPg_pfail (s : State) (k : Nat) (f : PgSt → PgSt) : (updPg s k f).pfail = s.pfail := rfl
@[simp] theorem updPg_brg (s : State) (k : Nat) (f : PgSt → PgSt) : (updPg s k f).brg = s.brg := rfl
@[simp] theorem updPg_scion (s : State) (k : Nat) (f : PgSt → PgSt) : (updPg s k f).scion = s.scion := rfl
@[simp] theorem updPg_pwr (s : State) (k : Nat) (f : PgSt → PgSt) : (updPg s k f).pwr = s.pwr := rfl

/-! ### updHv -/

@[simp] theorem updHv_hvst (s : State) (f : HvstSt → HvstSt) : (updHv s f).hvst = f s.hvst := rfl
@[simp] theorem updHv_regs (s : State) (f : HvstSt → HvstSt) : (updHv s f).regs = s.regs := rfl
@[simp] theorem updHv_pending (s : State) (f : HvstSt → HvstSt) : (updHv s f).pending = s.pending := rfl
@[simp] theorem updHv_out (s : State) (f : HvstSt → HvstSt) : (updHv s f).out = s.out := rfl
@[simp] theorem updHv_now (s : State) (f : HvstSt → HvstSt) : (updHv s f).now = s.now := rfl
@[simp] theorem updHv_t0 (s : State) (f : HvstSt → HvstSt) : (updHv s f).t0 = s.t0 := rfl
@[simp] theorem updHv_free (s : State) (f : HvstSt → HvstSt) : (updHv s f).free = s.free := rfl
@[simp] theorem updHv_access (s : State) (f : HvstSt → HvstSt) : (updHv s f).access = s.access := rfl
@[simp] theorem updHv_root (s : State) (f : HvstSt → HvstSt) : (updHv s f).root = s.root := rfl
@[simp] theorem updHv_ret (s : State) (f : HvstSt → HvstSt) : (updHv s f).ret = s.ret := rfl
@[simp] theorem updHv_start (s : State) (f : HvstSt → HvstSt) : (updHv s f).start = s.start := rfl
@[simp] theorem updHv_seed (s : State) (f : HvstSt → HvstSt) : (updHv s f).seed = s.seed := rfl
@[simp] theorem updHv_lane (s : State) (f : HvstSt → HvstSt) : (updHv s f).lane = s.lane := rfl
@[simp] theorem updHv_pg (s : State) (f : HvstSt → HvstSt) : (updHv s f).pg = s.pg := rfl
@[simp] theorem updHv_pair (s : State) (f : HvstSt → HvstSt) : (updHv s f).pair = s.pair := rfl
@[simp] theorem updHv_member (s : State) (f : HvstSt → HvstSt) : (updHv s f).member = s.member := rfl
@[simp] theorem updHv_pcie (s : State) (f : HvstSt → HvstSt) : (updHv s f).pcie = s.pcie := rfl
@[simp] theorem updHv_flt (s : State) (f : HvstSt → HvstSt) : (updHv s f).flt = s.flt := rfl
@[simp] theorem updHv_mgmt (s : State) (f : HvstSt → HvstSt) : (updHv s f).mgmt = s.mgmt := rfl
@[simp] theorem updHv_fwd (s : State) (f : HvstSt → HvstSt) : (updHv s f).fwd = s.fwd := rfl
@[simp] theorem updHv_qos (s : State) (f : HvstSt → HvstSt) : (updHv s f).qos = s.qos := rfl
@[simp] theorem updHv_land (s : State) (f : HvstSt → HvstSt) : (updHv s f).land = s.land := rfl
@[simp] theorem updHv_rme (s : State) (f : HvstSt → HvstSt) : (updHv s f).rme = s.rme := rfl
@[simp] theorem updHv_hedge (s : State) (f : HvstSt → HvstSt) : (updHv s f).hedge = s.hedge := rfl
@[simp] theorem updHv_rootSt (s : State) (f : HvstSt → HvstSt) : (updHv s f).rootSt = s.rootSt := rfl
@[simp] theorem updHv_pfail (s : State) (f : HvstSt → HvstSt) : (updHv s f).pfail = s.pfail := rfl
@[simp] theorem updHv_brg (s : State) (f : HvstSt → HvstSt) : (updHv s f).brg = s.brg := rfl
@[simp] theorem updHv_scion (s : State) (f : HvstSt → HvstSt) : (updHv s f).scion = s.scion := rfl
@[simp] theorem updHv_pwr (s : State) (f : HvstSt → HvstSt) : (updHv s f).pwr = s.pwr := rfl

end Sys2Proof.Machine
end

