-- ==== Sys2Proof/Tests/Slice0.lean ====
section
/-! SUPPORT. Tests of single steps, the smoke test of WellFormed, and for every statement states that meet its hypotheses. -/

set_option linter.unusedVariables false
set_option Elab.async false

namespace Sys2Proof.Tests

open Sys2Proof Sys2Proof.Machine

/-! ### States that the tests start from -/

/-- A policy with host 0 and host 1 on ports 0 and 1, a shareable device on port 2, a flush target on port 3 and Nozan ports 8 and 9. -/
def polT : Config.Policy :=
  { hosts := [(0, { present := true, upPort := 0, vdsps := [{ kind := 1, port := 4, slot := 5 }, { kind := 3 }], quota := 1, region := 1, kinds := 7, maxRegions := 4,
                    maxBytes := 2 ^ 30, maxAreas := 4, bridge := [(0, 4)], pwRanges := [(7, 0, 0xFFFF)] }),
              (1, { present := true, upPort := 1 })],
    leaders := [0], permitted := [0, 1, 2], pciePorts := [0, 1, 2, 3, 4], nzPorts := [8, 9], rights := [(0, 5, 2)], targets := 1,
    devs := [(0, { present := true, port := 2, scions := 16, db := 64, queues := 16, vec := 64, cells := 4096, rateMax := 1000,
                   hosts := [(0, { scions := 4, db := 16, vec := 16, queues := 8, rate := 500, cells := 1024 })] })],
    allowUpdate := true }
/-- In service, with that policy and the firmware running. -/
def svc : State :=
  wrB { State.reset with start := { State.reset.start with phase := .service }, seed := { State.reset.seed with policy := polT } } Reg.MGMT_STATUS 1 true
/-- Host 0's function answers: Memory Space Enable is set. -/
def ansT : State := cfgSet svc 0 .mef capHdr 4 2
/-- The register at an offset of host 0's BAR0. -/
def rowT (s : State) (off : Nat) : Nat × Bool × RegRow := (barRow s 0 off).getD (0, false, default)
/-- Requester 9 of host 0 holds a latch and a low half of the pair at 0x1400000. -/
def latT : State :=
  { ansT with access := { latch := Tab.empty.set (0 * 65536 + 9) (some (0x1400000, 5)), hold := Tab.empty.set (0 * 65536 + 9) (some (0x1400000, 5)) } }
/-- In a start's step n. -/
def atStep (warm : Bool) (n : Nat) : State :=
  wrF { State.reset with start := { State.reset.start with phase := .steps, warm := warm } } Reg.GLB_START_STATUS 3 0 n
/-- A brace in progress. -/
def bracedT : State := wrF svc Reg.PFAIL_STATUS 2 0 1
/-- Host 0, the manager of the policy; host 1; the board management controller. -/
def host0 : ReqSrc := { host := 0, slot := 0 }
def host1 : ReqSrc := { host := 1, slot := 3 }
def ctl : ReqSrc := { host := 32, slot := 0 }
/-- The retention window of a cause. -/
def retainT : State := { svc with start := { svc.start with phase := .retain, retCause := some 3 } }
/-- Without the rootstock supply. -/
def offT : State := { svc with start := { svc.start with phase := .off } }
/-- Quiescing since t0. -/
def quietT (h : Option Nat) : State := { svc with start := { svc.start with quiesce := some 0 }, land := { svc.land with highest := h } }
/-- A warm start in its third step. -/
def lateT : State := atStep true 3
/-- One flush target holds an unconsumed record of class n; it is ready if b says so. -/
def recT (n : Nat) (b : Bool) : State := wrF (wrB (wrF svc Reg.PFAIL_TARGETS 11 8 1) Reg.PFAIL_TARGETS 0 b) (Reg.PFAIL_REC_STATE 0) 3 0 n
/-- Nozan port 8 active on lane 16. -/
def nzT : State := wrF (wrF (wrF svc (Reg.LANE_CFG 16) 1 0 2) (Reg.LANE_CFG 16) 8 2 8) (Reg.NZL_STATUS 8) 2 0 3
/-- Lane 3 with a shot at time 0 and an injection rate r. -/
def shotT (n r : Nat) : State :=
  wrF (wrB { svc with now := n, lane := Tab.empty.upd 3 fun x => { x with lastShot := some 0 } } (Reg.LANE_INJ_CTRL 3) 1 true) (Reg.LANE_INJ_CTRL 3) 13 8 r
/-- The harvest runs, in flow state n. -/
def hvT (n : Nat) : State := wrF (wrF { svc with hvst := { svc.hvst with running := true } } Reg.HVST_STATUS 1 0 n) Reg.HVST_CFG 31 16 1
/-- Mailbox slot 3 of host 31 holds a request. -/
def ringT : State := wrB (cfgSet svc 31 .mef capHdr 4 2) (Reg.MB_STATUS 31 3) 0 true
/-- Every counter slot of host 0 in use for group 5. -/
def fullT : State := { svc with mgmt := { svc.mgmt with slots := (List.range 48).foldl (fun t i => t.set i 6) Tab.empty } }
/-- A switch whose fuses are written, with n leaves used. -/
def provT (n : Nat) : State := { svc with root := { svc.root with provisioned := true, attLeaf := n } }
/-- The seed step failed. -/
def failT : State := { svc with start := { svc.start with phase := .seedStopped } }
/-- An update in state n that a request waits for. -/
def updT (n : Nat) : State := wrF { svc with seed := { svc.seed with updPending := some host0 } } Reg.SEED_UPDATE_STATUS 1 0 n
/-- A page being programmed, with i pages of the head to come. -/
def pageT (h : Option Nat) : State := { updT 2 with seed := { (updT 2).seed with programming := some (0x2000, [1, 2]), headOp := h } }
/-- The core runs from its boot ROM. -/
def romT : State := wrB svc Reg.MGMT_STATUS 1 false
/-- A request for P2 in phase n, asked for 100 ms ago. -/
def p2T (n : Nat) : State := updPwr { nzT with now := 160000000 } fun x => { x with req := 2, phase := n }
/-- Asleep in state n. -/
def sleepT (n : Nat) : State := updPwr svc fun x => { x with asleep := n }
/-- Rail 1 told to reach 750 mV. -/
def railT (again : Bool) : State := updRails (atStep false 2) fun x => { x with busy := some (1, 750), again := again }
/-- THERM_N asserted. -/
def warmT : State := updTherm svc fun x => { x with asserted := true, hot := [(3, 0)] }
/-- Host 0's MEF with Bus Master Enable, an unmasked pending vector 63 and PME enabled. -/
def mefT : State := wrB (updMef svc 0 fun m => { m with msixPend := 2 ^ 63, unmask := 2 ^ 63, wakeOn := true }) (Reg.PCIE_MEF_STATE 0) 2 true
/-- Tag 7 of host 0 reads under generation g. -/
def readT (g : Nat) : State := updMef mefT 0 fun m => { m with reads := [{ tag := 7, gen := g, own := .image, at_ := 0 }] }
/-- Port 4, which is unassigned. -/
def p4T : State := wrF (wrF svc (Reg.PCIE_CFG 4) 2 0 4) (Reg.PCIE_CFG 4) 12 10 5
/-- Port 8 in link state n. -/
def nzS (n : Nat) : State := wrF nzT (Reg.NZL_STATUS 8) 2 0 n
/-- A frame of a header alone, its checks right. -/
def hdrT (w1 : Word) (w0 : Word) : List Word :=
  let h := [w0, w1, 0, 0, 0, 0, 0]
  h ++ [w32 (hcrcOf (h ++ [0]) * 2 ^ 16)]
def wireT (h : List Word) : WireFrame := { (default : WireFrame) with hdr := h, payload := [], crc := w32 (crc32 (h.flatMap wordBytes)), endOk := true, eos := false, marker := false, innerK := false }
/-- The second member of a pair is down. -/
def partT : State :=
  { wrF (wrB (wrF (wrB (wrF (nzS 2) (Reg.NZL_CFG 8) 10 4 9) (Reg.NZL_CFG 8) 3 true) (Reg.NZL_CFG 9) 10 4 8) (Reg.NZL_CFG 9) 3 true) (Reg.NZL_STATUS 9) 2 0 5 with
    now := 16000000 }
/-- Port 8 up, with credits for VC0 and a frame to send. -/
def sendT : State :=
  { wrF (nzS 2) (Reg.NZL_LIMIT_VC 8 0) 23 0 100 with
    pair := Tab.empty.upd 8 fun x => { x with vcKnown := 15 }, fwd := { (nzS 2).fwd with tx := Tab.empty.set 8 [{ f := {} }] } }
/-- Port 8 in step n of a training. -/
def trT (n : Nat) : State := wrF (nzS 1) (Reg.NZL_STATUS 8) 13 10 n
/-- PCI Express port p in role r. -/
def roleT (p r : Nat) : State := wrF svc (Reg.PCIE_CFG p) 2 0 r
/-- A request counted on that port. -/
def countT (p r : Nat) : State := countBy (count (count (roleT p r) p 0) p 4) p 1 (32 + 4 * 0)
/-- A frame waits on port 4, which is up. -/
def egT : State :=
  { wrB (wrF (roleT 4 4) (Reg.PCIE_STATUS 4) 3 0 3) (Reg.PCIE_STATUS 4) 10 true with fwd := { svc.fwd with queue := Tab.empty.set (8 * 4 + 0) [{ f := {} }] } }
def egU : State := shaperPay (popQueue egT 4 0 { f := {} }) 4 0 (frameB {})
/-- A frame that passes cut through from port 3 to port 4. -/
def cutT : State := { svc with fwd := { svc.fwd with staged := Tab.empty.set 3 (some { f := {} }), cutTo := Tab.empty.set 3 (some 4),
                                                     passed := Tab.empty.set 3 [{ f := {} }] } }
/-- A request of type 1 waits on port 4 and one tag is mapped. -/
def mapT : State := { svc with fwd := { svc.fwd with tx := Tab.empty.set 4 [{ f := { typ := 1 } }],
                                                     cmap := Tab.empty.set 4 [{ tag := 0, srcSw := 1, srcPort := 2, reqId := 3, origTag := 4 }] } }
/-- Discovery since the first adjacency. -/
def discT : State := { svc with fwd := { svc.fwd with firstAdj := some 0, adjDown := [(8, 0)] } }
/-- Bounds for the shaper of port 79, class 7. -/
def shT : State := { svc with seed := { svc.seed with policy := { polT with shBounds := [(8 * 79 + 7, 1, 65)] } } }
/-- Region 31 in use, its size 2 pages. -/
def regT : State := wrB (wrF svc (Reg.LAND_REGION_CFG 31) 19 0 2) (Reg.LAND_REGION_CFG 31) 31 true
/-- An entry that closes a slot, and the same slot twice. -/
def entT : HedgeEntry := { slot := 113, base := 0, limit := 0, perm := 0 }
/-- Unit 0 holds for a rule since t0, in attempt n. -/
def holdT (n : Nat) : State :=
  wrF (wrB { svc with hedge := { svc.hedge with reqs := Tab.empty.set 0 [{ q := some host0, es := [entT] }], holdAt := Tab.empty.set 0 (some 0) } }
    (Reg.HEDGE_U_STATUS 0) 0 true) (Reg.HEDGE_U_STATUS 0) 10 8 n
/-- The leader of a cluster of member 0, in which epoch 1 is closed here and one of its writes has not landed. -/
def ledT : State :=
  updLand (wrB (wrB (wr64 { svc with seed := { svc.seed with policy := { polT with members := 1 } } } Reg.LAND_SET_LO 1) Reg.LAND_LEADER 28 true) Reg.LAND_STATUS 1 true)
    fun l => { l with sumHigh := [(1, 0)], sealedL := [1], sent := Tab.empty.set 1 1, term := 7 }
/-- Host 0 with submission queue 0, completion queue 1023, an area at position 0 and a region. -/
def rmeT : State :=
  updRme (wrB svc (Reg.PCIE_MEF_STATE 0) 2 true) fun r => { r with
    sq := Tab.empty.set 0 { st := 1, base := 0, log2 := 6, cq := 1023, order := [5], fetching := 1 }, cq := Tab.empty.set 1023 { valid := true, log2 := 6 }
    msgs := [{ id := 5, done := true, status := some 0, w := { flags := 4 } }]
    areas := Tab.empty.set 0 (some { base := 0, log2 := 16 })
    regions := Tab.empty.set 3 { st := 1, owner := 0, len := 4096 } }
/-- Connection 32 of host 0 is in state n, with a packet in flight. -/
def conT (n : Nat) : State :=
  updRme { rmeT with now := 1600 * 16 } fun r => { r with
    ctx := Tab.empty.set 32 { st := n, cached := true, txNext := 1, flight := [{ psn := 0, item := {}, at_ := 0 }], accepted := 1, rxMap := 2 } }
/-- A packet to connection 32 from its peer. -/
def pktT (p : Nat) : RmePkt := { dstConn := 32, psn := BitVec.ofNat 24 p }
def cntT : State := engCount (conT 2) 1 (Reg.RME_E_RX_PKTS 1) 1 1
/-- A connectionless message with two packets. -/
def msgT : RMsg := { id := 6, conn := noConn, clId := 8, dst := 1, npk := 2, clFirst := some 0, w := { op := 1 } }
def clT (n : Nat) : State := updRme { svc with now := n } fun r => { r with
  msgs := [msgT], cl := [{ eng := 0, srcSw := 1, start := 0, msgId := 3, created := 0, unacked := true }] }
/-- A dip since t0. -/
def dipT : State := updPf svc fun x => { x with dipAt := some 0 }
/-- A brace since t0, of BRACE_ID 1, the input good since t0. -/
def brT (n : Nat) : State := updPf (wrB (wrF { ledT with now := n } Reg.PFAIL_STATUS 2 0 1) Reg.PFAIL_STATUS 3 true) fun x => { x with
  braceAt := some 0, id := some 1, riseAt := some 0 }
/-- The same in a switch that does not lead. -/
def folT (n : Nat) : State := wrB (brT n) Reg.LAND_LEADER 28 false
/-- A flush with one command of kind k outstanding at target 0. -/
def flT (k : Nat) (again : Bool) : State := updPf svc fun x => { x with
  movers := Tab.empty.set 0 { step := 2, out := [{ kind := k, lba := 0, again := again }] }, commit := some { at_ := 0, flushId := 1, cut := 0, seFinal := 0 },
  goodAt := some 0 }
/-- The bank at 6.00 V, discharging, VMIN of v times 10 mV. -/
def vminT (v : Nat) : State := wrF (wrB (wrF svc Reg.ROOT_BANK_V 15 0 6000) Reg.ROOT_BANK_STATUS 2 true) Reg.ROOT_BANK_CFG0 28 17 v
/-- Channel 15 is used, in state n. -/
def chT (n : Nat) : State := wrB (wrF svc (Reg.ROOT_CH_STATUS 15) 3 0 n) (Reg.ROOT_CH_CFG 15) 0 true
/-- The same channel as one of a pair whose other half has not qualified. -/
def pairT : State := wrF (wrB (wrB (chT 5) (Reg.ROOT_CH_CFG 15) 11 true) (Reg.ROOT_CH_CFG 14) 11 true) (Reg.ROOT_CH_STATUS 14) 3 0 5
/-- In limit. -/
def limT : State := wrB (chT 6) (Reg.ROOT_CH_STATUS 15) 6 true
/-- Off, of class S, absent and drained since t0. -/
def goneT : State := updChan { chT 2 with now := 0 } 15 fun x => { x with absentAt := some 0, offAt := some 0 }
/-- Three cells. -/
def bankT : State := wrF svc Reg.ROOT_BANK_CFG0 4 0 3
/-- Both holds since t0. -/
def clearT (n : Nat) : State := updBank { svc with now := n } fun b => { b with tapHold := true, ntcHold := true, rise := true }
/-- A configuration read of host 0 to port 4 of this switch. -/
def cfgT : BrgReq := { op := .cfgRd, host := 0, farSw := 0, farPort := 4, btag := 5 }
/-- The bridge table grants host 0 of switch 0 everything on port 4, which is up and unassigned; the lock engine is in state n. -/
def brgT (n : Nat) : State :=
  wrF (wrF (wrN (wrB (wrF (wrF (wrB (roleT 4 4) (Reg.PCIE_STATUS 4) 10 true) (Reg.BRG_T_SRC 0) 23 17 4) (Reg.BRG_T_PERM 0) 3 0 15) (Reg.BRG_T_SRC 0) 31 true)
    Reg.BRG_LEGACY (2 ^ 31 + 4 * 2 ^ 17)) Reg.BRG_STATUS 12 11 n) Reg.BRG_LOCK 18 12 4
/-- A request received there. -/
def brgR (n : Nat) : State := count (bump (brgT n) Reg.BRG_REQ_RX) 123 1
/-- An open transaction of that request, which may have drawn BUSY. -/
def txnT (again : Bool) (op : BrgOp) (n : Nat) : State :=
  updBrg { brgT 0 with now := n } fun b =>
    { b with txns := [{ req := { cfgT with op := op }, again := again }], held := [{ resp := { btag := 5 }, req := cfgT }] }
/-- Device 0 taken over, its pool of 16 instances and 64 doorbell pages. -/
def devT : State := { wrB svc (Reg.SCION_D_STATE 0) 0 true with scion := { svc.scion with devs := Tab.empty.set 0 { inst := 16 } } }
/-- Scion 0 of host 0 in state n: one doorbell page, vectors 0 to 3, 16 cells; reset since t0 if r says so. -/
def scT (n : Nat) (r : Option Nat) : State :=
  wrN (wrN (wrN (wrF { devT with scion := { devT.scion with recs := Tab.empty.set 0 { live := true, mse := true, resetAt := r } } } (Reg.SCION_S_STATUS 0) 2 0 n)
    (Reg.SCION_S_DB 0) (2 ^ 16)) (Reg.SCION_S_VEC 0) (4 * 2 ^ 11)) (Reg.SCION_S_QUOTA 0) 16
/-- Port 2 carries the shareable device. -/
def shpT : State := wrN (wrF (wrF (wrF (scT 1 none) (Reg.PCIE_CFG 2) 2 0 2) (Reg.SCION_S_QUOTA 0) 25 13 16) (Reg.SCION_S_STATUS 0) 13 13 1) (Reg.SCION_S_PASID 0) (2 ^ 19)
/-- A request of instance 0 behind it. -/
def devReqT : Tlp := { kind := .write, addr := 0, len := 4, pasid := some 0x80000 }
/-- Lane 9 of port 4, a PCI Express port whose link is up at 16.0 GT/s. -/
def pcieLaneT : State :=
  wrB (wrF (wrF (wrF svc (Reg.LANE_CFG 9) 1 0 1) (Reg.LANE_CFG 9) 8 2 4) (Reg.LANE_RATE 9) 2 0 3) (Reg.PCIE_STATUS 4) 10 true
/-- The groups of one ordered set at negative disparity. -/
def setT (k d1 d2 d3 : Nat) : List Group :=
  (sendStream false [.k (BitVec.ofNat 8 k), .data (BitVec.ofNat 8 d1), .data (BitVec.ofNat 8 d2), .data (BitVec.ofNat 8 d3)]).1
/-- Registers that are plain. -/
theorem plain_hedge : PlainReg 0x1400000 ∧ PlainReg 0x1400004 := ⟨⟨by decide, fun _ => rfl, fun _ => rfl⟩, ⟨by decide, fun _ => rfl, fun _ => rfl⟩⟩
theorem plain_lane : PlainReg 0x200014 ∧ PlainReg 0x200018 := ⟨⟨by decide, fun _ => rfl, fun _ => rfl⟩, ⟨by decide, fun _ => rfl, fun _ => rfl⟩⟩
/-- The copy of the seed is loaded. -/
def loadT : State := { svc with seed := { svc.seed with loaded := true } }
/-- The lanes of port 8 carry a frame. -/
def frameG (w : WireFrame) : LaneGroups := [(sendStream false (kSOF :: (wireBytes w).map Sym.data ++ [kEOF])).1]
/-- Two like ordered sets in a row on one lane. -/
def setsT (k d1 d2 d3 : Nat) : LaneGroups :=
  let l := [Sym.k (BitVec.ofNat 8 k), .data (BitVec.ofNat 8 d1), .data (BitVec.ofNat 8 d2), .data (BitVec.ofNat 8 d3)]
  [(sendStream false (l ++ l)).1]
/-- Port 8 up with an unacknowledged frame, waiting to be resent if b says so. -/
def replT (b : Bool) : State := { nzS 2 with pair := Tab.empty.upd 8 fun x => { x with replay := [{ f := {}, member := 8, resend := b }] } }
/-- Port 8 has learned its partner. -/
def peersT : State := updMember (trT 5) 8 fun m => { m with peerSw := some 1, peerPort := some (2, 3), peerSess := some 4 }
/-- The other end offers four lanes. -/
def offerT : State := updMember (trT 4) 8 fun m => { m with offered := 4 }
/-- vDSP 0 of host 0 decodes the megabyte from 0x100000. -/
def winT : State := cfgSet (cfgSet svc 0 (.vdsp 0) capHdr 4 2) 0 (.vdsp 0) capHdr 0x20 0x00100010
/-- A read behind it. -/
def winReqT : Tlp := { kind := .read, addr := 0x100000, len := 4 }
/-- A frame waits on port 4 that its hedge unit no longer allows. -/
def tagE : QEntry := { f := {}, tag := some (0, 7, 1) }
def tagT : State := { egT with fwd := { egT.fwd with queue := Tab.empty.set (8 * 4 + 0) [tagE] } }
/-- A configuration request waits at port 4. -/
def npE : NpReq := { up := 0, reqId := 3, tag := 4, kind := .io {} }
def npT : State := { svc with pcie := { svc.pcie with npWait := Tab.empty.set 4 [npE] } }
/-- A mapped request of a scion whose generation has moved on. -/
def oldMapT : CmapEntry := { tag := 0, srcSw := 1, srcPort := 2, reqId := 3, origTag := 4, scion := some (0, 5) }
/-- A write that the landing controller is handed. -/
def landE : QEntry := { f := {}, inPort := 8 }
def landInT : State := { svc with fwd := { svc.fwd with toLand := [landE] } }
/-- The only area of host 0 is its last. -/
def areaT : State := updRme svc fun r => { r with areas := Tab.empty.set (16 * 0 + 15) (some { base := 0, log2 := 12 }) }
/-- The home of host 0 is another switch. -/
def farHomeT : State := { svc with seed := { svc.seed with policy := { polT with hosts := polT.hosts.map fun x => (x.1, { x.2 with homeSw := 5 }) } } }
/-- A key of a region that is being revoked at its home. -/
def keyX : LandKey := { key := 9, host := 0, home := 1, len := 4096, draining := true }
def keyT : State := updRme svc fun r => { r with landKeys := [keyX] }
/-- Scion 0 logs its writes. -/
def dirtyL : DirtySt := { base := 0, log2 := 21, bufA := 0, bufB := 0, want := [(7, 1)] }
def dirtyT : State := updSc (scT 1 none) 0 fun r => { r with dirty := some dirtyL }
/-- The widest width that four lanes allow is the narrowest. -/
theorem offer_width : ∀ v, (v = 0 ∨ 0 < v) → ((v = (offerT.member.get 8).target.1 ∨ v = 1 ∨ v = 0) ∧ v ≤ (offerT.member.get 8).target.1 ∧
    4 * 2 ^ v ≤ (offerT.member.get 8).offered ∧ (∀ i, i < 4 * 2 ^ v → i ∈ [0, 1, 2, 3]) ↔ v = 0) := by
  have ht : (offerT.member.get 8).target.1 = 0 := by decide +kernel
  have ho : (offerT.member.get 8).offered = 4 := by decide +kernel
  rw [ht, ho]
  intro v _
  constructor
  · rintro ⟨-, h, -⟩
    omega
  · rintro rfl
    exact ⟨.inl rfl, le_rfl, by decide, by decide⟩
theorem pair_eq {α β : Type} (x : α × β) (a : α) (h : x.1 = a) : x = (a, x.2) := by rw [← h]

/-! ### For every statement with hypotheses: states and operands that meet them -/

/-- States and operands that meet the hypotheses of StepRunsFrontCommand, clause by clause. -/
theorem meets_StepRunsFrontCommand :
    (∃ (c : Instr) (rest : List Instr) (s : State), s.pending = c :: rest) :=
  ⟨.errNClear, [], { State.reset with pending := [.errNClear] }, rfl⟩
/-- States and operands that meet the hypotheses of IdleStepIsOneCoreCycle, clause by clause. -/
theorem meets_IdleStepIsOneCoreCycle :
    (∃ (s : State), s.pending = []) :=
  ⟨State.reset, by decide +kernel⟩
/-- States and operands that meet the hypotheses of QueueIsFirstInFirstOut, clause by clause. -/
theorem meets_QueueIsFirstInFirstOut :
    (∃ (s t : State), step s = .next t) ∧
    (∃ (s t : State), step s = .next t ∧ s.pending = []) :=
  ⟨⟨State.reset, tick State.reset, rfl⟩,
   ⟨State.reset, tick State.reset, rfl, rfl⟩⟩
/-- States and operands that meet the hypotheses of OnlyProvisionWritesFuses, clause by clause. -/
theorem meets_OnlyProvisionWritesFuses :
    (∃ (s t : State), step s = .next t) :=
  ⟨State.reset, tick State.reset, rfl⟩
/-- States and operands that meet the hypotheses of ProvisionedFusesNeverChange, clause by clause. -/
theorem meets_ProvisionedFusesNeverChange :
    (∃ (n : Nat) (s t : State), s.root.provisioned = true ∧ Host.Core.run core n s = .next t) :=
  ⟨1, { State.reset with root := { State.reset.root with provisioned := true } }, _, rfl, rfl⟩
/-- States and operands that meet the hypotheses of BlankFusesInvariant, clause by clause. -/
theorem meets_BlankFusesInvariant :
    (∃ (s t : State), FusesBlank s ∧ step s = .next t) :=
  ⟨State.reset, tick State.reset, fun _ => by decide, rfl⟩
/-- States and operands that meet the hypotheses of UnmappedAccessHasNoEffect, clause by clause. -/
theorem meets_UnmappedAccessHasNoEffect :
    (∃ (s : State) (host off : Nat), mefAnswers s host = true ∧ barRow s host off = none) ∧
    (∃ (s : State) (host off : Nat), mefAnswers s host = true ∧ barRow s host off = none ∧ barRow s host (off + 4) = none) :=
  ⟨⟨ansT, 0, 0xFFC, by decide +kernel⟩,
   ⟨ansT, 0, 0xFF8, by decide +kernel⟩⟩
/-- States and operands that meet the hypotheses of MalformedAccessIsAborted, clause by clause. -/
theorem meets_MalformedAccessIsAborted :
    (∃ (s : State) (host off len : Nat), mefAnswers s host = true ∧ (off % 4 ≠ 0 ∨ (len ≠ 4 ∧ len ≠ 8))) ∧
    (∃ (s : State) (host off len : Nat), mefAnswers s host = false ∧ (off % 4 ≠ 0 ∨ (len ≠ 4 ∧ len ≠ 8))) :=
  ⟨⟨ansT, 0, 4, 16, by decide +kernel⟩,
   ⟨svc, 0, 6, 4, by decide +kernel⟩⟩
/-- States and operands that meet the hypotheses of PairReadsLatchTheHighHalf, clause by clause. -/
theorem meets_PairReadsLatchTheHighHalf :
    (∃ (s : State) (host off a : Nat) (w : Bool) (r : RegRow), mefAnswers s host = true ∧ barRow s host off = some (a, w, r) ∧ isFence a = false) ∧
    (∃ (s : State) (host off a : Nat) (w : Bool) (r : RegRow), mefAnswers s host = true ∧ barRow s host off = some (a, w, r) ∧ isFence a = false ∧
      PlainReg a ∧ PlainReg (a + 4) ∧ r.rc = 0 ∧ r.pair = 1) ∧
    (∃ (s : State) (host off a : Nat) (w : Bool) (r : RegRow), mefAnswers s host = true ∧ barRow s host off = some (a, w, r) ∧ isFence a = true) ∧
    (∃ (s : State) (host req off a : Nat) (w : Bool) (r : RegRow) (v : Word), mefAnswers s host = true ∧ barRow s host off = some (a + 4, w, r) ∧
      r.pair = 2 ∧ s.access.latch.get (host * 65536 + req) = some (a, v)) ∧
    (∃ (s : State) (host req off a : Nat) (w : Bool) (r : RegRow), mefAnswers s host = true ∧ barRow s host off = some (a, w, r) ∧
      (r.pair ≠ 2 ∨ ∀ b v, s.access.latch.get (host * 65536 + req) = some (b, v) → b + 4 ≠ a)) ∧
    (∃ (s : State) (host : Nat), mefAnswers s host = false) :=
  ⟨⟨ansT, 0, 0x1400000, 0x1400000, true, (rowT ansT 0x1400000).2.2, by decide +kernel⟩,
   ⟨ansT, 0, 0x1400000, 0x1400000, true, (rowT ansT 0x1400000).2.2, by decide +kernel, by decide +kernel, by decide +kernel, plain_hedge.1, plain_hedge.2, by decide +kernel, by decide +kernel⟩,
   ⟨ansT, 0, Reg.LAND_FENCE_LO 0, Reg.LAND_FENCE_LO 0, (rowT ansT (Reg.LAND_FENCE_LO 0)).2.1, (rowT ansT (Reg.LAND_FENCE_LO 0)).2.2, by decide +kernel⟩,
   ⟨latT, 0, 9, 0x1400004, 0x1400000, true, (rowT ansT 0x1400004).2.2, 5, by decide +kernel⟩,
   ⟨ansT, 0, 9, 0x200014, 0x200014, (rowT ansT 0x200014).2.1, (rowT ansT 0x200014).2.2, by decide +kernel, by decide +kernel, .inl (by decide +kernel)⟩,
   ⟨svc, 0, by decide +kernel⟩⟩
/-- States and operands that meet the hypotheses of PairWritesApplyAsAWhole, clause by clause. -/
theorem meets_PairWritesApplyAsAWhole :
    (∃ (s : State) (host off a : Nat) (r : RegRow), mefAnswers s host = true ∧ barRow s host off = some (a, true, r) ∧ r.pair = 1) ∧
    (∃ (s : State) (host req off a : Nat) (r : RegRow) (lo : _), mefAnswers s host = true ∧ barRow s host off = some (a + 4, true, r) ∧ r.pair = 2 ∧
      s.access.hold.get (host * 65536 + req) = some (a, lo)) ∧
    (∃ (s : State) (host req off a : Nat) (r : RegRow), mefAnswers s host = true ∧ barRow s host off = some (a + 4, true, r) ∧ r.pair = 2 ∧
      s.access.hold.get (host * 65536 + req) = none) ∧
    (∃ (s : State) (host off a : Nat) (w : Bool) (r : RegRow), mefAnswers s host = true ∧ barRow s host off = some (a, w, r) ∧
      (w = false ∨ r.pair ≠ 1)) ∧
    (∃ (s : State) (host off a : Nat) (r : RegRow), mefAnswers s host = true ∧ barRow s host off = some (a, true, r) ∧ r.pair = 1 ∧ off % 8 = 0) ∧
    (∃ (s : State) (host off a : Nat) (w : Bool) (r : RegRow), mefAnswers s host = true ∧ barRow s host off = some (a, w, r) ∧ r.pair = 1 ∧
      off % 8 = 0) ∧
    (∃ (s : State) (host off a : Nat) (w : Bool) (r : RegRow), mefAnswers s host = true ∧ barRow s host off = some (a, w, r) ∧
      (r.pair ≠ 1 ∨ off % 8 ≠ 0)) ∧
    (∃ (s : State) (host : Nat), mefAnswers s host = false) :=
  ⟨⟨ansT, 0, 0x1400000, 0x1400000, (rowT ansT 0x1400000).2.2, by decide +kernel⟩,
   ⟨latT, 0, 9, 0x1400004, 0x1400000, (rowT ansT 0x1400004).2.2, 5, by decide +kernel⟩,
   ⟨ansT, 0, 9, 0x1400004, 0x1400000, (rowT ansT 0x1400004).2.2, by decide +kernel⟩,
   ⟨ansT, 0, 0x1400004, 0x1400004, true, (rowT ansT 0x1400004).2.2, by decide +kernel⟩,
   ⟨ansT, 0, 0x1400000, 0x1400000, (rowT ansT 0x1400000).2.2, by decide +kernel⟩,
   ⟨ansT, 0, 0x1400000, 0x1400000, true, (rowT ansT 0x1400000).2.2, by decide +kernel⟩,
   ⟨ansT, 0, 0x1400004, 0x1400004, true, (rowT ansT 0x1400004).2.2, by decide +kernel⟩,
   ⟨svc, 0, by decide +kernel⟩⟩
/-- States and operands that meet the hypotheses of SetBeatsClearInOneCycle, clause by clause. -/
theorem meets_SetBeatsClearInOneCycle :
    (∃ (s : State) (host off a : Nat) (r : RegRow) (collide : Word) (i : Nat), mefAnswers s host = true ∧ barRow s host off = some (a, true, r) ∧
      r.pair = 0 ∧ i < 32 ∧ getB (w32 r.w1c) i = true ∧ getB (w32 r.rw) i = false ∧ getB collide i = true ∧ rdB s a i = true) ∧
    (∃ (s : State) (host off a : Nat) (r : RegRow) (collide : Word) (i : Nat), mefAnswers s host = true ∧ barRow s host off = some (a, true, r) ∧
      r.pair = 0 ∧ i < 32 ∧ getB (w32 r.w1c) i = true ∧ getB (w32 r.rw) i = false ∧ getB collide i = false ∧ ownRow a = false) :=
  ⟨⟨wrB ansT 0x200000 5 true, 0, 0x200000, 0x200000, (rowT ansT 0x200000).2.2, 0x20, 5, by decide +kernel⟩,
   ⟨ansT, 0, 0x200000, 0x200000, (rowT ansT 0x200000).2.2, 0, 5, by decide +kernel⟩⟩
/-- States and operands that meet the hypotheses of ReadClearsOnlyAfterReturn, clause by clause. -/
theorem meets_ReadClearsOnlyAfterReturn :
    (∃ (s : State) (host off a : Nat) (w : Bool) (r : RegRow), mefAnswers s host = true ∧ barRow s host off = some (a, w, r)) ∧
    (∃ (s : State) (host off a : Nat) (w : Bool) (r : RegRow), mefAnswers s host = true ∧ barRow s host off = some (a, w, r) ∧ PlainReg a) ∧
    (∃ (s : State) (host req off a b : Nat) (w x : Bool) (r q : RegRow) (c : Instr), mefAnswers s host = true ∧ barRow s host off = some (a, w, r) ∧
      barRow s host (off + 4) = some (b, x, q) ∧ a ≠ b ∧ PlainReg a ∧ PlainReg b ∧
      (c = .rcFieldRead host req off true ∨ c = .pairWideAccess host req off none ∧ r.pair = 1 ∧ off % 8 = 0 ∧ isFence a = false)) :=
  ⟨⟨ansT, 0, 0x200014, 0x200014, (rowT ansT 0x200014).2.1, (rowT ansT 0x200014).2.2, by decide +kernel⟩,
   ⟨ansT, 0, 0x200014, 0x200014, (rowT ansT 0x200014).2.1, (rowT ansT 0x200014).2.2, by decide +kernel, by decide +kernel, plain_lane.1⟩,
   ⟨ansT, 0, 9, 0x200014, 0x200014, 0x200018, (rowT ansT 0x200014).2.1, (rowT ansT 0x200018).2.1, (rowT ansT 0x200014).2.2, (rowT ansT 0x200018).2.2, .rcFieldRead 0 9 0x200014 true, by decide +kernel, by decide +kernel, by decide +kernel, by decide +kernel, plain_lane.1, plain_lane.2, .inl rfl⟩⟩
/-- States and operands that meet the hypotheses of ResetCausesBeginTheirStart, clause by clause. -/
theorem meets_ResetCausesBeginTheirStart :
    (∃ (ns : Nat), ns < 1000) ∧
    (∃ (ns : Nat), 1000 ≤ ns) ∧
    (∃ (s t : State), t = stopTests s ∧ s.start.phase ≠ .off ∧ s.pwr.asleep = 0 ∧ braceHolds s = false ∧ inCloche s = false ∧ t.start.phase ≠ .retain) ∧
    (∃ (s t : State) (r : Nat), t = stopTests s ∧ s.start.phase ≠ .off ∧ s.pwr.asleep = 0 ∧ braceHolds s = false ∧ inCloche s = false ∧
      t.start.phase ≠ .retain ∧ r ≠ 15) ∧
    (∃ (s t : State), t = stopTests s ∧ s.start.phase ≠ .off ∧ s.pwr.asleep = 0 ∧ braceHolds s = false ∧ inCloche s = false ∧ t.start.phase = .retain) ∧
    (∃ (s : State), s.start.phase ≠ .off ∧ s.pwr.asleep = 0 ∧ (braceHolds s = true ∨ inCloche s = true)) ∧
    (∃ (s : State) (c : _), s.start.retCause = some c ∧ s.start.phase = .retain) ∧
    (∃ (s : State), (s.start.retCause = none ∨ s.start.phase ≠ .retain)) ∧
    (∃ (s : State), rdB s Reg.MGMT_STATUS 1 = true) ∧
    (∃ (s : State), rdB s Reg.MGMT_STATUS 1 = false) ∧
    (∃ (s : State), s.start.phase = .off) ∧
    (∃ (s : State), s.start.phase ≠ .off) :=
  ⟨⟨999, by decide +kernel⟩,
   ⟨1000, by decide +kernel⟩,
   ⟨State.reset, _, rfl, by decide +kernel⟩,
   ⟨State.reset, _, 7, rfl, by decide +kernel⟩,
   ⟨retainT, _, rfl, by decide +kernel⟩,
   ⟨bracedT, by decide +kernel⟩,
   ⟨retainT, 3, by decide +kernel⟩,
   ⟨svc, by decide +kernel⟩,
   ⟨svc, by decide +kernel⟩,
   ⟨State.reset, by decide +kernel⟩,
   ⟨offT, by decide +kernel⟩,
   ⟨svc, by decide +kernel⟩⟩
/-- States and operands that meet the hypotheses of VauxLossKeepsOnlyFusesCountersAndFlash, clause by clause. -/
theorem meets_VauxLossKeepsOnlyFusesCountersAndFlash :
    (∃ (s : State), s.start.phase = .off) ∧
    (∃ (s : State), s.start.phase ≠ .off ∧ s.mgmt.attWait = none ∧ rdF s Reg.SEED_UPDATE_STATUS 1 0 = 0) :=
  ⟨⟨offT, by decide +kernel⟩,
   ⟨svc, by decide +kernel⟩⟩
/-- States and operands that meet the hypotheses of WarmResetRequestAndDeadline, clause by clause. -/
theorem meets_WarmResetRequestAndDeadline :
    (∃ (s : State) (q : ReqSrc), Served s q 0x0201 { m := true, b := true } ∧ braceHolds s = false) ∧
    (∃ (s : State), braceHolds s = true) ∧
    (∃ (s : State) (b : Nat), s.start.quiesce = some b) ∧
    (∃ (s : State), s.start.quiesce = none) ∧
    (∃ (s : State), inWarmStart s = true ∧ s.start.failed = false) ∧
    (∃ (s : State), (inWarmStart s = false ∨ s.start.failed = true)) ∧
    (∃ (s : State), s.start.phase = .railWait) ∧
    (∃ (s : State), s.start.phase ≠ .railWait) :=
  ⟨⟨svc, host0, by unfold Served; decide +kernel, by decide +kernel⟩,
   ⟨bracedT, by decide +kernel⟩,
   ⟨quietT none, 0, by decide +kernel⟩,
   ⟨svc, by decide +kernel⟩,
   ⟨lateT, by decide +kernel⟩,
   ⟨svc, by decide +kernel⟩,
   ⟨{ lateT with start := { lateT.start with phase := .railWait } }, by decide +kernel⟩,
   ⟨svc, by decide +kernel⟩⟩
/-- States and operands that meet the hypotheses of StartStepsSeedReadsAndRootstock, clause by clause. -/
theorem meets_StartStepsSeedReadsAndRootstock :
    (∃ (s : State), s.start.phase = .steps ∧ s.pfail.braceAt = none) ∧
    (∃ (s : State), (s.start.phase ≠ .steps ∨ s.pfail.braceAt ≠ none)) ∧
    (∃ (s : State), inSeedStep s = true) ∧
    (∃ (s t : State) (a : Nat), t = bump (flashEnter s) Reg.SEED_FLASH_ERR ∧ inSeedStep s = true ∧ t.seed.repeated.contains a = false) ∧
    (∃ (s t : State) (a : Nat), t = bump (flashEnter s) Reg.SEED_FLASH_ERR ∧ inSeedStep s = true ∧ t.seed.repeated.contains a = true) ∧
    (∃ (s : State), inSeedStep s = false) ∧
    (∃ (s : State) (k : Nat), s.start.phase = .steps ∧ s.start.warm = false ∧ startStep s = 9 ∧ k < targetCount s) ∧
    (∃ (s : State) (k : Nat), (s.start.phase ≠ .steps ∨ s.start.warm = true ∨ startStep s ≠ 9 ∨ targetCount s ≤ k)) ∧
    (∃ (s : State), s.root.dieDead = false ∧ s.start.phase ≠ .off ∧ s.start.phase ≠ .asleep ∧ s.root.railsOn = true) ∧
    (∃ (s : State), (s.root.dieDead = true ∨ s.start.phase = .off ∨ s.start.phase = .asleep ∨ s.root.railsOn = false)) ∧
    (∃ (s : State), rdB s Reg.GLB_SNAP_STATUS 0 = true) ∧
    (∃ (s : State), rdB s Reg.GLB_SNAP_STATUS 0 = false) :=
  ⟨⟨atStep false 1, by decide +kernel⟩,
   ⟨svc, by decide +kernel⟩,
   ⟨atStep false 6, by decide +kernel⟩,
   ⟨atStep false 6, _, 0, rfl, by decide +kernel⟩,
   ⟨{ atStep false 6 with seed := { svc.seed with repeated := [0x40] } }, _, 0x40, rfl, by decide +kernel⟩,
   ⟨svc, by decide +kernel⟩,
   ⟨wrF (atStep false 9) Reg.PFAIL_TARGETS 11 8 1, 0, by decide +kernel⟩,
   ⟨svc, 0, by decide +kernel⟩,
   ⟨{ svc with root := { svc.root with railsOn := true } }, by decide +kernel⟩,
   ⟨svc, by decide +kernel⟩,
   ⟨wrB svc Reg.GLB_SNAP_STATUS 0 true, by decide +kernel⟩,
   ⟨svc, by decide +kernel⟩⟩
/-- States and operands that meet the hypotheses of FlushRecordsAreConsumedOnRequest, clause by clause. -/
theorem meets_FlushRecordsAreConsumedOnRequest :
    (∃ (s t : State) (q : ReqSrc) (held : List Nat), t = beginReq s q ∧
      held = ((flushTargets t).filter fun k => decide (1 ≤ rdF t (Reg.PFAIL_REC_STATE k) 3 0 ∧ rdF t (Reg.PFAIL_REC_STATE k) 3 0 ≤ 3)) ∧
      Served s q 0x0205 { m := true } ∧ inService t = true ∧ (held.any fun k => !(targetReady t k)) = false) ∧
    (∃ (s t : State) (q : ReqSrc) (held : List Nat), t = beginReq s q ∧
      held = ((flushTargets t).filter fun k => decide (1 ≤ rdF t (Reg.PFAIL_REC_STATE k) 3 0 ∧ rdF t (Reg.PFAIL_REC_STATE k) 3 0 ≤ 3)) ∧
      Served s q 0x0205 { m := true } ∧ inService t = true ∧ (held.any fun k => !(targetReady t k)) = true) ∧
    (∃ (s : State) (q : ReqSrc) (k : Nat), Served s q 0x0206 { m := true } ∧ 8 ≤ k) ∧
    (∃ (s t : State) (q : ReqSrc) (k : Nat), t = beginReq s q ∧ Served s q 0x0206 { m := true } ∧ k < 8 ∧ targetCount t ≤ k) ∧
    (∃ (s t : State) (q : ReqSrc) (k : Nat), t = beginReq s q ∧ Served s q 0x0206 { m := true } ∧ k < 8 ∧ k < targetCount t ∧ inService t = true ∧
      4 ≤ rdF t (Reg.PFAIL_REC_STATE k) 3 0) ∧
    (∃ (s t : State) (q : ReqSrc), t = beginReq s q ∧ Served s q 0x0205 { m := true } ∧ inService t = false) ∧
    (∃ (s t : State) (q : ReqSrc) (k : Nat), t = beginReq s q ∧ Served s q 0x0206 { m := true } ∧ k < 8 ∧ k < targetCount t ∧
      (inService t = false ∨ rdF t (Reg.PFAIL_REC_STATE k) 3 0 < 4)) :=
  ⟨⟨recT 3 true, _, host0, _, rfl, rfl, by unfold Served; decide +kernel, by decide +kernel⟩,
   ⟨recT 3 false, _, host0, _, rfl, rfl, by unfold Served; decide +kernel, by decide +kernel⟩,
   ⟨recT 3 true, host0, 8, by unfold Served; decide +kernel, by decide +kernel⟩,
   ⟨recT 3 true, _, host0, 1, rfl, by unfold Served; decide +kernel, by decide +kernel⟩,
   ⟨recT 4 true, _, host0, 0, rfl, by unfold Served; decide +kernel, by decide +kernel⟩,
   ⟨{ recT 3 true with start := { svc.start with phase := .steps } }, _, host0, rfl, by unfold Served; decide +kernel, by decide +kernel⟩,
   ⟨recT 3 true, _, host0, 0, rfl, by unfold Served; decide +kernel, by decide +kernel⟩⟩
/-- States and operands that meet the hypotheses of LaneClocksAndAlignment, clause by clause. -/
theorem meets_LaneClocksAndAlignment :
    (∃ (s : State) (k : Nat), ownRef s k = true) ∧
    (∃ (s : State) (k : Nat), ownRef s k = false) ∧
    (∃ (s t : State) (k : Nat) (offset spread : BitVec 16),
      t = wrB (wrF (wrF s (Reg.PG_REF_PPM k) 15 0 offset.toNat) (Reg.PG_REF_SPREAD k) 15 0 spread.toNat) (Reg.PG_STATUS k) 3 true ∧
      ownRef s k = true ∧ (pgMode t k ≠ 2 ∨ spread.toNat ≤ 1000) ∧ -3500 ≤ offset.toInt ∧ offset.toInt ≤ 3500) ∧
    (∃ (s t : State) (k : Nat) (offset spread : BitVec 16),
      t = wrB (wrF (wrF s (Reg.PG_REF_PPM k) 15 0 offset.toNat) (Reg.PG_REF_SPREAD k) 15 0 spread.toNat) (Reg.PG_STATUS k) 3 true ∧
      ownRef s k = true ∧ (pgMode t k ≠ 2 ∨ spread.toNat ≤ 1000) ∧ (offset.toInt < -3500 ∨ 3500 < offset.toInt)) ∧
    (∃ (s t : State) (k : Nat) (offset spread : BitVec 16),
      t = wrB (wrF (wrF s (Reg.PG_REF_PPM k) 15 0 offset.toNat) (Reg.PG_REF_SPREAD k) 15 0 spread.toNat) (Reg.PG_STATUS k) 3 true ∧
      ownRef s k = true ∧ pgMode t k = 2 ∧ 1000 < spread.toNat) ∧
    (∃ (s : State) (k : Nat), (s.pg.get k).refDown = true ∧ ownRef s k = true) ∧
    (∃ (s : State) (k : Nat), ((s.pg.get k).refDown = false ∨ ownRef s k = false)) ∧
    (∃ (s : State) (p : Nat), nzSends s p = true) ∧
    (∃ (s : State) (p : Nat), nzSends s p = false) ∧
    (∃ (s t u : State) (p l0 f : Nat) (g : LaneGroups) (inFrame : Bool) (drift : List Int) (at_ : List Nat),
      t = ((receiveLanes s p).zip at_).foldl (fun s x => alignStep s x.1 x.2) (if inFrame then s else (receiveGroups s p g).2) ∧
      u = moveFill t ((receiveLanes s p).zip drift) ∧ f = lowest ((receiveLanes s p).map fun n => (u.lane.get n).fill) ∧ isNoz s p = true ∧
      (lanesOf s p).head? = some l0 ∧ f < 3) ∧
    (∃ (s t u : State) (p l0 f : Nat) (g : LaneGroups) (inFrame : Bool) (drift : List Int) (at_ : List Nat),
      t = ((receiveLanes s p).zip at_).foldl (fun s x => alignStep s x.1 x.2) (if inFrame then s else (receiveGroups s p g).2) ∧
      u = moveFill t ((receiveLanes s p).zip drift) ∧ f = lowest ((receiveLanes s p).map fun n => (u.lane.get n).fill) ∧ isNoz s p = true ∧
      (lanesOf s p).head? = some l0 ∧ 5 < f ∧ (∀ l ∈ (receiveGroups s p g).1, 3 ≤ l.countP fun x => x == kFIL)) ∧
    (∃ (s t u : State) (p l0 f : Nat) (g : LaneGroups) (inFrame : Bool) (drift : List Int) (at_ : List Nat),
      t = ((receiveLanes s p).zip at_).foldl (fun s x => alignStep s x.1 x.2) (if inFrame then s else (receiveGroups s p g).2) ∧
      u = moveFill t ((receiveLanes s p).zip drift) ∧ f = lowest ((receiveLanes s p).map fun n => (u.lane.get n).fill) ∧ isNoz s p = true ∧
      (lanesOf s p).head? = some l0 ∧ 3 ≤ f ∧ (f ≤ 5 ∨ ∃ l ∈ (receiveGroups s p g).1, (l.countP fun x => x == kFIL) < 3)) ∧
    (∃ (s : State) (p : Nat), (isNoz s p = false ∨ lanesOf s p = [])) :=
  ⟨⟨wrF svc (Reg.PG_STATUS 19) 1 0 1, 19, by decide +kernel⟩,
   ⟨svc, 19, by decide +kernel⟩,
   ⟨wrF svc (Reg.PG_STATUS 19) 1 0 2, _, 19, BitVec.ofInt 16 (-3500), 1000, rfl, by decide +kernel⟩,
   ⟨wrF svc (Reg.PG_STATUS 19) 1 0 2, _, 19, BitVec.ofInt 16 (-3501), 1000, rfl, by decide +kernel⟩,
   ⟨wrF svc (Reg.PG_STATUS 19) 1 0 2, _, 19, 3500, 1001, rfl, by decide +kernel⟩,
   ⟨{ wrF svc (Reg.PG_STATUS 2) 1 0 2 with pg := Tab.empty.upd 2 fun x => { x with refDown := true } }, 2, by decide +kernel⟩,
   ⟨svc, 2, by decide +kernel⟩,
   ⟨nzT, 8, by decide +kernel⟩,
   ⟨svc, 8, by decide +kernel⟩,
   ⟨updLane nzT 16 fun l => { l with fill := 2 }, _, _, 8, 16, _, [], true, [0], [], rfl, rfl, rfl, by decide +kernel⟩,
   ⟨updLane nzT 16 fun l => { l with fill := 5 }, _, _, 8, 16, _, [(sendStream false [kALN, kFIL, kFIL, kFIL]).1], false, [1], [], rfl, rfl, rfl, by decide +kernel⟩,
   ⟨nzT, _, _, 8, 16, _, [], true, [1], [], rfl, rfl, rfl, by decide +kernel⟩,
   ⟨svc, 9, by decide +kernel⟩⟩
/-- States and operands that meet the hypotheses of LaneTestsInjectionAndMargin, clause by clause. -/
theorem meets_LaneTestsInjectionAndMargin :
    (∃ (s : State) (n : Nat) (v : Word), (testMay s n = false ∨ testForm s n v = false ∨ (rdB s (Reg.LANE_TEST_STATUS n) 0 = true ∧ getB v 0 = true ∧
      getF v 2 1 ≠ rdF s (Reg.LANE_TEST_CTRL n) 2 1))) ∧
    (∃ (s : State) (n : Nat) (v : Word), testMay s n = true ∧ testForm s n v = true ∧
      (rdB s (Reg.LANE_TEST_STATUS n) 0 = false ∨ getB v 0 = false ∨ getF v 2 1 = rdF s (Reg.LANE_TEST_CTRL n) 2 1) ∧
      rdB s (Reg.LANE_TEST_STATUS n) 0 = false ∧ getB v 0 = true) ∧
    (∃ (s : State) (n : Nat) (v : Word), testMay s n = true ∧ testForm s n v = true ∧
      (rdB s (Reg.LANE_TEST_STATUS n) 0 = false ∨ getB v 0 = false ∨ getF v 2 1 = rdF s (Reg.LANE_TEST_CTRL n) 2 1) ∧
      (rdB s (Reg.LANE_TEST_STATUS n) 0 = true ∨ getB v 0 = false)) ∧
    (∃ (s : State) (n : Nat) (bits : List Bool), bits.length ≤ 256 ∧ rdB s (Reg.LANE_TEST_STATUS n) 0 = true ∧ 16 ≤ bits.countP id) ∧
    (∃ (s : State) (n : Nat) (bits : List Bool), bits.length ≤ 256 ∧ (rdB s (Reg.LANE_TEST_STATUS n) 0 = false ∨ bits.countP id < 16)) ∧
    (∃ (s : State) (n : Nat), (rdB s (Reg.LANE_TEST_STATUS n) 0 = true ∨ ∀ b, (s.lane.get n).lastShot = some b → b + 1600 ≤ s.now)) ∧
    (∃ (s : State) (n : Nat) (b : _), rdB s (Reg.LANE_TEST_STATUS n) 0 = false ∧ (s.lane.get n).lastShot = some b ∧ s.now < b + 1600) ∧
    (∃ (v : Word), getB v 0 = false) ∧
    (∃ (s : State) (n : Nat) (v : Word), getB v 0 = true ∧ (s.lane.get n).linkHolds = true) ∧
    (∃ (s : State) (n : Nat) (v : Word), getB v 0 = true ∧ (s.lane.get n).linkHolds = false) ∧
    (∃ (s : State) (n : Nat), laneMode s n = 1 ∧ dlUp s (lanePort s n) = true ∧ 3 ≤ rdF s (Reg.LANE_RATE n) 2 0) ∧
    (∃ (s : State) (n : Nat), (laneMode s n ≠ 1 ∨ dlUp s (lanePort s n) = false ∨ rdF s (Reg.LANE_RATE n) 2 0 < 3)) :=
  ⟨⟨nzT, 16, 0, by decide +kernel⟩,
   ⟨svc, 159, 0x31, by decide +kernel⟩,
   ⟨wrB svc (Reg.LANE_TEST_STATUS 3) 0 true, 3, 0, by decide +kernel⟩,
   ⟨wrB svc (Reg.LANE_TEST_STATUS 3) 0 true, 3, List.replicate 16 true ++ List.replicate 240 false, by decide +kernel⟩,
   ⟨wrB svc (Reg.LANE_TEST_STATUS 3) 0 true, 3, List.replicate 15 true ++ List.replicate 241 false, by decide +kernel⟩,
   ⟨wrB svc (Reg.LANE_TEST_STATUS 3) 0 true, 3, .inl (by decide +kernel)⟩,
   ⟨shotT 1599 10, 3, 0, by decide +kernel⟩,
   ⟨0, by decide +kernel⟩,
   ⟨updLane svc 9 fun l => { l with linkHolds := true }, 9, 0x0501, by decide +kernel⟩,
   ⟨svc, 9, 0x0501, by decide +kernel⟩,
   ⟨pcieLaneT, 9, by decide +kernel⟩,
   ⟨svc, 9, by decide +kernel⟩⟩
/-- States and operands that meet the hypotheses of LaneCommandsStayInTheirLane, clause by clause. -/
theorem meets_LaneCommandsStayInTheirLane :
    (∃ (c : Instr) (n : Nat), ((∃ b, c = .prbsCheckerLock n b) ∨ (∃ b, c = .prbsLockLoss n b) ∨ c = .injectShot n ∨ c = .injectRateTick n ∨ (∃ v,
      c = .marginStart n v) ∨ (∃ e b, c = .marginDone n e b) ∨ (∃ m e, c = .linkMarginCommand n m e))) ∧
    (∃ (c : Instr) (n : Nat), ((∃ v, c = .laneTestStart n v) ∨ (∃ v, c = .laneTestStop n v))) ∧
    (∃ (c : Instr) (n : Nat), ((∃ v, c = .laneTestStart n v) ∨ (∃ v, c = .laneTestStop n v) ∨ (∃ b, c = .prbsCheckerLock n b) ∨ (∃ b,
      c = .prbsLockLoss n b) ∨ c = .injectShot n ∨ c = .injectRateTick n ∨ (∃ v, c = .marginStart n v) ∨ (∃ e b, c = .marginDone n e b) ∨ (∃ m e,
      c = .linkMarginCommand n m e))) :=
  ⟨⟨.injectShot 3, 3, .inr (.inr (.inl rfl))⟩,
   ⟨.laneTestStop 3 0, 3, .inr ⟨0, rfl⟩⟩,
   ⟨.laneTestStop 3 0, 3, .inr (.inl ⟨0, rfl⟩)⟩⟩
/-- States and operands that meet the hypotheses of ErrNPulseAndHold, clause by clause. -/
theorem meets_ErrNPulseAndHold :
    (∃ (f : FaultSrc), f.unit = 17 ∧ f.code = 2) ∧
    (∃ (f : FaultSrc), f.unit = 6 ∧ f.code = 6) ∧
    (∃ (f : FaultSrc), f.unit = 8 ∧ f.code = 3) ∧
    (∃ (f : FaultSrc), f.unit = 13 ∧ f.code = 4) ∧
    (∃ (f : FaultSrc), ¬ (f.unit = 17 ∧ f.code = 2) ∧ ¬ (f.unit = 6 ∧ f.code = 6) ∧ ¬ (f.unit = 8 ∧ f.code = 3) ∧ ¬ (f.unit = 13 ∧ f.code = 4)) ∧
    (∃ (s : State), rdF s Reg.FLT_STATUS 3 2 = 1) ∧
    (∃ (s : State), rdF s Reg.FLT_STATUS 3 2 ≠ 1) ∧
    (∃ (s : State), rdF s Reg.FLT_STATUS 3 2 = 2) ∧
    (∃ (s : State), rdF s Reg.FLT_STATUS 3 2 ≠ 1 ∧ rdF s Reg.FLT_STATUS 3 2 ≠ 2) :=
  ⟨⟨{ unit := 17, code := 2, cls := 1, zone := 0, zid := 0, addr := 0 }, by decide +kernel⟩,
   ⟨{ unit := 6, code := 6, cls := 1, zone := 0, zid := 0, addr := 0 }, by decide +kernel⟩,
   ⟨{ unit := 8, code := 3, cls := 1, zone := 0, zid := 0, addr := 0 }, by decide +kernel⟩,
   ⟨{ unit := 13, code := 4, cls := 1, zone := 0, zid := 0, addr := 0 }, by decide +kernel⟩,
   ⟨{ unit := 17, code := 3, cls := 1, zone := 0, zid := 0, addr := 0 }, by decide +kernel⟩,
   ⟨wrF svc Reg.FLT_STATUS 3 2 1, by decide +kernel⟩,
   ⟨svc, by decide +kernel⟩,
   ⟨wrF svc Reg.FLT_STATUS 3 2 2, by decide +kernel⟩,
   ⟨svc, by decide +kernel⟩⟩
/-- States and operands that meet the hypotheses of FirstFaultFillsLaterOverflow, clause by clause. -/
theorem meets_FirstFaultFillsLaterOverflow :
    (∃ (s : State) (f : FaultSrc), s.root.dieDead = false ∧ f.unit < 19 ∧ ¬ (f.unit = 8 ∧ f.code = 3) ∧ f.cls = 1 ∧ rdB s Reg.HVST_CFG 1 = false ∧
      rdB s (Reg.FLT_REC_INFO f.unit) 0 = false) ∧
    (∃ (s : State) (f : FaultSrc), s.root.dieDead = false ∧ f.unit < 19 ∧ ¬ (f.unit = 8 ∧ f.code = 3) ∧ f.cls = 1 ∧ rdB s Reg.HVST_CFG 1 = false ∧
      rdB s (Reg.FLT_REC_INFO f.unit) 0 = true ∧ s.flt.filledAt.get f.unit ≠ some s.now) :=
  ⟨⟨svc, { unit := 18, code := 1, cls := 1, zone := 0, zid := 0, addr := 0 }, by decide +kernel⟩,
   ⟨wrB svc (Reg.FLT_REC_INFO 18) 0 true, { unit := 18, code := 1, cls := 1, zone := 0, zid := 0, addr := 0 }, by decide +kernel⟩⟩
/-- States and operands that meet the hypotheses of HarvestFlowAndRecords, clause by clause. -/
theorem meets_HarvestFlowAndRecords :
    (∃ (s : State), s.hvst.running = true) ∧
    (∃ (s : State), s.hvst.running = false) ∧
    (∃ (s : State), s.hvst.running = true ∧ rdF s Reg.HVST_STATUS 1 0 ≠ 0) ∧
    (∃ (s : State), (s.hvst.running = false ∨ rdF s Reg.HVST_STATUS 1 0 = 0)) ∧
    (∃ (s : State) (r : HvRec), s.hvst.sending = some r) ∧
    (∃ (s : State), s.hvst.sending = none) ∧
    (∃ (s : State), s.hvst.running = true ∧ s.hvst.drops.sum ≠ 0) ∧
    (∃ (s : State), (s.hvst.running = false ∨ s.hvst.drops.sum = 0)) ∧
    (∃ (s : State), s.hvst.running = true ∧ rdF s Reg.HVST_CFG 31 16 ≠ 0) ∧
    (∃ (s : State), (s.hvst.running = false ∨ rdF s Reg.HVST_CFG 31 16 = 0)) :=
  ⟨⟨hvT 2, by decide +kernel⟩,
   ⟨svc, by decide +kernel⟩,
   ⟨hvT 2, by decide +kernel⟩,
   ⟨hvT 0, by decide +kernel⟩,
   ⟨{ hvT 2 with hvst := { (hvT 2).hvst with sending := some default } }, default, by decide +kernel⟩,
   ⟨hvT 2, by decide +kernel⟩,
   ⟨{ hvT 2 with hvst := { (hvT 2).hvst with drops := [0, 0, 1, 0, 0, 0] } }, by decide +kernel⟩,
   ⟨hvT 2, by decide +kernel⟩,
   ⟨hvT 2, by decide +kernel⟩,
   ⟨svc, by decide +kernel⟩⟩
/-- States and operands that meet the hypotheses of MailboxStatusViewAndCounters, clause by clause. -/
theorem meets_MailboxStatusViewAndCounters :
    (∃ (s : State) (h k : Nat), mefAnswers s h = true ∧ mgmtRuns s = true ∧ h < 32 ∧ k < 4) ∧
    (∃ (s : State) (h k : Nat), (mefAnswers s h = false ∨ mgmtRuns s = false ∨ 32 ≤ h ∨ 4 ≤ k)) ∧
    (∃ (s : State) (h k : Nat), mefAnswers s h = true ∧ h < 32 ∧ k < 4) ∧
    (∃ (s : State) (h k : Nat), (mefAnswers s h = false ∨ 32 ≤ h ∨ 4 ≤ k)) ∧
    (∃ (s : State), mgmtRuns s = true ∧ (s.mgmt.queue.filter fun r => r.src.host == bmc).length < 4) ∧
    (∃ (s : State), (mgmtRuns s = false ∨ 4 ≤ (s.mgmt.queue.filter fun r => r.src.host == bmc).length)) ∧
    (∃ (s : State) (q : ReqSrc), turnOf s q = true) ∧
    (∃ (s : State) (q : ReqSrc) (kind : Nat), turnOf s q = true ∧ mayIssue s q { h := true } = true ∧ rdB s Reg.MGMT_STATUS 1 = true ∧ 1 ≤ kind ∧
      kind ≤ 6) ∧
    (∃ (s : State) (q : ReqSrc) (kind : Nat), turnOf s q = true ∧ mayIssue s q { h := true } = true ∧ rdB s Reg.MGMT_STATUS 1 = true ∧
      (kind = 0 ∨ 6 < kind)) ∧
    (∃ (s : State) (q : ReqSrc), turnOf s q = true ∧ mayIssue s q { h := true, b := true } = true ∧ rdB s Reg.MGMT_STATUS 1 = true) ∧
    (∃ (s : State) (q : ReqSrc) (g : Nat), Served s q 0x0402 { h := true } ∧ 128 ≤ g) ∧
    (∃ (s t : State) (q : ReqSrc) (g : Nat), t = beginReq s q ∧ Served s q 0x0402 { h := true } ∧ g < 128 ∧ counterRight t q.host g < 2) ∧
    (∃ (s t : State) (q : ReqSrc) (g : Nat) (o : Option Nat), t = beginReq s q ∧
      o = ((List.range 48).find? fun i => decide (t.mgmt.slots.get (64 * q.host + i) = 0)) ∧ Served s q 0x0402 { h := true } ∧ g < 128 ∧
      2 ≤ counterRight t q.host g ∧ o = none) ∧
    (∃ (s : State) (q : ReqSrc), Served s q 0x0403 { h := true }) :=
  ⟨⟨ansT, 0, 3, by decide +kernel⟩,
   ⟨ansT, 0, 4, by decide +kernel⟩,
   ⟨ansT, 0, 3, by decide +kernel⟩,
   ⟨svc, 0, 3, by decide +kernel⟩,
   ⟨svc, by decide +kernel⟩,
   ⟨{ svc with mgmt := { svc.mgmt with queue := List.replicate 4 { src := ctl, words := [] } } }, by decide +kernel⟩,
   ⟨svc, host1, by decide +kernel⟩,
   ⟨svc, host1, 6, by decide +kernel⟩,
   ⟨svc, host1, 7, by decide +kernel⟩,
   ⟨svc, ctl, by decide +kernel⟩,
   ⟨svc, host1, 128, by unfold Served; decide +kernel, by decide +kernel⟩,
   ⟨svc, _, host1, 127, rfl, by unfold Served; decide +kernel, by decide +kernel⟩,
   ⟨fullT, _, host0, 5, _, rfl, rfl, by unfold Served; decide +kernel, by decide +kernel⟩,
   ⟨svc, host1, by unfold Served; decide +kernel⟩⟩
/-- States and operands that meet the hypotheses of ProvisionAndAttest, clause by clause. -/
theorem meets_ProvisionAndAttest :
    (∃ (s t : State) (q : ReqSrc), t = beginReq s q ∧ braced s = false ∧ turnOf s q = true ∧ q.host = bmc ∧ t.root.provisioned = true) ∧
    (∃ (s t : State) (q : ReqSrc), t = beginReq s q ∧ braced s = false ∧ turnOf s q = true ∧ q.host = bmc ∧ t.root.provisioned = false) ∧
    (∃ (s : State) (q : ReqSrc), s.mgmt.attWait = none ∧ turnOf s q = true ∧ mayIssue s q { h := true, b := true } = true ∧
      rdB s Reg.MGMT_STATUS 1 = true) ∧
    (∃ (s : State), s.mgmt.attWait ≠ none) ∧
    (∃ (s : State) (q : ReqSrc) (n : BitVec 256), s.mgmt.attWait = some (q, n)) ∧
    (∃ (s : State), s.mgmt.attWait = none) :=
  ⟨⟨provT 0, _, ctl, rfl, by decide +kernel⟩,
   ⟨svc, _, ctl, rfl, by decide +kernel⟩,
   ⟨provT 0, host0, by decide +kernel⟩,
   ⟨{ provT 0 with mgmt := { svc.mgmt with attWait := some (host0, 9) } }, by decide +kernel⟩,
   ⟨{ provT 0 with mgmt := { svc.mgmt with attWait := some (host0, 9) } }, host0, 9, by decide +kernel⟩,
   ⟨svc, by decide +kernel⟩⟩
/-- States and operands that meet the hypotheses of SeedUpdateByPages, clause by clause. -/
theorem meets_SeedUpdateByPages :
    (∃ (s : State) (q : ReqSrc), SeedServed s q) ∧
    (∃ (s : State) (q : _), s.seed.updPending = some q ∧ rdF s Reg.SEED_UPDATE_STATUS 1 0 = 1) ∧
    (∃ (s : State), (s.seed.updPending = none ∨ rdF s Reg.SEED_UPDATE_STATUS 1 0 ≠ 1)) ∧
    (∃ (s t : State) (q : ReqSrc) (a : Nat) (bs : List Byte),
      t = { bumpF (flashPut s a bs) Reg.SEED_UPDATE_STATUS 31 8 1 with seed := { (bumpF (flashPut s a bs) Reg.SEED_UPDATE_STATUS 31 8 1).seed with programming := none } } ∧ s.seed.programming = some (a, bs) ∧ s.seed.updPending = some q ∧ t.seed.headOp = none) ∧
    (∃ (s t : State) (q : ReqSrc) (a : Nat) (bs : List Byte) (i : _),
      t = { bumpF (flashPut s a bs) Reg.SEED_UPDATE_STATUS 31 8 1 with seed := { (bumpF (flashPut s a bs) Reg.SEED_UPDATE_STATUS 31 8 1).seed with programming := none } } ∧ s.seed.programming = some (a, bs) ∧ s.seed.updPending = some q ∧ t.seed.headOp = some (i + 1)) ∧
    (∃ (s t : State) (q : ReqSrc) (a : Nat) (bs : List Byte),
      t = { bumpF (flashPut s a bs) Reg.SEED_UPDATE_STATUS 31 8 1 with seed := { (bumpF (flashPut s a bs) Reg.SEED_UPDATE_STATUS 31 8 1).seed with programming := none } } ∧ s.seed.programming = some (a, bs) ∧ s.seed.updPending = some q ∧ t.seed.headOp = some 0) ∧
    (∃ (s : State) (q : _) (a : _) (bs : _), s.seed.programming = some (a, bs) ∧ s.seed.updPending = some q) ∧
    (∃ (s : State), (s.seed.programming = none ∨ s.seed.updPending = none)) :=
  ⟨⟨failT, ctl, by unfold SeedServed; decide +kernel⟩,
   ⟨updT 1, host0, by decide +kernel⟩,
   ⟨updT 2, by decide +kernel⟩,
   ⟨pageT none, _, host0, 0x2000, [1, 2], rfl, by decide +kernel⟩,
   ⟨pageT (some 31), _, host0, 0x2000, [1, 2], 30, rfl, by decide +kernel⟩,
   ⟨pageT (some 0), _, host0, 0x2000, [1, 2], rfl, by decide +kernel⟩,
   ⟨pageT none, host0, 0x2000, [1, 2], by decide +kernel⟩,
   ⟨svc, by decide +kernel⟩⟩
/-- States and operands that meet the hypotheses of FlashKeepsWhatNoUpdateProgrammed, clause by clause. -/
theorem meets_FlashKeepsWhatNoUpdateProgrammed :
    (∃ (s : State) (q : ReqSrc) (a : Nat) (bs : List Byte), s.seed.programming = some (a, bs) ∧ s.seed.updPending = some q) ∧
    (∃ (s : State) (q : ReqSrc) (c : Nat), SeedServed s q ∧ c < 2 ∧ (seedOpen s = true ∨ rdF s Reg.SEED_ACTIVE 0 0 ≠ c)) :=
  ⟨⟨pageT none, host0, 0x2000, [1, 2], by decide +kernel⟩,
   ⟨svc, host0, 1, by unfold SeedServed; decide +kernel, by decide +kernel⟩⟩
/-- States and operands that meet the hypotheses of RequestsFollowTheIssuerTable, clause by clause. -/
theorem meets_RequestsFollowTheIssuerTable :
    (∃ (i : Instr) (r : Request) (s : State), requestOf i = some r ∧ s.mgmt.attWait = none ∧ (∀ q, i = .warmReset q → braceHolds s = false) ∧
      ((braced s = true ∧ r.brace = false) ∨ turnOf s r.src = false)) ∧
    (∃ (i : Instr) (r : Request) (s : State), requestOf i = some r ∧ s.mgmt.attWait = none ∧ (∀ q, i = .warmReset q → braceHolds s = false) ∧
      (braced s = false ∨ r.brace = true) ∧ turnOf s r.src = true ∧ mayIssue s r.src r.who = false) ∧
    (∃ (i : Instr) (r : Request) (s : State), requestOf i = some r ∧ s.mgmt.attWait = none ∧ (∀ q, i = .warmReset q → braceHolds s = false) ∧
      (braced s = false ∨ r.brace = true) ∧ turnOf s r.src = true ∧ mayIssue s r.src r.who = true ∧ ((rdB s Reg.MGMT_STATUS 1 = false ∧
      r.rom = false) ∨ (serviceCode r.code = true ∧ inService s = false))) ∧
    (∃ (s : State) (q : ReqSrc), (s.seed.updPending ≠ none ∨ braced s = true ∨ turnOf s q = false)) ∧
    (∃ (s : State) (q : ReqSrc), s.seed.updPending = none ∧ braced s = false ∧ turnOf s q = true ∧
      mayIssue s q { m := !(seedOpen s), b := true } = false) :=
  ⟨⟨.recordConsume host0, { src := host0, code := 0x0205, who := { m := true } }, bracedT, rfl, by decide +kernel, (by intro q h; cases h), by decide +kernel⟩,
   ⟨.recordConsume ctl, { src := ctl, code := 0x0205, who := { m := true } }, svc, rfl, by decide +kernel, (by intro q h; cases h), by decide +kernel, by decide +kernel, by decide +kernel⟩,
   ⟨.recordConsume host0, { src := host0, code := 0x0205, who := { m := true } }, romT, rfl, by decide +kernel, (by intro q h; cases h), by decide +kernel, by decide +kernel, by decide +kernel, by decide +kernel⟩,
   ⟨updT 1, host0, by decide +kernel⟩,
   ⟨svc, host1, by decide +kernel⟩⟩
/-- States and operands that meet the hypotheses of PowerStatesAreEntered, clause by clause. -/
theorem meets_PowerStatesAreEntered :
    (∃ (s : State) (q : ReqSrc), Served s q 0x0202 { b := true }) ∧
    (∃ (s : State) (p d2 d3 : Nat) (g : LaneGroups), evenSet kLCS (receiveGroups s p g).1 = some (0x09, d2, d3)) ∧
    (∃ (s : State) (p d2 d3 : Nat) (g : LaneGroups), evenSet kLCS (receiveGroups s p g).1 = some (0x0A, d2, d3)) ∧
    (∃ (s : State), s.pwr.phase = 3) ∧
    (∃ (s : State), s.pwr.phase ≠ 3) :=
  ⟨⟨svc, ctl, by unfold Served; decide +kernel⟩,
   ⟨nzT, 8, 1, 2, [setT 0x3C 9 1 2], by decide +kernel⟩,
   ⟨nzT, 8, 1, 2, [setT 0x3C 10 1 2], by decide +kernel⟩,
   ⟨p2T 3, by decide +kernel⟩,
   ⟨svc, by decide +kernel⟩⟩
/-- States and operands that meet the hypotheses of WakesClocksAndRails, clause by clause. -/
theorem meets_WakesClocksAndRails :
    (∃ (s : State), s.pwr.asleep ≠ 0) ∧
    (∃ (s : State), s.pwr.asleep = 0) ∧
    (∃ (s : State), avsRuns s = true) ∧
    (∃ (s : State), avsRuns s = false) ∧
    (∃ (s : State) (rail target : Nat), s.rootSt.rails.busy = some (rail, target)) ∧
    (∃ (s : State) (rail : Nat), (∀ n, s.rootSt.rails.busy ≠ some (rail, n))) ∧
    (∃ (s : State), s.rootSt.rails.busy = none) ∧
    (∃ (s : State) (n : Nat), n ≤ 3 ∧ s.start.phase ≠ .off ∧ s.start.phase ≠ .asleep ∧ rdB s Reg.PWR_CLK_STATUS n = true) ∧
    (∃ (s : State) (n : Nat), rdB s Reg.PWR_CLK_STATUS n = false) :=
  ⟨⟨sleepT 4, by decide +kernel⟩,
   ⟨svc, by decide +kernel⟩,
   ⟨svc, by decide +kernel⟩,
   ⟨State.reset, by decide +kernel⟩,
   ⟨railT false, 1, 750, by decide +kernel⟩,
   ⟨svc, 1, fun n h => nomatch (show none = some (1, n) from h)⟩,
   ⟨svc, by decide +kernel⟩,
   ⟨wrB svc Reg.PWR_CLK_STATUS 3 true, 3, by decide +kernel⟩,
   ⟨svc, 3, by decide +kernel⟩⟩
/-- States and operands that meet the hypotheses of ThermalReadingsAndBrace, clause by clause. -/
theorem meets_ThermalReadingsAndBrace :
    (∃ (s : State) (a b c d : Int), s.rootSt.therm.asserted = false ∧ (110 ≤ a ∨ 110 ≤ b ∨ 110 ≤ c ∨ 110 ≤ d)) ∧
    (∃ (s : State) (a b c d : Int), s.rootSt.therm.asserted = true ∧ a < 105 ∧ b < 105 ∧ c < 105 ∧ d < 105) ∧
    (∃ (a b c d : Int), a < 110 ∧ b < 110 ∧ c < 110 ∧ d < 110 ∧ (105 ≤ a ∨ 105 ≤ b ∨ 105 ≤ c ∨ 105 ≤ d)) ∧
    (∃ (s : State), s.rootSt.therm.hot ≠ [] ∧ s.rootSt.therm.brace = false ∧ s.root.dieDead = false ∧ s.pfail.commit = none ∧ s.start.phase ≠ .off) ∧
    (∃ (s : State), (s.rootSt.therm.hot = [] ∨ s.rootSt.therm.brace = true ∨ s.root.dieDead = true ∨ s.pfail.commit ≠ none ∨ s.start.phase = .off)) ∧
    (∃ (s : State) (b : _), s.rootSt.therm.cool = some b ∧ s.rootSt.therm.flush = true ∧ s.root.railsOn = false) ∧
    (∃ (s : State), (s.rootSt.therm.cool = none ∨ s.rootSt.therm.flush = false ∨ s.root.railsOn = true)) :=
  ⟨⟨svc, 110, 20, 20, 20, by decide +kernel⟩,
   ⟨warmT, 104, 104, 104, 104, by decide +kernel⟩,
   ⟨105, 109, 20, 20, by decide +kernel⟩,
   ⟨warmT, by decide +kernel⟩,
   ⟨svc, by decide +kernel⟩,
   ⟨updTherm svc fun x => { x with flush := true, cool := some 0 }, 0, by decide +kernel⟩,
   ⟨svc, by decide +kernel⟩⟩
/-- States and operands that meet the hypotheses of HostFunctionRequestsAndResets, clause by clause. -/
theorem meets_HostFunctionRequestsAndResets :
    (∃ (s : State), inCloche s = true) ∧
    (∃ (s : State), inCloche s = false ∧ s.seed.loaded = false) ∧
    (∃ (s : State) (p : Nat), inCloche s = false ∧ s.seed.loaded = true ∧ (portRole s p ≠ 0 ∨ isPcie s p = false)) ∧
    (∃ (s : State) (p : Nat), inCloche s = false ∧ s.seed.loaded = true ∧ portRole s p = 0 ∧ isPcie s p = true) ∧
    (∃ (s : State) (h : Nat), mefAnswers s h = true) ∧
    (∃ (s : State) (h : Nat), mefAnswers s h = false) ∧
    (∃ (s : State) (h tag : Nat) (r : MefRd), ((s.pcie.mef.get h).reads.find? fun x => x.tag == tag) = some r ∧ r.gen = mefGen s h) ∧
    (∃ (s : State) (h tag : Nat) (r : MefRd), ((s.pcie.mef.get h).reads.find? fun x => x.tag == tag) = some r ∧ r.gen ≠ mefGen s h) ∧
    (∃ (s : State) (h tag : Nat) (r : MefRd), ((s.pcie.mef.get h).reads.find? fun x => x.tag == tag) = some r) ∧
    (∃ (s : State) (h tag : Nat), ((s.pcie.mef.get h).reads.find? fun x => x.tag == tag) = none) ∧
    (∃ (s : State) (h : Nat), portRole s (upPort s h) = 0 ∧ dlUp s (upPort s h) = true) ∧
    (∃ (s : State) (h : Nat), (portRole s (upPort s h) ≠ 0 ∨ dlUp s (upPort s h) = false)) :=
  ⟨⟨{ svc with start := { svc.start with phase := .cloche } }, by decide +kernel⟩,
   ⟨svc, by decide +kernel⟩,
   ⟨loadT, 8, by decide +kernel⟩,
   ⟨loadT, 0, by decide +kernel⟩,
   ⟨ansT, 0, by decide +kernel⟩,
   ⟨svc, 0, by decide +kernel⟩,
   ⟨readT 0, 0, 7, { tag := 7, gen := 0, own := .image }, by decide +kernel⟩,
   ⟨readT 1, 0, 7, { tag := 7, gen := 1, own := .image }, by decide +kernel⟩,
   ⟨readT 0, 0, 7, { tag := 7, gen := 0, own := .image }, by decide +kernel⟩,
   ⟨readT 0, 0, 8, by decide +kernel⟩,
   ⟨wrB svc (Reg.PCIE_STATUS 0) 10 true, 0, by decide +kernel⟩,
   ⟨svc, 0, by decide +kernel⟩⟩
/-- States and operands that meet the hypotheses of DownstreamPortsAndContainment, clause by clause. -/
theorem meets_DownstreamPortsAndContainment :
    (∃ (s : State) (p : Nat), contained s p = true ∧ portRole s p = 1) ∧
    (∃ (s : State) (p : Nat), (contained s p = false ∨ portRole s p ≠ 1)) ∧
    (∃ (s : State) (p : Nat), isPcie s p = true ∧ contained s p = false ∧ portRole s p ≠ 0) ∧
    (∃ (s : State) (p : Nat), (isPcie s p = false ∨ contained s p = true ∨ portRole s p = 0)) ∧
    (∃ (s : State) (p : Nat), isPcie s p = true ∧ contained s p = false ∧ s.pcie.dis.contains p = false ∧ inCloche s = false ∧
      s.start.phase = .service ∧ s.seed.loaded = true ∧ inTest s p = false ∧ (∀ n ∈ lanesOf s p, rdB s (Reg.LANE_STATUS n) 6 = true ∧
      (s.pg.get (n / 8)).refDown = false)) ∧
    (∃ (s : State) (p : Nat),
      (isPcie s p = false ∨ contained s p = true ∨ s.pcie.dis.contains p = true ∨ inCloche s = true ∨ s.seed.loaded = false ∨ inTest s p = true)) :=
  ⟨⟨wrB (roleT 4 1) (Reg.PCIE_STATUS 4) 11 true, 4, by decide +kernel⟩,
   ⟨svc, 4, by decide +kernel⟩,
   ⟨p4T, 4, by decide +kernel⟩,
   ⟨svc, 0, by decide +kernel⟩,
   ⟨{ wrB pcieLaneT (Reg.LANE_STATUS 9) 6 true with seed := loadT.seed }, 4, by decide +kernel⟩,
   ⟨svc, 4, by decide +kernel⟩⟩
/-- States and operands that meet the hypotheses of NozanFramesAreAcknowledgedOrReplayed, clause by clause. -/
theorem meets_NozanFramesAreAcknowledgedOrReplayed :
    (∃ (s : State) (p : Nat) (g : LaneGroups) (w : WireFrame), frameIn (receiveGroups s p g).1 = some w ∧ receives s p = true) ∧
    (∃ (s : State) (p : Nat) (g : LaneGroups), (frameIn (receiveGroups s p g).1 = none ∨ receives s p = false)) ∧
    (∃ (h : List Word), getB (h.getD 1 0) 16 = false) ∧
    (∃ (s t : State) (p : Nat) (h : List Word) (q : _),
      t = resendKept (takeAck ((List.range 4).foldl (fun s v => takeLimit s p v (getF (h.getD (2 + v) 0) 23 0)) s) p (getF (h.getD 1 0) 15 0)) p ∧
      getB (h.getD 1 0) 16 = true ∧ (membersOf t p)[getF (h.getD 1 0) 17 17]? = some q) ∧
    (∃ (s : State) (p : Nat), (oldestOn s p = none ∨ replaying s p = true ∨ nzUp s p = false)) ∧
    (∃ (s : State) (p : Nat) (h : _), oldestOn s p = some h ∧ replaying s p = false ∧ nzUp s p = true) ∧
    (∃ (s : State) (p : Nat), nzState s p = 4 ∧ s.start.phase ≠ .asleep ∧ portDrained s p = false) ∧
    (∃ (s : State) (p : Nat) (h : _), nzUp s p = true ∧ nzState s p ≠ 4 ∧ nextResend s p = some h) ∧
    (∃ (s : State) (p : Nat), nzUp s p = true ∧ nzState s p ≠ 4 ∧ nextResend s p = none ∧ txReady s p = none) ∧
    (∃ (s : State) (p : Nat) (e : _), nzUp s p = true ∧ nzState s p ≠ 4 ∧ nextResend s p = none ∧ txReady s p = some e) ∧
    (∃ (s : State) (p : Nat), nzUp s p = false ∧ (nzState s p ≠ 4 ∨ s.start.phase = .asleep ∨ portDrained s p = true)) :=
  ⟨⟨nzS 2, 8, frameG (wireT (hdrT 0 0)), (frameIn (receiveGroups (nzS 2) 8 (frameG (wireT (hdrT 0 0)))).1).getD default, by decide +kernel⟩,
   ⟨nzS 2, 8, [], by decide +kernel⟩,
   ⟨hdrT 0 0, by decide +kernel⟩,
   ⟨nzS 2, _, 8, hdrT 0x10000 0xF, 8, rfl, by decide +kernel⟩,
   ⟨nzS 2, 8, by decide +kernel⟩,
   ⟨replT false, 8, { f := {}, member := 8 }, by decide +kernel⟩,
   ⟨{ nzS 4 with fwd := sendT.fwd }, 8, by decide +kernel⟩,
   ⟨replT true, 8, { f := {}, member := 8, resend := true }, by decide +kernel⟩,
   ⟨nzS 2, 8, by decide +kernel⟩,
   ⟨sendT, 8, { f := {} }, by decide +kernel⟩,
   ⟨svc, 8, by decide +kernel⟩⟩
/-- States and operands that meet the hypotheses of NozanPortsFailAndTrain, clause by clause. -/
theorem meets_NozanPortsFailAndTrain :
    (∃ (s : State) (p : Nat) (b : _), pairUp s p = false ∧ (pairOf s p).downSince = some b) ∧
    (∃ (s : State) (p : Nat), (pairUp s p = true ∨ (pairOf s p).downSince = none)) ∧
    (∃ (s : State) (p : Nat), nzState s p = 1 ∧ inTest s p = false ∧ isNoz s p = true ∧ trainStep s p = 1) ∧
    (∃ (s : State) (p : Nat), nzState s p = 1 ∧ inTest s p = false ∧ isNoz s p = true ∧ trainStep s p = 2) ∧
    (∃ (s : State) (p : Nat), nzState s p = 1 ∧ inTest s p = false ∧ isNoz s p = true ∧ trainStep s p = 3) ∧
    (∃ (s : State) (p : Nat), (nzState s p ≠ 1 ∨ inTest s p = true ∨ isNoz s p = false)) ∧
    (∃ (s : State) (p : Nat) (m : MemberSt) (sw : _) (port : _) (sess : _), m = s.member.get p ∧ nzState s p = 1 ∧ inTest s p = false ∧
      isNoz s p = true ∧ trainStep s p = 5 ∧ m.peerSw = some sw ∧ m.peerPort = some port ∧ m.peerSess = some sess) ∧
    (∃ (s : State) (p : Nat) (m : MemberSt), m = s.member.get p ∧ nzState s p = 1 ∧ inTest s p = false ∧ isNoz s p = true ∧ trainStep s p = 5 ∧
      identified m = false) ∧
    (∃ (s : State) (p : Nat), nzState s p = 1 ∧ inTest s p = false ∧ isNoz s p = true ∧ trainStep s p = 6) ∧
    (∃ (s : State) (p : Nat), nzState s p = 1 ∧ inTest s p = false ∧ isNoz s p = true ∧ trainStep s p = 7) :=
  ⟨⟨{ nzS 5 with pair := Tab.empty.upd 8 fun x => { x with downSince := some 0 } }, 8, 0, by decide +kernel⟩,
   ⟨nzS 2, 8, by decide +kernel⟩,
   ⟨trT 1, 8, by decide +kernel⟩,
   ⟨trT 2, 8, by decide +kernel⟩,
   ⟨trT 3, 8, by decide +kernel⟩,
   ⟨nzS 2, 8, by decide +kernel⟩,
   ⟨peersT, 8, _, 1, (2, 3), 4, rfl, by decide +kernel⟩,
   ⟨trT 5, 8, _, rfl, by decide +kernel⟩,
   ⟨trT 6, 8, by decide +kernel⟩,
   ⟨trT 7, 8, by decide +kernel⟩⟩
/-- States and operands that meet the hypotheses of PortComesUpAtWidestWidth, clause by clause. -/
theorem meets_PortComesUpAtWidestWidth :
    (∃ (s : State) (p skew w : Nat) (up : List Nat), nzState s p = 1 ∧ inTest s p = false ∧ isNoz s p = true ∧ trainStep s p = 4 ∧
      (s.member.get p).target.1 < 3 ∧ skew ≤ 16 ∧ (∀ v, (v = w ∨ w < v) → ((v = (s.member.get p).target.1 ∨ v = 1 ∨ v = 0) ∧
      v ≤ (s.member.get p).target.1 ∧ 4 * 2 ^ v ≤ (s.member.get p).offered ∧ (∀ i, i < 4 * 2 ^ v → i ∈ up) ↔ v = w))) ∧
    (∃ (s : State) (p skew : Nat) (up : List Nat), nzState s p = 1 ∧ inTest s p = false ∧ isNoz s p = true ∧ trainStep s p = 4 ∧
      (s.member.get p).target.1 < 3 ∧ (16 < skew ∨ ∀ v,
      (v = (s.member.get p).target.1 ∨ v = 1 ∨ v = 0) → v ≤ (s.member.get p).target.1 → 4 * 2 ^ v ≤ (s.member.get p).offered → ∃ i, i < 4 * 2 ^ v ∧
      i ∉ up)) :=
  ⟨⟨offerT, 8, 16, 0, [0, 1, 2, 3], by decide +kernel, by decide +kernel, by decide +kernel, by decide +kernel, by decide +kernel, by decide +kernel, offer_width⟩,
   ⟨trT 4, 8, 17, [], by decide +kernel, by decide +kernel, by decide +kernel, by decide +kernel, by decide +kernel, .inl (by decide)⟩⟩
/-- States and operands that meet the hypotheses of NozanControlSetsInTraining, clause by clause. -/
theorem meets_NozanControlSetsInTraining :
    (∃ (s : State) (p : Nat) (g : LaneGroups), evenSet kLCS (receiveGroups s p g).1 = none) ∧
    (∃ (s : State) (p d2 d3 : Nat) (g : LaneGroups), evenSet kLCS (receiveGroups s p g).1 = some (0x02, d2, d3)) ∧
    (∃ (s : State) (p d2 d3 : Nat) (g : LaneGroups), evenSet kLCS (receiveGroups s p g).1 = some (0x03, d2, d3)) ∧
    (∃ (s : State) (p d2 d3 : Nat) (g : LaneGroups), evenSet kLCS (receiveGroups s p g).1 = some (0x04, d2, d3)) ∧
    (∃ (s : State) (p : Nat) (g : LaneGroups) (l : _), laneSets (receiveGroups s p g).1 = some l) ∧
    (∃ (s : State) (p : Nat) (g : LaneGroups), laneSets (receiveGroups s p g).1 = none) ∧
    (∃ (s : State) (p d2 d3 : Nat) (g : LaneGroups), evenSet kLCS (receiveGroups s p g).1 = some (0x05, d2, d3)) ∧
    (∃ (s : State) (p d2 d3 : Nat) (g : LaneGroups), evenSet kLCS (receiveGroups s p g).1 = some (0x06, d2, d3)) ∧
    (∃ (s : State) (p : Nat), presetStep s p = true ∧ (s.member.get p).eyes.length < 8) ∧
    (∃ (s : State) (p : Nat), (presetStep s p = false ∨ 8 ≤ (s.member.get p).eyes.length)) ∧
    (∃ (s : State) (p d2 d3 : Nat) (g : LaneGroups), evenSet kLCS (receiveGroups s p g).1 = some (0x07, d2, d3)) :=
  ⟨⟨nzS 2, 8, [], by decide +kernel⟩,
   ⟨nzS 2, 8, 1, 2, [setT 0x3C 2 1 2], by decide +kernel⟩,
   ⟨nzS 2, 8, 1, 2, [setT 0x3C 3 1 2], by decide +kernel⟩,
   ⟨nzS 2, 8, 1, 2, [setT 0x3C 4 1 2], by decide +kernel⟩,
   ⟨nzS 2, 8, [setT 0x3C 1 0 16], [(0, 16)], by decide +kernel⟩,
   ⟨nzS 2, 8, [setT 0x3C 2 0 16], by decide +kernel⟩,
   ⟨nzS 2, 8, 1, 2, [setT 0x3C 5 1 2], by decide +kernel⟩,
   ⟨nzS 2, 8, 1, 2, [setT 0x3C 6 1 2], by decide +kernel⟩,
   ⟨trT 6, 8, by decide +kernel⟩,
   ⟨svc, 8, by decide +kernel⟩,
   ⟨nzS 2, 8, 1, 2, [setT 0x3C 7 1 2], by decide +kernel⟩⟩
/-- States and operands that meet the hypotheses of NozanResetsSleepAndWake, clause by clause. -/
theorem meets_NozanResetsSleepAndWake :
    (∃ (v : Word), getB v 0 = false) ∧
    (∃ (s t : State) (p : Nat) (v : Word), t = wrF s (Reg.NZL_RESET_CTRL p) 3 1 (getF v 3 1) ∧ getB v 0 = true ∧ lowTarget (getF v 2 1,
      getF v 3 3) (ownLimit t p) = (getF v 2 1, getF v 3 3) ∧ nzUp t p = true ∧ braced t = false) ∧
    (∃ (s t : State) (p : Nat) (v : Word), t = wrF s (Reg.NZL_RESET_CTRL p) 3 1 (getF v 3 1) ∧ getB v 0 = true ∧ (lowTarget (getF v 2 1,
      getF v 3 3) (ownLimit t p) ≠ (getF v 2 1, getF v 3 3) ∨ nzUp t p = false ∨ braced t = true)) ∧
    (∃ (s : State) (p : Nat) (q : _), partnerOf s p = some q) ∧
    (∃ (s : State) (p : Nat), partnerOf s p = none) ∧
    (∃ (s : State) (p : Nat) (g : LaneGroups) (d1 : _) (d2 : _) (d3 : _), lrsIn (receiveGroups s p g).1 = some (d1, d2, d3)) ∧
    (∃ (s : State) (p : Nat) (g : LaneGroups), lrsIn (receiveGroups s p g).1 = none) ∧
    (∃ (s : State) (p : Nat) (r : _), (s.member.get p).ownReq = some r ∧ nzState s p = 3) ∧
    (∃ (s : State) (p : Nat), ((s.member.get p).ownReq = none ∨ nzState s p ≠ 3)) ∧
    (∃ (s : State) (p d2 d3 : Nat) (g : LaneGroups), evenSet kLCS (receiveGroups s p g).1 = some (0x08, d2, d3)) :=
  ⟨⟨0, by decide +kernel⟩,
   ⟨nzS 2, _, 8, 1, rfl, by decide +kernel⟩,
   ⟨nzS 2, _, 8, 3, rfl, by decide +kernel⟩,
   ⟨partT, 9, 8, by decide +kernel⟩,
   ⟨nzS 2, 8, by decide +kernel⟩,
   ⟨nzS 3, 8, setsT 0x7C 1 2 3, 1, 2, 3, by decide +kernel⟩,
   ⟨nzS 3, 8, [], by decide +kernel⟩,
   ⟨updMember (nzS 3) 8 fun m => { m with ownReq := some (1, 0) }, 8, (1, 0), by decide +kernel⟩,
   ⟨nzS 2, 8, by decide +kernel⟩,
   ⟨nzS 2, 8, 1, 2, [setT 0x3C 8 1 2], by decide +kernel⟩⟩
/-- States and operands that meet the hypotheses of FramesEnterAndLeave, clause by clause. -/
theorem meets_FramesEnterAndLeave :
    (∃ (s u : State) (p : Nat) (t : Tlp), u = countIn s p 0 (tlpB t) ∧ (t.at_ ≠ 0 ∨ portRole u p = 4)) ∧
    (∃ (s u : State) (p : Nat) (t : Tlp), u = countIn s p 0 (tlpB t) ∧ t.at_ = 0 ∧ portRole u p = 0) ∧
    (∃ (s u : State) (p : Nat) (t : Tlp), u = countIn s p 0 (tlpB t) ∧ t.at_ = 0 ∧ portRole u p = 1) ∧
    (∃ (s u : State) (p : Nat) (t : Tlp), u = countIn s p 0 (tlpB t) ∧ t.at_ = 0 ∧ portRole u p = 3) ∧
    (∃ (s u : State) (p : Nat) (t : Tlp), u = countIn s p 0 (tlpB t) ∧ t.at_ = 0 ∧ portRole u p = 2) ∧
    (∃ (s : State) (p : Nat) (t : _) (a : _), tlpArrival s p t = some a) ∧
    (∃ (s : State) (p : Nat) (t : _), tlpArrival s p t = none) ∧
    (∃ (s : State) (p : Nat), s.fwd.passed.get p = []) ∧
    (∃ (s : State) (p : Nat) (a : _) (rest : _), s.fwd.passed.get p = a :: rest) ∧
    (∃ (s : State) (p : Nat) (fc : BitVec 3), ((isNoz s p = true ∧ (txReady s (txMember s p)).isSome = true) ∨ pickQueue s p fc = none)) ∧
    (∃ (s u : State) (p wi par tc : Nat) (e : QEntry) (x : BitVec 268) (y : BitVec 20) (fc : BitVec 3),
      u = shaperPay (popQueue s p tc e) p tc (frameB e.f) ∧ (isNoz s p = false ∨ (txReady s (txMember s p)).isSome = false) ∧
      pickQueue s p fc = some (tc, e) ∧ (bufRead u p e x y wi par).1 = 2) ∧
    (∃ (s u : State) (p wi par tc : Nat) (e : QEntry) (x : BitVec 268) (y : BitVec 20) (fc : BitVec 3),
      u = shaperPay (popQueue s p tc e) p tc (frameB e.f) ∧ (isNoz s p = false ∨ (txReady s (txMember s p)).isSome = false) ∧
      pickQueue s p fc = some (tc, e) ∧ (bufRead u p e x y wi par).1 ≠ 2 ∧ (deliverCheck (bufRead u p e x y wi par).2 e).1 = false) ∧
    (∃ (s u v w : State) (p wi par tc r : Nat) (e g : QEntry) (x : BitVec 268) (y : BitVec 20) (fc : BitVec 3),
      u = shaperPay (popQueue s p tc e) p tc (frameB e.f) ∧ (isNoz s p = false ∨ (txReady s (txMember s p)).isSome = false) ∧
      pickQueue s p fc = some (tc, e) ∧ bufRead u p e x y wi par = (r, v) ∧ r ≠ 2 ∧ (deliverCheck v e).1 = true ∧
      markCm (deliverCheck v e).2 p tc (qDepth s p tc) { e with tag := none } = (g, w) ∧ r ≠ 1) ∧
    (∃ (s u v w : State) (p wi par tc r : Nat) (e g : QEntry) (x : BitVec 268) (y : BitVec 20) (fc : BitVec 3),
      u = shaperPay (popQueue s p tc e) p tc (frameB e.f) ∧ r = 1 ∧ (isNoz s p = false ∨ (txReady s (txMember s p)).isSome = false) ∧
      pickQueue s p fc = some (tc, e) ∧ bufRead u p e x y wi par = (r, v) ∧ r ≠ 2 ∧ (deliverCheck v e).1 = true ∧
      markCm (deliverCheck v e).2 p tc (qDepth s p tc) { e with tag := none } = (g, w)) ∧
    (∃ (s : State) (p k : Nat) (e : _) (q : _), k = (if isNoz s p then pairKey s p else p) ∧ s.fwd.staged.get k = some e ∧ s.fwd.cutTo.get k = some q) ∧
    (∃ (s : State) (p k : Nat), k = (if isNoz s p then pairKey s p else p) ∧ (s.fwd.staged.get k = none ∨ s.fwd.cutTo.get k = none)) :=
  ⟨⟨svc, _, 4, { at_ := 1 }, rfl, by decide +kernel⟩,
   ⟨svc, _, 0, {}, rfl, by decide +kernel⟩,
   ⟨roleT 1 1, _, 1, {}, rfl, by decide +kernel⟩,
   ⟨roleT 3 3, _, 3, {}, rfl, by decide +kernel⟩,
   ⟨roleT 2 2, _, 2, {}, rfl, by decide +kernel⟩,
   ⟨winT, 0, winReqT, (tlpArrival winT 0 winReqT).getD default, by decide +kernel⟩,
   ⟨svc, 0, { at_ := 1 }, by decide +kernel⟩,
   ⟨svc, 3, by decide +kernel⟩,
   ⟨cutT, 3, { f := {} }, [], by decide +kernel⟩,
   ⟨svc, 4, 0, .inr (by decide +kernel)⟩,
   ⟨egT, _, 4, 0, 0, 0, { f := {} }, 3, 0, 7, rfl, by decide +kernel⟩,
   ⟨tagT, _, 4, 0, 0, 0, tagE, 0, 0, 7, rfl, by decide +kernel⟩,
   ⟨egT, _, _, _, 4, 0, 0, 0, 0, { f := {} }, _, 1, 0, 7, rfl, by decide +kernel, by decide +kernel, pair_eq _ _ (by decide +kernel), by decide +kernel, by decide +kernel, Prod.mk.eta.symm, by decide +kernel⟩,
   ⟨egT, _, _, _, 4, 1, 0, 0, _, { f := {} }, _, 3, 0, 7, rfl, rfl, by decide +kernel, by decide +kernel, pair_eq _ _ (by decide +kernel), by decide +kernel, by decide +kernel, Prod.mk.eta.symm⟩,
   ⟨cutT, 3, _, { f := {} }, 4, rfl, by decide +kernel⟩,
   ⟨svc, 3, _, rfl, by decide +kernel⟩⟩
/-- States and operands that meet the hypotheses of CompletionsAndRoutes, clause by clause. -/
theorem meets_CompletionsAndRoutes :
    (∃ (s : State) (p : Nat) (r : NpReq) (id : BitVec 16) (tag : BitVec 10) (sw : BitVec 12) (sp : BitVec 7),
      ((s.pcie.npWait.get p).find? fun r => decide (r.reqId = id ∧ r.tag = tag ∧ sw.toNat = swId s ∧ sp.toNat = r.up ∧
      (s.fwd.cmap.get p).length < 768)) = some r) ∧
    (∃ (s : State) (p : Nat) (e : QEntry) (id : BitVec 16) (tag : BitVec 10) (sw : BitVec 12) (sp : BitVec 7),
      ((s.pcie.npWait.get p).find? fun r => decide (r.reqId = id ∧ r.tag = tag ∧ sw.toNat = swId s ∧ sp.toNat = r.up ∧
      (s.fwd.cmap.get p).length < 768)) = none ∧ ((s.fwd.tx.get p).find? fun e => decide (e.f.typ = 1)) = some e) ∧
    (∃ (s : State) (p : Nat) (id : BitVec 16) (tag : BitVec 10) (sw : BitVec 12) (sp : BitVec 7),
      ((s.pcie.npWait.get p).find? fun r => decide (r.reqId = id ∧ r.tag = tag ∧ sw.toNat = swId s ∧ sp.toNat = r.up ∧
      (s.fwd.cmap.get p).length < 768)) = none ∧ ((s.fwd.tx.get p).find? fun e => decide (e.f.typ = 1)) = none) ∧
    (∃ (s u : State) (p : Nat) (x : CplIn), u = countIn s p 3 (32 + 4 * x.data.length) ∧ ((u.fwd.cmap.get p).find? fun c => c.tag == x.tag) = none) ∧
    (∃ (s u t : State) (p : Nat) (x : CplIn) (c : CmapEntry), u = countIn s p 3 (32 + 4 * x.data.length) ∧
      t = (if cplEnds x then updFwd u fun x => { x with cmap := x.cmap.upd p fun l => l.erase c } else u) ∧
      ((u.fwd.cmap.get p).find? fun c => c.tag == x.tag) = some c ∧ (∀ g, c.scion = some g → scionGen t g.1 = g.2)) ∧
    (∃ (s u t : State) (p : Nat) (x : CplIn) (c : CmapEntry) (g : _), u = countIn s p 3 (32 + 4 * x.data.length) ∧
      t = (if cplEnds x then updFwd u fun x => { x with cmap := x.cmap.upd p fun l => l.erase c } else u) ∧
      ((u.fwd.cmap.get p).find? fun c => c.tag == x.tag) = some c ∧ c.scion = some g ∧ scionGen t g.1 ≠ g.2) ∧
    (∃ (s : State) (a : _), s.fwd.firstAdj = some a) ∧
    (∃ (s : State), s.fwd.firstAdj = none) ∧
    (∃ (s : State) (p : Nat) (d : _), (s.fwd.adjDown.find? fun x => x.1 == pairKey s p) = some d) ∧
    (∃ (s : State) (p : Nat), (s.fwd.adjDown.find? fun x => x.1 == pairKey s p) = none) :=
  ⟨⟨npT, 4, npE, 3, 4, 0, 0, by decide +kernel⟩,
   ⟨mapT, 4, { f := { typ := 1 } }, 0, 0, 0, 0, by decide +kernel⟩,
   ⟨svc, 4, 0, 0, 0, 0, by decide +kernel⟩,
   ⟨mapT, _, 4, { tag := 1 }, rfl, by decide +kernel⟩,
   ⟨mapT, _, _, 4, { tag := 0 }, { tag := 0, srcSw := 1, srcPort := 2, reqId := 3, origTag := 4 }, rfl, rfl, by decide +kernel, fun g h => nomatch h⟩,
   ⟨{ mapT with fwd := { mapT.fwd with cmap := Tab.empty.set 4 [oldMapT] } }, _, _, 4, { tag := 0 }, oldMapT, (0, 5), rfl, rfl, by decide +kernel⟩,
   ⟨discT, 0, by decide +kernel⟩,
   ⟨svc, by decide +kernel⟩,
   ⟨discT, 8, (8, 0), by decide +kernel⟩,
   ⟨svc, 8, by decide +kernel⟩⟩
/-- States and operands that meet the hypotheses of MetersShapersAndTheLedger, clause by clause. -/
theorem meets_MetersShapersAndTheLedger :
    (∃ (s : State) (q : ReqSrc), Served s q 0x0304 { m := true }) :=
  ⟨svc, host0, by unfold Served; decide +kernel⟩
/-- States and operands that meet the hypotheses of HedgeRulesAndWindows, clause by clause. -/
theorem meets_HedgeRulesAndWindows :
    (∃ (s : State) (q : ReqSrc), Served s q 0x0301 { m := true }) ∧
    (∃ (s : State) (u : Nat) (r : _), unitReq s u = some r) ∧
    (∃ (s : State) (u : Nat), unitReq s u = none) ∧
    (∃ (s : State) (u : Nat) (r : _), unitReq s u = some r ∧ hedgeHolds s u = true) ∧
    (∃ (s : State) (u : Nat), (unitReq s u = none ∨ hedgeHolds s u = false)) ∧
    (∃ (s : State) (q : ReqSrc), Served s q 0x0302 { h := true }) ∧
    (∃ (s : State) (q : ReqSrc), Served s q 0x0303 { h := true }) :=
  ⟨⟨svc, host0, by unfold Served; decide +kernel⟩,
   ⟨holdT 1, 0, { q := some host0, es := [entT] }, by decide +kernel⟩,
   ⟨svc, 0, by decide +kernel⟩,
   ⟨holdT 1, 0, { q := some host0, es := [entT] }, by decide +kernel⟩,
   ⟨svc, 0, by decide +kernel⟩,
   ⟨svc, host1, by unfold Served; decide +kernel⟩,
   ⟨svc, host1, by unfold Served; decide +kernel⟩⟩
/-- States and operands that meet the hypotheses of WritesReachTheirHome, clause by clause. -/
theorem meets_WritesReachTheirHome :
    (∃ (s : State) (h : Nat), mefAnswers s h = true) ∧
    (∃ (s : State) (h : Nat), mefAnswers s h = false) ∧
    (∃ (s t : State) (p wi par : Nat) (x : BitVec 268) (y : BitVec 20) (e : _) (g : _) (u : _),
      t = { s with fwd := { s.fwd with toLand := s.fwd.toLand.erase e } } ∧ (s.fwd.toLand.find? fun e => e.inPort == p) = some e ∧
      readForLand t e x y wi par = (some g, u)) ∧
    (∃ (s t : State) (p wi par : Nat) (x : BitVec 268) (y : BitVec 20) (e : _) (u : _),
      t = { s with fwd := { s.fwd with toLand := s.fwd.toLand.erase e } } ∧ (s.fwd.toLand.find? fun e => e.inPort == p) = some e ∧
      readForLand t e x y wi par = (none, u)) ∧
    (∃ (s : State) (p : Nat), (s.fwd.toLand.find? fun e => e.inPort == p) = none) ∧
    (∃ (s : State) (w : _) (rest : _), s.start.phase ≠ .retain ∧ s.land.admitted = w :: rest) ∧
    (∃ (s : State), (s.start.phase = .retain ∨ s.land.admitted = [])) :=
  ⟨⟨ansT, 0, by decide +kernel⟩,
   ⟨svc, 0, by decide +kernel⟩,
   ⟨landInT, _, 8, 0, 0, 0, 0, landE, landE, _, rfl, by decide +kernel, pair_eq _ _ (by decide +kernel)⟩,
   ⟨landInT, _, 8, 0, 0, 3, 0, landE, _, rfl, by decide +kernel, pair_eq _ _ (by decide +kernel)⟩,
   ⟨svc, 8, by decide +kernel⟩,
   ⟨updLand svc fun l => { l with admitted := [default] }, default, [], by decide +kernel⟩,
   ⟨svc, by decide +kernel⟩⟩
/-- States and operands that meet the hypotheses of EpochsCloseAndSeal, clause by clause. -/
theorem meets_EpochsCloseAndSeal :
    (∃ (s : State) (p : Nat) (e : _), (s.land.adj.get (pairKey s p)).due = some e) ∧
    (∃ (s : State) (p : Nat), (s.land.adj.get (pairKey s p)).due = none) ∧
    (∃ (s : State) (tm : BitVec 16), tm.toNat ≤ s.land.term) ∧
    (∃ (s t : State) (w : BitVec 12) (e : Epoch) (tm : BitVec 16),
      t = setLeader (updLand s fun l => { l with claim := none }) w.toNat tm.toNat false true ∧ s.land.term < tm.toNat ∧
      (t.land.sealedL.filter fun e => epAfter e (seOf t)) ≠ []) ∧
    (∃ (s t : State) (w : BitVec 12) (e : Epoch) (tm : BitVec 16),
      t = setLeader (updLand s fun l => { l with claim := none }) w.toNat tm.toNat false true ∧ s.land.term < tm.toNat ∧
      (t.land.sealedL.filter fun e => epAfter e (seOf t)) = []) :=
  ⟨⟨updLand svc fun l => { l with adj := Tab.empty.set 8 { inSet := true, due := some 1 } }, 8, 1, by decide +kernel⟩,
   ⟨svc, 8, by decide +kernel⟩,
   ⟨ledT, 7, by decide +kernel⟩,
   ⟨ledT, _, 1, 0, 8, rfl, by decide +kernel⟩,
   ⟨updLand ledT fun l => { l with sealedL := [] }, _, 1, 0, 8, rfl, by decide +kernel⟩⟩
/-- States and operands that meet the hypotheses of MembersFencesAndBufferReads, clause by clause. -/
theorem meets_MembersFencesAndBufferReads :
    (∃ (s : State) (h : Nat), mefAnswers s h = false) ∧
    (∃ (s : State) (h : Nat), mefAnswers s h = true) ∧
    (∃ (s : State) (h : Nat) (f : _) (rest : _), s.land.fences.get h = f :: rest) ∧
    (∃ (s : State) (h : Nat), s.land.fences.get h = []) ∧
    (∃ (s : State) (h : Nat) (r : _) (rest : _), s.land.bar2.get h = r :: rest) ∧
    (∃ (s : State) (h : Nat), s.land.bar2.get h = []) :=
  ⟨⟨svc, 0, by decide +kernel⟩,
   ⟨ansT, 0, by decide +kernel⟩,
   ⟨updLand svc fun l => { l with fences := Tab.empty.set 0 [{ reqId := 1, target := 2 }] }, 0, { reqId := 1, target := 2 }, [], by decide +kernel⟩,
   ⟨svc, 0, by decide +kernel⟩,
   ⟨updLand svc fun l => { l with bar2 := Tab.empty.set 0 [{ reqId := 1, target := 2, addr := 3, len := 4 }] }, 0, { reqId := 1, target := 2, addr := 3, len := 4 }, [], by decide +kernel⟩,
   ⟨svc, 0, by decide +kernel⟩⟩
/-- States and operands that meet the hypotheses of QueuesConnectionsAndAreas, clause by clause. -/
theorem meets_QueuesConnectionsAndAreas :
    (∃ (s : State) (h n k : Nat) (m : RMsg), cqeDue s h n = some (k, m)) ∧
    (∃ (s : State) (q : ReqSrc), Served s q 0x0501 hostOnly) ∧
    (∃ (s u : State) (q : ReqSrc) (pos : Nat), u = beginReq s q ∧ Served s q 0x0502 hostOnly ∧ u.rme.areas.get (16 * q.host + pos) = none) ∧
    (∃ (s u : State) (q : ReqSrc) (pos : Nat) (a : _), u = beginReq s q ∧ Served s q 0x0502 hostOnly ∧ u.rme.areas.get (16 * q.host + pos) = some a) ∧
    (∃ (s : State) (q : ReqSrc), Served s q 0x0503 hostOnly) ∧
    (∃ (s : State) (q : ReqSrc), Served s q 0x0504 hostOnly) ∧
    (∃ (s : State) (q : ReqSrc), Served s q 0x0505 hostOnly) ∧
    (∃ (s u : State) (q : ReqSrc), u = beginReq s q ∧ Served s q 0x0506 hostOnly ∧ areasOf u q.host = []) ∧
    (∃ (s u : State) (q : ReqSrc) (pr : Bool), u = beginReq s q ∧ Served s q 0x0506 hostOnly ∧ areasOf u q.host ≠ [] ∧
      (if pr then freeIdx u q.host 2048 0 else freeIdx u q.host 30720 2048) = none) ∧
    (∃ (s u : State) (q : ReqSrc) (pr : Bool) (i : _), u = beginReq s q ∧ Served s q 0x0506 hostOnly ∧ areasOf u q.host ≠ [] ∧
      (if pr then freeIdx u q.host 2048 0 else freeIdx u q.host 30720 2048) = some i) ∧
    (∃ (s : State) (q : ReqSrc), Served s q 0x0507 hostOnly) ∧
    (∃ (s : State) (q : ReqSrc), Served s q 0x0508 hostOnly) :=
  ⟨⟨rmeT, 0, 1023, 0, { id := 5, done := true, status := some 0, w := { flags := 4 } }, by decide +kernel⟩,
   ⟨svc, host1, by unfold Served; decide +kernel⟩,
   ⟨svc, _, host0, 0, rfl, by unfold Served; decide +kernel, by decide +kernel⟩,
   ⟨rmeT, _, host0, 0, { base := 0, log2 := 16 }, rfl, by unfold Served; decide +kernel, by decide +kernel⟩,
   ⟨svc, host1, by unfold Served; decide +kernel⟩,
   ⟨svc, host1, by unfold Served; decide +kernel⟩,
   ⟨svc, host1, by unfold Served; decide +kernel⟩,
   ⟨svc, _, host0, rfl, by unfold Served; decide +kernel, by decide +kernel⟩,
   ⟨areaT, _, host0, true, rfl, by unfold Served; decide +kernel, by decide +kernel⟩,
   ⟨rmeT, _, host0, true, 0, rfl, by unfold Served; decide +kernel, by decide +kernel⟩,
   ⟨svc, host1, by unfold Served; decide +kernel⟩,
   ⟨svc, host1, by unfold Served; decide +kernel⟩⟩
/-- States and operands that meet the hypotheses of RegionsAreKeyedAndRevoked, clause by clause. -/
theorem meets_RegionsAreKeyedAndRevoked :
    (∃ (s : State) (q : ReqSrc), Served s q 0x0509 hostOnly) ∧
    (∃ (s u : State) (q : ReqSrc) (b l pe : Nat), u = beginReq s q ∧ Served s q 0x0509 hostOnly ∧ b % 4096 = 0 ∧ l % 4096 = 0 ∧ 0 < l ∧
      (pe = 1 ∨ pe = 2) ∧ b + l ≤ quota u q.host * 4096 ∧ (hostRegions u q.host).length < (hostPol u q.host).maxRegions ∧
      (hostRegions u q.host).sum + l ≤ (hostPol u q.host).maxBytes ∧ 4 &&& (hostPol u q.host).kinds = 4 ∧ (hostPol u q.host).homeSw = swId u) ∧
    (∃ (s u : State) (q : ReqSrc) (b l pe : Nat), u = beginReq s q ∧ Served s q 0x0509 hostOnly ∧ b % 4096 = 0 ∧ l % 4096 = 0 ∧ 0 < l ∧
      (pe = 1 ∨ pe = 2) ∧ b + l ≤ quota u q.host * 4096 ∧ (hostRegions u q.host).length < (hostPol u q.host).maxRegions ∧
      (hostRegions u q.host).sum + l ≤ (hostPol u q.host).maxBytes ∧ 4 &&& (hostPol u q.host).kinds = 4 ∧ (hostPol u q.host).homeSw ≠ swId u) ∧
    (∃ (s u : State) (q : ReqSrc) (k : BitVec 32) (i : _), u = beginReq s q ∧ Served s q 0x050A hostOnly ∧
      (u.rme.landKeys.find? fun x => x.key == k.toNat && x.host == q.host) = none ∧ keyEntry u k.toNat = some i) ∧
    (∃ (s u : State) (q : ReqSrc) (k : BitVec 32), u = beginReq s q ∧ Served s q 0x050A hostOnly ∧
      (u.rme.landKeys.find? fun x => x.key == k.toNat && x.host == q.host) = none ∧ keyEntry u k.toNat = none) ∧
    (∃ (s u : State) (q : ReqSrc) (k : BitVec 32) (x : LandKey), u = beginReq s q ∧ Served s q 0x050A hostOnly ∧
      (u.rme.landKeys.find? fun x => x.key == k.toNat && x.host == q.host) = some x) ∧
    (∃ (s : State) (k : BitVec 32) (x : _), (s.rme.landKeys.find? fun x => x.key == k.toNat && x.draining) = some x) ∧
    (∃ (s : State) (k : BitVec 32), (s.rme.landKeys.find? fun x => x.key == k.toNat && x.draining) = none) :=
  ⟨⟨svc, host1, by unfold Served; decide +kernel⟩,
   ⟨svc, _, host0, 0, 4096, 1, rfl, by unfold Served; decide +kernel, by decide +kernel⟩,
   ⟨farHomeT, _, host0, 0, 4096, 2, rfl, by unfold Served; decide +kernel, by decide +kernel⟩,
   ⟨rmeT, _, host0, BitVec.ofNat 32 (3 + startNib rmeT * 2 ^ 28), 3, rfl, by unfold Served; decide +kernel, by decide +kernel⟩,
   ⟨rmeT, _, host0, 4, rfl, by unfold Served; decide +kernel, by decide +kernel⟩,
   ⟨keyT, _, host0, 9, keyX, rfl, by unfold Served; decide +kernel, by decide +kernel⟩,
   ⟨keyT, 9, keyX, by decide +kernel⟩,
   ⟨svc, 9, by decide +kernel⟩⟩
/-- States and operands that meet the hypotheses of RemoteMemoryPackets, clause by clause. -/
theorem meets_RemoteMemoryPackets :
    (∃ (n : Nat), n ≠ noConn) ∧
    (∃ (e : Nat) (k : RmePkt), (if k.cl then k.msn.toNat / 2 ^ 29 else connEng k.dstConn.toNat) ≠ e) ∧
    (∃ (e : Nat) (k : RmePkt), k.cl = true ∧ k.msn.toNat / 2 ^ 29 = e) ∧
    (∃ (e n : Nat) (k : RmePkt), n = k.dstConn.toNat ∧ k.cl = false ∧ connEng n = e) ∧
    (∃ (s : State) (e : Nat) (sw : BitVec 12) (id : BitVec 32),
      (s.rme.msgs.find? fun m => m.conn == noConn && !m.done && m.clId == id.toNat && m.dst == sw.toNat && msgEng m == e) = none) ∧
    (∃ (s : State) (e : Nat) (sw : BitVec 12) (id : BitVec 32) (st : BitVec 8) (m : _),
      (s.rme.msgs.find? fun m => m.conn == noConn && !m.done && m.clId == id.toNat && m.dst == sw.toNat && msgEng m == e) = some m ∧ st ≠ 0) ∧
    (∃ (s : State) (e : Nat) (sw : BitVec 12) (id : BitVec 32) (m : RMsg),
      (s.rme.msgs.find? fun m => m.conn == noConn && !m.done && m.clId == id.toNat && m.dst == sw.toNat && msgEng m == e) = some m) :=
  ⟨⟨32, by decide +kernel⟩,
   ⟨0, pktT 0, by decide +kernel⟩,
   ⟨1, { cl := true, msn := 2 ^ 29 }, by decide +kernel⟩,
   ⟨connEng 32, _, pktT 0, rfl, by decide +kernel⟩,
   ⟨svc, 0, 1, 8, by decide +kernel⟩,
   ⟨clT 0, 0, 1, 8, 1, msgT, by decide +kernel⟩,
   ⟨clT 0, 0, 1, 8, msgT, by decide +kernel⟩⟩
/-- States and operands that meet the hypotheses of RemoteMemoryTimers, clause by clause. -/
theorem meets_RemoteMemoryTimers :
    (∃ (s : State) (n : Nat), (ctxOf s n).flight = []) ∧
    (∃ (s : State) (n : Nat) (f : _) (rest : _), (ctxOf s n).flight = f :: rest) ∧
    (∃ (s : State) (e : Nat) (id : BitVec 32),
      (s.rme.msgs.find? fun m => m.conn == noConn && !m.done && m.clId == id.toNat && msgEng m == e && m.clFirst.isSome) = none) ∧
    (∃ (s : State) (e b : Nat) (id : BitVec 32) (m : _),
      (s.rme.msgs.find? fun m => m.conn == noConn && !m.done && m.clId == id.toNat && msgEng m == e && m.clFirst.isSome) = some m ∧
      m.clFirst = some b) ∧
    (∃ (s : State) (e k : Nat) (x : _), (s.rme.cl.filter fun y => y.eng == e)[k]? = some x) ∧
    (∃ (s : State) (e k : Nat), (s.rme.cl.filter fun y => y.eng == e)[k]? = none) :=
  ⟨⟨svc, 32, by decide +kernel⟩,
   ⟨conT 2, 32, { psn := 0, item := {}, at_ := 0 }, [], by decide +kernel⟩,
   ⟨svc, 0, 8, by decide +kernel⟩,
   ⟨clT 0, 0, 0, 8, msgT, by decide +kernel⟩,
   ⟨clT 0, 0, 0, { eng := 0, srcSw := 1, start := 0, msgId := 3, created := 0, unacked := true }, by decide +kernel⟩,
   ⟨svc, 0, 0, by decide +kernel⟩⟩
/-- States and operands that meet the hypotheses of BracesCutsAndCommits, clause by clause. -/
theorem meets_BracesCutsAndCommits :
    (∃ (s : State), (s.pfail.dipAt = none ∨ s.pfail.commit.isSome = true ∨ rdB s Reg.PFAIL_STATUS 3 = true)) ∧
    (∃ (s : State) (b : _), s.pfail.dipAt = some b ∧ s.pfail.commit = none ∧ rdB s Reg.PFAIL_STATUS 3 = false) ∧
    (∃ (s : State), (riseFrom s = none ∨ rdB s Reg.PFAIL_STATUS 3 = false ∨ s.pfail.commit.isSome = true ∨ s.pwr.p3Brace = 2)) ∧
    (∃ (s : State) (b : _), riseFrom s = some b ∧ rdB s Reg.PFAIL_STATUS 3 = true ∧ s.pfail.commit = none ∧ s.pwr.p3Brace ≠ 2) ∧
    (∃ (s t : State) (c : _), t = updPf s (fun x => { x with goodAt := none }) ∧ t.pfail.commit = some c) ∧
    (∃ (s t : State), t = updPf s (fun x => { x with goodAt := none }) ∧ t.pfail.commit = none) ∧
    (∃ (s : State) (b : _), s.pfail.braceAt = some b) ∧
    (∃ (s : State), s.pfail.braceAt = none) ∧
    (∃ (s : State) (tm : BitVec 16), tm.toNat = s.land.term) ∧
    (∃ (s : State) (tm : BitVec 16), tm.toNat < s.land.term) ∧
    (∃ (s : State) (tm : BitVec 16), s.land.term < tm.toNat) :=
  ⟨⟨svc, by decide +kernel⟩,
   ⟨dipT, 0, by decide +kernel⟩,
   ⟨svc, by decide +kernel⟩,
   ⟨brT 0, 0, by decide +kernel⟩,
   ⟨flT 2 false, _, { at_ := 0, flushId := 1, cut := 0, seFinal := 0 }, rfl, by decide +kernel⟩,
   ⟨svc, _, rfl, by decide +kernel⟩,
   ⟨brT 0, 0, by decide +kernel⟩,
   ⟨svc, by decide +kernel⟩,
   ⟨ledT, 7, by decide +kernel⟩,
   ⟨ledT, 6, by decide +kernel⟩,
   ⟨ledT, 8, by decide +kernel⟩⟩
/-- States and operands that meet the hypotheses of FlushTargetsAndImages, clause by clause. -/
theorem meets_FlushTargetsAndImages :
    (∃ (s : State) (t i : Nat) (c : _), (s.pfail.movers.get t).out[i]? = some c) ∧
    (∃ (s : State) (t i : Nat), (s.pfail.movers.get t).out[i]? = none) ∧
    (∃ (s : State) (b : _), s.pfail.goodAt = some b) ∧
    (∃ (s : State), s.pfail.goodAt = none) ∧
    (∃ (s : State) (x : _), s.pfail.readReq = some x) ∧
    (∃ (s : State) (c : _), s.pfail.readReq = none ∧ s.pfail.copy = some c) ∧
    (∃ (s : State), s.pfail.readReq = none ∧ s.pfail.copy = none) ∧
    (∃ (s : State) (q : ReqSrc), Served s q 0x0207 { m := true }) :=
  ⟨⟨flT 2 false, 0, 0, { kind := 2, lba := 0, again := false }, by decide +kernel⟩,
   ⟨svc, 0, 0, by decide +kernel⟩,
   ⟨flT 2 false, 0, by decide +kernel⟩,
   ⟨svc, by decide +kernel⟩,
   ⟨updPf svc fun x => { x with readReq := some (0, 5) }, (0, 5), by decide +kernel⟩,
   ⟨updPf svc fun x => { x with copy := some default }, default, by decide +kernel⟩,
   ⟨svc, by decide +kernel⟩,
   ⟨svc, host0, by unfold Served; decide +kernel⟩⟩
/-- States and operands that meet the hypotheses of SlotsSeatAndTurnOn, clause by clause. -/
theorem meets_SlotsSeatAndTurnOn :
    (∃ (s : State) (q : ReqSrc), Served s q 0x0203 { m := true, b := true }) :=
  ⟨svc, host0, by unfold Served; decide +kernel⟩
/-- States and operands that meet the hypotheses of SlotsLimitTripAndClear, clause by clause. -/
theorem meets_SlotsLimitTripAndClear :
    (∃ (s : State) (c : Nat) (b : _), (s.rootSt.chan.get c).absentAt = some b) ∧
    (∃ (s : State) (c : Nat), (s.rootSt.chan.get c).absentAt = none) :=
  ⟨⟨goneT, 15, 0, by decide +kernel⟩,
   ⟨svc, 15, by decide +kernel⟩⟩
/-- States and operands that meet the hypotheses of BankReadingsAndProtections, clause by clause. -/
theorem meets_BankReadingsAndProtections :
    (∃ (s : State) (q : ReqSrc), Served s q 0x0204 { m := true }) :=
  ⟨svc, host0, by unfold Served; decide +kernel⟩
/-- States and operands that meet the hypotheses of BridgedRequestsAndResponses, clause by clause. -/
theorem meets_BridgedRequestsAndResponses :
    (∃ (s : State) (p : Nat), farNext s p = none) ∧
    (∃ (s : State) (p : Nat) (e : _), farNext s p = some e) ∧
    (∃ (s : State) (r : BrgResp), (s.brg.txns.find? fun t => t.req.btag == r.btag) = none) ∧
    (∃ (s : State) (r : BrgResp) (t : _), (s.brg.txns.find? fun t => t.req.btag == r.btag) = some t) ∧
    (∃ (s : State) (n : Nat) (t : _), (s.brg.txns.find? fun t => t.req.btag == n) = some t) ∧
    (∃ (s : State) (n : Nat), (s.brg.txns.find? fun t => t.req.btag == n) = none) ∧
    (∃ (s : State) (n : Nat) (t : _),
      (s.brg.txns.find? fun t => t.req.btag == n && t.again && decide (t.req.op ≠ .memRdLk ∨ lockState s = 2)) = some t) ∧
    (∃ (s : State) (n : Nat), (s.brg.txns.find? fun t => t.req.btag == n && t.again && decide (t.req.op ≠ .memRdLk ∨ lockState s = 2)) = none) ∧
    (∃ (s : State) (n : Nat) (h : _), (s.brg.held.find? fun h => h.req.btag == n) = some h) ∧
    (∃ (s : State) (n : Nat), (s.brg.held.find? fun h => h.req.btag == n) = none) ∧
    (∃ (s : State), lockState s ≠ 0) ∧
    (∃ (s : State), lockState s = 0) :=
  ⟨⟨svc, 4, by decide +kernel⟩,
   ⟨updBrg (brgT 0) fun b => { b with store := [(0, cfgT)] }, 4, (0, cfgT), by decide +kernel⟩,
   ⟨svc, { btag := 5 }, by decide +kernel⟩,
   ⟨txnT false .memRd 0, { btag := 5 }, { req := { cfgT with op := .memRd } }, by decide +kernel⟩,
   ⟨txnT false .memRd 0, 5, { req := { cfgT with op := .memRd } }, by decide +kernel⟩,
   ⟨svc, 5, by decide +kernel⟩,
   ⟨txnT true .memRd 0, 5, { req := { cfgT with op := .memRd }, again := true }, by decide +kernel⟩,
   ⟨svc, 5, by decide +kernel⟩,
   ⟨txnT false .memRd 0, 5, { resp := { btag := 5 }, req := cfgT }, by decide +kernel⟩,
   ⟨svc, 5, by decide +kernel⟩,
   ⟨brgT 3, by decide +kernel⟩,
   ⟨svc, by decide +kernel⟩⟩
/-- States and operands that meet the hypotheses of ScionsMadeResetAndRemoved, clause by clause. -/
theorem meets_ScionsMadeResetAndRemoved :
    (∃ (s : State) (q : ReqSrc), Served s q 0x0601 { h := true }) ∧
    (∃ (s : State) (q : ReqSrc), Served s q 0x0602 { h := true, m := true }) ∧
    (∃ (s : State) (q : ReqSrc), Served s q 0x0603 { h := true, m := true }) ∧
    (∃ (s : State) (q : ReqSrc), Served s q 0x0604 { h := true }) ∧
    (∃ (s : State) (sc : Nat) (b : _), (scionRec s sc).resetAt = some b) ∧
    (∃ (s : State) (sc : Nat), (scionRec s sc).resetAt = none) ∧
    (∃ (s : State) (sc tag : Nat) (t : _), ((scionRec s sc).heldTags.find? fun t => t.1 == tag) = some t) ∧
    (∃ (s : State) (sc tag : Nat), ((scionRec s sc).heldTags.find? fun t => t.1 == tag) = none) ∧
    (∃ (s : State) (p : Nat) (d : _), devOfPort s p = some d) ∧
    (∃ (s : State) (p : Nat), devOfPort s p = none) :=
  ⟨⟨svc, host1, by unfold Served; decide +kernel⟩,
   ⟨svc, host1, by unfold Served; decide +kernel⟩,
   ⟨svc, host1, by unfold Served; decide +kernel⟩,
   ⟨svc, host1, by unfold Served; decide +kernel⟩,
   ⟨scT 2 (some 0), 0, 0, by decide +kernel⟩,
   ⟨scT 1 none, 0, by decide +kernel⟩,
   ⟨updSc (scT 1 none) 0 fun r => { r with heldTags := [(7, 0)] }, 0, 7, (7, 0), by decide +kernel⟩,
   ⟨scT 1 none, 0, 7, by decide +kernel⟩,
   ⟨svc, 2, 0, by decide +kernel⟩,
   ⟨svc, 0, by decide +kernel⟩⟩
/-- States and operands that meet the hypotheses of ScionTrafficAndDirtyLogs, clause by clause. -/
theorem meets_ScionTrafficAndDirtyLogs :
    (∃ (s : State) (sc : Nat), ((scionRec s sc).live = false ∨ inCloche s = true)) ∧
    (∃ (s : State) (sc off : Nat), (scionRec s sc).live = true ∧ inCloche s = false ∧
      (scState s sc ≠ 1 ∨ (scionRec s sc).mse = false ∨ scD s sc ≠ 0 ∨ dbEnd s sc + 4096 ≤ off)) ∧
    (∃ (s : State) (sc off : Nat), (scionRec s sc).live = true ∧ inCloche s = false ∧ scState s sc = 1 ∧ (scionRec s sc).mse = true ∧ scD s sc = 0 ∧
      dbEnd s sc ≤ off ∧ off < dbEnd s sc + 4096) ∧
    (∃ (s : State) (sc off : Nat), (scionRec s sc).live = true ∧ inCloche s = false ∧ scState s sc = 1 ∧ (scionRec s sc).mse = true ∧ scD s sc = 0 ∧
      off < dbEnd s sc) ∧
    (∃ (s : State) (p : Nat), devOfPort s p = none) ∧
    (∃ (s : State) (p v d : Nat) (owns : Nat → Bool),
      owns = (fun sc => decide (rdF s (Reg.SCION_S_VEC sc) 10 0 ≤ v) && decide (v < rdF s (Reg.SCION_S_VEC sc) 10 0 + rdF s (Reg.SCION_S_VEC sc) 17
      11)) ∧ devOfPort s p = some d ∧ (devScions s d).find? owns = none) ∧
    (∃ (s : State) (p v d : Nat) (owns : Nat → Bool) (sc : _),
      owns = (fun sc => decide (rdF s (Reg.SCION_S_VEC sc) 10 0 ≤ v) && decide (v < rdF s (Reg.SCION_S_VEC sc) 10 0 + rdF s (Reg.SCION_S_VEC sc) 17
      11)) ∧ devOfPort s p = some d ∧ (devScions s d).find? owns = some sc) ∧
    (∃ (s : State) (q : ReqSrc), Served s q 0x0605 { h := true }) ∧
    (∃ (s : State) (q : ReqSrc), Served s q 0x0606 { h := true }) ∧
    (∃ (s : State) (q : ReqSrc), Served s q 0x0607 { h := true }) ∧
    (∃ (s : State) (sc : Nat), (scionRec s sc).dirty = none) ∧
    (∃ (s : State) (sc i : Nat) (l : _), (scionRec s sc).dirty = some l ∧ (l.want.find? fun w => w.1 == i) = none) ∧
    (∃ (s : State) (sc i : Nat) (l : _) (w : _), (scionRec s sc).dirty = some l ∧ (l.want.find? fun w => w.1 == i) = some w) :=
  ⟨⟨svc, 0, by decide +kernel⟩,
   ⟨scT 1 none, 0, 8192, by decide +kernel⟩,
   ⟨scT 1 none, 0, 4096, by decide +kernel⟩,
   ⟨scT 1 none, 0, 4095, by decide +kernel⟩,
   ⟨svc, 0, by decide +kernel⟩,
   ⟨scT 1 none, 2, 4, 0, _, rfl, by decide +kernel⟩,
   ⟨scT 1 none, 2, 3, 0, _, 0, rfl, by decide +kernel⟩,
   ⟨svc, host1, by unfold Served; decide +kernel⟩,
   ⟨svc, host1, by unfold Served; decide +kernel⟩,
   ⟨svc, host1, by unfold Served; decide +kernel⟩,
   ⟨scT 1 none, 0, by decide +kernel⟩,
   ⟨dirtyT, 0, 8, dirtyL, by decide +kernel⟩,
   ⟨dirtyT, 0, 7, dirtyL, (7, 1), by decide +kernel⟩⟩

/-! ### The machine as a whole -/

theorem test_front_command_runs : (step { State.reset with pending := [.snapshotTake] }) = exec .snapshotTake State.reset := by rfl
theorem test_idle_step : State.reset.pending = [] ∧ step State.reset = .next (tick State.reset) := by
  refine ⟨by decide, rfl⟩
theorem test_step_answers : ∃ t, step { State.reset with pending := [.errNClear] } = .next t := ⟨_, rfl⟩
theorem test_two_commands_wait : ([.errNClear, .snapshotTake] : List Instr).length = 2 ∧
    ∃ t, step { State.reset with pending := [.errNClear, .snapshotTake] } = .next t := ⟨by decide, _, rfl⟩
theorem test_provisioned_run : ({ State.reset with root := { State.reset.root with provisioned := true } } : State).root.provisioned = true ∧
    ∃ t, Host.Core.run core 1 { State.reset with root := { State.reset.root with provisioned := true }, pending := [.errNClear] } = .next t :=
  ⟨by decide, _, rfl⟩
theorem test_blank_fuses : FusesBlank State.reset ∧ ∃ t, step State.reset = .next t := ⟨fun _ => by decide, _, rfl⟩

/-! ### Well-formed commands: an ill-formed one for each check, and its neighbour that passes -/

theorem test_wf_ports_and_lanes : (Instr.configRequest 80 {}).wf = false ∧ (Instr.configRequest 79 {}).wf = true ∧ (Instr.dpcRelease 80).wf = false ∧
    (Instr.dpcRelease 79).wf = true ∧ (Instr.injectShot 160).wf = false ∧ (Instr.injectShot 159).wf = true ∧ (Instr.pgRefEdgeLoss 20).wf = false ∧
    (Instr.pgRefEdgeLoss 19).wf = true := by decide
theorem test_wf_slots_and_bank : (Instr.prsntAssert 16).wf = false ∧ (Instr.prsntAssert 15).wf = true ∧ (Instr.cellOvervoltageTrip 16).wf = false ∧
    (Instr.cellOvervoltageTrip 15).wf = true ∧ (Instr.flushTargetWaitExpiry 8).wf = false ∧ (Instr.flushTargetWaitExpiry 7).wf = true := by decide
theorem test_wf_landing : (Instr.dramChannelFail 4).wf = false ∧ (Instr.dramChannelFail 3).wf = true ∧ (Instr.admitReceive 32 0 false false false 0 0).wf = false ∧
    (Instr.admitReceive 31 0 false false false 0 0).wf = true ∧ (Instr.memberRemovalExpiry 64).wf = false ∧ (Instr.memberRemovalExpiry 63).wf = true ∧
    (Instr.reportReceive 4096 0 0 0 0 0 0 0 false).wf = false ∧ (Instr.reportReceive 4095 0 0 0 0 0 0 0 false).wf = true ∧
    (Instr.patrolRead (2 ^ 26) 0 0).wf = false ∧ (Instr.patrolRead (2 ^ 26 - 1) 0 0).wf = true ∧ (Instr.connFenceRead 0 0 (2 ^ 15) false).wf = false ∧
    (Instr.connFenceRead 0 0 (2 ^ 15 - 1) false).wf = true := by decide
theorem test_wf_remote_memory : (Instr.rmePacketSend 8 0).wf = false ∧ (Instr.rmePacketSend 7 (2 ^ 20)).wf = false ∧ (Instr.rmePacketSend 7 (2 ^ 20 - 1)).wf = true ∧
    (Instr.sqTailWrite 0 1024 0).wf = false ∧ (Instr.sqTailWrite 0 1023 0).wf = true ∧ (Instr.regionOutstandingZero (2 ^ 18)).wf = false ∧
    (Instr.regionOutstandingZero (2 ^ 18 - 1)).wf = true := by decide
theorem test_wf_units : (Instr.hedgeInflightDrained 97).wf = false ∧ (Instr.hedgeInflightDrained 96).wf = true ∧ (Instr.bridgeTimeout 1024).wf = false ∧
    (Instr.bridgeTimeout 1023).wf = true ∧ (Instr.dirtyWordFill 2048 0 0).wf = false ∧ (Instr.dirtyWordFill 2047 0 0).wf = true ∧
    (Instr.mefCompletionTimeout 0 1024).wf = false ∧ (Instr.mefCompletionTimeout 0 1023).wf = true ∧ (Instr.pmbusAckTimeout 6).wf = false ∧
    (Instr.pmbusAckTimeout 5).wf = true ∧ (Instr.pllLockLoss 6).wf = false ∧ (Instr.pllLockLoss 5).wf = true := by decide
theorem test_wf_management : (Instr.faultRecordClear 19).wf = false ∧ (Instr.faultRecordClear 18).wf = true ∧ (Instr.counterOvfClear 128 0 false).wf = false ∧
    (Instr.counterOvfClear 0 32 false).wf = false ∧ (Instr.counterOvfClear 127 31 false).wf = true ∧ (Instr.seedBurstDone (2 ^ 25)).wf = false ∧
    (Instr.seedBurstDone (2 ^ 25 - 1)).wf = true ∧ (Instr.vdspRetrainLink 0 64).wf = false ∧ (Instr.vdspRetrainLink 0 63).wf = true ∧
    (Instr.msixSend 0 64).wf = false ∧ (Instr.msixSend 0 63).wf = true ∧ (Instr.scionDeviceMsix 0 2048).wf = false ∧ (Instr.scionDeviceMsix 0 2047).wf = true ∧
    (Instr.pairLoRead 0 65536 0).wf = false ∧ (Instr.pairLoRead 0 65535 0).wf = true ∧ (Instr.mbRing 0 4).wf = false ∧ (Instr.mbRing 31 3).wf = true ∧
    (Instr.mctpRequest 4 []).wf = false ∧ (Instr.mctpRequest 3 []).wf = true ∧ (Instr.warmReset { host := 33, slot := 0 }).wf = false ∧
    (Instr.warmReset { host := 0, slot := 4 }).wf = false ∧ (Instr.warmReset { host := 32, slot := 3 }).wf = true := by decide

/-! ### Single steps -/

/-- The state a command leaves. -/
def after (c : Instr) (s : State) : State :=
  match exec c s with
  | .next t => t
  | .fault _ => s
  | .refused _ => s

/-- R78: SYS_RST_N must be low for 1 µs. -/
theorem test_short_reset_ignored : after (.sysRstAssert 999 15) svc = svc := by decide +kernel
/-- R536: a RING of a busy slot sets OVERRUN and counts. -/
theorem test_ring_of_busy_slot : rdB (after (.mbRing 31 3) ringT) (Reg.MB_STATUS 31 3) 2 = true ∧ rdN (after (.mbRing 31 3) ringT) Reg.MGMT_OVERRUN = 1 := by
  decide +kernel
/-- R536, R540: a request with CODE 0 is answered at once, with READY and status 0x01. -/
theorem test_unknown_code : rdB (after (.mbRing 30 2) (cfgSet svc 30 .mef capHdr 4 2)) (Reg.MB_STATUS 30 2) 1 = true ∧ rdF (after (.mbRing 30 2) (cfgSet svc 30 .mef capHdr 4 2)) (Reg.MB_REPLY_BUF 30 2 1) 7 0 = 1 := by
  decide +kernel
/-- R12: the reading of an RC field clears it, and returns it. -/
theorem test_read_clears_counter : rdN (after (.rcFieldRead 0 9 0x200014 false) (wrN ansT 0x200014 77)) 0x200014 = 0 ∧
    (after (.rcFieldRead 0 9 0x200014 false) (wrN ansT 0x200014 77)).out = [.regData 0 9 0x200014 [77]] := by decide +kernel
/-- R6: what no register stands at reads 0. -/
theorem test_unmapped_read : (after (.rcFieldRead 0 9 0xFFC false) ansT).out = [.regData 0 9 0xFFC [0]] := by decide +kernel
/-- R112: an offset of 3,501 ppm is out of range, one of 3,500 is not. -/
theorem test_reference_edges : rdB (after (.pgRefWindow 2 3500 0) (wrF svc (Reg.PG_STATUS 2) 1 0 1)) (Reg.PG_STATUS 2) 3 = true ∧
    ((after (.pgRefWindow 2 3500 0) (wrF svc (Reg.PG_STATUS 2) 1 0 1)).pg.get 2).refDown = false ∧
    ((after (.pgRefWindow 2 3501 0) (wrF svc (Reg.PG_STATUS 2) 1 0 1)).pg.get 2).refDown = true := by decide +kernel
/-- R541: a request from the board management controller is no issuer of RECORD_CONSUME; its reply carries NOT_PERMITTED. -/
theorem test_not_permitted : rdN (after (.recordConsume ctl) svc) Reg.MGMT_REFUSED = 1 ∧ (after (.recordConsume ctl) svc).out.length = 1 := by decide +kernel
/-- R565: THERM_N asserts at 110 °C and not at 109 °C, and releases below 105 °C. -/
theorem test_therm_pin : (after (.thermalReading [110, 20, 20, 20]) svc).out = [.pin .thermN false] ∧ (after (.thermalReading [109, 20, 20, 20]) svc).out = [] ∧
    (after (.thermalReading [104, 20, 20, 20]) warmT).out = [.pin .thermN true] := by decide +kernel
/-- R360: the second trip of a comparator that already tripped adds no event. -/
theorem test_overvoltage_once : rdN (after (.cellOvervoltageTrip 15) svc) Reg.ROOT_BANK_FAULTS = 1 ∧ rdF (after (.cellOvervoltageTrip 15) svc) Reg.ROOT_BANK_LAST 3 0 = 2 ∧
    rdN (after (.cellOvervoltageTrip 3) (after (.cellOvervoltageTrip 15) svc)) Reg.ROOT_BANK_FAULTS = 1 := by decide +kernel
/-- R357: cell readings are 16-bit two's complement, and a negative one is invalid. -/
theorem test_cell_reading : rdF (after (.cellReading [-1, 2500, 3300]) bankT) (Reg.ROOT_CELL_V 0) 15 0 = 65535 ∧
    rdB (after (.cellReading [-1, 2500, 3300]) bankT) (Reg.ROOT_CELL_V 0) 18 = true ∧ rdF (after (.cellReading [-1, 2500, 3300]) bankT) Reg.ROOT_CELL_SUM 15 0 = 5799 := by
  decide +kernel
/-- R451: the sixty-fourth BUSY closes the transaction. -/
theorem test_busy_closes : (after (.bridgeResponseReceive { btag := 5, status := 2, cplId := 0xFFFF })
      (updBrg (txnT false .memRd 0) fun b => { b with txns := b.txns.map fun t => { t with busies := 63 } })).brg.txns = [] ∧
    ((after (.bridgeResponseReceive { btag := 5, status := 2, cplId := 0xFFFF }) (txnT false .memRd 0)).brg.txns.map BrgTxn.busies) = [1] := by decide +kernel
/-- R458: a forced release makes the engine IDLE. -/
theorem test_lock_forced : lockState (after .lockIdleExpiry { brgT 3 with now := 160000000 }) = 0 := by decide +kernel
/-- R472: the last doorbell byte belongs to the device, the next one to the MSI-X page; beyond it a read draws UR. -/
theorem test_scion_pages : (after (.scionHostRequest 0 8192 { tag := 9 }) (scT 1 none)).out = [.cpl 0 0 9 1 false []] := by decide +kernel
/-- R475: a refill adds one RATE and stops at SIZE. -/
theorem test_scion_refill : ((after .shaperRefill (updSc (scT 1 none) 0 fun r => { r with rate := 5, size := 65, tokens := 7 })).scion.recs.get 0).tokens = 12 ∧
    ((after .shaperRefill (updSc (scT 1 none) 0 fun r => { r with rate := 5, size := 65, tokens := 65 * 64 * 200 })).scion.recs.get 0).tokens = 65 * 64 * 200 := by
  decide +kernel

/-! ### Worked examples of the spec -/

/-- The worked wrap example of R154's chapter: USED 0xFF_FFC0 and LIMIT 48 pass a 65-credit frame, USED becomes 1; a second waits, until LIMIT is 176. -/
def wrapT (used limit : Nat) : State :=
  { wrF (wrF (nzS 2) (Reg.NZL_USED_VC 8 0) 23 0 used) (Reg.NZL_LIMIT_VC 8 0) 23 0 limit with pair := Tab.empty.upd 8 fun x => { x with vcKnown := 15 } }
def frame4k : Frame := { length := 1024, tc := 1 }
theorem test_wrap_example : frameCredits frame4k = 65 ∧ creditOk (wrapT 0xFFFFC0 48) 8 frame4k = true ∧ (0xFFFFC0 + 65) % 2 ^ 24 = 1 ∧
    creditOk (wrapT 1 48) 8 frame4k = false ∧ rdF (takeLimit (wrapT 1 48) 8 0 176) (Reg.NZL_LIMIT_VC 8 0) 23 0 = 176 ∧ creditOk (wrapT 1 176) 8 frame4k = true := by
  decide +kernel
/-- The meter example of R253: CBS 256 and PBS 512 units, Tp 4,120 bytes is red and 4,140 yellow, which leaves 12. -/
def meterT (tp tc : Nat) : State :=
  updQos (wrF (wrF (wrF (wrF (wrF svc (Reg.QOS_M_MODE 1 1) 1 0 1) (Reg.QOS_M_PBS 1 1) 17 0 512) (Reg.QOS_M_CBS 1 1) 17 0 256) (Reg.QOS_M_CIR 1 1) 20 0 8000)
    (Reg.QOS_M_PIR 1 1) 20 0 16000)
    fun q => { q with lackP := Tab.empty.set 9 ((512 * 64 - tp) * 800), lackC := Tab.empty.set 9 ((256 * 64 - tc) * 800) }
theorem test_meter_example : (meterColour (meterT 4120 1060) 1 frame4k).1 = 2 ∧ (meterColour (meterT 4140 1070) 1 frame4k).1 = 1 ∧
    (meterColour (meterT 4140 1070) 1 frame4k).2.qos.lackP.get 9 = (512 * 64 - 12) * 800 ∧
    (after .meterTokenTick (meterT 4120 1060)).qos.lackP.get 9 = (512 * 64 - 4140) * 800 ∧
    (after .meterTokenTick (meterT 4120 1060)).qos.lackC.get 9 = (256 * 64 - 1070) * 800 := by decide +kernel
/-- The landing example of R271's chapter: base page 0x4_0000 and offset 0x0123_4560 give A = 0x4123_4560 and W = 0x0209_1A2B. -/
theorem test_landing_example : landAddr { svc with seed := { svc.seed with policy := { polT with hosts := [(3, { present := true, basePage := 0x40000 })] } } } 3 0x1234560 =
    0x41234560 ∧ 0x41234560 / 32 = 0x2091A2B := by decide +kernel
/-- The PASID example of R470's chapter: instance 5 at GEN 0x17 and after one reset. -/
theorem test_pasid_example : instPasid 0x17 5 = 0x82E05 ∧ instPasid 0x18 5 = 0x83005 := by decide
/-- The dirty example of R483: a write at 0x10_0123_4000 of a range at 0x10_0000_0000 touches page 4,660, bit 4 of byte 582: bit 52 of word 72. -/
theorem test_dirty_example : (scionRec (dirtyMark (updSc (scT 1 none) 0 fun r => { r with
      dirty := some { base := 0x1000000000, log2 := 34, bufA := 0, bufB := 0x80000 } }) 0 0x1001234000 64) 0).dirty.map DirtySt.want = some [(72, 2 ^ 52)] ∧
    72 * 8 + 6 = 582 ∧ 52 = 6 * 8 + 4 := by decide +kernel
/-- The quiesce example of R86: at the 1 µs default period a quiesce lasts at most 24 µs. -/
theorem test_quiesce_example : 4 * epochPeriod (wrF svc Reg.LAND_CFG 7 0 3) + 32000 = 24 * 1600 := by decide +kernel
/-- R114 and the code of R113: the groups of K28.5 and of data symbols, at both disparities. -/
theorem test_groups : kCode false 0xBC = 0b0011111010 ∧ kCode true 0xBC = 0b1100000101 ∧ dataCode false 0xB5 = 0b1010101010 ∧
    dataCode false 0xF1 = 0b1000110111 ∧ dataCode true 0xEB = 0b1101001000 ∧ dataCode false 0 = 0b1001110100 ∧ dataCode true 0 = 0b0110001011 := by
  decide +kernel
/-- R116: a group that only the other disparity has, and one that no disparity has. -/
theorem test_group_errors : checkGroup false (dataCode true 0) = .disparity ∧ checkGroup false 0 = .violation ∧
    checkGroup true (kCode true 0xFB) = .good kSOF := by decide +kernel
/-- R124: PRBS7 repeats after 127 bits, and not before. -/
theorem test_prbs7 : (prbsStart 0 254).take 127 = (prbsStart 0 254).drop 127 ∧ (prbsStart 0 254).take 64 ≠ ((prbsStart 0 254).drop 63).take 64 := by
  decide +kernel
/-- R180: the identities of the functions, in bits that no host may write and no implementation leaves open. -/
theorem test_identity : cfgConst svc 0 .usp capHdr 0 = 0x91601F5C ∧ cfgConst svc 0 (.vdsp 0) capHdr 0 = 0x91611F5C ∧
    cfgConst svc 0 .mef capHdr 0 = 0x91621F5C ∧ cfgMask svc 0 .mef capHdr 0 = 0 ∧
    openMask capHdr 0 .mef = 0 := by decide +kernel

end Sys2Proof.Tests
end

section
/-! SUPPORT. A host's accesses of its BAR0, from the row of the table down to the bits (R6, R11 to R14): what each row of the access
commands does while the MEF answers, what a read of a register clears, and what a write leaves of each bit. -/

namespace Sys2Proof.Machine

open Sys2Proof

/-! ### Bits of a word -/

theorem getB_eq_getLsbD (v : Word) (i : Nat) : getB v i = v.getLsbD i := by
  simp [getB, getF, BitVec.getLsbD, Nat.testBit_eq_decide_div_mod_eq, Bool.beq_eq_decide_eq]

/-- A bit that is not RW keeps its value, unless it is W1C, 1 is written to it and the data path does not set it (R11, R12, R14). -/
theorem getB_fieldsAfter_of_not_rw (r : RegRow) (old v collide : Word) {i : Nat} (hi : i < 32) (hrw : getB (w32 r.rw) i = false) :
    getB (fieldsAfter r old v collide) i = (getB old i && !(getB v i && !getB collide i && getB (w32 r.w1c) i)) := by
  rw [getB_eq_getLsbD] at hrw
  simp only [getB_eq_getLsbD, fieldsAfter, mergeW, BitVec.getLsbD_and, BitVec.getLsbD_or, BitVec.getLsbD_not, hi, hrw]
  simp

/-! ### What a host's access sees -/

@[simp] theorem rd_emit (s : State) (o : Out) (a : Nat) : rd (emit s o) a = rd s a := rfl

/-- Which register an offset names does not depend on what the registers hold. -/
@[simp] theorem barRow_wr (s : State) (a : Nat) (v : Word) (host off : Nat) : barRow (wr s a v) host off = barRow s host off := rfl

theorem mefWritten_of_answers {s : State} {host : Nat} (h : mefAnswers s host = true) (f : State → State) : mefWritten s host f = f s :=
  if_pos h

theorem mefAnswered_of_answers {s : State} {host : Nat} (h : mefAnswers s host = true) (req : Nat) (f : State → State) :
    mefAnswered s host req f = f s :=
  if_pos h

theorem readAt_of_row {s : State} {host off a : Nat} {w : Bool} {r : RegRow} (hrow : barRow s host off = some (a, w, r)) :
    readAt s host off = readReg s a r := by
  simp [readAt, hrow]

theorem readAt_of_unmapped {s : State} {host off : Nat} (hrow : barRow s host off = none) : readAt s host off = (0, s) := by
  simp [readAt, hrow]

theorem plainWrite_of_unmapped {s : State} {host off : Nat} (hrow : barRow s host off = none) (v collide : Word) :
    plainWrite s host off v collide = s := by
  simp [plainWrite, hrow]

/-! ### The rows of the accesses, while the MEF answers -/

section Answering

variable {s : State} {host : Nat} (h : mefAnswers s host = true)
include h

theorem exec_registerWrite_of_answers (off : Nat) (v collide : Word) :
    exec (.registerWrite host off v collide) s = .next (plainWrite s host off v collide) :=
  congrArg _ (mefWritten_of_answers h _)

theorem exec_registerWrite_of_row {off a : Nat} {r : RegRow} (hrow : barRow s host off = some (a, true, r)) (hp : r.pair = 0)
    (v collide : Word) : exec (.registerWrite host off v collide) s = .next (writeReg s a r v collide) := by
  simp [exec_registerWrite_of_answers h, plainWrite, hrow, hp]

theorem exec_rcFieldRead_word_of_answers (req off : Nat) :
    exec (.rcFieldRead host req off false) s = .next (answer (readAt s host off).2 host req off [(readAt s host off).1]) :=
  congrArg _ (mefAnswered_of_answers h req _)

theorem exec_rcFieldRead_wide_of_answers (req off : Nat) :
    exec (.rcFieldRead host req off true) s = .next (wideRead s host req off) :=
  congrArg _ (mefAnswered_of_answers h req _)

theorem exec_pairWideAccess_read_of_pair {off a : Nat} {w : Bool} {r : RegRow} (hrow : barRow s host off = some (a, w, r))
    (hp : r.pair = 1) (hal : off % 8 = 0) (hf : isFence a = false) (req : Nat) :
    exec (.pairWideAccess host req off none) s = .next (wideRead s host req off) := by
  change execPairWideAccess host req off none s = _
  simp [execPairWideAccess, hrow, hp, hal, hf, mefAnswered_of_answers h]

/-! An offset that names no register (R6). -/

variable {off : Nat} (hrow : barRow s host off = none)
include hrow

theorem exec_pairLoRead_of_unmapped (req : Nat) : exec (.pairLoRead host req off) s = .next (answer s host req off [0]) := by
  change execPairLoRead host req off s = _
  simp [execPairLoRead, hrow, mefAnswered_of_answers h]

theorem exec_pairHiRead_of_unmapped (req : Nat) : exec (.pairHiRead host req off) s = .next (answer s host req off [0]) := by
  change execPairHiRead host req off s = _
  simp [execPairHiRead, hrow, mefAnswered_of_answers h]

theorem exec_pairLoWrite_of_unmapped (req : Nat) (v : Word) : exec (.pairLoWrite host req off v) s = .next s := by
  change execPairLoWrite host req off v s = _
  simp [execPairLoWrite, hrow, mefWritten_of_answers h]

theorem exec_pairHiWrite_of_unmapped (req : Nat) (v : Word) : exec (.pairHiWrite host req off v) s = .next s := by
  change execPairHiWrite host req off v s = _
  simp [execPairHiWrite, hrow, mefWritten_of_answers h]

theorem exec_pairWideAccess_read_of_unmapped (req : Nat) :
    exec (.pairWideAccess host req off none) s = .next (wideRead s host req off) := by
  change execPairWideAccess host req off none s = _
  simp [execPairWideAccess, hrow, mefAnswered_of_answers h]

theorem exec_pairWideAccess_write_of_unmapped (req : Nat) (d : DWord) :
    exec (.pairWideAccess host req off (some d)) s = .next (plainWrite s host (off + 4) (hi32 d.toNat) 0) := by
  change execPairWideAccess host req off (some d) s = _
  simp [execPairWideAccess, hrow, mefWritten_of_answers h, plainWrite_of_unmapped hrow]

end Answering

theorem wideRead_of_unmapped {s : State} {host off : Nat} (hlo : barRow s host off = none) (hhi : barRow s host (off + 4) = none)
    (req : Nat) : wideRead s host req off = answer s host req off [0, 0] := by
  simp [wideRead, readAt_of_unmapped hlo, readAt_of_unmapped hhi]

/-! ### A register with its RC bits cleared (R12, R13) -/

/-- The state a read of a plain register leaves: the RC bits of its row cleared. -/
def rcCleared (s : State) (a : Nat) (r : RegRow) : State := wr s a (rd s a &&& ~~~(w32 r.rc))

theorem rd_rcCleared_self (s : State) (a : Nat) (r : RegRow) : rd (rcCleared s a r) a = rd s a &&& ~~~(w32 r.rc) := rd_wr_self s a _

theorem rd_rcCleared_ne (s : State) (a : Nat) (r : RegRow) {b : Nat} (hb : b ≠ a) : rd (rcCleared s a r) b = rd s b := rd_wr_ne s a b _ hb

@[simp] theorem rcCleared_out (s : State) (a : Nat) (r : RegRow) : (rcCleared s a r).out = s.out := rfl

@[simp] theorem rcCleared_access (s : State) (a : Nat) (r : RegRow) : (rcCleared s a r).access = s.access := rfl

@[simp] theorem barRow_rcCleared (s : State) (a : Nat) (r : RegRow) (host off : Nat) :
    barRow (rcCleared s a r) host off = barRow s host off := barRow_wr s a _ host off

/-- A plain register reads as the word it holds, and its RC bits then clear. -/
theorem readReg_of_plain {a : Nat} (hp : PlainReg a) (s : State) (r : RegRow) : readReg s a r = (rd s a, rcCleared s a r) := by
  obtain ⟨hfree, hcomputed, hlive⟩ := hp
  simp [readReg, hfree, hcomputed, hlive, rcCleared]

/-- The second word of an 8-byte read is not changed by what the first one clears. -/
theorem wideRead_of_plain {s : State} {host off a b : Nat} {w x : Bool} {r q : RegRow} (hlo : barRow s host off = some (a, w, r))
    (hhi : barRow s host (off + 4) = some (b, x, q)) (hab : a ≠ b) (ha : PlainReg a) (hb : PlainReg b) (req : Nat) :
    wideRead s host req off = answer (rcCleared (rcCleared s a r) b q) host req off [rd s a, rd s b] := by
  have hhi' : barRow (rcCleared s a r) host (off + 4) = some (b, x, q) := by rw [barRow_rcCleared, hhi]
  simp [wideRead, readAt_of_row hlo, readReg_of_plain ha, readAt_of_row hhi', readReg_of_plain hb, rd_rcCleared_ne s a r hab.symm]

/-! ### A register written (R11, R12, R14) -/

theorem rd_wrWords_of_lt (ws : List Word) (s : State) {a b : Nat} (h : a < b) : rd (wrWords s b ws) a = rd s a := by
  induction ws generalizing s b with
  | nil => rfl
  | cons w ws ih => rw [wrWords, ih _ (by omega), rd_wr_ne _ _ _ _ h.ne]

/-- The view of a connection stands in registers above RME_CONN_SEL. -/
theorem rd_connView_connSel (s : State) (v : Word) : rd (connView s v) Reg.RME_CONN_SEL = rd s Reg.RME_CONN_SEL := by
  unfold connView
  dsimp only
  split
  · exact rd_wrN_ne _ _ _ _ (by decide)
  · rw [rd_wrN_ne _ _ _ _ (by decide), rd_wrWords_of_lt _ _ (by decide)]

theorem rd_ite_of_eq {c : Prop} [Decidable c] {s t : State} {a : Nat} (h : rd t a = rd s a) : rd (if c then t else s) a = rd s a := by
  split
  · exact h
  · rfl

/-- The action of a write changes other registers only, never the one written. -/
theorem rd_writeAct_self (s : State) (a : Nat) (v : Word) : rd (writeAct s a v) a = rd s a := by
  unfold writeAct
  split
  case isTrue ha =>
    subst ha
    exact rd_ite_of_eq (rd_connView_connSel s v)
  split
  case isTrue ha =>
    subst ha
    exact rd_ite_of_eq (rd_wrF_ne _ _ _ _ _ _ (by decide))
  split
  case isTrue ha =>
    subst ha
    exact rd_ite_of_eq (rd_wrF_ne _ _ _ _ _ _ (by decide))
  split
  case isTrue ha =>
    simp only [Bool.and_eq_true, decide_eq_true_eq] at ha
    obtain ⟨⟨hbase, _⟩, _⟩ := ha
    have hpos : 0 < a := lt_of_lt_of_le (by decide) hbase
    exact rd_ite_of_eq (rd_wrF_ne _ _ _ _ _ _ (by omega))
  rfl

theorem writeReg_of_ownRow {a : Nat} (hown : ownRow a = true) (s : State) (r : RegRow) (v collide : Word) :
    writeReg s a r v collide = s :=
  if_pos hown

theorem rd_writeReg_self {a : Nat} (hown : ownRow a = false) (s : State) (r : RegRow) (v collide : Word) :
    rd (writeReg s a r v collide) a = fieldsAfter r (rd s a) v collide := by
  simp [writeReg, hown, rd_writeAct_self]

/-- One bit that is not RW, after a write of its register. -/
theorem rdB_writeReg_of_not_rw {a i : Nat} {r : RegRow} (hown : ownRow a = false) (hi : i < 32) (hrw : getB (w32 r.rw) i = false)
    (s : State) (v collide : Word) :
    rdB (writeReg s a r v collide) a i = (rdB s a i && !(getB v i && !getB collide i && getB (w32 r.w1c) i)) := by
  rw [rdB, rd_writeReg_self hown, getB_fieldsAfter_of_not_rw r _ v collide hi hrw, rdB]

/-- A set bit that the data path sets in the cycle of the write stays set, whatever is written (R14). -/
theorem rdB_writeReg_of_collide {s : State} {a i : Nat} {r : RegRow} {collide : Word} (hi : i < 32) (hrw : getB (w32 r.rw) i = false)
    (hcol : getB collide i = true) (hset : rdB s a i = true) (v : Word) : rdB (writeReg s a r v collide) a i = true := by
  cases hown : ownRow a with
  | true => rw [writeReg_of_ownRow hown, hset]
  | false => simp [rdB_writeReg_of_not_rw hown hi hrw, hset, hcol]

/-! ### The obligations -/

/-- Settles O14: the bits the data path sets in the cycle are kept out of what a write clears, and no action of a write reaches its
own register. -/
theorem setBeatsClearInOneCycle : Obligations.SetBeatsClearInOneCycle := by
  refine ⟨fun s host off a r v collide i hans hrow hpair hi _ hrw hcol hset =>
      ⟨_, exec_registerWrite_of_row hans hrow hpair v collide, rdB_writeReg_of_collide hi hrw hcol hset v⟩,
    fun s host off a r v collide i hans hrow hpair hi hw1c hrw hcol hown =>
      ⟨_, exec_registerWrite_of_row hans hrow hpair v collide, ?_⟩⟩
  simp [rdB_writeReg_of_not_rw hown hi hrw, hw1c, hcol]

/-- Settles O15: a plain register's RC bits clear behind its reading, and the second half of an 8-byte read is another register. -/
theorem readClearsOnlyAfterReturn : Obligations.ReadClearsOnlyAfterReturn := by
  refine ⟨fun s host req off a w r hans hrow => ?_, fun s host req off a b w x r q c hans hlo hhi hab ha hb hc => ?_⟩
  · have hread := exec_rcFieldRead_word_of_answers hans req off
    rw [readAt_of_row hrow] at hread
    refine ⟨hread, fun ha => ⟨_, hread, ?_⟩⟩
    rw [readReg_of_plain ha]
    exact ⟨rfl, rd_rcCleared_self s a r, fun b hb => rd_rcCleared_ne s a r hb, rfl⟩
  · have hread : exec c s = .next (wideRead s host req off) := by
      obtain rfl | ⟨rfl, hpair, halign, hfence⟩ := hc
      · exact exec_rcFieldRead_wide_of_answers hans req off
      · exact exec_pairWideAccess_read_of_pair hans hlo hpair halign hfence req
    refine ⟨_, hread, ?_⟩
    rw [wideRead_of_plain hlo hhi hab ha hb]
    refine ⟨rfl, ?_, ?_, fun d hda hdb => ?_, rfl⟩
    · exact (rd_rcCleared_ne _ b q hab).trans (rd_rcCleared_self s a r)
    · exact (rd_rcCleared_self _ b q).trans (by rw [rd_rcCleared_ne s a r hab.symm])
    · exact (rd_rcCleared_ne _ b q hdb).trans (rd_rcCleared_ne s a r hda)

/-- Settles O10: without a row of the register map a read answers 0 and a write finds nothing to write. -/
theorem unmappedAccessHasNoEffect : Obligations.UnmappedAccessHasNoEffect := by
  refine ⟨fun s host req off hans hrow => ⟨?_, ?_, ?_⟩, fun s host req off v collide hans hrow => ⟨?_, ?_, ?_⟩,
    fun s host req off d hans hlo hhi => ⟨?_, ?_, ?_⟩⟩
  · exact exec_pairLoRead_of_unmapped hans hrow req
  · exact exec_pairHiRead_of_unmapped hans hrow req
  · rw [exec_rcFieldRead_word_of_answers hans, readAt_of_unmapped hrow, answer]
  · rw [exec_registerWrite_of_answers hans, plainWrite_of_unmapped hrow]
  · exact exec_pairLoWrite_of_unmapped hans hrow req v
  · exact exec_pairHiWrite_of_unmapped hans hrow req v
  · rw [exec_pairWideAccess_read_of_unmapped hans hlo, wideRead_of_unmapped hlo hhi, answer]
  · rw [exec_rcFieldRead_wide_of_answers hans, wideRead_of_unmapped hlo hhi, answer]
  · rw [exec_pairWideAccess_write_of_unmapped hans hlo, plainWrite_of_unmapped hhi]

end Sys2Proof.Machine
end

section
/-! SUPPORT. One step of the switch: what a command and a tick leave of the queue, the time and the fuses, and the invariants that
follow over any number of steps (R53, R511, R544; log entries 1 to 4). -/

namespace Sys2Proof.Machine

open Sys2Proof

/-! ### The fuses -/

theorem sameFuses_iff (s t : State) : SameFuses s t ↔ t.root.fuses = s.root.fuses := by
  simp [SameFuses, RootRec.fuses]

theorem SameFuses.trans {s t u : State} (hst : SameFuses s t) (htu : SameFuses t u) : SameFuses s u := by
  rw [sameFuses_iff] at hst htu ⊢
  exact htu.trans hst

/-- A command that writes the fuses: a PROVISION, on a part not provisioned, with the values it carries. -/
def FusesBy (c : Instr) (s t : State) : Prop :=
  ∃ (q : ReqSrc) (h0 h1 secret : BitVec 256), c = .provision q h0 h1 secret ∧ s.root.provisioned = false ∧
    t.root.fuses = ⟨true, h0, h1, secret⟩

/-! ### One command -/

/-- What every command answers: a next state with the queue as it was, no earlier, and the fuses as they were unless PROVISION writes
them. -/
theorem exec_answers (c : Instr) (s : State) :
    ∃ t, exec c s = .next t ∧ t.pending = s.pending ∧ s.now ≤ t.now ∧ (SameFuses s t ∨ FusesBy c s t) := by
  by_cases hp : ∃ q h0 h1 secret, c = .provision q h0 h1 secret
  · obtain ⟨q, h0, h1, secret, rfl⟩ := hp
    obtain ⟨t, ht, hpending, hnow, hfuses⟩ := execProvision_fuses q h0 h1 secret s
    refine ⟨t, ht, hpending, hnow.ge, ?_⟩
    obtain hsame | ⟨hblank, hnew⟩ := hfuses
    · exact .inl ((sameFuses_iff s t).mpr hsame)
    · exact .inr ⟨q, h0, h1, secret, rfl, hblank, hnew⟩
  · obtain ⟨t, ht, hpending, hnow, hfuses⟩ :=
      next_of_later _ s (exec_later c s fun q h0 h1 secret hc => hp ⟨q, h0, h1, secret, hc⟩)
    exact ⟨t, ht, hpending, hnow, .inl ((sameFuses_iff s t).mpr hfuses)⟩

/-! ### One step -/

theorem step_of_empty {s : State} (h : s.pending = []) : step s = .next (tick s) := by simp [step, h]

theorem step_of_front {s : State} {c : Instr} {rest : List Instr} (h : s.pending = c :: rest) :
    step s = exec c { s with pending := rest } := by simp [step, h]

/-- What every step answers: the queue without its front, no earlier time, one core cycle more where the queue was empty, and the fuses as
they were unless the front command is a PROVISION that writes them. -/
theorem step_answers (s : State) :
    ∃ t, step s = .next t ∧ t.pending = s.pending.tail ∧ s.now ≤ t.now ∧ (s.pending = [] → t.now = s.now + 1) ∧
      (SameFuses s t ∨ ∃ c rest, s.pending = c :: rest ∧ FusesBy c s t) := by
  cases hq : s.pending with
  | nil =>
    obtain ⟨hpending, hnow, hfuses⟩ := tick_fuses s
    exact ⟨tick s, step_of_empty hq, hpending.trans hq, by omega, fun _ => hnow, .inl ((sameFuses_iff s _).mpr hfuses)⟩
  | cons c rest =>
    obtain ⟨t, ht, hpending, hnow, hfuses⟩ := exec_answers c { s with pending := rest }
    refine ⟨t, (step_of_front hq).trans ht, hpending, hnow, fun h => absurd h (by simp), ?_⟩
    exact hfuses.imp id fun h => ⟨c, rest, rfl, h⟩

/-- Provisioned fuses stay as they are in one step. -/
theorem step_keeps_provisioned {s t : State} (hprov : s.root.provisioned = true) (hstep : step s = .next t) : SameFuses s t := by
  obtain ⟨u, hu, -, -, -, hfuses⟩ := step_answers s
  obtain rfl : u = t := by simpa [hu] using hstep
  obtain hsame | ⟨c, rest, -, q, h0, h1, secret, -, hblank, -⟩ := hfuses
  · exact hsame
  · simp [hprov] at hblank

/-- A run of one step more: the step, then the rest of the run. -/
theorem run_succ {n : Nat} {s t : State} (h : Host.Core.run core (n + 1) s = .next t) :
    ∃ u, step s = .next u ∧ Host.Core.run core n u = .next t := by
  obtain ⟨u, hu, -⟩ := step_answers s
  have hcore : Sys2Proof.core.step s = .next u := hu
  exact ⟨u, hu, by simpa only [Host.Core.run, hcore] using h⟩

/-! ### The obligations -/

/-- Settles O7: a command other than PROVISION, and a tick, keep the fuses; PROVISION writes them on a part not provisioned only. -/
theorem onlyProvisionWritesFuses : Obligations.OnlyProvisionWritesFuses := by
  intro s t hstep
  obtain ⟨u, hu, -, -, -, hfuses⟩ := step_answers s
  obtain rfl : u = t := by simpa [hu] using hstep
  refine hfuses.imp id ?_
  rintro ⟨c, rest, hq, q, h0, h1, secret, rfl, hblank, hnew⟩
  obtain ⟨hprov, h0', h1', hsecret⟩ : u.root.provisioned = true ∧ u.root.keyHash0 = h0 ∧ u.root.keyHash1 = h1 ∧
      u.root.attSecret = secret := by simpa [RootRec.fuses] using hnew
  exact ⟨q, h0, h1, secret, rest, hq, hblank, hprov, h0', h1', hsecret⟩

/-- Settles O8, by induction on the number of steps: each keeps provisioned fuses, so they stay provisioned. -/
theorem provisionedFusesNeverChange : Obligations.ProvisionedFusesNeverChange := by
  intro n
  induction n with
  | zero =>
    intro s t _ hrun
    obtain rfl : s = t := Host.Outcome.next.inj hrun
    exact (sameFuses_iff s s).mpr rfl
  | succ n ih =>
    intro s t hprov hrun
    obtain ⟨u, hu, hrest⟩ := run_succ hrun
    have hsame := step_keeps_provisioned hprov hu
    exact hsame.trans (ih u t (hsame.1.trans hprov) hrest)

/-- Settles O9: what PROVISION writes is provisioned, and nothing else writes the fuses. -/
theorem blankFusesInvariant : Obligations.BlankFusesInvariant := by
  intro s t hblank hstep hunprov
  obtain ⟨hprov, h0, h1, hsecret⟩ | ⟨_, _, _, _, _, -, -, hprov, -⟩ := onlyProvisionWritesFuses s t hstep
  · rw [h0, h1, hsecret]
    exact hblank (hprov ▸ hunprov)
  · simp [hprov] at hunprov

/-- Settles O5: from what every command and every step answers. -/
theorem everyCommandCompletes : Obligations.EveryCommandCompletes := by
  refine ⟨fun c s => ?_, fun s => ?_⟩
  · obtain ⟨t, ht, hpending, hnow, -⟩ := exec_answers c s
    exact ⟨t, ht, hpending, hnow⟩
  · obtain ⟨t, ht, -⟩ := step_answers s
    exact ⟨t, ht⟩

/-- Settles O6: from what every step answers. -/
theorem queueIsFirstInFirstOut : Obligations.QueueIsFirstInFirstOut := by
  intro s t hstep
  obtain ⟨u, hu, hpending, hnow, htick, -⟩ := step_answers s
  obtain rfl : u = t := by simpa [hu] using hstep
  exact ⟨hpending, hnow, htick⟩

/-- Settles O1: the definition of a step. -/
theorem stepRunsFrontCommand : Obligations.StepRunsFrontCommand :=
  ⟨fun _ _ => step_of_front rfl, fun _ _ _ h => step_of_front h⟩

/-- Settles O2: from what a tick leaves. -/
theorem idleStepIsOneCoreCycle : Obligations.IdleStepIsOneCoreCycle := by
  intro s hq
  obtain ⟨hpending, hnow, hfuses⟩ := tick_fuses s
  exact ⟨step_of_empty hq, hnow, hpending.trans hq, (sameFuses_iff s _).mpr hfuses⟩

/-- Settles O3: the table gives no bits (log entry 2). -/
theorem tableWordsSpellNoCommand : Obligations.TableWordsSpellNoCommand :=
  ⟨fun _ _ => rfl, fun _ _ _ => rfl⟩

/-- Settles O4: each named register and field of the reset state is evaluated. -/
theorem resetIsColdStart : Obligations.ResetIsColdStart := by
  refine ⟨?_, ?_, ?_, ?_, ?_, ?_, ?_, ?_, ?_, ?_, ?_, ?_, rfl, fun _ => ⟨rfl, rfl, rfl⟩, rfl⟩
  all_goals decide +kernel

end Sys2Proof.Machine
end

section
/-! SUPPORT. Malformed accesses of a BAR0, and the two halves of a register pair: the read latch and the write holding (R6 to R10). -/

namespace Sys2Proof.Machine

open Sys2Proof

theorem mefWritten_of_silent {s : State} {host : Nat} (h : mefAnswers s host = false) (f : State → State) : mefWritten s host f = s :=
  if_neg (by simp [h])

theorem mefAnswered_of_silent {s : State} {host : Nat} (h : mefAnswers s host = false) (req : Nat) (f : State → State) :
    mefAnswered s host req f = emit s (.cpl (upPort s host) req 0 1 false []) :=
  if_neg (by simp [h])

/-- An access that R7 does not let through is handed to the MEF's answer as a malformed one. -/
theorem exec_bar0MalformedAccess_of_malformed {off len : Nat} (h : off % 4 ≠ 0 ∨ (len ≠ 4 ∧ len ≠ 8)) (s : State) (host req : Nat) :
    exec (.bar0MalformedAccess host req off len) s = .next (mefAnswered s host req fun s =>
      faultP (bump (emit s (.cpl (upPort s host) req 0 4 false [])) Reg.MGMT_BAD_ACCESS) 17 0x01 1 (upPort s host) off) := by
  change execBar0MalformedAccess host req off len s = _
  refine if_neg ?_
  simp only [Bool.and_eq_true, Bool.or_eq_true, decide_eq_true_eq]
  omega

/-! ### A pair read -/

section Answering

variable {s : State} {host : Nat} (h : mefAnswers s host = true)
include h

variable {off a : Nat} {w : Bool} {r : RegRow} (hrow : barRow s host off = some (a, w, r))
include hrow

theorem exec_pairLoRead_of_row (req : Nat) : exec (.pairLoRead host req off) s = .next (
    if isFence a then fenceAt s host req a false
    else answer
      (if r.pair = 1 then setLatch (readReg s a r).2 host req (some (a, (computedWord (readReg s a r).2 (a + 4)).getD (rd (readReg s a r).2 (a + 4))))
        else (readReg s a r).2) host req off [(readReg s a r).1]) := by
  change execPairLoRead host req off s = _
  simp [execPairLoRead, mefAnswered_of_answers h, hrow]

/-- A _HI whose pair this requester holds the latch of. -/
theorem exec_pairHiRead_of_latched {b : Nat} {v : Word} (req : Nat) (hp : r.pair = 2) (hb : b + 4 = a)
    (hl : s.access.latch.get (host * 65536 + req) = some (b, v)) :
    exec (.pairHiRead host req off) s = .next (answer (setLatch s host req none) host req off [v]) := by
  change execPairHiRead host req off s = _
  simp [execPairHiRead, mefAnswered_of_answers h, hrow, hl, hp, hb]

/-- A register that is no _HI, or whose pair this requester holds no latch of. -/
theorem exec_pairHiRead_of_not_latched (req : Nat)
    (hno : r.pair ≠ 2 ∨ ∀ b v, s.access.latch.get (host * 65536 + req) = some (b, v) → b + 4 ≠ a) :
    exec (.pairHiRead host req off) s = .next (answer (readReg s a r).2 host req off [(readReg s a r).1]) := by
  change execPairHiRead host req off s = _
  rw [execPairHiRead, mefAnswered_of_answers h]
  cases hl : s.access.latch.get (host * 65536 + req) with
  | none => simp [hrow]
  | some x =>
    have hx : ¬ (r.pair = 2 ∧ x.1 + 4 = a) := fun hx => hno.elim (· hx.1) fun hno => hno x.1 x.2 hl hx.2
    simp [hrow, hx]

/-! ### A pair written -/

theorem exec_pairLoWrite_of_row (req : Nat) (v : Word) : exec (.pairLoWrite host req off v) s = .next (
    if w = true ∧ r.pair = 1 then { s with access := { s.access with hold := s.access.hold.set (host * 65536 + req) (some (a, v)) } }
    else s) := by
  change execPairLoWrite host req off v s = _
  simp [execPairLoWrite, mefWritten_of_answers h, hrow]

theorem exec_pairHiWrite_of_row (req : Nat) (v : Word) : exec (.pairHiWrite host req off v) s = .next (
    if w = true ∧ r.pair = 2 then
      writePair (dropHold s host req) host req (a - 4) (heldHalf s host req (a - 4) (rd s (a - 4))) v
    else s) := by
  change execPairHiWrite host req off v s = _
  simp [execPairHiWrite, mefWritten_of_answers h, hrow]

/-- An aligned 8-byte write of a pair. -/
theorem exec_pairWideAccess_write_of_pair (hp : r.pair = 1) (hal : off % 8 = 0) (req : Nat) (d : DWord) :
    exec (.pairWideAccess host req off (some d)) s =
      .next (if w then writePair s host req a (lo32 d.toNat) (hi32 d.toNat) else s) := by
  change execPairWideAccess host req off (some d) s = _
  simp [execPairWideAccess, hrow, hp, hal, mefWritten_of_answers h]

/-- An aligned 8-byte read of a pair. -/
theorem exec_pairWideAccess_read_of_aligned (hp : r.pair = 1) (hal : off % 8 = 0) (req : Nat) :
    exec (.pairWideAccess host req off none) s = .next (if isFence a then fenceAt s host req a true else wideRead s host req off) := by
  change execPairWideAccess host req off none s = _
  simp [execPairWideAccess, hrow, hp, hal, mefAnswered_of_answers h]

/-- An 8-byte access to two words that are no aligned pair (log entry 88). -/
theorem exec_pairWideAccess_of_words (hno : r.pair ≠ 1 ∨ off % 8 ≠ 0) (req : Nat) (d : DWord) :
    exec (.pairWideAccess host req off none) s = .next (wideRead s host req off) ∧
    exec (.pairWideAccess host req off (some d)) s =
      .next (plainWrite (plainWrite s host off (lo32 d.toNat) 0) host (off + 4) (hi32 d.toNat) 0) := by
  have hno' : ¬ (r.pair = 1 ∧ off % 8 = 0) := by tauto
  constructor
  · change execPairWideAccess host req off none s = _
    simp [execPairWideAccess, hrow, hno', mefAnswered_of_answers h]
  · change execPairWideAccess host req off (some d) s = _
    simp [execPairWideAccess, hrow, hno', mefWritten_of_answers h]

end Answering

/-! ### A MEF that does not answer -/

section Silent

variable {s : State} {host : Nat} (h : mefAnswers s host = false)
include h

theorem exec_pairWideAccess_read_of_silent (req off : Nat) :
    exec (.pairWideAccess host req off none) s = .next (emit s (.cpl (upPort s host) req 0 1 false [])) := by
  change execPairWideAccess host req off none s = _
  unfold execPairWideAccess
  cases hrow : barRow s host off with
  | none => simp [mefAnswered_of_silent h]
  | some x => by_cases hp : x.2.2.pair = 1 ∧ off % 8 = 0 <;> simp [hp, mefAnswered_of_silent h]

theorem exec_pairWideAccess_write_of_silent (req off : Nat) (d : DWord) : exec (.pairWideAccess host req off (some d)) s = .next s := by
  change execPairWideAccess host req off (some d) s = _
  unfold execPairWideAccess
  cases hrow : barRow s host off with
  | none => simp [mefWritten_of_silent h]
  | some x => by_cases hp : x.2.2.pair = 1 ∧ off % 8 = 0 <;> simp [hp, mefWritten_of_silent h]

end Silent

/-! ### The half of a pair that a requester holds -/

theorem heldHalf_of_held {s : State} {host req a : Nat} {lo : Word} (h : s.access.hold.get (host * 65536 + req) = some (a, lo))
    (other : Word) : heldHalf s host req a other = lo := by
  simp [heldHalf, h]

theorem heldHalf_of_none {s : State} {host req : Nat} (h : s.access.hold.get (host * 65536 + req) = none) (a : Nat) (other : Word) :
    heldHalf s host req a other = other := by
  simp [heldHalf, h]

/-- A register without RC bits reads the same behind its own reading. -/
theorem rd_rcCleared_of_rc_zero {s : State} {a : Nat} {r : RegRow} (hrc : r.rc = 0) (b : Nat) : rd (rcCleared s a r) b = rd s b := by
  by_cases hb : b = a
  · subst hb
    rw [rd_rcCleared_self, hrc, show ~~~(w32 0) = BitVec.allOnes 32 by decide, BitVec.and_allOnes]
  · exact rd_rcCleared_ne s a r hb

/-! ### The obligations -/

/-- Settles O11: a malformed access, where the MEF answers and where it does not. -/
theorem malformedAccessIsAborted : Obligations.MalformedAccessIsAborted := by
  refine ⟨fun s host req off len hans hbad => ?_, fun s host req off len hans hbad => ?_⟩
  · rw [exec_bar0MalformedAccess_of_malformed hbad, mefAnswered_of_answers hans]
  · rw [exec_bar0MalformedAccess_of_malformed hbad, mefAnswered_of_silent hans]

/-- Settles O12: the branches of the two half reads; a register without RC bits is not changed by its reading. -/
theorem pairReadsLatchTheHighHalf : Obligations.PairReadsLatchTheHighHalf := by
  refine ⟨fun s host req off a w r hans hrow hf => ?_, fun s host req off a w r hans hrow hf ha hb hrc hp => ?_,
    fun s host req off a w r hans hrow hf => ?_, fun s host req off a w r v hans hrow hp hl => ?_,
    fun s host req off a w r hans hrow hno => ?_, fun s host req off hans => ⟨?_, ?_⟩⟩
  · rw [exec_pairLoRead_of_row hans hrow, if_neg (by simp [hf])]
  · have hread := exec_pairLoRead_of_row hans hrow req
    rw [if_neg (by simp [hf]), if_pos hp, readReg_of_plain ha, hb.2.1, Option.getD_none, rd_rcCleared_of_rc_zero hrc] at hread
    exact ⟨_, hread, rfl, rfl, rfl, rd_rcCleared_of_rc_zero hrc⟩
  · rw [exec_pairLoRead_of_row hans hrow, if_pos hf]
  · exact exec_pairHiRead_of_latched hans hrow req hp rfl hl
  · exact exec_pairHiRead_of_not_latched hans hrow req hno
  · exact congrArg _ (mefAnswered_of_silent hans req _)
  · exact congrArg _ (mefAnswered_of_silent hans req _)

/-- Settles O13: the branches of the half writes and of the 8-byte access. -/
theorem pairWritesApplyAsAWhole : Obligations.PairWritesApplyAsAWhole := by
  refine ⟨fun s host req off a r v hans hrow hp => ?_, fun s host req off a r v hans hrow hp => ?_,
    fun s host req off a w r v hans hrow => ⟨fun hno => ?_, fun hno => ?_⟩, fun s host req off a r d hans hrow hp hal => ?_,
    fun s host req off a w r hans hrow hp hal => exec_pairWideAccess_read_of_aligned hans hrow hp hal req,
    fun s host req off a w r d hans hrow hno => exec_pairWideAccess_of_words hans hrow hno req d,
    fun s host req off v d hans => ⟨?_, ?_, exec_pairWideAccess_write_of_silent hans req off d,
      exec_pairWideAccess_read_of_silent hans req off⟩⟩
  · rw [exec_pairLoWrite_of_row hans hrow, if_pos ⟨rfl, hp⟩]
  · have hwrite := exec_pairHiWrite_of_row hans hrow req v
    rw [if_pos ⟨rfl, hp⟩, Nat.add_sub_cancel] at hwrite
    refine ⟨fun lo hl => ?_, fun hl => ⟨dropHold s host req, ?_, rfl⟩⟩
    · rw [hwrite, heldHalf_of_held hl]
      rfl
    · rw [hwrite, heldHalf_of_none hl]
  · rw [exec_pairLoWrite_of_row hans hrow, if_neg (by rintro ⟨rfl, hp⟩; simp [hp] at hno)]
  · rw [exec_pairHiWrite_of_row hans hrow, if_neg (by rintro ⟨rfl, hp⟩; simp [hp] at hno)]
  · rw [exec_pairWideAccess_write_of_pair hans hrow hp hal, if_pos rfl]
  · exact congrArg _ (mefWritten_of_silent hans _)
  · exact congrArg _ (mefWritten_of_silent hans _)

end Sys2Proof.Machine
end

section
/-! SUPPORT. Resets and starts (R23, R48, R79 to R92, R105, R547, R556): what each row does from every state. -/

namespace Sys2Proof.Machine

open Sys2Proof

/-! ### Reset causes -/

/-- A cause while neither a brace nor the cloche holds it, with the switch awake (R83). -/
theorem warmCause_of_free {s : State} (hoff : s.start.phase ≠ .off) (hawake : s.pwr.asleep = 0) (hbrace : braceHolds s = false)
    (hcloche : inCloche s = false) (c r : Nat) : warmCause s c r = retention s c false r := by
  simp [warmCause, hoff, hawake, hbrace, hcloche]

/-- A cause that a brace or the cloche holds back (R98). -/
theorem warmCause_of_held {s : State} (hoff : s.start.phase ≠ .off) (hawake : s.pwr.asleep = 0)
    (hheld : braceHolds s = true ∨ inCloche s = true) (c r : Nat) :
    warmCause s c r = { s with root := { s.root with heldCause := some (s.root.heldCause.getD c) } } := by
  simp [warmCause, hoff, hawake, hheld]

/-- Settles O16: the branches of the cause rows, of the retention they begin, and of the rise of VAUX. -/
theorem resetCausesBeginTheirStart : Obligations.ResetCausesBeginTheirStart := by
  refine ⟨fun s ns r => ⟨fun h => if_pos h, fun h => if_neg (by omega)⟩, fun s t c hoff hawake hbrace hcloche ht hfree => ?_,
    fun s t c r hoff hawake hbrace hcloche ht => ⟨fun hfree hr => ?_, fun hret => ?_⟩,
    fun s c r hoff hawake hheld => warmCause_of_held hoff hawake hheld c r, fun s => ⟨fun c hc hret => ?_, fun h => ?_⟩,
    fun s r => ⟨fun h => ⟨⟨_, rfl, ?_⟩, if_pos h⟩, fun h => ⟨if_pos (by simp [h]), if_neg (by simp [h])⟩⟩,
    fun s => ⟨fun h => if_pos h, fun h => if_neg h⟩⟩
  · subst ht
    rw [warmCause_of_free hoff hawake hbrace hcloche, retention, if_neg hfree, if_pos rfl]
  · subst ht
    rw [warmCause_of_free hoff hawake hbrace hcloche, retention, if_neg hfree, if_neg hr]
    rfl
  · subst ht
    rw [warmCause_of_free hoff hawake hbrace hcloche, retention, if_pos hret]
  · change execRetentionWindowExpiry s = _
    simp [execRetentionWindowExpiry, hc, hret]
  · change execRetentionWindowExpiry s = _
    cases hc : s.start.retCause with
    | none => simp [execRetentionWindowExpiry, hc]
    | some c => simp [execRetentionWindowExpiry, hc, h.resolve_left (by simp [hc])]
  · exact if_neg (by simp [h])

/-! ### The loss of VAUX -/

/-- A fold keeps what each of its steps keeps. -/
theorem foldl_keeps {α β γ : Type} (f : β → γ) (g : β → α → β) (h : ∀ b a, f (g b a) = f b) (l : List α) (b : β) :
    f (l.foldl g b) = f b := by
  induction l generalizing b with
  | nil => rfl
  | cons a l ih => rw [List.foldl_cons, ih, h]

theorem setGate_root (s : State) (c : Nat) (on : Bool) : (setGate s c on).root = s.root := by
  unfold setGate
  split <;> rfl

theorem setGate_seed (s : State) (c : Nat) (on : Bool) : (setGate s c on).seed = s.seed := by
  unfold setGate
  split <;> rfl

theorem chCut_root (s : State) (c n : Nat) : (chCut s c n).root = s.root := setGate_root (setChState s c n) c false

theorem chCut_seed (s : State) (c n : Nat) : (chCut s c n).seed = s.seed := setGate_seed (setChState s c n) c false

theorem cutOn_root (s : State) (c : Nat) : (if chOn s c then chCut s c 2 else s).root = s.root := by
  split
  · exact chCut_root s c 2
  · rfl

theorem cutOn_seed (s : State) (c : Nat) : (if chOn s c then chCut s c 2 else s).seed = s.seed := by
  split
  · exact chCut_seed s c 2
  · rfl

theorem stopSeedUpdate_of_idle {s : State} (h : rdF s Reg.SEED_UPDATE_STATUS 1 0 = 0) : stopSeedUpdate s = s := by
  simp [stopSeedUpdate, h]

theorem dropAttest_of_idle {s : State} (h : s.mgmt.attWait = none) : dropAttest s = s := by
  simp [dropAttest, h]

/-- Settles O17: what the rootstock die keeps without its supply, behind the cutting of every slot channel that is on. -/
theorem vauxLossKeepsOnlyFusesCountersAndFlash : Obligations.VauxLossKeepsOnlyFusesCountersAndFlash := by
  refine fun s => ⟨fun hoff => if_pos hoff, fun hon hatt hupd => ⟨_, if_neg hon, ?_⟩⟩
  simp only [stopSeedUpdate_of_idle hupd, dropAttest_of_idle hatt]
  have hroot := foldl_keeps State.root _ cutOn_root (List.range 16) s
  have hseed := foldl_keeps State.seed _ cutOn_seed (List.range 16) s
  simp [SameFuses, rootLost, State.reset, hroot, hseed]

/-! ### Warm resets -/

/-- Settles O18: the branches of the request, of the end of its quiescence, of the deadline and of the regulator retry. -/
theorem warmResetRequestAndDeadline : Obligations.WarmResetRequestAndDeadline := by
  refine ⟨fun s t q hserved hbrace ht => ?_, fun s q hbrace => if_pos hbrace, fun s u t r b hq hu ht => ?_,
    fun s r hq => ?_, fun s t ht => ⟨fun hwarm hfail => ?_, fun h => if_neg ?_⟩, fun s => ⟨fun h => if_pos h, fun h => if_neg h⟩⟩
  · change execWarmReset q s = _
    rw [execWarmReset, if_neg (by simp [hbrace]), serve_of_served _ _ _ _ _ _ _ hserved, ht]
  · change execWarmQuiesceDone r s = _
    simp only [execWarmQuiesceDone, hq, ht, hu]
  · change execWarmQuiesceDone r s = _
    simp only [execWarmQuiesceDone, hq]
  · rw [ht]
    exact if_pos (by simp [hwarm, hfail])
  · obtain h | h := h <;> simp [h]

/-! ### The steps of a start, flash bursts, the internal link, snapshots -/

theorem exec_startStepReady_of_running {s : State} (hrun : s.start.phase = .steps) (hbrace : s.pfail.braceAt = none) (r : StepResult)
    (rd : StepReadings) : exec (.startStepReady r rd) s = .next (if s.start.warm then warmStep s r rd else coldStep s r rd) :=
  if_neg (by simp [hrun, hbrace])

theorem exec_startStepReady_of_waiting {s : State} (h : s.start.phase ≠ .steps ∨ s.pfail.braceAt ≠ none) (r : StepResult)
    (rd : StepReadings) : exec (.startStepReady r rd) s = .next s :=
  if_pos (by simpa [Option.isSome_iff_ne_none] using h)

theorem exec_flushTargetWaitExpiry_of_waiting {s : State} {k : Nat} (hrun : s.start.phase = .steps) (hcold : s.start.warm = false)
    (hstep : startStep s = 9) (hk : k < targetCount s) : exec (.flushTargetWaitExpiry k) s = .next (setRecord s k 4 0 0) :=
  if_pos (by simp [hrun, hcold, hstep, hk])

theorem exec_flushTargetWaitExpiry_of_else {s : State} {k : Nat}
    (h : s.start.phase ≠ .steps ∨ s.start.warm = true ∨ startStep s ≠ 9 ∨ targetCount s ≤ k) :
    exec (.flushTargetWaitExpiry k) s = .next s := by
  refine if_neg ?_
  obtain h | h | h | h := h <;> simp [h]

theorem exec_internalLinkSilent_of_alive {s : State} (hlive : s.root.dieDead = false) (hoff : s.start.phase ≠ .off)
    (hawake : s.start.phase ≠ .asleep) (hrails : s.root.railsOn = true) : exec .internalLinkSilent s =
      .next (emit (bump (wrB { s with root := { s.root with dieDead := true } } Reg.FLT_STATUS 4 true) Reg.ROOT_LINK_LOSS) (.pin .errN false)) :=
  if_neg (by simp [hlive, hoff, hawake, hrails])

theorem exec_internalLinkSilent_of_else {s : State}
    (h : s.root.dieDead = true ∨ s.start.phase = .off ∨ s.start.phase = .asleep ∨ s.root.railsOn = false) :
    exec .internalLinkSilent s = .next s := by
  refine if_pos ?_
  obtain h | h | h | h := h <;> simp [h]

/-- Settles O19: the branches of each row. -/
theorem startStepsSeedReadsAndRootstock : Obligations.StartStepsSeedReadsAndRootstock := by
  refine ⟨fun s r rd => ⟨fun hrun hbrace => exec_startStepReady_of_running hrun hbrace r rd,
      fun h => exec_startStepReady_of_waiting h r rd⟩,
    fun s t a hseed ht => ?_, fun s t u a hseed ht hu => ⟨fun hfirst => ?_, fun hagain => ?_⟩, fun s a hseed => ⟨if_neg ?_, if_pos ?_⟩,
    fun s k => ⟨exec_flushTargetWaitExpiry_of_waiting, exec_flushTargetWaitExpiry_of_else⟩,
    fun s t ht => ht ▸ ⟨fun _ => rfl, fun _ => rfl, fun _ _ _ => rfl, rfl⟩,
    fun s => ⟨exec_internalLinkSilent_of_alive, exec_internalLinkSilent_of_else⟩,
    fun s => ⟨rfl, rfl, fun h => if_pos h, fun h => if_neg (by simp [h])⟩⟩
  · subst ht
    exact if_pos hseed
  · subst ht hu
    exact (if_neg (by simp [hseed])).trans (if_neg (by simpa using hfirst))
  · subst ht hu
    exact (if_neg (by simp [hseed])).trans (if_pos hagain)
  · simp [hseed]
  · simp [hseed]

/-! ### Records and targets -/

/-- A served request on the state in which it has begun. -/
theorem next_serve_of_served {s : State} {q : ReqSrc} {code : Nat} {i : Issuers} (h : Served s q code i) (rom brace : Bool)
    (f : State → State) : (Host.Outcome.next (serve s q code i rom brace f) : Res) = .next (f (beginReq s q)) :=
  congrArg _ (serve_of_served s q code i rom brace f h)

/-- Settles O20: the branches of the two requests on the state in which they have begun. -/
theorem flushRecordsAreConsumedOnRequest : Obligations.FlushRecordsAreConsumedOnRequest := by
  refine ⟨fun s t u q held hs ht hsvc hheld hu => ⟨fun hready => ?_, fun hnot => ?_⟩, fun s t q k hs ht => ⟨fun hk => ?_, fun hk hno => ?_⟩,
    fun s t q k hs ht hk hused hsvc hcls => ?_, fun s t q k ht => ⟨fun hs hsvc => ?_, fun hs hk hused h => ?_⟩⟩
  all_goals refine (next_serve_of_served hs _ _ _).trans (congrArg _ ?_)
  all_goals subst ht
  · subst hheld hu
    rw [if_neg (by simp [hsvc]), if_neg (by simpa using hready)]
  · subst hheld
    rw [if_neg (by simp [hsvc]), if_pos hnot]
  · rw [if_pos hk]
  · rw [if_neg (by omega), if_pos hno]
  · rw [if_neg (by omega), if_neg (by omega), if_neg (by simpa [hsvc] using hcls)]
  · rw [if_pos (by simp [hsvc])]
  · rw [if_neg (by omega), if_neg (by omega), if_pos (by simpa using h)]

end Sys2Proof.Machine
end

section
/-! SUPPORT. Lanes and port groups: reference clocks and rate matching (R110 to R121), tests, injection and margins (R123 to R131), and what
the commands of one lane leave alone. -/

namespace Sys2Proof.Machine

open Sys2Proof

/-! ### Reference clocks and rate matching -/

/-- The end of a window of a reference that counts; `wide` says that its spread is a fault. -/
theorem exec_pgRefWindow_of_own {s t : State} {k : Nat} {offset spread : BitVec 16} {wide : Bool} (hown : ownRef s k = true)
    (ht : t = wrB (wrF (wrF s (Reg.PG_REF_PPM k) 15 0 offset.toNat) (Reg.PG_REF_SPREAD k) 15 0 spread.toNat) (Reg.PG_STATUS k) 3 true)
    (hw : wide = (decide (pgMode t k = 2) && decide (1000 < spread.toNat))) :
    exec (.pgRefWindow k offset spread) s = .next (
      if wide = true ∨ 3500 < offset.toInt ∨ offset.toInt < -3500 then refLost (if wide then wrB t (Reg.PG_STATUS k) 5 true else t) k
      else t) := by
  refine (if_neg (by simp [hown])).trans ?_
  rw [← ht, ← hw]
  cases wide
  · by_cases h : 3500 < offset.toInt ∨ offset.toInt < -3500 <;> simp [h]
  · simp

/-- Settles O21: the branches of each row. -/
theorem laneClocksAndAlignment : Obligations.LaneClocksAndAlignment := by
  refine ⟨fun s k => ⟨fun h => if_pos h, fun h => if_neg (by simp [h])⟩,
    fun s t k offset spread ht => ⟨fun hown hn hlo hhi => ?_, fun hown hn hout => ?_, fun hown hmode hwide => ?_, fun h => if_pos (by simp [h])⟩,
    fun s t k ht => ⟨fun hdown hown => ?_, fun h => if_pos ?_⟩, fun s p => ⟨fun h => if_pos h, fun h => if_neg (by simp [h])⟩,
    fun s t u p l0 f g inFrame drift at_ hnoz hhead ht hu hf => ?_, fun s p g inFrame drift at_ h => ?_, fun s lane => rfl⟩
  · have hw : (decide (pgMode t k = 2) && decide (1000 < spread.toNat)) = false := by simpa [imp_iff_not_or] using hn
    rw [exec_pgRefWindow_of_own hown ht hw.symm, if_neg (by simp; omega)]
  · have hw : (decide (pgMode t k = 2) && decide (1000 < spread.toNat)) = false := by simpa [imp_iff_not_or] using hn
    rw [exec_pgRefWindow_of_own hown ht hw.symm, if_pos (.inr hout.symm), if_neg Bool.false_ne_true]
  · have hw : true = (decide (pgMode t k = 2) && decide (1000 < spread.toNat)) := by simp [hmode, hwide]
    rw [exec_pgRefWindow_of_own hown ht hw, if_pos (.inl rfl), if_pos rfl]
  · subst ht
    exact if_neg (by simp [hdown, hown])
  · obtain h | h := h <;> simp [h]
  · have haln : exec (.alnReceive p g inFrame drift at_) s = .next (
        if f < 3 then bumpF (moveFill u ((receiveLanes s p).map fun n => (n, 1))) (Reg.LANE_EB_ADJ l0) 15 0 1
        else if 5 < f ∧ ∀ l ∈ (receiveGroups s p g).1, 3 ≤ l.countP fun x => x == kFIL then
          bumpF (moveFill u ((receiveLanes s p).map fun n => (n, -1))) (Reg.LANE_EB_ADJ l0) 31 16 1
        else u) := by
      change execAlnReceive p g inFrame drift at_ s = _
      subst hf hu ht
      simp only [execAlnReceive, hnoz, hhead, apply_ite Host.Outcome.next, Bool.and_eq_true, List.all_eq_true, decide_eq_true_eq]
    refine ⟨fun h => ?_, fun h hfil => ?_, fun h hkeep => ?_⟩
    · rw [haln, if_pos h]
    · rw [haln, if_neg (by omega), if_pos ⟨h, hfil⟩]
    · rw [haln, if_neg (by omega), if_neg]
      rintro ⟨h5, hfil⟩
      obtain h | ⟨l, hl, hfew⟩ := hkeep
      · omega
      · exact absurd (hfil l hl) (by omega)
  · change execAlnReceive p g inFrame drift at_ s = _
    unfold execAlnReceive
    obtain h | h := h <;> simp [h]

/-! ### Lane tests, injection and margins -/

/-- A write of LANE_TEST_CTRL that may take effect; t is the state with it stored and a test that it ends ended. -/
theorem testWrite_of_accepted {s t : State} {n : Nat} {v : Word} (hmay : testMay s n = true) (hform : testForm s n v = true)
    (hsame : rdB s (Reg.LANE_TEST_STATUS n) 0 = false ∨ getB v 0 = false ∨ getF v 2 1 = rdF s (Reg.LANE_TEST_CTRL n) 2 1)
    (ht : t = wrB (wrB (wrN (if rdB s (Reg.LANE_TEST_STATUS n) 0 && !(getB v 0) then testEnd s n else s) (Reg.LANE_TEST_CTRL n) (getF v 8 0))
      (Reg.LANE_TEST_STATUS n) 2 false) (Reg.LANE_STATUS n) 7 (getB v 0 || decide (getF v 7 6 ≠ 0))) :
    testWrite s n v = if rdB s (Reg.LANE_TEST_STATUS n) 0 = false ∧ getB v 0 = true then testBegin t n v
      else if getF v 7 6 ≠ 0 then holdPort t n else t := by
  subst ht
  refine (if_neg ?_).trans ?_
  · obtain h | h | h := hsame <;> simp [hmay, hform, h]
  · simp only [Bool.and_eq_true, Bool.not_eq_true']

/-- A shot that no earlier one holds back. -/
theorem exec_injectShot_of_free {s : State} {n : Nat}
    (h : rdB s (Reg.LANE_TEST_STATUS n) 0 = true ∨ ∀ b, (s.lane.get n).lastShot = some b → b + 1600 ≤ s.now) :
    exec (.injectShot n) s = .next (injectBit (updLane s n fun x => { x with lastShot := some s.now }) n) := by
  refine if_neg ?_
  obtain h | h := h
  · simp [h]
  · cases hl : (s.lane.get n).lastShot with
    | none => simp
    | some b => simp [h b hl]

/-- The answers of a lane whose link is up at 16.0 GT/s or above. -/
theorem exec_linkMarginCommand_of_link {s : State} {n : Nat} (hmode : laneMode s n = 1) (hup : dlUp s (lanePort s n) = true)
    (hrate : 3 ≤ rdF s (Reg.LANE_RATE n) 2 0) (c : MarginCmd) (eyes : List Nat) :
    exec (.linkMarginCommand n c eyes) s = .next (match c with
      | .capability k => emit (marginCap s n k).2 (.marginReply n (marginCap s n k).1)
      | .errorLimit l => emit (updLane s n fun x => { x with linkLimit := l % 64 }) (.marginReply n (0xC0 + l % 64))
      | .normal => emit (updLane s n fun x => { x with linkHolds := false, linkStep := none }) (.marginReply n 0x0F)
      | .clearLog => emit s (.marginReply n 0x55)
      | .timing r k => if 32 < k then emit s (.marginReply n 0xC0)
        else emit (linkTakes s n (false, r, k)) (.marginReply n (marginAnswer (s.lane.get n).linkLimit eyes))
      | .voltage u k => if 64 < k then emit s (.marginReply n 0xC0)
        else emit (linkTakes s n (true, u, k)) (.marginReply n (marginAnswer (s.lane.get n).linkLimit eyes))) := by
  refine (if_neg (by simp [hmode, hup]; omega)).trans ?_
  cases c <;> simp only [apply_ite Host.Outcome.next]

theorem exec_linkMarginCommand_of_no_link {s : State} {n : Nat}
    (h : laneMode s n ≠ 1 ∨ dlUp s (lanePort s n) = false ∨ rdF s (Reg.LANE_RATE n) 2 0 < 3) (c : MarginCmd) (eyes : List Nat) :
    exec (.linkMarginCommand n c eyes) s = .next s := by
  refine if_pos ?_
  obtain h | h | h := h <;> simp [h]

/-- Settles O22: the branches of each row. -/
theorem laneTestsInjectionAndMargin : Obligations.LaneTestsInjectionAndMargin := by
  refine ⟨fun s n v => ⟨fun h => congrArg _ (if_pos ?_), rfl⟩, fun s t n v hmay hform hsame ht => ⟨fun hrun hen => ?_, fun h => ?_⟩,
    fun s t n bits got ht hgot => ?_, fun s n bits hlen => ⟨fun htest hmany => if_pos ?_, fun h => if_neg ?_⟩,
    fun s n => ⟨exec_injectShot_of_free, fun b htest hl hsoon => if_pos ?_, (apply_ite _ _ _ _).symm⟩,
    fun s n v => ⟨fun h => if_pos (by simp [h]), fun h hlink => ?_, fun h hlink => ?_, fun errs blocks => ?_⟩,
    fun s n c eyes => ⟨fun hmode hup hrate => ?_, fun h => exec_linkMarginCommand_of_no_link h c eyes⟩⟩
  · obtain h | h | ⟨h, hen, hpat⟩ := h
    · simp [h]
    · simp [h]
    · simp [h, hen, hpat]
  · refine congrArg _ ((testWrite_of_accepted hmay hform hsame ht).trans (if_pos ⟨hrun, hen⟩))
  · refine congrArg _ ((testWrite_of_accepted hmay hform hsame ht).trans (if_neg ?_))
    obtain h | h := h <;> simp [h]
  · subst ht hgot
    exact (apply_ite _ _ _ _).symm
  · simp [htest, hlen, hmany]
  · obtain h | h := h <;> simp [h]
  · simp [htest, hl, hsoon]
  · exact (if_neg (by simp [h])).trans (if_pos hlink)
  · refine (if_neg (by simp [h])).trans ((if_neg (by simp [hlink])).trans (apply_ite _ _ _ _).symm)
  · change execMarginDone n errs blocks s = _
    simp only [execMarginDone, apply_ite Host.Outcome.next, Bool.and_eq_true, Bool.or_eq_true, decide_eq_true_eq]
  · have hlink := exec_linkMarginCommand_of_link hmode hup hrate
    exact ⟨fun k => hlink _ _, fun l => hlink _ _, hlink _ _, hlink _ _, fun r k => hlink _ _, fun u k => hlink _ _⟩

end Sys2Proof.Machine
end

section
/-! SUPPORT. What the commands of one lane leave alone (R123 to R131): a frame of a lane, kept by each operation on it and by one after
another, and the wider frame of a command that may hold the lane's port in detect. -/

namespace Sys2Proof.Machine

open Sys2Proof

/-- What a lane's commands put out: inverted bits, an idle transmitter, a pattern, looped bits or a margin answer. -/
def LaneOut (n : Nat) (x : Out) : Prop :=
  x = .inject n ∨ x = .laneIdle n ∨ (∃ a b, x = .pattern n a b) ∨ (∃ b, x = .loopBits n b) ∨ ∃ v, x = .marginReply n v

/-- The state without what a lane's commands may change; with `port`, without the records of the ports' members. -/
def besideLane (port : Bool) (s : State) : State :=
  { s with regs := .empty, lane := .empty, out := [], free := 0, member := if port then .empty else s.member }

/-- From s to t only lane n changed, without its configuration; and where a port p is named, its state register and its record. -/
structure LaneFrame (n : Nat) (p : Option Nat) (s t : State) : Prop where
  rest : besideLane p.isSome t = besideLane p.isSome s
  regs : ∀ a, a / 0x1000 ≠ 0x200 + n → (∀ k, p = some k → a ≠ Reg.NZL_STATUS k ∧ a ≠ Reg.PCIE_STATUS k) → rd t a = rd s a
  cfg : p = none → rd t (Reg.LANE_CFG n) = rd s (Reg.LANE_CFG n)
  lane : ∀ m, m ≠ n → t.lane.get m = s.lane.get m
  member : ∀ k, p ≠ some k → t.member.get k = s.member.get k
  out : ∃ l, t.out = s.out ++ l ∧ ∀ x ∈ l, LaneOut n x

namespace LaneFrame

variable {n : Nat} {p : Option Nat} {s t u : State}

theorem refl (n : Nat) (p : Option Nat) (s : State) : LaneFrame n p s s :=
  ⟨rfl, fun _ _ _ => rfl, fun _ => rfl, fun _ _ => rfl, fun _ _ => rfl, [], by simp, by simp⟩

theorem trans (h : LaneFrame n p s t) (k : LaneFrame n p t u) : LaneFrame n p s u where
  rest := k.rest.trans h.rest
  regs a ha hp := (k.regs a ha hp).trans (h.regs a ha hp)
  cfg hp := (k.cfg hp).trans (h.cfg hp)
  lane m hm := (k.lane m hm).trans (h.lane m hm)
  member m hm := (k.member m hm).trans (h.member m hm)
  out := by
    obtain ⟨l, hl, hx⟩ := h.out
    obtain ⟨l', hl', hx'⟩ := k.out
    refine ⟨l ++ l', by rw [hl', hl, List.append_assoc], fun x hxm => ?_⟩
    exact (List.mem_append.mp hxm).elim (hx x) (hx' x)

/-- A frame of the lane alone, where its port may change too. -/
theorem widen (h : LaneFrame n none s t) (k : Nat) : LaneFrame n (some k) s t where
  rest := by
    have hrest : besideLane true (besideLane false t) = besideLane true (besideLane false s) := congrArg _ h.rest
    exact hrest
  regs a ha _ := h.regs a ha (by simp)
  cfg := by simp
  lane := h.lane
  member m _ := h.member m (by simp)
  out := h.out

theorem ite {c : Prop} [Decidable c] (ht : LaneFrame n p s t) (hu : LaneFrame n p s u) : LaneFrame n p s (if c then t else u) := by
  split
  · exact ht
  · exact hu

/-- The lane's port, while only the lane changed. -/
theorem lanePort_eq (h : LaneFrame n none s t) : lanePort t n = lanePort s n := by
  rw [lanePort, rdF, h.cfg rfl]
  rfl

end LaneFrame

/-! ### The operations on a lane -/

/-- A register of lane n other than its configuration. -/
def InLane (n a : Nat) : Prop := a / 0x1000 = 0x200 + n ∧ a ≠ Reg.LANE_CFG n

section Operations

variable {n a : Nat} (s : State)

theorem laneFrame_wr (h : InLane n a) (v : Word) : LaneFrame n none s (wr s a v) where
  rest := rfl
  regs b hb _ := rd_wr_ne s a b v fun e => hb (e ▸ h.1)
  cfg _ := rd_wr_ne s a _ v h.2.symm
  lane _ _ := rfl
  member _ _ := rfl
  out := ⟨[], by simp, by simp⟩

theorem laneFrame_wr64 (h : InLane n a) (h4 : InLane n (a + 4)) (v : Nat) : LaneFrame n none s (wr64 s a v) :=
  (laneFrame_wr s h _).trans (laneFrame_wr _ h4 _)

theorem laneFrame_updLane (n : Nat) (f : LaneSt → LaneSt) : LaneFrame n none s (updLane s n f) where
  rest := rfl
  regs _ _ _ := rfl
  cfg _ := rfl
  lane m hm := Tab.get_upd_ne _ _ _ _ hm
  member _ _ := rfl
  out := ⟨[], by simp [updLane], by simp⟩

theorem laneFrame_freshBits (n w : Nat) : LaneFrame n none s (freshBits s w).2 :=
  ⟨rfl, fun _ _ _ => rfl, fun _ => rfl, fun _ _ => rfl, fun _ _ => rfl, [], by simp [freshBits], by simp⟩

theorem laneFrame_emit {x : Out} (h : LaneOut n x) : LaneFrame n none s (emit s x) :=
  ⟨rfl, fun _ _ _ => rfl, fun _ => rfl, fun _ _ => rfl, fun _ _ => rfl, [x], rfl, by simpa using h⟩

theorem laneFrame_linkTakes (n : Nat) (x : Bool × Bool × Nat) (hst : InLane n (Reg.LANE_MARGIN_STATUS n)) :
    LaneFrame n none s (linkTakes s n x) := by
  have hup := laneFrame_updLane s n fun y => { y with linkHolds := true, linkStep := some x }
  exact .ite (hup.trans (laneFrame_wr _ hst _)) hup

end Operations

/-! The registers that a lane's commands write stand in the lane's page (R132). -/

theorem inLane_page {n d : Nat} (hd : d < 0x1000) (hcfg : d ≠ 4) : InLane n (0x200000 + d + 0x1000 * n) := by
  refine ⟨by omega, ?_⟩
  unfold Reg.LANE_CFG
  omega

theorem inLane_status (n : Nat) : InLane n (Reg.LANE_STATUS n) := inLane_page (d := 0x000) (by decide) (by decide)
theorem inLane_rate (n : Nat) : InLane n (Reg.LANE_RATE n) := inLane_page (d := 0x008) (by decide) (by decide)
theorem inLane_testCtrl (n : Nat) : InLane n (Reg.LANE_TEST_CTRL n) := inLane_page (d := 0x100) (by decide) (by decide)
theorem inLane_testStatus (n : Nat) : InLane n (Reg.LANE_TEST_STATUS n) := inLane_page (d := 0x108) (by decide) (by decide)
theorem inLane_marginCtrl (n : Nat) : InLane n (Reg.LANE_MARGIN_CTRL n) := inLane_page (d := 0x200) (by decide) (by decide)
theorem inLane_marginStatus (n : Nat) : InLane n (Reg.LANE_MARGIN_STATUS n) := inLane_page (d := 0x204) (by decide) (by decide)
theorem inLane_marginCount (n : Nat) : InLane n (Reg.LANE_MARGIN_COUNT n) := inLane_page (d := 0x208) (by decide) (by decide)

theorem laneFrame_prbsBits (s : State) (n v : Nat) : LaneFrame n none s (wr64 s (Reg.LANE_PRBS_BITS_LO n) v) := by
  have hhi : Reg.LANE_PRBS_BITS_LO n + 4 = 0x200000 + 0x114 + 0x1000 * n := by
    unfold Reg.LANE_PRBS_BITS_LO
    omega
  exact laneFrame_wr64 s (inLane_page (d := 0x110) (by decide) (by decide)) (hhi ▸ inLane_page (by decide) (by decide)) v

theorem laneFrame_prbsErrs (s : State) (n v : Nat) : LaneFrame n none s (wr64 s (Reg.LANE_PRBS_ERRS_LO n) v) := by
  have hhi : Reg.LANE_PRBS_ERRS_LO n + 4 = 0x200000 + 0x11C + 0x1000 * n := by
    unfold Reg.LANE_PRBS_ERRS_LO
    omega
  exact laneFrame_wr64 s (inLane_page (d := 0x118) (by decide) (by decide)) (hhi ▸ inLane_page (by decide) (by decide)) v

/-! ### The checker, the generator and the sampler -/

section Units

variable (s : State) (n : Nat)

theorem laneFrame_prbsCatch (known : Nat) : LaneFrame n none s (prbsCatch s n known) := by
  unfold prbsCatch
  split
  · exact .refl n none s
  · exact (laneFrame_freshBits s n 48).trans ((laneFrame_updLane _ n _).trans ((laneFrame_prbsBits _ n _).trans (laneFrame_prbsErrs _ n _)))

theorem laneFrame_prbsEnd (known : Nat) : LaneFrame n none s (prbsEnd s n known) :=
  (laneFrame_prbsCatch s n known).trans (laneFrame_updLane _ n _)

theorem laneFrame_prbsUnlock (known : Nat) : LaneFrame n none s (prbsUnlock s n known) :=
  .ite ((laneFrame_prbsEnd s n known).trans ((laneFrame_wr _ (inLane_testStatus n) _).trans (laneFrame_wr _ (inLane_testStatus n) _)))
    (.refl n none s)

theorem laneFrame_injectBit : LaneFrame n none s (injectBit s n) := by
  have hout := laneFrame_emit s (n := n) (x := .inject n) (.inl rfl)
  exact .ite (hout.trans (laneFrame_prbsErrs _ n _)) hout

theorem laneFrame_testEnd : LaneFrame n none s (testEnd s n) :=
  (laneFrame_prbsEnd s n 0).trans ((laneFrame_wr _ (inLane_testStatus n) _).trans (laneFrame_emit _ (.inr (.inl rfl))))

theorem laneFrame_startGenerator (v : Word) : LaneFrame n none s (startGenerator s n v) := by
  have hidle : LaneFrame n none s (if decide (getF v 7 6 = 1) || getB v 8 then emit s (.laneIdle n) else s) :=
    .ite (laneFrame_emit s (.inr (.inl rfl))) (.refl n none s)
  exact .ite hidle (hidle.trans (laneFrame_emit _ (.inr (.inr (.inl ⟨_, _, rfl⟩)))))

theorem laneFrame_marginCap (k : Nat) : LaneFrame n none s (marginCap s n k).2 := by
  unfold marginCap
  split
  case h_7 => exact laneFrame_freshBits s n 6
  all_goals exact .refl n none s

theorem laneFrame_reply {t : State} (h : LaneFrame n none s t) (v : Nat) : LaneFrame n none s (emit t (.marginReply n v)) :=
  h.trans (laneFrame_emit t (.inr (.inr (.inr (.inr ⟨v, rfl⟩)))))

/-- The state register of the port that a frame names. -/
theorem laneFrame_portStatus {p a : Nat} (ha : a = Reg.NZL_STATUS p ∨ a = Reg.PCIE_STATUS p) (v : Word) : LaneFrame n (some p) s (wr s a v) where
  rest := rfl
  regs b _ hb := by
    obtain ⟨hnz, hpc⟩ := hb p rfl
    refine rd_wr_ne s a b v ?_
    obtain rfl | rfl := ha
    · exact hnz
    · exact hpc
  cfg := by simp
  lane _ _ := rfl
  member _ _ := rfl
  out := ⟨[], by simp, by simp⟩

theorem laneFrame_updMember (p : Nat) (f : MemberSt → MemberSt) : LaneFrame n (some p) s (updMember s p f) where
  rest := rfl
  regs _ _ _ := rfl
  cfg := by simp
  lane _ _ := rfl
  member k hk := Tab.get_upd_ne _ _ _ _ fun e => hk (e ▸ rfl)
  out := ⟨[], by simp [updMember], by simp⟩

/-- The port of lane n held in detect (R123). -/
theorem laneFrame_holdPort : LaneFrame n (some (lanePort s n)) s (holdPort s n) :=
  .ite (.refl _ _ _) (.ite
    ((laneFrame_portStatus s n (.inl rfl) _).trans ((laneFrame_portStatus _ n (.inl rfl) _).trans (laneFrame_updMember _ n _ _)))
    (.ite (laneFrame_portStatus s n (.inr rfl) _) (.refl _ _ _)))

/-! ### The writes of LANE_TEST_CTRL -/

theorem laneFrame_testBegin (v : Word) : LaneFrame n (some (lanePort s n)) s (testBegin s n v) := by
  have hstart (t : State) : LaneFrame n none t (startGenerator (wr64 (wr64 (wrF (wrN t (Reg.LANE_TEST_STATUS n) 1) (Reg.LANE_RATE n) 2 0
      (getF v 5 3)) (Reg.LANE_PRBS_BITS_LO n) 0) (Reg.LANE_PRBS_ERRS_LO n) 0) n v) :=
    (laneFrame_wr _ (inLane_testStatus n) _).trans ((laneFrame_wr _ (inLane_rate n) _).trans
      ((laneFrame_prbsBits _ n 0).trans ((laneFrame_prbsErrs _ n 0).trans (laneFrame_startGenerator _ n v))))
  exact (laneFrame_holdPort s n).trans ((hstart _).widen _)

/-- A write of LANE_TEST_CTRL stored, REFUSED cleared and IN_TEST shown. -/
theorem laneFrame_testStored (v : Word) (inTest : Bool) : LaneFrame n none s
    (wrB (wrB (wrN s (Reg.LANE_TEST_CTRL n) (getF v 8 0)) (Reg.LANE_TEST_STATUS n) 2 false) (Reg.LANE_STATUS n) 7 inTest) :=
  (laneFrame_wr s (inLane_testCtrl n) _).trans ((laneFrame_wr _ (inLane_testStatus n) _).trans (laneFrame_wr _ (inLane_status n) _))

theorem laneFrame_testWrite (v : Word) : LaneFrame n (some (lanePort s n)) s (testWrite s n v) := by
  refine .ite ((laneFrame_wr s (inLane_testStatus n) _).widen _) ?_
  have hended : LaneFrame n none s (if rdB s (Reg.LANE_TEST_STATUS n) 0 && !(getB v 0) then testEnd s n else s) :=
    .ite (laneFrame_testEnd s n) (.refl n none s)
  have hstored := hended.trans (laneFrame_testStored _ n v (getB v 0 || decide (getF v 7 6 ≠ 0)))
  have hport := hstored.lanePort_eq
  exact .ite ((hstored.widen _).trans (hport ▸ laneFrame_testBegin _ n v))
    (.ite ((hstored.widen _).trans (hport ▸ laneFrame_holdPort _ n)) (hstored.widen _))

end Units

/-! ### The commands -/

/-- The commands of lane n that leave its port alone. -/
def LaneCommand (n : Nat) (c : Instr) : Prop :=
  (∃ b, c = .prbsCheckerLock n b) ∨ (∃ b, c = .prbsLockLoss n b) ∨ c = .injectShot n ∨ c = .injectRateTick n ∨
    (∃ v, c = .marginStart n v) ∨ (∃ e b, c = .marginDone n e b) ∨ (∃ m e, c = .linkMarginCommand n m e)

section Commands

variable (s : State) (n : Nat)

theorem prbsCheckerLock_frame (b : List Bool) : ∃ t, exec (.prbsCheckerLock n b) s = .next t ∧ LaneFrame n none s t := by
  have hloop : LaneFrame n none s (if rdF s (Reg.LANE_TEST_CTRL n) 7 6 = 2 then emit s (.loopBits n b) else s) :=
    .ite (laneFrame_emit s (.inr (.inr (.inr (.inl ⟨b, rfl⟩))))) (.refl n none s)
  exact ⟨_, (apply_ite _ _ _ _).symm,
    .ite (hloop.trans ((laneFrame_wr _ (inLane_testStatus n) _).trans (laneFrame_updLane _ n _))) hloop⟩

theorem marginStart_frame (v : Word) : ∃ t, exec (.marginStart n v) s = .next t ∧ LaneFrame n none s t := by
  change ∃ t, execMarginStart n v s = .next t ∧ _
  unfold execMarginStart
  generalize (if getF v 2 1 < 2 then 32 else 64) = most
  dsimp only
  split
  · exact ⟨_, rfl, laneFrame_wr s (inLane_marginCtrl n) _⟩
  split
  · exact ⟨_, rfl, laneFrame_wr s (inLane_marginStatus n) _⟩
  split
  · exact ⟨_, rfl, .refl n none s⟩
  · exact ⟨_, rfl, (laneFrame_wr s (inLane_marginCtrl n) _).trans ((laneFrame_wr _ (inLane_marginStatus n) _).trans
      (laneFrame_wr _ (inLane_marginCount n) _))⟩

theorem linkMarginStep_frame (x : Bool × Bool × Nat) (most v : Nat) : LaneFrame n none s
    (if most < x.2.2 then emit s (.marginReply n 0xC0) else emit (linkTakes s n x) (.marginReply n v)) :=
  .ite (laneFrame_reply s n (.refl n none s) _) (laneFrame_reply s n (laneFrame_linkTakes s n x (inLane_marginStatus n)) _)

theorem linkMarginCommand_frame (m : MarginCmd) (e : List Nat) :
    ∃ t, exec (.linkMarginCommand n m e) s = .next t ∧ LaneFrame n none s t := by
  by_cases h : laneMode s n = 1 ∧ dlUp s (lanePort s n) = true ∧ 3 ≤ rdF s (Reg.LANE_RATE n) 2 0
  · obtain ⟨hmode, hup, hrate⟩ := h
    refine ⟨_, exec_linkMarginCommand_of_link hmode hup hrate m e, ?_⟩
    cases m with
    | capability k => exact laneFrame_reply s n (laneFrame_marginCap s n k) _
    | errorLimit l => exact laneFrame_reply s n (laneFrame_updLane s n _) _
    | normal => exact laneFrame_reply s n (laneFrame_updLane s n _) _
    | clearLog => exact laneFrame_reply s n (.refl n none s) _
    | timing r k => exact linkMarginStep_frame s n (false, r, k) 32 _
    | voltage u k => exact linkMarginStep_frame s n (true, u, k) 64 _
  · have hno : laneMode s n ≠ 1 ∨ dlUp s (lanePort s n) = false ∨ rdF s (Reg.LANE_RATE n) 2 0 < 3 := by
      rw [← not_le, ← Bool.not_eq_true]
      tauto
    exact ⟨s, exec_linkMarginCommand_of_no_link hno m e, .refl n none s⟩

theorem laneCommand_frame {c : Instr} (h : LaneCommand n c) : ∃ t, exec c s = .next t ∧ LaneFrame n none s t := by
  obtain ⟨b, rfl⟩ | ⟨b, rfl⟩ | rfl | rfl | ⟨v, rfl⟩ | ⟨e, b, rfl⟩ | ⟨m, e, rfl⟩ := h
  · exact prbsCheckerLock_frame s n b
  · exact ⟨_, (apply_ite _ _ _ _).symm, .ite (laneFrame_prbsUnlock s n _) (.refl n none s)⟩
  · exact ⟨_, (apply_ite _ _ _ _).symm, .ite (.refl n none s) ((laneFrame_updLane s n _).trans (laneFrame_injectBit _ n))⟩
  · exact ⟨_, (apply_ite _ _ _ _).symm, .ite (laneFrame_injectBit s n) (.refl n none s)⟩
  · exact marginStart_frame s n v
  · exact ⟨_, (apply_ite _ _ _ _).symm,
      .ite ((laneFrame_wr s (inLane_marginStatus n) _).trans (laneFrame_wr _ (inLane_marginCount n) _)) (.refl n none s)⟩
  · exact linkMarginCommand_frame s n m e

theorem laneTest_frame {c : Instr} (h : (∃ v, c = .laneTestStart n v) ∨ ∃ v, c = .laneTestStop n v) :
    ∃ t, exec c s = .next t ∧ LaneFrame n (some (lanePort s n)) s t := by
  obtain ⟨v, rfl⟩ | ⟨v, rfl⟩ := h
  · exact ⟨_, rfl, laneFrame_testWrite s n v⟩
  · exact ⟨_, rfl, laneFrame_testWrite s n _⟩

end Commands

/-- Settles O23, from the two frames. -/
theorem laneCommandsStayInTheirLane : Obligations.LaneCommandsStayInTheirLane := by
  refine ⟨fun c n hc s => ?_, fun c n hc s => ?_, fun c n hc s => ?_⟩
  · obtain ⟨t, ht, hframe⟩ := laneCommand_frame s n hc
    have hrest := congrArg (fun x : State => { x with regs := t.regs, lane := t.lane, out := t.out, free := t.free }) hframe.rest
    exact ⟨t, ht, hrest, fun a ha => hframe.regs a ha (by simp), hframe.lane⟩
  · obtain ⟨t, ht, hframe⟩ := laneTest_frame s n hc
    have hrest := congrArg (fun x : State => { x with regs := t.regs, lane := t.lane, member := t.member, out := t.out, free := t.free })
      hframe.rest
    refine ⟨t, ht, hrest, fun a ha hnz hpc => hframe.regs a ha ?_, hframe.lane, fun m hm => hframe.member m ?_⟩
    · rintro k ⟨⟩
      exact ⟨hnz, hpc⟩
    · simpa using hm.symm
  · have hout : ∃ t, exec c s = .next t ∧ ∃ l, t.out = s.out ++ l ∧ ∀ x ∈ l, LaneOut n x := by
      rw [← or_assoc] at hc
      obtain hc | hc := hc
      · obtain ⟨t, ht, hframe⟩ := laneTest_frame s n hc
        exact ⟨t, ht, hframe.out⟩
      · obtain ⟨t, ht, hframe⟩ := laneCommand_frame s n hc
        exact ⟨t, ht, hframe.out⟩
    obtain ⟨t, ht, l, hl, hx⟩ := hout
    exact ⟨t, l, ht, hl, hx⟩

end Sys2Proof.Machine
end

section
/-! SUPPORT. Faults (R515 to R519): what a fault's arrival records, ERR_N, and the harvest port (R525 to R529). -/

namespace Sys2Proof.Machine

open Sys2Proof

/-! ### ERR_N and the records' clears -/

/-- Settles O24: the branches of what a fault's unit keeps, and of the two rows of ERR_N. -/
theorem errNPulseAndHold : Obligations.ErrNPulseAndHold := by
  refine ⟨fun _ _ => rfl, fun s f => ⟨fun hu hc => ?_, fun hu hc => ?_, fun hu hc => ?_, fun hu hc => ?_, fun h₁ h₂ h₃ h₄ => ?_⟩,
    fun s t ht => ⟨fun h => ht ▸ if_neg (by simp [h]), fun h => if_pos h⟩,
    fun s => ⟨fun h => if_pos h, fun h => (if_neg (by simp [h])).trans (if_pos h), fun h₁ h₂ => (if_neg h₁).trans (if_neg h₂)⟩,
    fun _ _ => rfl, fun _ _ _ _ => rfl⟩
  · simp [faultMark, hu, hc]
  · simp [faultMark, hu, hc]
  · simp [faultMark, hu, hc]
  · simp [faultMark, hu, hc]
  · unfold faultMark
    rw [if_neg (by simpa using h₁), if_neg (by simpa using h₂), if_neg, if_neg (by simpa using h₄)]
    simp only [Bool.and_eq_true, decide_eq_true_eq]
    exact fun h => h₃ h.1

/-! ### A fault recorded -/

/-- A fault other than an uncorrectable page bitmap (unit 8, code 3) leaves the rootstock die, the record times, the time, and every register
but one counter of the buffer as they were, before it is recorded. -/
theorem faultMark_keeps {s : State} {f : FaultSrc} (h : ¬ (f.unit = 8 ∧ f.code = 3)) :
    (faultMark s f).root = s.root ∧ (faultMark s f).flt = s.flt ∧ (faultMark s f).now = s.now ∧
      ∀ a, a ≠ Reg.BUF_LINK_ERR → rd (faultMark s f) a = rd s a := by
  unfold faultMark
  split
  · exact ⟨rfl, rfl, rfl, fun _ _ => rfl⟩
  split
  · exact ⟨rfl, rfl, rfl, fun a ha => rd_wrF_ne _ _ _ _ _ _ ha⟩
  split
  case isTrue h' => simp only [Bool.and_eq_true, decide_eq_true_eq] at h'; exact absurd h'.1 h
  split
  · exact ⟨rfl, rfl, rfl, fun _ _ => rfl⟩
  · exact ⟨rfl, rfl, rfl, fun _ _ => rfl⟩

/-- The registers of the fault collection but FLT_STATUS, FLT_ERRN_CTRL and FLT_CMASK, and HVST_CFG: a recorded fault reaches them by its
record and its count alone. -/
def FaultReg (a : Nat) : Prop := (0x1D0000C ≤ a ∧ a < 0x1E00000) ∨ a = Reg.HVST_CFG

theorem FaultReg.ne_status {a : Nat} (h : FaultReg a) : a ≠ Reg.FLT_STATUS := by
  unfold FaultReg Reg.HVST_CFG at h
  unfold Reg.FLT_STATUS
  omega

theorem rd_count_ne (s : State) {g j a : Nat} (hlo : a ≠ Reg.CNT_LIVE_LO g j) (hhi : a ≠ Reg.CNT_LIVE_HI g j) :
    rd (count s g j) a = rd s a := by
  unfold count countBy
  dsimp only
  split
  · rw [rd_wrF_ne _ _ _ _ _ _ hhi, rd_wr_ne _ _ _ _ hlo]
  · rw [rd_wrB_ne _ _ _ _ _ hhi, rd_wrF_ne _ _ _ _ _ _ hhi, rd_wr_ne _ _ _ _ hlo]

section Keeps

variable (s : State) {a : Nat} (ha : FaultReg a)
include ha

/-- The counters of the fault collection are group 125. -/
theorem rd_count_of_faultReg {j : Nat} (hj : j < 32) : rd (count s 125 j) a = rd s a := by
  unfold FaultReg Reg.HVST_CFG at ha
  refine rd_count_ne s ?_ ?_
  · unfold Reg.CNT_LIVE_LO
    omega
  · unfold Reg.CNT_LIVE_HI
    omega

theorem rd_fltStatus_of_faultReg : rd (fltStatus s) a = rd s a := by
  rw [fltStatus, rd_wrB_ne _ _ _ _ _ ha.ne_status, rd_wrB_ne _ _ _ _ _ ha.ne_status]

theorem rd_errNQualify_of_faultReg (f : FaultSrc) : rd (errNQualify s f) a = rd s a := by
  unfold errNQualify
  dsimp only
  split
  · rw [rd_count_of_faultReg _ ha (by decide), rd_emit, rd_wrF_ne _ _ _ _ _ _ ha.ne_status]
    rfl
  · rfl

end Keeps

/-- A fault of class C, with a harvest port that is not enabled: the record, the record flags, the count and ERR_N. -/
theorem recordFault_of_classC {s : State} {f : FaultSrc} (hlive : s.root.dieDead = false) (hcls : f.cls = 1)
    (hhv : rdB (fltRecord s f) Reg.HVST_CFG 1 = false) :
    recordFault s f = errNQualify (count (bump (fltStatus (fltRecord s f)) Reg.FLT_COUNT_C) 125 0) f := by
  have hcfg : rdB (count (bump (fltStatus (fltRecord s f)) Reg.FLT_COUNT_C) 125 0) Reg.HVST_CFG 1 = false := by
    rw [rdB, rd_count_of_faultReg _ (.inr rfl) (by decide), rd_bump_ne _ _ _ (by decide), rd_fltStatus_of_faultReg _ (.inr rfl)]
    exact hhv
  simp [recordFault, hlive, hcls, fltNotify, hcfg]

/-- What FAULT_ARRIVAL leaves of the record registers, and of the count, after a fault of class C. -/
theorem rd_recordFault_of_classC {s : State} {f : FaultSrc} (hlive : s.root.dieDead = false) (hcls : f.cls = 1)
    (hhv : rdB (fltRecord s f) Reg.HVST_CFG 1 = false) {a : Nat} (ha : FaultReg a) :
    rd (recordFault s f) a = rd (bump (fltRecord s f) Reg.FLT_COUNT_C) a := by
  rw [recordFault_of_classC hlive hcls hhv, rd_errNQualify_of_faultReg _ ha, rd_count_of_faultReg _ ha (by decide)]
  by_cases hc : a = Reg.FLT_COUNT_C
  · subst hc
    simp only [bump, bumpBy, wrN, rd_wr_self, rdN]
    rw [rd_fltStatus_of_faultReg _ ha]
  · rw [rd_bump_ne _ _ _ hc, rd_bump_ne _ _ _ hc, rd_fltStatus_of_faultReg _ ha]

/-! ### The record -/

theorem rd_wr64_ne (s : State) {a b : Nat} (n : Nat) (hlo : b ≠ a) (hhi : b ≠ a + 4) : rd (wr64 s a n) b = rd s b := by
  rw [wr64, rd_wr_ne _ _ _ _ hhi, rd_wr_ne _ _ _ _ hlo]

/-- A record's information word with the fields of a fault. -/
def infoShown (v : Word) (f : FaultSrc) : Word :=
  setB (setF (setF (setF v 3 2 f.cls.toNat) 11 4 f.code.toNat) 14 12 f.zone.toNat) 0 true

theorem rd_withFlt (s : State) (x : FltSt) (a : Nat) : rd { s with flt := x } a = rd s a := rfl

section Filled

variable (s : State) (f : FaultSrc)

/-- A record just filled, but for its address and its time. -/
theorem rd_fltFill {a : Nat} (h : a < Reg.FLT_REC_ADDR_LO f.unit ∨ Reg.FLT_REC_TIME_LO f.unit + 4 < a) :
    rd (fltFill s f) a =
      rd (wrN (wr s (Reg.FLT_REC_INFO f.unit) (infoShown (rd s (Reg.FLT_REC_INFO f.unit)) f)) (Reg.FLT_REC_ZONE f.unit) f.zid.toNat) a := by
  unfold Reg.FLT_REC_ADDR_LO Reg.FLT_REC_TIME_LO at h
  have htime (t : State) (n : Nat) : rd (wr64 t (Reg.FLT_REC_TIME_LO f.unit) n) a = rd t a := by
    refine rd_wr64_ne _ _ ?_ ?_ <;> (unfold Reg.FLT_REC_TIME_LO; omega)
  have haddr (t : State) : rd (wr64 t (Reg.FLT_REC_ADDR_LO f.unit) f.addr.toNat) a = rd t a := by
    refine rd_wr64_ne _ _ ?_ ?_ <;> (unfold Reg.FLT_REC_ADDR_LO; omega)
  unfold fltFill
  dsimp only
  rw [htime]
  rw [rd_withFlt, haddr]
  by_cases hz : a = Reg.FLT_REC_ZONE f.unit
  · subst hz
    simp [wrN]
  · rw [rd_wrN_ne _ _ _ _ hz, rd_wrN_ne _ _ _ _ hz]
    by_cases hi : a = Reg.FLT_REC_INFO f.unit
    · subst hi
      simp [wrB, wrF, infoShown, setB]
    · rw [rd_wrB_ne _ _ _ _ _ hi, rd_wrF_ne _ _ _ _ _ _ hi, rd_wrF_ne _ _ _ _ _ _ hi, rd_wrF_ne _ _ _ _ _ _ hi, rd_wr_ne _ _ _ _ hi]

theorem rd_fltFill_info : rd (fltFill s f) (Reg.FLT_REC_INFO f.unit) = infoShown (rd s (Reg.FLT_REC_INFO f.unit)) f := by
  have hlt : Reg.FLT_REC_INFO f.unit < Reg.FLT_REC_ADDR_LO f.unit := by unfold Reg.FLT_REC_INFO Reg.FLT_REC_ADDR_LO; omega
  have hne : Reg.FLT_REC_INFO f.unit ≠ Reg.FLT_REC_ZONE f.unit := by unfold Reg.FLT_REC_INFO Reg.FLT_REC_ZONE; omega
  rw [rd_fltFill s f (.inl hlt), rd_wrN_ne _ _ _ _ hne, rd_wr_self]

theorem rd_fltFill_zone : rdN (fltFill s f) (Reg.FLT_REC_ZONE f.unit) = f.zid.toNat := by
  have hlt : Reg.FLT_REC_ZONE f.unit < Reg.FLT_REC_ADDR_LO f.unit := by unfold Reg.FLT_REC_ZONE Reg.FLT_REC_ADDR_LO; omega
  rw [rdN, rd_fltFill s f (.inl hlt), ← rdN, rdN_wrN_self]
  exact Nat.mod_eq_of_lt (lt_trans f.zid.isLt (by decide))

/-- A register that is not of the record's block. -/
theorem rd_fltFill_ne {a : Nat} (h : a < Reg.FLT_REC_INFO f.unit ∨ Reg.FLT_REC_INFO f.unit + 0x20 ≤ a) : rd (fltFill s f) a = rd s a := by
  unfold Reg.FLT_REC_INFO at h
  rw [rd_fltFill, rd_wrN_ne, rd_wr_ne]
  · unfold Reg.FLT_REC_INFO
    omega
  · unfold Reg.FLT_REC_ZONE
    omega
  · unfold Reg.FLT_REC_ADDR_LO Reg.FLT_REC_TIME_LO
    omega

end Filled

theorem getB_infoShown_valid (v : Word) (f : FaultSrc) : getB (infoShown v f) 0 = true := getB_setB _ _ _ (by decide)

theorem getF_infoShown_cls (v : Word) (f : FaultSrc) : getF (infoShown v f) 3 2 = f.cls.toNat := by
  rw [infoShown, setB, getF_setF_above _ _ _ _ _ _ (by decide) (by decide) (by decide), getF_setF_below _ _ _ _ _ _ (by decide) (by decide)
    (by decide) (by decide), getF_setF_below _ _ _ _ _ _ (by decide) (by decide) (by decide) (by decide), getF_setF _ _ _ _ (by decide) (by decide)]
  exact Nat.mod_eq_of_lt f.cls.isLt

theorem getF_infoShown_code (v : Word) (f : FaultSrc) : getF (infoShown v f) 11 4 = f.code.toNat := by
  rw [infoShown, setB, getF_setF_above _ _ _ _ _ _ (by decide) (by decide) (by decide), getF_setF_below _ _ _ _ _ _ (by decide) (by decide)
    (by decide) (by decide), getF_setF _ _ _ _ (by decide) (by decide)]
  exact Nat.mod_eq_of_lt f.code.isLt

theorem getF_infoShown_zone (v : Word) (f : FaultSrc) : getF (infoShown v f) 14 12 = f.zone.toNat := by
  rw [infoShown, setB, getF_setF_above _ _ _ _ _ _ (by decide) (by decide) (by decide), getF_setF _ _ _ _ (by decide) (by decide)]
  exact Nat.mod_eq_of_lt f.zone.isLt

/-- A counter that ends at its largest value. -/
theorem rdN_bump_eq_min (s : State) (a : Nat) : rdN (bump s a) a = min 0xFFFFFFFF (rdN s a + 1) := by
  rw [rdN_bump]
  split <;> omega

/-! ### OVERFLOW -/

/-- A record that is VALID since an earlier cycle takes OVERFLOW and nothing else of a fault. -/
theorem fltRecord_of_valid {s : State} {f : FaultSrc} (hvalid : rdB s (Reg.FLT_REC_INFO f.unit) 0 = true)
    (hearlier : s.flt.filledAt.get f.unit ≠ some s.now) : fltRecord s f = fltOverflow s f.unit := by
  simp [fltRecord, hvalid, hearlier]

/-- OVERFLOW set in a record's information word. -/
theorem rd_fltOverflow_info (s : State) {u : Nat} (hu : u < 19) :
    ∃ v, rd (fltOverflow s u) (Reg.FLT_REC_INFO u) = v ∧ getB v 1 = true ∧ getB v 0 = rdB s (Reg.FLT_REC_INFO u) 0 ∧
      getF v 11 2 = rdF s (Reg.FLT_REC_INFO u) 11 2 ∧ getF v 14 12 = rdF s (Reg.FLT_REC_INFO u) 14 12 := by
  refine ⟨_, rfl, ?_⟩
  unfold fltOverflow
  split
  case isTrue h => exact ⟨h, rfl, rfl, rfl⟩
  · have ha : FaultReg (Reg.FLT_REC_INFO u) := by unfold FaultReg Reg.FLT_REC_INFO; omega
    rw [rd_count_of_faultReg _ ha (by decide), wrB, wrF, rd_wr_self]
    exact ⟨getB_setF_self _ _ _ (by decide), getB_setF_ne _ _ _ _ _ (by decide) (by decide) (by decide),
      getF_setF_above _ _ _ _ _ _ (by decide) (by decide) (by decide), getF_setF_above _ _ _ _ _ _ (by decide) (by decide) (by decide)⟩

theorem rd_fltOverflow_ne (s : State) {u a : Nat} (ha : FaultReg a) (hne : a ≠ Reg.FLT_REC_INFO u) : rd (fltOverflow s u) a = rd s a := by
  unfold fltOverflow
  split
  · rfl
  · rw [rd_count_of_faultReg _ ha (by decide), rd_wrB_ne _ _ _ _ _ hne]

/-! ### A fault of class C arrives -/

theorem faultReg_info {u : Nat} (hu : u < 19) : FaultReg (Reg.FLT_REC_INFO u) := by
  unfold FaultReg Reg.FLT_REC_INFO
  omega

theorem faultReg_zone {u : Nat} (hu : u < 19) : FaultReg (Reg.FLT_REC_ZONE u) := by
  unfold FaultReg Reg.FLT_REC_ZONE
  omega

theorem faultReg_countC : FaultReg Reg.FLT_COUNT_C := .inl (by decide)

/-- What FAULT_ARRIVAL leaves of a record and of the count, from what the record itself took. -/
theorem arrival_of_classC {s m : State} {f : FaultSrc} (hm : m = fltRecord (faultMark s f) f) (hlive : s.root.dieDead = false)
    (hu : f.unit < 19) (h83 : ¬ (f.unit = 8 ∧ f.code = 3)) (hcls : f.cls = 1) (hhv : rdB s Reg.HVST_CFG 1 = false)
    (hbeside : ∀ a, a = Reg.HVST_CFG ∨ a = Reg.FLT_COUNT_C → rd m a = rd (faultMark s f) a) :
    ∃ t, exec (.faultArrival f) s = .next t ∧ rd t (Reg.FLT_REC_INFO f.unit) = rd m (Reg.FLT_REC_INFO f.unit) ∧
      rd t (Reg.FLT_REC_ZONE f.unit) = rd m (Reg.FLT_REC_ZONE f.unit) ∧
      rdN t Reg.FLT_COUNT_C = min 0xFFFFFFFF (rdN s Reg.FLT_COUNT_C + 1) := by
  obtain ⟨hroot, -, -, hmark⟩ := faultMark_keeps (s := s) h83
  subst hm
  have hcfg : rdB (fltRecord (faultMark s f) f) Reg.HVST_CFG 1 = false := by
    rw [rdB, hbeside _ (.inl rfl), hmark _ (by decide)]
    exact hhv
  have hrec {a : Nat} (ha : FaultReg a) := rd_recordFault_of_classC (hroot ▸ hlive) hcls hcfg ha
  refine ⟨_, rfl, ?_, ?_, ?_⟩
  · rw [hrec (faultReg_info hu), rd_bump_ne]
    unfold Reg.FLT_REC_INFO Reg.FLT_COUNT_C
    omega
  · rw [hrec (faultReg_zone hu), rd_bump_ne]
    unfold Reg.FLT_REC_ZONE Reg.FLT_COUNT_C
    omega
  · rw [rdN, hrec faultReg_countC, ← rdN, rdN_bump_eq_min, rdN, hbeside _ (.inr rfl), hmark _ (by decide), rdN]

theorem info_ne_linkErr (u : Nat) : Reg.FLT_REC_INFO u ≠ Reg.BUF_LINK_ERR := by
  unfold Reg.FLT_REC_INFO Reg.BUF_LINK_ERR
  omega

theorem zone_ne_linkErr (u : Nat) : Reg.FLT_REC_ZONE u ≠ Reg.BUF_LINK_ERR := by
  unfold Reg.FLT_REC_ZONE Reg.BUF_LINK_ERR
  omega

/-- Settles O25: an invalid record is filled, and one that is VALID since an earlier cycle takes OVERFLOW alone. -/
theorem firstFaultFillsLaterOverflow : Obligations.FirstFaultFillsLaterOverflow := by
  refine ⟨fun s f hlive hu h83 hcls hhv hvalid => ?_, fun s f hlive hu h83 hcls hhv hvalid hearlier => ?_⟩
  all_goals obtain ⟨-, hflt, hnow, hmark⟩ := faultMark_keeps (s := s) h83
  · have hfill : fltRecord (faultMark s f) f = fltFill (faultMark s f) f := by
      refine if_pos ?_
      rw [rdB, hmark _ (info_ne_linkErr _)]
      exact hvalid
    obtain ⟨t, ht, hinfo, hzone, hcount⟩ := arrival_of_classC hfill.symm hlive hu h83 hcls hhv fun a ha => by
      refine rd_fltFill_ne _ f ?_
      unfold Reg.FLT_REC_INFO
      obtain rfl | rfl := ha
      · unfold Reg.HVST_CFG
        omega
      · unfold Reg.FLT_COUNT_C
        omega
    refine ⟨t, ht, ?_, ?_, ?_, ?_, ?_, hcount⟩
    · rw [rdB, hinfo, rd_fltFill_info, getB_infoShown_valid]
    · rw [rdF, hinfo, rd_fltFill_info, getF_infoShown_cls, hcls]
      rfl
    · rw [rdF, hinfo, rd_fltFill_info, getF_infoShown_code]
    · rw [rdF, hinfo, rd_fltFill_info, getF_infoShown_zone]
    · rw [rdN, hzone, ← rdN, rd_fltFill_zone]
  · have hover : fltRecord (faultMark s f) f = fltOverflow (faultMark s f) f.unit := by
      refine fltRecord_of_valid ?_ (by rw [hflt, hnow]; exact hearlier)
      rw [rdB, hmark _ (info_ne_linkErr _)]
      exact hvalid
    have hbeside {a : Nat} (ha : FaultReg a) (hne : a ≠ Reg.FLT_REC_INFO f.unit) := rd_fltOverflow_ne (faultMark s f) ha hne
    obtain ⟨t, ht, hinfo, hzone, hcount⟩ := arrival_of_classC hover.symm hlive hu h83 hcls hhv fun a ha => by
      obtain rfl | rfl := ha
      · refine hbeside (.inr rfl) ?_
        unfold Reg.HVST_CFG Reg.FLT_REC_INFO
        omega
      · refine hbeside faultReg_countC ?_
        unfold Reg.FLT_COUNT_C Reg.FLT_REC_INFO
        omega
    obtain ⟨v, hv, hovf, hval, hcode, hz⟩ := rd_fltOverflow_info (faultMark s f) hu
    have hold : rd (faultMark s f) (Reg.FLT_REC_INFO f.unit) = rd s (Reg.FLT_REC_INFO f.unit) := hmark _ (info_ne_linkErr _)
    rw [hv] at hinfo
    refine ⟨t, ht, ?_, ?_, ?_, ?_, ?_, hcount⟩
    · rw [rdB, hinfo, hval, rdB, hold]
      exact hvalid
    · rw [rdB, hinfo, hovf]
    · rw [rdF, hinfo, hcode, rdF, hold, rdF]
    · rw [rdF, hinfo, hz, rdF, hold, rdF]
    · rw [hzone, hbeside (faultReg_zone hu) (by unfold Reg.FLT_REC_ZONE Reg.FLT_REC_INFO; omega), hmark _ (zone_ne_linkErr _)]

/-! ### The harvest port -/

/-- Settles O26: the branches of each row. -/
theorem harvestFlowAndRecords : Obligations.HarvestFlowAndRecords := by
  refine ⟨fun s t ht => ⟨fun h => ?_, fun h => if_pos (by simp [h])⟩, fun s => ⟨fun h => if_neg (by simp [h]), fun h => if_pos (by simp [h])⟩,
    fun s => ⟨fun h h0 => if_neg (by simp [h, h0]), fun h => if_pos ?_⟩, fun s a b r ha hb => ⟨fun h => ?_, fun h => ?_⟩,
    fun s t u ht hu => ⟨fun h hd => ?_, fun h => if_pos ?_⟩, fun s t ht => ⟨fun h hp => ?_, fun h => if_pos ?_⟩⟩
  · subst ht
    exact if_neg (by simp [h])
  · obtain h | h := h <;> simp [h]
  · subst hb ha
    change execHarvestRecordEnd s = _
    simp only [execHarvestRecordEnd, h]
  · change execHarvestRecordEnd s = _
    simp only [execHarvestRecordEnd, h]
  · subst hu ht
    refine (if_neg (by simp [h, hd])).trans ?_
    simp only [decide_eq_true_eq]
  · obtain h | h := h <;> simp [h]
  · subst ht
    exact (if_neg (by simp [h, hp])).trans (apply_ite _ _ _ _).symm
  · obtain h | h := h <;> simp [h]

end Sys2Proof.Machine
end

section
/-! SUPPORT. Management requests (R53, R67, R71, R94, R521, R534 to R548): when a request is served, refused or put off, the mailboxes, status,
views and counters, provisioning and attestation, and the seed update. -/

namespace Sys2Proof.Machine

open Sys2Proof

/-! ### Serving a request -/

section Serving

variable {s : State} {q : ReqSrc} {code : Nat} {i : Issuers} {rom brace : Bool} {f : State → State}

/-- A request that a brace puts off, or whose turn has not come, stays where it waits. -/
theorem serve_of_waiting (h : (braced s = true ∧ brace = false) ∨ turnOf s q = false) : serve s q code i rom brace f = s := by
  refine if_pos ?_
  obtain ⟨hb, rfl⟩ | ht := h
  · simp [hb]
  · simp [ht]

section Turn

variable (hbrace : braced s = false ∨ brace = true) (hturn : turnOf s q = true)
include hbrace hturn

theorem serve_of_other_issuer (hmay : mayIssue s q i = false) : serve s q code i rom brace f = reply s q code 0x02 [] := by
  refine (if_neg ?_).trans (if_pos (by simp [hmay]))
  obtain hb | rfl := hbrace <;> simp [*]

variable (hmay : mayIssue s q i = true)
include hmay

theorem serve_of_not_serving (h : (rdB s Reg.MGMT_STATUS 1 = false ∧ rom = false) ∨ (serviceCode code = true ∧ inService s = false)) :
    serve s q code i rom brace f = reply s q code 0x07 [] := by
  refine (if_neg ?_).trans ((if_neg (by simp [hmay])).trans (if_pos ?_))
  · obtain hb | rfl := hbrace <;> simp [*]
  · obtain ⟨hfw, rfl⟩ | ⟨hcode, hsvc⟩ := h
    · simp [hfw]
    · simp [hcode, hsvc]

/-- A request carried out, on the state in which it has begun. -/
theorem serve_of_serving (hrom : rdB s Reg.MGMT_STATUS 1 = true ∨ rom = true) (hsvc : serviceCode code = false ∨ inService s = true) :
    serve s q code i rom brace f = f (beginReq s q) := by
  refine (if_neg ?_).trans ((if_neg (by simp [hmay])).trans (if_neg ?_))
  · obtain hb | rfl := hbrace <;> simp [*]
  · obtain hrom | rfl := hrom <;> obtain hsvc | hsvc := hsvc <;> simp [*]

end Turn
end Serving

/-- Every request of the table is handed to `serve` with its source, its code, its issuers and what it is served in. -/
theorem exec_request {c : Instr} {r : Request} (hr : requestOf c = some r) {s : State} (hatt : s.mgmt.attWait = none)
    (hwarm : ∀ q, c = .warmReset q → braceHolds s = false) :
    ∃ f, exec c s = .next (serve s r.src r.code r.who r.rom r.brace f) := by
  unfold requestOf at hr
  split at hr
  case h_4 q =>
    obtain rfl := Option.some.inj hr
    exact ⟨_, if_neg (by simp [hwarm q rfl])⟩
  case h_35 =>
    obtain rfl := Option.some.inj hr
    exact ⟨_, if_neg (by simp [hatt])⟩
  case h_36 => cases hr
  all_goals
    obtain rfl := Option.some.inj hr
    exact ⟨_, rfl⟩

theorem seedServe_of_waiting {s : State} {q : ReqSrc} (h : s.seed.updPending ≠ none ∨ braced s = true ∨ turnOf s q = false) (code : Nat)
    (f : State → State) : seedServe s q code f = s := by
  unfold seedServe
  split
  · rfl
  · rename_i hidle
    refine serve_of_waiting ?_
    obtain h | h | h := h
    · exact absurd (Option.isSome_iff_ne_none.mpr h) hidle
    · exact .inl ⟨h, rfl⟩
    · exact .inr h

theorem seedServe_of_other_issuer {s : State} {q : ReqSrc} (hidle : s.seed.updPending = none) (hbrace : braced s = false)
    (hturn : turnOf s q = true) (hmay : mayIssue s q { m := !(seedOpen s), b := true } = false) (code : Nat) (f : State → State) :
    seedServe s q code f = reply s q code 0x02 [] :=
  (if_neg (by simp [hidle])).trans (serve_of_other_issuer (.inl hbrace) hturn hmay)

/-- Settles O31, from what `serve` does with each request of the table. -/
theorem requestsFollowTheIssuerTable : Obligations.RequestsFollowTheIssuerTable := by
  refine ⟨fun c r hr s hatt hwarm h => ?_, fun c r hr s hatt hwarm hbrace hturn hmay => ?_,
    fun c r hr s hatt hwarm hbrace hturn hmay h => ?_, fun s q => ⟨fun h => ?_, fun hidle hbrace hturn hmay => ?_⟩⟩
  · obtain ⟨f, hf⟩ := exec_request hr hatt hwarm
    rw [hf, serve_of_waiting h]
  · obtain ⟨f, hf⟩ := exec_request hr hatt hwarm
    rw [hf, serve_of_other_issuer hbrace hturn hmay]
  · obtain ⟨f, hf⟩ := exec_request hr hatt hwarm
    rw [hf, serve_of_not_serving hbrace hturn hmay h]
  · have hwait (code : Nat) (f : State → State) : (Host.Outcome.next (seedServe s q code f) : Res) = .next s :=
      congrArg _ (seedServe_of_waiting h code f)
    exact ⟨fun c => hwait _ _, fun off ws => hwait _ _, hwait _ _⟩
  · have hrefuse (code : Nat) (f : State → State) : (Host.Outcome.next (seedServe s q code f) : Res) = .next (reply s q code 0x02 []) :=
      congrArg _ (seedServe_of_other_issuer hidle hbrace hturn hmay code f)
    exact ⟨fun c => hrefuse _ _, fun off ws => hrefuse _ _, hrefuse _ _⟩

end Sys2Proof.Machine
end

section
/-! SUPPORT. Mailboxes, status, views, counters, provisioning, attestation and the seed update (R53, R71, R521, R534 to R546): what each row
and each served request does. -/

namespace Sys2Proof.Machine

open Sys2Proof

/-- A request carried out, on the state in which it has begun: `serve_of_serving` under the outcome. -/
theorem next_serve_of_serving {s : State} {q : ReqSrc} {i : Issuers} {rom brace : Bool} (code : Nat)
    (hbrace : braced s = false ∨ brace = true) (hturn : turnOf s q = true) (hmay : mayIssue s q i = true)
    (hrom : rdB s Reg.MGMT_STATUS 1 = true ∨ rom = true) (hsvc : serviceCode code = false ∨ inService s = true) (f : State → State) :
    (Host.Outcome.next (serve s q code i rom brace f) : Res) = .next (f (beginReq s q)) :=
  congrArg _ (serve_of_serving hbrace hturn hmay hrom hsvc)

/-! ### Mailboxes, status, views and counters -/

/-- Settles O27: the branches of the mailbox rows, and of each request on the state in which it has begun. -/
theorem mailboxStatusViewAndCounters : Obligations.MailboxStatusViewAndCounters := by
  refine ⟨fun s h k => ⟨fun hans hrun hh hk => ?_, fun hno => if_pos ?_⟩,
    fun s h k => ⟨fun hans hh hk => if_neg ?_, fun hno => if_pos ?_⟩,
    fun s k ws e => ⟨fun hrun hroom => if_neg ?_, fun hno => if_pos ?_, rfl⟩, fun s t q hturn ht => ?_,
    fun s t q kind first es hturn hmay hfw ht hes => ⟨fun h1 h6 => ?_, fun hbad => ?_⟩, fun s t q g hturn hmay hfw ht => ?_,
    fun s t q g o hs ht ho => ⟨fun hg => ?_, fun hg hright => ?_, fun hg hright hfull => ?_, fun i hg hright hfree => ?_⟩,
    fun s t q g mine hs ht hmine => ?_⟩
  · have hopen : ¬ (!(mefAnswers s h) || !(mgmtRuns s) || decide (32 ≤ h) || decide (4 ≤ k)) = true := by simp [hans, hrun, hh, hk]
    refine (if_neg hopen).trans ?_
    by_cases hidle : rdF s (Reg.MB_STATUS h k) 1 0 = 0 <;> simp [hidle]
  · obtain h | h | h | h := hno <;> simp [h]
  · simp [hans, hh, hk]
  · obtain h | h | h := hno <;> simp [h]
  · simp [hrun, hroom]
  · obtain h | h := hno <;> simp [h]
  · subst ht
    have hmay : mayIssue s q { h := true, b := true } = true := by simp [mayIssue]
    exact next_serve_of_serving 0x0001 (.inr rfl) hturn hmay (.inr rfl) (.inl rfl) _
  · subst hes ht
    refine ((next_serve_of_serving 0x0002 (.inr rfl) hturn hmay (.inl hfw) (.inl rfl) _).trans <| congrArg _ <| (if_neg ?_))
    simp only [Bool.or_eq_true, decide_eq_true_eq]
    omega
  · subst ht
    exact ((next_serve_of_serving 0x0002 (.inr rfl) hturn hmay (.inl hfw) (.inl rfl) _).trans <| congrArg _ <| (if_pos (by simpa using hbad)))
  · subst ht
    refine ((next_serve_of_serving 0x0401 (.inr rfl) hturn hmay (.inl hfw) (.inl rfl) _).trans <| congrArg _ <| ?_)
    by_cases hq : q.host = bmc
    · simp [hq]
    · by_cases hr : counterRight (beginReq s q) q.host g = 0 <;> simp [hq, hr]
  all_goals
    subst ht
    refine (next_serve_of_served hs _ _ _).trans (congrArg _ ?_)
  · exact if_pos hg
  · exact (if_neg (by omega)).trans (if_pos hright)
  · rw [if_neg (by omega), if_neg (by omega), ← ho, hfull]
  · rw [if_neg (by omega), if_neg (by omega), ← ho, hfree]
  · rw [hmine]

/-! ### Provisioning and attestation -/

/-- Settles O28: the branches of the two requests and of the rows that end an ATTEST. -/
theorem provisionAndAttest : Obligations.ProvisionAndAttest := by
  refine ⟨fun s t q h0 h1 x hbrace hturn hq ht => ⟨fun hprov => ?_, fun u hprov hu => ?_⟩, fun s t q n hatt hturn hmay hfw ht => ?_,
    fun s q n hatt => if_pos (Option.isSome_iff_ne_none.mpr hatt), fun s t q n ht => ⟨fun h => ?_, fun h => ?_⟩,
    fun s t u q n ht hu => ⟨fun h => ?_, fun h => ?_⟩⟩
  · subst ht
    have hmay : mayIssue s q { b := true } = true := by simp [mayIssue, hq]
    exact ((next_serve_of_serving 0x0101 (.inl hbrace) hturn hmay (.inr rfl) (.inl rfl) _).trans <| congrArg _ <| (if_pos hprov))
  · subst hu ht
    have hmay : mayIssue s q { b := true } = true := by simp [mayIssue, hq]
    exact ((next_serve_of_serving 0x0101 (.inl hbrace) hturn hmay (.inr rfl) (.inl rfl) _).trans <| congrArg _ <| (if_neg (by simp [hprov])))
  · subst ht
    refine (if_neg (by simp [hatt])).trans (((next_serve_of_serving 0x0701 (.inr rfl) hturn hmay (.inl hfw) (.inl rfl) _).trans <| congrArg _ <| ?_))
    simp only [Bool.not_eq_true', Bool.or_eq_true, decide_eq_true_eq]
  · subst ht
    change execAttestLeafConfirm s = _
    simp only [execAttestLeafConfirm, h]
  · change execAttestLeafConfirm s = _
    simp only [execAttestLeafConfirm, h]
  · subst hu ht
    change execAttestLeafTimeout s = _
    simp only [execAttestLeafTimeout, h]
  · change execAttestLeafTimeout s = _
    simp only [execAttestLeafTimeout, h]

/-! ### The seed update -/

/-- A request that the seed unit takes, on the state in which it has begun. -/
theorem next_seedServe_of_served {s : State} {q : ReqSrc} (h : SeedServed s q) {code : Nat} (hc : serviceCode code = false) (f : State → State) :
    (Host.Outcome.next (seedServe s q code f) : Res) = .next (f (beginReq s q)) :=
  congrArg _ (seedServe_of_served s q code f h hc)

/-- The state in which a page that succeeded is in the flash and counted. -/
def programmed (s : State) (a : Nat) (bs : List Byte) : State :=
  let t := bumpF (flashPut s a bs) Reg.SEED_UPDATE_STATUS 31 8 1
  { t with seed := { t.seed with programming := none } }

/-- What follows a page that succeeded: a page outside the head is answered, a head page is followed by the next lower one, and page 0
ends the update. -/
def nextProgram (q : ReqSrc) (t : State) : Res :=
  match t.seed.headOp with
  | none => .next (reply { t with seed := { t.seed with updPending := none } } q 0x0103 0x00 [])
  | some (i + 1) => .next (programPage { t with seed := { t.seed with headOp := some i } } (256 * i) (headPage t i))
  | some 0 => .next (reply (wrF { t with seed := { t.seed with updPending := none, headOp := none, held := [] } }
      Reg.SEED_UPDATE_STATUS 1 0 0) q 0x0104 0x00 [])

theorem exec_seedProgramDone_true {s : State} {a : Nat} {bs : List Byte} {q : ReqSrc} (hp : s.seed.programming = some (a, bs))
    (hq : s.seed.updPending = some q) : exec (.seedProgramDone true) s = nextProgram q (programmed s a bs) := by
  change execSeedProgramDone true s = _
  unfold execSeedProgramDone
  rw [hp, hq]
  rfl

/-- Settles O29: the branches of the three requests, on the state in which they have begun, and of the rows that end their work. -/
theorem seedUpdateByPages : Obligations.SeedUpdateByPages := by
  refine ⟨fun s t u q c hs ht hu => ?_, fun s ok => ⟨fun q hq hst => ?_, fun h => ?_⟩, fun s t q off data bs hs ht hbs => ?_,
    fun s t q hs ht => ?_, fun s t q a bs hp hq ht => ⟨fun h => ?_, fun i h => ?_, fun h => ?_⟩,
    fun s ok => ⟨fun q a bs hp hq => ?_, fun h => ?_⟩⟩
  · subst hu ht
    refine (next_seedServe_of_served hs rfl _).trans (congrArg _ ?_)
    simp only [Bool.and_eq_true, Bool.not_eq_true', decide_eq_true_eq]
  · change execSeedEraseDone ok s = _
    cases ok <;> simp only [execSeedEraseDone, hq, hst, ne_eq, not_true_eq_false, if_false, Bool.not_true, Bool.not_false, if_true,
      Bool.false_eq_true]
  · change execSeedEraseDone ok s = _
    cases hq : s.seed.updPending with
    | none => simp [execSeedEraseDone, hq]
    | some q => simp [execSeedEraseDone, hq, h.resolve_left (by simp [hq])]
  · subst hbs ht
    refine (next_seedServe_of_served hs rfl _).trans (congrArg _ ?_)
    simp only [Bool.or_eq_true, decide_eq_true_eq, or_assoc]
  · subst ht
    exact next_seedServe_of_served hs rfl _
  · rw [exec_seedProgramDone_true hp hq, show programmed s a bs = t from ht.symm, nextProgram, h]
  · rw [exec_seedProgramDone_true hp hq, show programmed s a bs = t from ht.symm, nextProgram, h]
  · rw [exec_seedProgramDone_true hp hq, show programmed s a bs = t from ht.symm, nextProgram, h]
  · change execSeedProgramDone false s = _
    simp only [execSeedProgramDone, hp, hq]
    rfl
  · change execSeedProgramDone ok s = _
    unfold execSeedProgramDone
    cases hp : s.seed.programming with
    | none => rfl
    | some x => simp [h.resolve_left (by simp [hp])]

/-! ### The flash under an update -/

/-- What a table lists after the entries of some indices are dropped. -/
theorem find_filter_index {α : Type} (p : Nat → Bool) (l : List (Nat × α)) (k : Nat) :
    Tab.find (l.filter fun c => p c.1) k = if p k = true then Tab.find l k else none := by
  induction l with
  | nil => simp [Tab.find]
  | cons c l ih =>
    by_cases hc : c.1 = k
    · subst hc
      cases hp : p c.1 <;> simp_all [Tab.find]
    · cases hp : p c.1 <;> simp_all [Tab.find]

theorem get_keep_index {α : Type} [Inhabited α] (t : Tab α) (p : Nat → Bool) (k : Nat) :
    (t.keep fun a _ => p a).get k = if p k = true then t.get k else default := by
  rw [Tab.get, Tab.keep, find_filter_index p, Tab.get]
  split <;> rfl

theorem countBy_seed (s : State) (g j n : Nat) : (countBy s g j n).seed = s.seed := by
  unfold countBy
  extract_lets lo hi v s1 s2
  have h2 : s2.seed = s.seed := (wrF_seed _ _ _ _ _).trans (wr_seed _ _ _)
  split
  · exact h2
  · exact (wrB_seed _ _ _ _).trans h2

theorem cfgSet_seed (s : State) (k : Nat) (f : VFn) (cap off : Nat) (v : Word) : (cfgSet s k f cap off v).seed = s.seed := rfl

theorem mefPme_seed (s : State) (k : Nat) : (mefPme s k).seed = s.seed := by
  unfold mefPme
  split
  · rfl
  · dsimp only
    split
    · rw [emit_seed, cfgF, cfgSet_seed]
    · rw [emit_seed, cfgF, cfgSet_seed]

theorem msix_seed (s : State) (k v : Nat) : (msix s k v).seed = s.seed := by
  simp only [msix, apply_ite State.seed, count, countBy_seed, emit_seed, mefPme_seed, ite_self]

theorem wrWords_seed (ws : List Word) (s : State) (a : Nat) : (wrWords s a ws).seed = s.seed := by
  induction ws generalizing s a with
  | nil => rfl
  | cons w ws ih => exact ih _ _

theorem popReq_seed (s : State) (q : ReqSrc) : (popReq s q).seed = s.seed := by
  unfold popReq
  cases queuedReq s q <;> rfl

theorem reply_seed (s : State) (q : ReqSrc) (code status : Nat) (ws : List Word) : (reply s q code status ws).seed = s.seed := by
  simp only [reply, apply_ite State.seed, emit_seed, msix_seed, wrB_seed, wrWords_seed, count, countBy_seed, bump_seed, popReq_seed, ite_self]

theorem beginReq_seed (s : State) (q : ReqSrc) : (beginReq s q).seed = s.seed := by
  unfold beginReq
  cases queuedReq s q <;> rfl

theorem flashByte_congr {s t : State} (h : t.seed.flash = s.seed.flash) (b : Nat) : flashByte t b = flashByte s b := by
  rw [flashByte, h, flashByte]

/-- A byte outside those that a program operation stores. -/
theorem flashByte_flashPut_outside {bs : List Byte} {s : State} {a b : Nat} (h : b < a ∨ a + bs.length ≤ b) :
    flashByte (flashPut s a bs) b = flashByte s b := by
  induction bs generalizing s a with
  | nil => rfl
  | cons x bs ih =>
    rw [List.length_cons] at h
    rw [flashPut, ih (by omega), flashByte, Tab.get_set_ne _ _ _ _ (by omega), flashByte]

/-- A byte that a program operation stores. -/
theorem flashByte_flashPut_inside {bs : List Byte} {s : State} {a i : Nat} (h : i < bs.length) :
    flashByte (flashPut s a bs) (a + i) = bs.getD i 0 := by
  induction bs generalizing s a i with
  | nil => simp at h
  | cons x bs ih =>
    rw [flashPut]
    cases i with
    | zero => rw [flashByte_flashPut_outside (by omega), flashByte, Nat.add_zero, Tab.get_set_self]; simp
    | succ i => rw [show a + (i + 1) = a + 1 + i by omega, ih (by simpa using h)]; simp

/-- Whatever follows a page that succeeded, the flash holds what the page left. -/
theorem nextProgram_flash (q : ReqSrc) (t : State) : ∃ u, nextProgram q t = .next u ∧ u.seed.flash = t.seed.flash := by
  unfold nextProgram
  split
  · exact ⟨_, rfl, by rw [reply_seed]⟩
  · exact ⟨_, rfl, rfl⟩
  · exact ⟨_, rfl, by rw [reply_seed, wrF_seed]⟩

theorem flashByte_eraseCopy (s : State) (c b : Nat) :
    flashByte (eraseCopy s c) b = if b / 2 ^ 24 = c then 0xFF else flashByte s b := by
  rw [flashByte, eraseCopy, get_keep_index _ fun a => decide (a / 2 ^ 24 ≠ c)]
  by_cases h : b / 2 ^ 24 = c
  · rw [if_neg (by simpa using h), if_pos h]; rfl
  · rw [if_pos (by simpa using h), if_neg h, flashByte]

/-- Settles O30: the bytes of a page and of a copy, and the rows that write them. -/
theorem flashKeepsWhatNoUpdateProgrammed : Obligations.FlashKeepsWhatNoUpdateProgrammed := by
  refine ⟨fun s q a bs hp hq => ?_, fun s q c hs hc hno => ?_⟩
  · obtain ⟨u, hu, hflash⟩ := nextProgram_flash q (programmed s a bs)
    have hbyte (b : Nat) : flashByte u b = flashByte (flashPut s a bs) b := flashByte_congr hflash b
    exact ⟨u, (exec_seedProgramDone_true hp hq).trans hu, fun b hb => (hbyte b).trans (flashByte_flashPut_outside hb),
      fun i hi => (hbyte _).trans (flashByte_flashPut_inside hi)⟩
  · refine ⟨_, seedUpdateByPages.1 s (beginReq s q) _ q c hs rfl rfl, ?_⟩
    have hfree : ¬ (seedOpen (beginReq s q) = false ∧ rdF (beginReq s q) Reg.SEED_ACTIVE 0 0 = c) := by
      have hopen : seedOpen (beginReq s q) = seedOpen s := by rw [beginReq_eq]; rfl
      have hcopy : rdF (beginReq s q) Reg.SEED_ACTIVE 0 0 = rdF s Reg.SEED_ACTIVE 0 0 := by rw [beginReq_eq]; rfl
      rw [hopen, hcopy]
      obtain h | h := hno <;> simp [h]
    rw [if_neg (by omega), if_neg hfree]
    have hbyte (b : Nat) : flashByte (eraseCopy (wrN (beginReq s q) Reg.SEED_UPDATE_STATUS 1) c) b =
        if b / 2 ^ 24 = c then 0xFF else flashByte s b := by
      rw [flashByte_eraseCopy, flashByte_congr (s := s) (by rw [wrN_seed, beginReq_seed])]
    exact ⟨fun b hb => (hbyte b).trans (if_neg hb), fun b hb => (hbyte b).trans (if_pos hb)⟩

end Sys2Proof.Machine
end

section
/-! SUPPORT. Power states, wakes, rails, clocks and the thermal diodes (R488 to R508, R565, R566): the branches of their rows. -/

namespace Sys2Proof.Machine

open Sys2Proof

/-! ### Entering a power state -/

/-- A row whose two outcomes are both next states. -/
theorem ite_next (c : Prop) [Decidable c] (t u : State) :
    (if c then (Host.Outcome.next t : Res) else .next u) = .next (if c then t else u) :=
  (apply_ite Host.Outcome.next c t u).symm

/-- The row of a control set that every lane carries alike. -/
theorem sameSet_of_even {s : State} {p code d1 d2 d3 : Nat} {g : LaneGroups} (h : evenSet kLCS (receiveGroups s p g).1 = some (d1, d2, d3))
    (f : State → Nat → Nat → State) :
    sameSet s p g code f = .next (if d1 = code then f (receiveGroups s p g).2 d2 d3 else (receiveGroups s p g).2) := by
  unfold sameSet
  simp only [h]

/-- Settles O32: the branches of the rows that enter a power state. -/
theorem powerStatesAreEntered : Obligations.PowerStatesAreEntered := by
  refine ⟨fun s t ht => ⟨?_, rfl⟩, fun s t p1 r q g => ⟨rfl, rfl, rfl, fun hs ht => ?_⟩, fun s t p d2 d3 g ht => ⟨fun h => ?_, fun h => ?_⟩,
    fun s p sub => ite_next _ _ _, fun s p => ite_next _ _ _, fun s t v u w ht hv hu => ⟨fun h => ?_, fun code n h => ?_, fun h => if_pos h⟩⟩
  · subst ht
    exact ite_next _ _ _
  · subst ht
    refine (next_serve_of_served hs _ _ _).trans (congrArg _ ?_)
    simp only [Bool.or_eq_true, decide_eq_true_eq]
  · subst ht
    change execSleepAckReceive p g s = _
    rw [execSleepAckReceive, sameSet_of_even h]
    exact congrArg _ (if_pos rfl)
  · subst ht
    change execSleepNakReceive p g s = _
    rw [execSleepNakReceive, sameSet_of_even h]
    exact congrArg _ (if_pos rfl)
  · subst hu hv ht
    exact if_neg (by simp [h])
  · subst hu hv ht
    exact (if_neg (by simp [h])).trans (ite_next _ _ _)

/-! ### Wakes, rails and clocks -/

/-- The end of a rail change that no acknowledgement came for. -/
theorem exec_pmbusAckTimeout_of_busy {s : State} {rail target : Nat} (h : s.rootSt.rails.busy = some (rail, target)) (n : Nat)
    (hn : n = s.rootSt.rails.at_ + 1280000) : exec (.pmbusAckTimeout rail) s =
      (if !(timeTo s n).rootSt.rails.again then
        .next (emit (updRails (timeTo s n) fun x => { x with again := true, at_ := (timeTo s n).now }) (.pmbus rail target))
      else if railStep (timeTo s n) then .next (railFail (timeTo s n) rail)
      else
        let u := faultU (wrB (count (bump (timeTo s n) Reg.PWR_PMBUS_ERR) 114 4) (Reg.PWR_RAIL_STATUS rail) 17 true) 16 0x03 2 rail
        let v := updRails (if rail = 0 then updPwr u fun x => { x with avsFixed := true } else u)
          fun x => { x with busy := none, again := false }
        if v.pwr.req = 2 || v.pwr.req = 3 then .next (abortEntry (updRails v fun x => { x with queue := [] }) 2)
        else .next (entryPump (pmbusGo v))) := by
  subst hn
  change execPmbusAckTimeout rail s = _
  unfold execPmbusAckTimeout
  rw [h]
  exact if_neg (by simp)

/-- Settles O33: the branches of the rows of wakes, AVS, PMBus changes and clocks. -/
theorem wakesClocksAndRails : Obligations.WakesClocksAndRails := by
  refine ⟨fun s code n l => ⟨fun h => (if_pos h).trans (ite_next _ _ _), fun h => (if_neg (by simp [h])).trans (ite_next _ _ _)⟩,
    fun s t u osc ht hu => ⟨fun h => ?_, fun h => if_pos (by simp [h])⟩, fun s => ite_next _ _ _,
    fun s t u rail target mv st ht hu => ⟨fun h => ?_, fun h => ?_⟩, fun s t u v rail target ht hu hv => ⟨fun h => ?_, fun h => ?_⟩,
    fun s n => ⟨rfl, rfl, rfl⟩, fun s t n ht => ⟨fun hn hoff hasleep hrun => ?_, fun h => if_pos (by simp [h])⟩⟩
  · subst hu ht
    exact (if_neg (by simp [h])).trans (ite_next _ _ _)
  · subst hu ht
    change execPmbusChangeAck rail mv st s = _
    unfold execPmbusChangeAck
    rw [h]
    refine (if_neg (by simp)).trans ?_
    cases hgood : changeGood rail target mv.toNat st.toNat
    · exact if_pos (by simp)
    · refine (if_neg (by simp)).trans ?_
      simp only [Bool.and_eq_true, decide_eq_true_eq, if_true, ne_eq]
  · change execPmbusChangeAck rail mv st s = _
    unfold execPmbusChangeAck
    cases hb : s.rootSt.rails.busy with
    | none => rfl
    | some c => exact if_pos fun hc => h c.2 (by rw [hb, ← hc])
  · rw [exec_pmbusAckTimeout_of_busy h _ rfl, ← ht, ← hu]
    simp only [← hv, Bool.not_eq_true', Bool.or_eq_true, decide_eq_true_eq, ite_next]
  · change execPmbusAckTimeout rail s = _
    unfold execPmbusAckTimeout
    rw [h]
  · subst ht
    exact (if_neg (by simp [hoff, hasleep, hrun]; omega)).trans (if_pos hn)

/-! ### The thermal diodes -/

/-- What a reading of the switch die's diodes leaves of THERM_N: asserted by a diode at 110 °C, held while one is at 105 °C or more. -/
def thermAsserted (s : State) (ds : List Int) : Bool :=
  (ds.take 4).any (fun d => decide (110 ≤ d)) || (s.rootSt.therm.asserted && !((ds.take 4).all fun d => decide (d < 105)))

theorem notePf_therm (s : State) : (notePf s).rootSt.therm = s.rootSt.therm := rfl

theorem notePf_out (s : State) : (notePf s).out = s.out := rfl

/-- A thermal reading: what it leaves of THERM_N and of the hot diodes, and the outputs it adds. -/
theorem exec_thermalReading (s : State) (ds : List Int) : ∃ t, exec (.thermalReading ds) s = .next t ∧
    t.rootSt.therm.asserted = thermAsserted s ds ∧
    t.out = (if thermAsserted s ds = s.rootSt.therm.asserted then s else emit s (.pin .thermN (!(thermAsserted s ds)))).out ∧
    t.rootSt.therm.hot = (List.range (ds.take 4).length).filterMap fun i =>
      if 120 ≤ (ds.take 4).getD i 0 then some (i, ((s.rootSt.therm.hot.find? fun h => h.1 == i).map Prod.snd).getD s.now) else none :=
  ⟨_, rfl, rfl, notePf_out _, rfl⟩

/-- Settles O34, from what a reading leaves, and from the branches of the two rows that end a wait. -/
theorem thermalReadingsAndBrace : Obligations.ThermalReadingsAndBrace := by
  refine ⟨fun s a b c d hoff hhot => ?_, fun s a b c d hon ha hb hc hd => ?_, fun s a b c d ha hb hc hd hwarm => ?_, fun s ds => ?_,
    fun s u t hu ht => ⟨fun hhot hbrace hdie hcommit hphase => ?_, fun h => if_pos ?_⟩, fun s => ⟨fun b hcool hflush hrails => ?_, fun h => ?_⟩⟩
  · obtain ⟨t, ht, hassert, hout, -⟩ := exec_thermalReading s [a, b, c, d]
    have hon : thermAsserted s [a, b, c, d] = true := by simp [thermAsserted]; omega
    rw [hon, if_neg (by simp [hoff])] at hout
    exact ⟨t, [], ht, hassert.trans hon, hout⟩
  · obtain ⟨t, ht, hassert, hout, -⟩ := exec_thermalReading s [a, b, c, d]
    have hoff : thermAsserted s [a, b, c, d] = false := by simp [thermAsserted, *]; omega
    rw [hoff, if_neg (by simp [hon])] at hout
    exact ⟨t, [], ht, hassert.trans hoff, hout⟩
  · obtain ⟨t, ht, hassert, -, -⟩ := exec_thermalReading s [a, b, c, d]
    have hkeep : thermAsserted s [a, b, c, d] = s.rootSt.therm.asserted := by
      have hcold : ([a, b, c, d].any fun d => decide (110 ≤ d)) = false := by simp; omega
      have hlow : ([a, b, c, d].all fun d => decide (d < 105)) = false := by simp; omega
      simp only [thermAsserted, List.take_succ_cons, List.take_zero, hcold, hlow, Bool.false_or, Bool.not_false, Bool.and_true]
    exact ⟨t, ht, hassert.trans hkeep⟩
  · obtain ⟨t, ht, -, -, hhot⟩ := exec_thermalReading s ds
    exact ⟨t, ht, hhot⟩
  · subst ht hu
    refine (if_neg (by simp [*])).trans ?_
    simp only [← ite_next]
  · obtain h | h | h | h | h := h <;> simp [h, Option.isSome_iff_ne_none]
  · change execThermalCoolExpiry s = _
    unfold execThermalCoolExpiry
    rw [hcool]
    exact if_pos (by simp [hflush, hrails])
  · change execThermalCoolExpiry s = _
    unfold execThermalCoolExpiry
    cases hc : s.rootSt.therm.cool with
    | none => rfl
    | some b =>
      refine if_neg ?_
      obtain h | h | h := h
      · simp [hc] at h
      · simp [h]
      · simp [h]

end Sys2Proof.Machine
end

section
/-! SUPPORT. Fields of one register beside each other, the lanes of a port, and the ports of the PCI Express side (R94, R132, R198, R202, R206):
what their rows do. -/

namespace Sys2Proof.Machine

open Sys2Proof

/-! ### Fields of one register -/

section Fields

variable (s : State) (a : Nat)

/-- A field that lies beside the field written. -/
theorem rdF_wrF_beside (n : Nat) {hi lo i j : Nat} (hl : lo ≤ hi) (hh : hi < 32) (hj : j ≤ i) (h : i < lo ∨ hi < j) :
    rdF (wrF s a hi lo n) a i j = rdF s a i j := by
  unfold wrF rdF
  rw [rd_wr_self]
  obtain h | h := h
  · exact getF_setF_below _ hi lo n i j hl hh hj h
  · exact getF_setF_above _ hi lo n i j hl hh h

theorem rdF_wrB_beside (b : Bool) {k i j : Nat} (hk : k < 32) (hj : j ≤ i) (h : i < k ∨ k < j) : rdF (wrB s a k b) a i j = rdF s a i j :=
  rdF_wrF_beside s a b.toNat (le_refl k) hk hj h

theorem rdB_wrF_beside (n : Nat) {hi lo i : Nat} (hl : lo ≤ hi) (hh : hi < 32) (h : i < lo ∨ hi < i) :
    rdB (wrF s a hi lo n) a i = rdB s a i :=
  congrArg (fun x => x == 1) (rdF_wrF_beside s a n hl hh (le_refl i) h)

theorem rdB_wrB_beside (b : Bool) {k i : Nat} (hk : k < 32) (h : i ≠ k) : rdB (wrB s a k b) a i = rdB s a i :=
  rdB_wrF_beside s a b.toNat (le_refl k) hk (by omega)

end Fields

/-! ### The lanes of a port -/

theorem portLanes_le (s : State) (p : Nat) : portLanes s p ≤ 32 := by
  have hbound (v : Word) (hi lo k : Nat) (h : hi + 1 - lo = k) : getF v hi lo < 2 ^ k := by
    subst h
    exact Nat.mod_lt _ (by positivity)
  unfold portLanes widthLanes rdF
  split
  · have h := hbound (rd s (Reg.NZL_CFG p)) 1 0 2 rfl
    interval_cases getF (rd s (Reg.NZL_CFG p)) 1 0 <;> decide
  · split
    · have h := hbound (rd s (Reg.PCIE_CFG p)) 9 8 2 rfl
      interval_cases getF (rd s (Reg.PCIE_CFG p)) 9 8 <;> decide
    · decide

theorem lanesOf_bounds {s : State} {p n : Nat} (h : n ∈ lanesOf s p) : 2 * p ≤ n ∧ n < 2 * p + 32 := by
  obtain ⟨hn, -⟩ := List.mem_filter.mp h
  obtain ⟨i, hi, rfl⟩ := List.mem_map.mp hn
  have := portLanes_le s p
  have := List.mem_range.mp hi
  omega

/-- A fold whose steps over the list's own elements keep `f`. -/
theorem foldl_keeps_mem {α β γ : Type} (f : β → γ) (g : β → α → β) (l : List α) (b : β) (h : ∀ b, ∀ a ∈ l, f (g b a) = f b) :
    f (l.foldl g b) = f b := by
  induction l generalizing b with
  | nil => rfl
  | cons a l ih =>
    rw [List.foldl_cons, ih _ fun b x hx => h b x (List.mem_cons_of_mem a hx), h b a List.mem_cons_self]

/-! ### A link that comes up -/

theorem cfgSet_regs (s : State) (k : Nat) (f : VFn) (cap off : Nat) (v : Word) : (cfgSet s k f cap off v).regs = s.regs := rfl

theorem mefPme_regs (s : State) (k : Nat) : (mefPme s k).regs = s.regs := by
  unfold mefPme
  split
  · rfl
  · dsimp only
    split
    · rw [emit_regs, cfgF, cfgSet_regs]
    · rw [emit_regs, cfgF, cfgSet_regs]

theorem portNote_regs (s : State) (p : Nat) (f : VdspSt → VdspSt) : (portNote s p f).regs = s.regs := by
  unfold portNote
  cases portVdsp s p with
  | none => rfl
  | some k =>
    unfold updVdsp
    dsimp only
    split
    · rw [mefPme_regs]
    · rfl

section LinkUp

variable {s : State} {p : Nat}

/-- A register of a lane of a port is not the port's state register. -/
theorem pcieStatus_ne_lane {n d : Nat} (hn : n ∈ lanesOf s p) (hd : d < 0x1000) : Reg.PCIE_STATUS p ≠ 0x200000 + d + 0x1000 * n := by
  have := lanesOf_bounds hn
  unfold Reg.PCIE_STATUS
  omega

theorem rd_noteLanes_status (lanes : List LaneEq) : rd (noteLanes s p lanes) (Reg.PCIE_STATUS p) = rd s (Reg.PCIE_STATUS p) := by
  unfold noteLanes
  extract_lets u own v new
  have hu : rd u (Reg.PCIE_STATUS p) = rd s (Reg.PCIE_STATUS p) :=
    foldl_keeps_mem (fun s => rd s (Reg.PCIE_STATUS p)) _ _ s fun b n hn =>
      rd_wrB_ne b _ _ _ _ (pcieStatus_ne_lane hn (d := 0) (by decide))
  refine Eq.trans ?_ hu
  refine foldl_keeps_mem (fun s => rd s (Reg.PCIE_STATUS p)) _ own u fun b x hx => ?_
  have hlane : x.lane ∈ lanesOf u p := by simpa [own] using (List.mem_filter.mp hx).2
  refine (rd_wr_ne _ _ _ _ (pcieStatus_ne_lane hlane (d := 0x10) (by decide))).trans
    ((rd_wr_ne _ _ _ _ (pcieStatus_ne_lane hlane (d := 0x0C) (by decide))).trans ?_)
  exact rd_wrB_ne _ _ _ _ _ (pcieStatus_ne_lane hlane (d := 0) (by decide))

theorem rd_noteLow_status (x : LinkLow) : rd (noteLow s p x) (Reg.PCIE_STATUS p) = rd s (Reg.PCIE_STATUS p) := by
  refine (rd_wrN_ne _ _ _ _ (by unfold Reg.PCIE_STATUS Reg.PCIE_RETIMERS; omega)).trans ?_
  exact foldl_keeps (fun s => rd s (Reg.PCIE_STATUS p)) _
    (fun b i => rd_wr_ne b _ _ _ (by unfold Reg.PCIE_STATUS Reg.PCIE_RX_ERR; omega)) (List.range 7) s

theorem rd_rates_status (r : Nat) (u : State) :
    rd ((lanesOf s p).foldl (fun s n => wrF s (Reg.LANE_RATE n) 2 0 r) u) (Reg.PCIE_STATUS p) = rd u (Reg.PCIE_STATUS p) :=
  foldl_keeps_mem (fun s => rd s (Reg.PCIE_STATUS p)) _ _ u fun b _ hn =>
    rd_wrF_ne b _ _ _ _ _ (pcieStatus_ne_lane hn (d := 8) (by decide))

end LinkUp

/-- PCIE_STATUS of a port whose link comes up at rate `r`, width `w` and FLIT mode `f`, degraded or not. -/
def linkShown (s : State) (a r w : Nat) (f degraded : Bool) : State :=
  wrB (wrB (wrB (wrB (wrF (wrF (wrF s a 3 0 3) a 6 4 r) a 8 7 w) a 9 f) a 10 true) a 13 false) a 12 degraded

theorem linkShown_fields (s : State) (a : Nat) {r w : Nat} (f degraded : Bool) (hr : r < 8) (hw : w < 4) :
    let t := linkShown s a r w f degraded
    rdB t a 10 = true ∧ rdF t a 3 0 = 3 ∧ rdF t a 8 7 = w ∧ rdF t a 6 4 = r ∧ rdB t a 9 = f := by
  unfold linkShown
  refine ⟨?_, ?_, ?_, ?_, ?_⟩
  · simp (disch := omega) only [rdB_wrB_beside, rdB_wrB_self]
  · simp (disch := omega) only [rdF_wrB_beside, rdF_wrF_beside, rdF_wrF_self]
    rfl
  · simp (disch := omega) only [rdF_wrB_beside, rdF_wrF_self]
    omega
  · simp (disch := omega) only [rdF_wrB_beside, rdF_wrF_beside, rdF_wrF_self]
    omega
  · simp (disch := omega) only [rdB_wrB_beside, rdB_wrB_self]

theorem rd_withPcie (s : State) (x : PcieSt) (a : Nat) : rd { s with pcie := x } a = rd s a := rfl

theorem rd_portNote (s : State) (p : Nat) (f : VdspSt → VdspSt) (a : Nat) : rd (portNote s p f) a = rd s a := by
  rw [rd, portNote_regs, rd]

/-- A link that comes up: the rate it comes up at, and the state register that shows it. -/
theorem exec_pcieDlUp {s : State} {p : Nat} (rate : BitVec 3) (w : BitVec 2) (flit : Bool) (ls : List LaneEq) (low : LinkLow)
    (hpcie : isPcie s p = true) (hcont : contained s p = false) (hdis : s.pcie.dis.contains p = false) (hcloche : inCloche s = false)
    (hsvc : s.start.phase = .service) (hseed : s.seed.loaded = true) (htest : inTest s p = false)
    (hlanes : ∀ n ∈ lanesOf s p, rdB s (Reg.LANE_STATUS n) 6 = true ∧ (s.pg.get (n / 8)).refDown = false) :
    ∃ r degraded t, exec (.pcieDlUp p rate w flit ls low) s = .next (dlUpRole t p) ∧ r ≤ rate.toNat ∧
      (s.pcie.beenUp.contains p = false → r = 0) ∧
      rd t (Reg.PCIE_STATUS p) = rd (linkShown s (Reg.PCIE_STATUS p) r w.toNat (flit || decide (r = 5)) degraded) (Reg.PCIE_STATUS p) := by
  have hpower : ((lanesOf s p).any fun n => !(rdB s (Reg.LANE_STATUS n) 6)) = false := by
    simpa using fun n hn => (hlanes n hn).1
  have href : ((lanesOf s p).any fun n => (s.pg.get (n / 8)).refDown) = false := by
    simpa using fun n hn => (hlanes n hn).2
  refine ⟨if !(s.pcie.beenUp.contains p) then 0 else min rate.toNat (match s.pcie.target.get p with
      | 0 => rdF s (Reg.PCIE_CFG p) 12 10
      | n + 1 => min n (rdF s (Reg.PCIE_CFG p) 12 10)), ?degraded, _, if_neg ?_, ?_, fun h => if_pos (by rw [h]; rfl), ?_⟩
  rotate_left
  · rw [hdis]
    simp [hpcie, hcont, hcloche, hsvc, hseed, htest, hpower, href]
  · split <;> omega
  · rw [rd_ite_of_eq (rd_portNote _ _ _ _).symm, rd_portNote, rd_rates_status, rd_noteLow_status, rd_noteLanes_status,
      rd_ite_of_eq (rd_emit _ _ _), rd_withPcie]
    rw [rd_ite_of_eq (rd_wrF_ne _ _ _ _ _ _ (by unfold Reg.PCIE_STATUS Reg.PCIE_LINK_CTRL; omega))]
    unfold linkShown
    rfl

/-- Settles O36: the branches of the ports' rows, and what a link that comes up shows. -/
theorem downstreamPortsAndContainment : Obligations.DownstreamPortsAndContainment := by
  refine ⟨fun s h j p => ⟨rfl, rfl, rfl, rfl, rfl⟩, fun s p => ⟨fun hc hr => if_pos (by simp [hc, hr]), fun h => if_neg ?_⟩,
    fun s t p v ht => ?_, fun s p c => ⟨fun hp hc hr => if_neg (by simp [hp, hc, hr]), fun h => if_pos ?_⟩,
    fun s p rate w flit ls low hpcie hcont hdis hcloche hsvc hseed htest hlanes => ?_, fun s p rate w flit ls low h => if_pos ?_⟩
  · obtain h | h := h <;> simp [h]
  · subst ht
    change execPcieLinkRetrain p v s = _
    simp only [execPcieLinkRetrain, Bool.or_eq_true, Bool.not_eq_true', decide_eq_true_eq, ite_next, or_assoc]
  · obtain h | h | h := h <;> simp [h]
  · obtain ⟨r, degraded, t, hexec, hrate, hfirst, hst⟩ :=
      exec_pcieDlUp rate w flit ls low hpcie hcont hdis hcloche hsvc hseed htest hlanes
    obtain ⟨hup, hl0, hwidth, hr, hflit⟩ := linkShown_fields s (Reg.PCIE_STATUS p) (flit || decide (r = 5)) degraded
      (lt_of_le_of_lt hrate rate.isLt) w.isLt
    refine ⟨t, hexec, ?_⟩
    unfold rdB rdF at *
    rw [hst]
    exact ⟨hup, hl0, hwidth, hr.trans_le hrate, fun h => hr.trans (hfirst h), by rw [hflit, hr]⟩
  · obtain h | h | h | h | h | h := h <;> simp only [h, Bool.not_false, Bool.true_or, Bool.or_true]

end Sys2Proof.Machine
end

section
/-! SUPPORT. The Nozan link (R136 to R170): frames and their acknowledgement, training and the width it settles, control sets, resets, sleep
and wake. -/

namespace Sys2Proof.Machine

open Sys2Proof

/-! ### Frames and acknowledgement -/

theorem exec_dataFrameReceive_of_frame {s : State} {p : Nat} {g : LaneGroups} {w : WireFrame} (hw : frameIn (receiveGroups s p g).1 = some w)
    (hr : receives s p = true) : exec (.dataFrameReceive p g) s = .next (takeFrame (receiveGroups s p g).2 p w) := by
  change execDataFrameReceive p g s = _
  unfold execDataFrameReceive
  simp only [hw, hr, if_true]

theorem exec_lcfReceive_of_frame {s : State} {p : Nat} {g : LaneGroups} {w : WireFrame} (hw : frameIn (receiveGroups s p g).1 = some w)
    (hr : receives s p = true) : exec (.lcfReceive p g) s =
      .next (if badLcf w then bump (receiveGroups s p g).2 (Reg.NZL_CRC_ERR p) else takeLcf (receiveGroups s p g).2 p w.hdr) := by
  change execLcfReceive p g s = _
  unfold execLcfReceive
  simp only [hw, hr, Bool.not_true, Bool.false_eq_true, if_false, ite_next]

/-- Settles O37: the branches of the rows that receive, acknowledge, replay and send. -/
theorem nozanFramesAreAcknowledgedOrReplayed : Obligations.NozanFramesAreAcknowledgedOrReplayed := by
  refine ⟨fun s t p g w f ht hw hr hf => ?_, fun s t p g w ht hw hr => ?_, fun s p g h => ⟨?_, ?_⟩, fun s t p h ht => ⟨fun hn => ?_, fun q hn hq => ?_⟩,
    fun s p => ⟨rfl, rfl, rfl, rfl⟩, fun s p => ⟨fun h => ?_, fun h n ho hrep hup hn => ?_⟩, fun s p => ⟨fun h4 hawake hq => ?_, fun h hup h4 hre => ?_,
      fun hup h4 hre htx => ?_, fun e hup h4 hre htx => ?_, fun hup h => ?_⟩⟩
  · subst hf ht
    rw [exec_dataFrameReceive_of_frame hw hr]
    simp only [takeFrame, Bool.or_eq_true, decide_eq_true_eq]
  · subst ht
    exact exec_lcfReceive_of_frame hw hr
  · change execDataFrameReceive p g s = _
    unfold execDataFrameReceive
    dsimp only
    cases hw : frameIn (receiveGroups s p g).1 with
    | none => rfl
    | some w => exact congrArg _ (if_neg (by simp [h.resolve_left (by simp [hw])]))
  · change execLcfReceive p g s = _
    unfold execLcfReceive
    dsimp only
    cases hw : frameIn (receiveGroups s p g).1 with
    | none => rfl
    | some w => exact if_pos (by simp [h.resolve_left (by simp [hw])])
  · subst ht
    exact if_neg (by rw [hn]; decide)
  · subst ht
    refine (if_pos hn).trans ?_
    rw [hq]
  · unfold replay
    cases ho : oldestOn s p with
    | none => rfl
    | some x =>
      refine if_pos ?_
      obtain h | h | h := h
      · simp [ho] at h
      · simp [h]
      · simp [h]
  · subst hn
    unfold replay
    rw [ho]
    exact if_neg (by simp [hrep, hup])
  · exact if_pos (by simp [h4, hawake, hq])
  all_goals
    change execDataFrameTransmit p s = _
    unfold execDataFrameTransmit
  · rw [if_neg (by simp [h4]), if_neg (by simp [hup]), hre]
  · rw [if_neg (by simp [h4]), if_neg (by simp [hup]), hre, htx]
  · rw [if_neg (by simp [h4]), if_neg (by simp [hup]), hre, htx]
    exact ite_next _ _ _
  · refine (if_neg ?_).trans (if_pos (by simp [hup]))
    obtain h | h | h := h <;> simp [h]

/-! ### Failure and training -/

/-- Settles O38: the branches of the rows of a port that fails or trains. -/
theorem nozanPortsFailAndTrain : Obligations.NozanPortsFailAndTrain := by
  refine ⟨fun s n => ?_, fun s p => ?_, fun s u t p ss => ⟨fun b hup hb hu ht => ?_, fun h => if_pos ?_⟩, fun s t p ht => ?_,
    fun s p skew up inv => ⟨fun h1 htest hnoz => ?_, fun h => if_pos ?_⟩, fun s t p skew up inv m h1 htest hnoz hm => ?_,
    fun s p skew => ⟨?_, ?_⟩⟩
  · change execLaneLockLossTimeout n s = _
    simp only [execLaneLockLossTimeout, Bool.and_eq_true, decide_eq_true_eq, ite_next]
  · change execDownIdleExpiry p s = _
    simp only [execDownIdleExpiry, Bool.and_eq_true, decide_eq_true_eq, Bool.not_eq_true', ite_next]
  · subst ht hu
    refine (if_neg (by simp [hup, hb])).trans ?_
    simp only [hb, Option.getD_some]
  · obtain h | h := h <;> simp [h]
  · subst ht
    exact ite_next _ _ _
  · have hrun : ¬ (decide (nzState s p ≠ 1) || inTest s p || !(isNoz s p)) = true := by simp [h1, htest, hnoz]
    exact ⟨fun hn => (if_neg hrun).trans (if_pos hn),
      fun hn => (if_neg hrun).trans ((if_neg (by simp [hn])).trans (if_pos hn)),
      fun hn => (if_neg hrun).trans ((if_neg (by simp [hn])).trans ((if_neg (by simp [hn])).trans (if_pos hn)))⟩
  · obtain h | h | h := h <;> simp [h]
  · have hrun : ¬ (decide (nzState s p ≠ 1) || inTest s p || !(isNoz s p)) = true := by simp [h1, htest, hnoz]
    have hlate {n : Nat} (hn : trainStep s p = n) (h : 5 ≤ n) : ¬ trainStep s p = 1 ∧ ¬ trainStep s p = 2 ∧ ¬ trainStep s p = 3 ∧
        ¬ trainStep s p = 4 := by omega
    subst hm
    refine ⟨fun sw port sess hn hsw hport hsess => ?_, fun hn hid => ?_, fun hn => ?_, fun hn ht => ?_⟩
    all_goals
      change execTrainingStepDone p up inv skew s = _
      obtain ⟨hn1, hn2, hn3, hn4⟩ := hlate hn (by decide)
      unfold execTrainingStepDone
      rw [if_neg hrun, if_neg hn1, if_neg hn2, if_neg hn3, if_neg hn4]
    · rw [if_pos hn, hsw, hport, hsess]
    · rw [if_pos hn]
      split
      · rename_i sw port sess hsw hport hsess
        simp [identified, hsw, hport, hsess] at hid
      · rfl
    · rw [if_neg (by omega), if_pos hn]
      simp only [Bool.or_eq_true, decide_eq_true_eq, ite_next]
    · subst ht
      rw [if_neg (by omega), if_neg (by omega)]
      exact ite_next _ _ _
  · change execTrainingStepTimeout p skew s = _
    unfold execTrainingStepTimeout
    rw [ite_next]
    refine congrArg _ ?_
    by_cases h1 : nzState s p = 1 <;> by_cases hn : trainStep s p = 1 <;> cases hs : (s.member.get p).signal <;> simp [h1, hn]
  · change execTrainingRetryExpiry p s = _
    simp only [execTrainingRetryExpiry, Bool.and_eq_true, Bool.not_eq_true', ite_next]

/-! ### The width a port settles at -/

/-- A width at which a port may come up (R164): its target, x8 or x4, within the target and the partner's offer, with all its lanes up. -/
def Qualifies (target offered : Nat) (up : List Nat) (v : Nat) : Prop :=
  (v = target ∨ v = 1 ∨ v = 0) ∧ v ≤ target ∧ 4 * 2 ^ v ≤ offered ∧ ∀ i, i < 4 * 2 ^ v → i ∈ up

/-- The test by which `settleWidth` picks a width. -/
def settles (target offered : Nat) (up : List Nat) (v : Nat) : Bool :=
  decide (v ≤ target) && decide (widthLanes v ≤ offered) && (List.range (widthLanes v)).all fun i => up.contains i

theorem settleWidth_eq (target offered : Nat) (up : List Nat) :
    settleWidth target offered up = [target, 1, 0].find? (settles target offered up) := rfl

theorem settles_iff {target offered v : Nat} {up : List Nat} :
    settles target offered up v = true ↔ v ≤ target ∧ 4 * 2 ^ v ≤ offered ∧ ∀ i, i < 4 * 2 ^ v → i ∈ up := by
  simp only [settles, Bool.and_eq_true, decide_eq_true_eq, List.all_eq_true, List.mem_range, List.contains_iff_mem, and_assoc]
  exact Iff.rfl

/-- The widest width that qualifies is the first of the three that do. -/
theorem settleWidth_eq_some {target offered w : Nat} {up : List Nat} (hw : Qualifies target offered up w)
    (hmax : ∀ v, w < v → ¬ Qualifies target offered up v) : settleWidth target offered up = some w := by
  obtain ⟨hmem, hfit⟩ := hw
  have hskip (v : Nat) (hv : v = target ∨ v = 1 ∨ v = 0) (hlt : w < v) : ¬ settles target offered up v = true :=
    fun h => hmax v hlt ⟨hv, settles_iff.mp h⟩
  have htake := settles_iff.mpr hfit
  have hle := hfit.1
  rw [settleWidth_eq]
  by_cases ht : w = target
  · rw [← ht] at htake ⊢
    exact List.find?_cons_of_pos htake
  rw [List.find?_cons_of_neg (hskip target (.inl rfl) (by omega))]
  by_cases h1 : w = 1
  · rw [h1] at htake ⊢
    exact List.find?_cons_of_pos htake
  rw [List.find?_cons_of_neg (hskip 1 (.inr (.inl rfl)) (by omega))]
  obtain rfl : w = 0 := by omega
  exact List.find?_cons_of_pos htake

theorem settleWidth_eq_none {target offered : Nat} {up : List Nat} (h : ∀ v, ¬ Qualifies target offered up v) :
    settleWidth target offered up = none := by
  refine List.find?_eq_none.mpr fun v hv hfit => h v ⟨?_, settles_iff.mp hfit⟩
  simpa using hv

/-- Sending on a port's lanes writes no register. -/
theorem sendColumns_regs (s : State) (p : Nat) (cols : List (List Sym)) : (sendColumns s p cols).regs = s.regs :=
  (emit_regs _ _).trans (foldl_keeps State.regs _ (fun b _ => updLane_regs b _ _) _ s)

theorem lcsSend_regs (s : State) (p d1 d2 d3 n : Nat) : (lcsSend s p d1 d2 d3 n).regs = s.regs := by
  rw [lcsSend, sendSets, sendColumns_regs, emit_regs]

theorem rd_enterStep_five (s : State) (p a : Nat) : rd (enterStep s p 5) a = rd (setStep s p 5) a := by
  change (lcsSend _ _ _ _ _ _).regs.get a = _
  rw [lcsSend_regs, lcsSend_regs, lcsSend_regs]
  rfl

/-- The state register of a port that enters step 5 at width `w`. -/
theorem settled_fields (s : State) (p : Nat) {w : Nat} (hw : w < 4) (degraded : Bool) (f : MemberSt → MemberSt) :
    let t := enterStep (updMember (wrB (wrF s (Reg.NZL_STATUS p) 4 3 w) (Reg.NZL_STATUS p) 6 degraded) p f) p 5
    trainStep t p = 5 ∧ rdF t (Reg.NZL_STATUS p) 4 3 = w ∧ rdB t (Reg.NZL_STATUS p) 6 = degraded := by
  set u := wrB (wrF s (Reg.NZL_STATUS p) 4 3 w) (Reg.NZL_STATUS p) 6 degraded with hu
  have hrd : rd (enterStep (updMember u p f) p 5) (Reg.NZL_STATUS p) = rd (setStep u p 5) (Reg.NZL_STATUS p) := rd_enterStep_five _ _ _
  dsimp only
  unfold trainStep rdB rdF
  rw [hrd, hu, setStep]
  refine ⟨?_, ?_, ?_⟩
  · change rdF _ _ _ _ = _
    rw [rdF_wrF_self _ _ _ _ _ (by decide) (by decide)]
    rfl
  · change rdF _ _ _ _ = _
    simp (disch := omega) only [rdF_wrF_beside, rdF_wrB_beside, rdF_wrF_self]
    omega
  · change rdB _ _ _ = _
    simp (disch := omega) only [rdB_wrF_beside, rdB_wrB_self]

section Fail

variable {s : State} {p : Nat}

theorem nzStatus_ne_lane {n : Nat} (hn : n ∈ lanesOf s p) : Reg.NZL_STATUS p ≠ Reg.LANE_STATUS n := by
  have := lanesOf_bounds hn
  unfold Reg.NZL_STATUS Reg.LANE_STATUS
  omega

theorem trainFailCount_ne_lane (p n : Nat) : Reg.NZL_TRAIN_FAIL p ≠ Reg.LANE_STATUS n := by
  unfold Reg.NZL_TRAIN_FAIL Reg.LANE_STATUS
  omega

theorem rd_noteSkew (skew : Nat) {a : Nat} (ha : ∀ n ∈ lanesOf s p, a ≠ Reg.LANE_STATUS n) : rd (noteSkew s p skew) a = rd s a := by
  unfold noteSkew
  split
  · rename_i n hn
    exact rd_ite_of_eq (rd_wrB_ne _ _ _ _ _ (ha n (List.mem_of_mem_head? hn)))
  · rfl

/-- A port that fails has left training, and counts it. -/
theorem trainFail_fields (s : State) (p : Nat) :
    nzState (trainFail s p) p = 0 ∧ rdN (trainFail s p) (Reg.NZL_TRAIN_FAIL p) = min 0xFFFFFFFF (rdN s (Reg.NZL_TRAIN_FAIL p) + 1) := by
  have hfold (a : Nat) (ha : ∀ n ∈ lanesOf (bump (setNz s p 0) (Reg.NZL_TRAIN_FAIL p)) p, a ≠ Reg.LANE_STATUS n) :
      rd (trainFail s p) a = rd (bump (setNz s p 0) (Reg.NZL_TRAIN_FAIL p)) a :=
    foldl_keeps_mem (fun s => rd s a) _ _ _ fun b n hn => rd_wrF_ne b _ _ _ _ _ (ha n hn)
  have hne : Reg.NZL_STATUS p ≠ Reg.NZL_TRAIN_FAIL p := by unfold Reg.NZL_STATUS Reg.NZL_TRAIN_FAIL; omega
  constructor
  · rw [nzState, rdF, hfold _ fun n hn => nzStatus_ne_lane hn, rd_bump_ne _ _ _ hne, ← rdF, setNz]
    simp (disch := omega) only [rdF_wrB_beside, rdF_wrF_self]
    rfl
  · rw [rdN, hfold _ fun n _ => trainFailCount_ne_lane p n, ← rdN, rdN_bump_eq_min, rdN, setNz, rd_wrB_ne _ _ _ _ _ hne.symm,
      rd_wrF_ne _ _ _ _ _ _ hne.symm, rdN]

end Fail

/-- The width that step 4 settles (R118, R164). -/
def settled (s : State) (p skew : Nat) (up : List Nat) : Option Nat :=
  if 16 < skew then none else settleWidth (s.member.get p).target.1 (s.member.get p).offered up

section StepFour

variable {s : State} {p : Nat} (skew : Nat) (up inv : List Nat) (h1 : nzState s p = 1) (htest : inTest s p = false) (hnoz : isNoz s p = true)
  (h4 : trainStep s p = 4)
include h1 htest hnoz h4

theorem exec_trainingStepDone_of_settled {w : Nat} (hw : settled s p skew up = some w) : exec (.trainingStepDone p up inv skew) s =
    .next (enterStep (updMember (wrB (wrF (noteSkew s p skew) (Reg.NZL_STATUS p) 4 3 w) (Reg.NZL_STATUS p) 6
      (decide (w < (s.member.get p).target.1))) p fun m => { m with lanesUp := up }) p 5) := by
  change execTrainingStepDone p up inv skew s = _
  unfold execTrainingStepDone
  rw [if_neg (by simp [h1, htest, hnoz]), if_neg (by omega), if_neg (by omega), if_neg (by omega), if_pos h4]
  rw [settled] at hw
  simp only [hw]

theorem exec_trainingStepDone_of_unsettled (hnone : settled s p skew up = none) : exec (.trainingStepDone p up inv skew) s =
    .next (trainFail (noteSkew s p skew) p) := by
  change execTrainingStepDone p up inv skew s = _
  unfold execTrainingStepDone
  rw [if_neg (by simp [h1, htest, hnoz]), if_neg (by omega), if_neg (by omega), if_neg (by omega), if_pos h4]
  rw [settled] at hnone
  simp only [hnone]

end StepFour

/-- Settles O39: the widest width that qualifies is settled and shown, and without one the port fails. -/
theorem portComesUpAtWidestWidth : Obligations.PortComesUpAtWidestWidth := by
  refine ⟨fun s p skew w up inv h1 htest hnoz h4 htarget hskew hwidest => ?_, fun s p skew up inv h1 htest hnoz h4 htarget hnone => ?_⟩
  · have hqual : Qualifies (s.member.get p).target.1 (s.member.get p).offered up w := (hwidest w (.inl rfl)).mpr rfl
    have hmax (v : Nat) (hv : w < v) : ¬ Qualifies (s.member.get p).target.1 (s.member.get p).offered up v :=
      fun h => absurd ((hwidest v (.inr hv)).mp h) (by omega)
    have hw : w < 4 := by
      have hle : w ≤ (s.member.get p).target.1 := hqual.2.1
      omega
    have hsettled : settled s p skew up = some w := (if_neg (by omega)).trans (settleWidth_eq_some hqual hmax)
    exact ⟨_, exec_trainingStepDone_of_settled skew up inv h1 htest hnoz h4 hsettled, settled_fields (noteSkew s p skew) p hw _ _⟩
  · have hfail : settled s p skew up = none := by
      obtain h | h := hnone
      · exact if_pos h
      · refine ite_eq_left_iff.mpr fun _ => settleWidth_eq_none fun v hv => ?_
        obtain ⟨hmem, hle, hoff, hup⟩ := hv
        obtain ⟨i, hi, hdown⟩ := h v hmem hle hoff
        exact hdown (hup i hi)
    obtain ⟨hstate, hcount⟩ := trainFail_fields (noteSkew s p skew) p
    refine ⟨_, exec_trainingStepDone_of_unsettled skew up inv h1 htest hnoz h4 hfail, hstate, hcount.trans ?_⟩
    rw [rdN, rd_noteSkew skew fun n _ => trainFailCount_ne_lane p n, rdN]

end Sys2Proof.Machine
end

section
/-! SUPPORT. The control sets of a Nozan link in training, its full reset, sleep and wake (R161 to R169). -/

namespace Sys2Proof.Machine

open Sys2Proof

/-! ### Control sets -/

/-- A control set that the lanes do not carry alike only counts. -/
theorem sameSet_of_uneven {s : State} {p : Nat} {g : LaneGroups} (h : evenSet kLCS (receiveGroups s p g).1 = none) (code : Nat)
    (f : State → Nat → Nat → State) : sameSet s p g code f = .next (bump (receiveGroups s p g).2 (Reg.NZL_LCS_ERR p)) := by
  unfold sameSet
  simp only [h]

/-- A set of the row's own code, in the order in which the row's function is known. -/
theorem sameSet_of_code {s : State} {p code d2 d3 : Nat} {g : LaneGroups} (f : State → Nat → Nat → State)
    (h : evenSet kLCS (receiveGroups s p g).1 = some (code, d2, d3)) : sameSet s p g code f = .next (f (receiveGroups s p g).2 d2 d3) :=
  (sameSet_of_even h f).trans (congrArg _ (if_pos rfl))

/-- Settles O40: the branches of the rows of a control set. -/
theorem nozanControlSetsInTraining : Obligations.NozanControlSetsInTraining := by
  refine ⟨fun s t p g ss h ht => ?_, fun s t p d2 d3 g ht => ⟨fun h => ?_, fun h => ?_, fun h => ?_⟩, fun s t p g ht => ⟨fun l h => ?_, fun h => ?_⟩,
    fun s t p d2 d3 g ht => ⟨fun h => ?_, fun h => ?_⟩, fun s t p eye ht => ⟨fun hstep hlen => ?_, fun h => if_pos ?_⟩,
    fun s t u p d2 d3 g ss ht hu h => ?_⟩
  · subst ht
    exact ⟨show execPeerSwReceive p g s = _ from sameSet_of_uneven h _ _,
      show execPeerPortReceive p g s = _ from sameSet_of_uneven h _ _,
      show execSessionReceive p g s = _ from sameSet_of_uneven h _ _,
      show execPresetReqReceive p g s = _ from sameSet_of_uneven h _ _,
      show execPresetAckReceive p g s = _ from sameSet_of_uneven h _ _,
      show execReadyReceive p g ss s = _ from sameSet_of_uneven h _ _,
      show execSleepReqReceive p g s = _ from sameSet_of_uneven h _ _,
      show execSleepAckReceive p g s = _ from sameSet_of_uneven h _ _,
      show execSleepNakReceive p g s = _ from sameSet_of_uneven h _ _⟩
  · subst ht
    exact show execPeerSwReceive p g s = _ from sameSet_of_code _ h
  · subst ht
    exact show execPeerPortReceive p g s = _ from sameSet_of_code _ h
  · subst ht
    exact show execSessionReceive p g s = _ from sameSet_of_code _ h
  · subst ht
    change execLaneSetReceive p g s = _
    unfold execLaneSetReceive
    simp only [h, Bool.or_eq_true, decide_eq_true_eq, Bool.not_eq_true', ite_next]
  · subst ht
    change execLaneSetReceive p g s = _
    unfold execLaneSetReceive
    simp only [h]
  · subst ht
    refine (show execPresetReqReceive p g s = _ from sameSet_of_code _ h).trans (congrArg _ ?_)
    simp only [Bool.or_eq_true, decide_eq_true_eq, Bool.not_eq_true']
  · subst ht
    refine (show execPresetAckReceive p g s = _ from sameSet_of_code _ h).trans (congrArg _ ?_)
    simp only [Bool.and_eq_true, decide_eq_true_eq, and_assoc]
  · subst ht
    refine (if_neg (by simp [hstep, hlen])).trans ((ite_next _ _ _).trans (congrArg _ ?_))
    exact (apply_ite _ _ _ _).symm
  · obtain h | h := h <;> simp [h]
  · subst hu ht
    refine (show execReadyReceive p g ss s = _ from sameSet_of_code _ h).trans (congrArg _ ?_)
    simp only [Bool.or_eq_true, Bool.and_eq_true, decide_eq_true_eq]

/-! ### The full reset, sleep and wake -/

/-- Settles O41: the branches of the rows of the full reset, of sleep and of wake. -/
theorem nozanResetsSleepAndWake : Obligations.NozanResetsSleepAndWake := by
  refine ⟨fun s t p v ht => ⟨fun hgo => ?_, fun hgo hlow hup hbrace => ?_, fun hgo h => ?_⟩, fun s p => ⟨ite_next _ _ _, fun q hq => ?_, fun h => ?_⟩,
    fun s t p g ht => ⟨fun d1 d2 d3 h => ?_, fun h => ?_⟩, fun s t p => ⟨fun r hr h3 ht => ?_, fun h => ?_⟩,
    fun s t p d2 d3 g ht h => ?_, fun s p => ⟨?_, ite_next _ _ _⟩⟩
  · subst ht
    exact if_pos (by simp [hgo])
  · subst ht
    exact (if_neg (by simp [hgo])).trans (if_neg (by simp [hlow, hup, hbrace]))
  · subst ht
    refine (if_neg (by simp [hgo])).trans (if_pos ?_)
    obtain h | h | h := h <;> simp [h]
  · change execBringupMemberDownExpiry p s = _
    unfold execBringupMemberDownExpiry
    rw [hq]
    exact ite_next _ _ _
  · change execBringupMemberDownExpiry p s = _
    unfold execBringupMemberDownExpiry
    rw [h]
  · subst ht
    change execLrsReceive p g s = _
    unfold execLrsReceive
    simp only [h]
    refine congrArg _ ?_
    by_cases hd : d1 + d3 = 255 <;> by_cases hw : d1 % 4 < 3 <;> cases isNoz s p <;> simp [hd, hw]
  · subst ht
    change execLrsReceive p g s = _
    unfold execLrsReceive
    simp only [h]
  · subst ht
    change execLrsAckTimeout p s = _
    unfold execLrsAckTimeout
    simp only [hr]
    exact if_pos h3
  · change execLrsAckTimeout p s = _
    unfold execLrsAckTimeout
    dsimp only
    cases hr : (s.member.get p).ownReq with
    | none => rfl
    | some r => exact if_neg (h.resolve_left (by simp [hr]))
  · subst ht
    refine (show execSleepReqReceive p g s = _ from sameSet_of_code _ h).trans (congrArg _ ?_)
    simp only [Bool.not_eq_true']
  · change execWakeReceive p s = _
    simp only [execWakeReceive, Bool.and_eq_true, decide_eq_true_eq, ite_next]

end Sys2Proof.Machine
end

section
/-! SUPPORT. Forwarding (R209 to R245): frames that enter and leave, completions and routes: the branches of their
rows. -/

namespace Sys2Proof.Machine

open Sys2Proof

/-! ### Frames -/

section Egress

variable {s : State} {p tc wi par : Nat} {e : QEntry} {x : BitVec 268} {y : BitVec 20} {fc : BitVec 3}

/-- The egress that serves the head `e` of queue `tc`, by what the buffer answered. -/
theorem exec_egressFrameBoundary_of_pick (hfree : isNoz s p = false ∨ (txReady s (txMember s p)).isSome = false)
    (hpick : pickQueue s p fc = some (tc, e)) {r : Nat} {v : State}
    (hread : bufRead (shaperPay (popQueue s p tc e) p tc (frameB e.f)) p e x y wi par = (r, v)) :
    exec (.egressFrameBoundary p x y wi par fc) s =
      if r = 2 then .next (headerDiscard v p e)
      else if !(deliverCheck v e).1 then .next (deliverCheck v e).2
      else
        let m := markCm (deliverCheck v e).2 p tc (qDepth s p tc) { e with tag := none }
        if r = 1 then
          .next (toPort (sampleFrame (count (bump (stompCopy m.2 p m.1) Reg.BUF_POISON_OUT) 112 5) p 1 m.1.f false) p
            { m.1 with f := { m.1.f with poison := true } })
        else .next (toPort (sampleFrame m.2 p 1 m.1.f false) p m.1) := by
  change execEgressFrameBoundary p x y wi par fc s = _
  unfold execEgressFrameBoundary
  rw [if_neg (by obtain h | h := hfree <;> simp [h]), hpick]
  dsimp only
  rw [hread]

end Egress

/-- A match on an optional tag as its eliminator, for any result: the kernel then compares no large terms. -/
theorem matchTag_eq_elim {β : Type} (o : Option (Nat × Nat × Nat)) (d : β) (f : Nat × Nat × Nat → β) :
    (match o with | some t => f t | none => d) = o.elim d f := by
  cases o <;> rfl

/-- Settles O42: the branches of the rows by which a frame enters, is resolved and leaves. -/
theorem framesEnterAndLeave : Obligations.FramesEnterAndLeave := by
  refine ⟨fun s p hdr t => ⟨rfl, rfl, ite_next _ _ _⟩, fun s u p t hu => ⟨fun h => ?_, fun h0 hr => ?_, fun h0 hr => ?_, fun h0 hr => ?_, fun h0 hr => ?_⟩,
    fun s p par ok fc => ⟨fun f => rfl, fun t a ha => ?_, fun t ha => ?_⟩, fun s t p par ok fc => ⟨fun h => ?_, fun a rest h ht => ?_⟩,
    fun s p wi par x y fc h => ?_, fun s u p wi par tc e x y fc hfree hpick hu => ⟨fun h => ?_, fun h hdrop => ?_⟩,
    fun s u v w p wi par tc r e g x y fc hfree hpick hu hread h2 hdeliver hcm => ⟨fun h1 => ?_, fun h1 => ?_⟩,
    fun s u p k wi par x y late hk hu => ⟨fun e q he hq => ⟨?_, ?_⟩, fun g h => ?_⟩⟩
  · subst hu
    exact if_pos (by simpa only [Bool.or_eq_true, decide_eq_true_eq] using h)
  · subst hu
    exact (if_neg (by simp [h0, hr])).trans (if_pos hr)
  · subst hu
    exact (if_neg (by simp [h0, hr])).trans ((if_neg (by simp [hr])).trans (if_pos hr))
  · subst hu
    exact (if_neg (by simp [h0, hr])).trans ((if_neg (by simp [hr])).trans ((if_neg (by simp [hr])).trans (if_pos hr)))
  · subst hu
    exact (if_neg (by simp [h0, hr])).trans ((if_neg (by simp [hr])).trans ((if_neg (by simp [hr])).trans (if_neg (by simp [hr]))))
  · change execFrameHeaderKnown p (some (.tlp t)) ok fc par s = _
    simp only [execFrameHeaderKnown, ha]
  · change execFrameHeaderKnown p (some (.tlp t)) ok fc par s = _
    simp only [execFrameHeaderKnown, ha]
  · change execFrameHeaderKnown p none ok fc par s = _
    simp only [execFrameHeaderKnown, h]
  · subst ht
    change execFrameHeaderKnown p none ok fc par s = _
    simp only [execFrameHeaderKnown, h]
  · change execEgressFrameBoundary p x y wi par fc s = _
    unfold execEgressFrameBoundary
    by_cases htx : (isNoz s p && (txReady s (txMember s p)).isSome) = true
    · exact if_pos htx
    · obtain ⟨hnoz, hready⟩ | hnone := h
      · exact absurd (by simp [hnoz, hready]) htx
      · rw [if_neg htx, hnone]
  · subst hu
    rw [exec_egressFrameBoundary_of_pick hfree hpick (Prod.eta _).symm, if_pos h]
  · subst hu
    rw [exec_egressFrameBoundary_of_pick hfree hpick (Prod.eta _).symm, if_neg h, if_pos (by simp [hdrop])]
  · subst hu
    rw [exec_egressFrameBoundary_of_pick hfree hpick hread, if_neg h2, if_neg (by simp [hdeliver]), hcm]
    exact if_neg h1
  · subst hu
    rw [exec_egressFrameBoundary_of_pick hfree hpick hread, if_neg h2, if_neg (by simp [hdeliver]), hcm]
    exact if_pos h1
  · subst hu hk
    change execIngressVerdict p true x y wi par late s = _
    simp only [execIngressVerdict, he, hq, if_true]
  · subst hk
    change execIngressVerdict p false x y wi par late s = _
    unfold execIngressVerdict
    dsimp only
    rw [he, hq]
    dsimp only
    rw [← hu, if_neg (by decide)]
    generalize count (bump u (Reg.FWD_PORT_STOMP_TX q)) q 14 = v
    exact congrArg (fun z => (Host.Outcome.next (toPort (sampleFrame z q 1 e.f true) q _) : Res)) (matchTag_eq_elim e.tag v (hedgeDrop v))
  · subst hk
    change execIngressVerdict p g x y wi par late s = _
    unfold execIngressVerdict
    dsimp only
    split
    · rename_i e q he hq
      simp [he, hq] at h
    · rfl

/-! ### Completions and routes -/

section DeviceCompletion

variable {s : State} {p : Nat} {x : CplIn}

/-- A completion whose tag the map does not hold. -/
theorem deviceCpl_of_unknown (h : ((s.fwd.cmap.get p).find? fun c => c.tag == x.tag) = none) :
    deviceCpl p x s = .next (bump s (Reg.FWD_PORT_UNEXP_CPL p)) := by
  unfold deviceCpl
  rw [h]

variable {c : CmapEntry} {t : State} (h : ((s.fwd.cmap.get p).find? fun c => c.tag == x.tag) = some c)
  (ht : t = if cplEnds x then updFwd s fun y => { y with cmap := y.cmap.upd p fun l => l.erase c } else s)
include h ht

/-- A completion of a request that the map holds, but of no older GEN of a scion. -/
theorem deviceCpl_of_known (hgen : ∀ g, c.scion = some g → scionGen t g.1 = g.2) : deviceCpl p x s = .next (mapComplete t p c x.tcl.toNat
    (cplSpec c.origTag x.status.toNat x.bc.toNat x.low.toNat x.cplId x.ro x.ido x.ns) x.ep x.data) := by
  subst ht
  unfold deviceCpl
  rw [h]
  refine if_neg ?_
  cases hs : c.scion with
  | none => simp
  | some g => simpa using hgen g hs

theorem deviceCpl_of_late {g : Nat × Nat} (hg : c.scion = some g) (hgen : scionGen t g.1 ≠ g.2) :
    deviceCpl p x s = .next (bump t (Reg.SCION_S_LATE_CPL g.1)) := by
  subst ht
  unfold deviceCpl
  rw [h]
  refine (if_pos (by simpa [hg] using hgen)).trans ?_
  rw [hg, Option.getD_some]

end DeviceCompletion

/-- Settles O43: the branches of the rows of tags and completions, of link-state frames, of discovery and of adjacencies. -/
theorem completionsAndRoutes : Obligations.CompletionsAndRoutes := by
  refine ⟨fun s p r id tag sw sp hr => ?_, fun s t p e id tag sw sp hr he ht => ?_, fun s p id tag sw sp hr he => ?_,
    fun s u p x hu hc => ?_, fun s u t p x c hu hc ht => ⟨fun hgen => ?_, fun g hg hgen => ?_⟩, fun s u t p og start seq adj e he hu ht => ?_,
    fun s => ⟨?_, fun a ha => ?_, fun h => ?_⟩, fun s p => ⟨fun d hd => ?_, fun h => ?_⟩⟩
  · change execNonpostedIssue p id tag sw sp s = _
    unfold execNonpostedIssue
    rw [hr]
    cases (s.fwd.tx.get p).find? fun e => decide (e.f.typ = 1) <;> rfl
  · subst ht
    change execNonpostedIssue p id tag sw sp s = _
    unfold execNonpostedIssue
    rw [hr, he]
    refine (if_neg (by simp)).trans ((ite_next _ _ _).trans (congrArg _ ?_))
    rw [← ite_not]
    refine if_congr ?_ rfl rfl
    simp only [Bool.or_eq_true, decide_eq_true_eq, not_or, not_not, ne_eq, Nat.not_le, and_assoc]
  · change execNonpostedIssue p id tag sw sp s = _
    unfold execNonpostedIssue
    rw [hr, he]
    rfl
  · subst hu
    exact deviceCpl_of_unknown hc
  · subst hu
    exact deviceCpl_of_known hc ht hgen
  · subst hu
    exact deviceCpl_of_late hc ht hg hgen
  · subst ht hu he
    change execLinkStateReceive p og start seq adj s = _
    unfold execLinkStateReceive
    dsimp only
    rw [ite_next, ← ite_not]
    refine congrArg _ (if_congr ?_ rfl rfl)
    simp only [Bool.or_eq_true, decide_eq_true_eq, not_or, ne_eq, Nat.not_le]
  · change execDiscoveryQuietExpiry s = _
    unfold execDiscoveryQuietExpiry
    cases rdB s Reg.FWD_STATUS 0 <;> simp [ite_next]
  · change execDiscoveryPartialExpiry s = _
    unfold execDiscoveryPartialExpiry
    rw [ha]
    cases rdB s Reg.FWD_STATUS 0 <;> cases allAdjacent s <;> simp
  · change execDiscoveryPartialExpiry s = _
    unfold execDiscoveryPartialExpiry
    rw [h]
  · change execAdjacencyDownExpiry p s = _
    unfold execAdjacencyDownExpiry
    rw [hd]
  · change execAdjacencyDownExpiry p s = _
    unfold execAdjacencyDownExpiry
    rw [h]

end Sys2Proof.Machine
end

section
/-! SUPPORT. Meters, shapers and the ledger (R244 to R267), hedge rules and peer windows (R415 to R442): the branches of their rows. -/

namespace Sys2Proof.Machine

open Sys2Proof

/-- Settles O44: the rows of the meters, the shapers and the ledger, and the branches of the request. -/
theorem metersShapersAndTheLedger : Obligations.MetersShapersAndTheLedger := by
  refine ⟨fun s t ht => ?_, fun s t q p tc rate size fill hs ht => ?_, fun s a b c ha hb hc => ?_, fun s r h a o hd df bl => rfl, fun s r => ?_,
    fun s => rfl⟩
  · subst ht
    rfl
  · subst ht
    refine (next_serve_of_served hs _ _ _).trans (congrArg _ ?_)
    simp only [Bool.or_eq_true, Bool.not_eq_true', decide_eq_true_eq, or_assoc]
  · subst hc hb ha
    rfl
  · change execAdmitHoldoffExpiry r s = _
    simp only [execAdmitHoldoffExpiry, Bool.and_eq_true, ite_next]

/-- Settles O45: the branches of the requests, on the state in which they have begun, and of the unit's rows. -/
theorem hedgeRulesAndWindows : Obligations.HedgeRulesAndWindows := by
  refine ⟨fun s t q u es hs ht => ?_, fun s u => ⟨fun r hr => ?_, fun h => ?_⟩, fun s t u => ⟨fun r hr hhold ht => ?_, fun h => ?_⟩, fun s u => ?_,
    fun s b t q w g v a l c hs hb ht => ?_, fun s b t q hs hb ht => ?_⟩
  · subst ht
    refine (next_serve_of_served hs _ _ _).trans (congrArg _ ?_)
    have henv : (es.all fun e => ruleEnv (beginReq s q) u e) = false ↔ ∃ e ∈ es, ruleEnv (beginReq s q) u e = false := by simp
    simp only [Bool.or_eq_true, Bool.not_eq_true', decide_eq_true_eq, henv]
  · change execHedgeInflightDrained u s = _
    unfold execHedgeInflightDrained
    rw [hr]
    simp only [Bool.and_eq_true, ite_next]
  · change execHedgeInflightDrained u s = _
    unfold execHedgeInflightDrained
    rw [h]
  · subst ht
    change execHedgeHoldExpiry u s = _
    unfold execHedgeHoldExpiry
    rw [hr]
    dsimp only
    rw [if_neg (by simp [hhold])]
    generalize timeTo s ((s.hedge.holdAt.get u).getD s.now + 3200) = t
    by_cases hn : attempt t u < 4
    · rw [if_neg (by simp; omega), if_neg (by omega), if_pos hn]
    · rw [if_neg hn]
      cases r.q.isSome
      · rw [if_neg (by simp), if_pos (by omega), if_neg (by decide)]
      · rw [if_pos (by simp; omega), if_pos rfl]
  · change execHedgeHoldExpiry u s = _
    unfold execHedgeHoldExpiry
    cases hr : unitReq s u with
    | none => rfl
    | some r => exact if_pos (by simp [h.resolve_left (by simp [hr])])
  · change execHedgeRetryExpiry u s = _
    unfold execHedgeRetryExpiry
    rw [ite_next, ← ite_not]
    refine congrArg _ (if_congr ?_ rfl rfl)
    simp only [Bool.or_eq_true, decide_eq_true_eq, not_or, Bool.not_eq_true, ne_eq, and_assoc]
  · subst ht hb
    refine (next_serve_of_served hs _ _ _).trans (congrArg _ ?_)
    simp only [Bool.or_eq_true, Bool.and_eq_true, Bool.not_eq_true', decide_eq_true_eq, decide_eq_false_iff_not, or_assoc, ne_eq]
  · subst ht hb
    refine (next_serve_of_served hs _ _ _).trans (congrArg _ ?_)
    dsimp only
    rw [← ite_not]
    refine if_congr ?_ rfl rfl
    simp

end Sys2Proof.Machine
end

section
/-! SUPPORT. The landing buffer, epochs, the cluster and its members, fences and buffer reads (R268 to R308): the branches of their rows. -/

namespace Sys2Proof.Machine

open Sys2Proof

/-! ### Writes at their home -/

/-- The frame that a port handed to the landing controller first. -/
theorem exec_vc1InputArrive_of_frame {s : State} {p wi par : Nat} {x : BitVec 268} {y : BitVec 20} {e : QEntry}
    (he : (s.fwd.toLand.find? fun e => e.inPort == p) = some e) : exec (.vc1InputArrive p x y wi par) s =
      .next (homeTakes p (readForLand { s with fwd := { s.fwd with toLand := s.fwd.toLand.erase e } } e x y wi par)) := by
  change execVc1InputArrive p x y wi par s = _
  unfold execVc1InputArrive
  rw [he]

/-- Settles O46: the branches of the rows by which a write reaches its home and lands. -/
theorem writesReachTheirHome : Obligations.WritesReachTheirHome := by
  refine ⟨fun s p h off len r be rel po d tc => rfl, fun s h req hi => ⟨fun hans => ?_, fun hans => ?_⟩,
    fun s t p wi par x y => ⟨fun e he ht => ⟨fun g u hread => ?_, fun u hread => ?_⟩, fun h => ?_⟩,
    fun s => ⟨fun w rest hphase hw => ?_, fun h => ?_⟩, fun s t u w x y ht hu => ?_, fun s t u v x r ht hu hr => ?_, fun s t c ht => ?_⟩
  · exact congrArg _ (if_pos hans)
  · exact congrArg _ (if_neg (by simp [hans]))
  · subst ht
    rw [exec_vc1InputArrive_of_frame he, hread]
    rfl
  · subst ht
    rw [exec_vc1InputArrive_of_frame he, hread]
    rfl
  · change execVc1InputArrive p x y wi par s = _
    unfold execVc1InputArrive
    rw [h]
  · change execWriteLanded s = _
    unfold execWriteLanded
    rw [hw, decide_eq_false hphase]
  · change execWriteLanded s = _
    unfold execWriteLanded
    obtain h | h := h
    · rw [decide_eq_true h]
    · rw [h]
      cases decide (s.start.phase = .retain) <;> rfl
  · change execPatrolRead w x y s = _
    unfold execPatrolRead
    dsimp only
    rw [← ht, ← hu, ite_next]
    simp only [decide_eq_true_eq]
  · subst hr hu ht
    exact ite_next _ _ _
  · subst ht
    rfl

/-! ### Epochs and the cluster -/

/-- A match on an optional number as its eliminator, for any result: the kernel then compares no large terms. -/
theorem matchNat_eq_elim {β : Type} (o : Option Nat) (d : β) (f : Nat → β) : (match o with | some n => f n | none => d) = o.elim d f := by
  cases o <;> rfl

/-- Settles O47: the branches of the rows of epochs, reports, seals and claims. -/
theorem epochsCloseAndSeal : Obligations.EpochsCloseAndSeal := by
  refine ⟨fun s => ite_next _ _ _, fun s p e c => ?_, fun s p => ⟨fun e he => ?_, fun h => ?_⟩, fun s e r sp k h n => rfl,
    fun s t ch sent landed lost e m b tm u ht => ?_, fun s t e ht => ?_, fun s => ite_next _ _ _,
    fun s a b c d e st tm u l ha hb hc hd => ?_, fun s t ht => ?_, fun s t w e tm ht => ⟨fun h => if_pos h, fun h hne => ?_, fun h hnil => ?_⟩⟩
  · refine congrArg (fun f => (.next (sealPump (pumpOpen (updLand s f))) : Res)) (funext fun l => ?_)
    refine congrArg (fun f => ({ l with adj := l.adj.upd (pairKey s p) f } : LandSt)) (funext fun a => ?_)
    exact congrArg (fun r => ({ a with rcv := some r } : AdjMark)) (matchNat_eq_elim a.rcv e.toNat fun m => epMax m e.toNat)
  · change execMarkerSend p s = _
    unfold execMarkerSend
    dsimp only
    rw [he]
    exact ite_next _ _ _
  · change execMarkerSend p s = _
    unfold execMarkerSend
    dsimp only
    rw [h]
  · subst ht
    exact ite_next _ _ _
  · subst ht
    exact ite_next _ _ _
  · change execClusterSealReceive e st tm u l s = _
    unfold execClusterSealReceive
    dsimp only
    rw [ite_next, ← ha, ← hb]
    simp only [Bool.or_eq_true, decide_eq_true_eq]
    rw [← hc, ← hd]
  · subst ht
    exact ite_next _ _ _
  · subst ht
    refine (if_neg (by omega)).trans ?_
    split
    · contradiction
    · rfl
  · subst ht
    refine (if_neg (by omega)).trans ?_
    rw [hnil]

/-! ### Members, fences and buffer reads -/

/-- Settles O48: the branches of the rows of members, of fences and of buffer reads. -/
theorem membersFencesAndBufferReads : Obligations.MembersFencesAndBufferReads := by
  refine ⟨fun s t m ht => ?_, fun s u t w e o k hu ht => ?_, fun s t ej se st tm ht => ?_, fun s se r h => rfl,
    fun s h i r w => ⟨fun hans => ⟨if_pos (by simp [hans]), if_pos (by simp [hans])⟩, fun hans => ⟨if_neg (by simp [hans]), if_neg (by simp [hans])⟩⟩,
    fun s t h => ⟨fun f rest hf ht => ?_, fun hnil => ?_⟩, fun s u h off len r tag b hu hb => ?_, fun s t h => ⟨fun r rest hr ht => ?_, fun hnil => ?_⟩⟩
  · subst ht
    exact ite_next _ _ _
  · subst ht hu
    exact ite_next _ _ _
  · subst ht
    refine (ite_next _ _ _).trans (congrArg _ ?_)
    simp only [Bool.or_eq_true, decide_eq_true_eq]
  · subst ht
    change execFenceTimeout h s = _
    unfold execFenceTimeout
    rw [hf]
  · change execFenceTimeout h s = _
    unfold execFenceTimeout
    rw [hnil]
  · change execBar2Read h r tag off len s = _
    unfold execBar2Read
    dsimp only
    rw [← hu]
    subst hb
    simp only [Bool.or_eq_true, Bool.and_eq_true, Bool.not_eq_true', decide_eq_true_eq, ite_next]
  · subst ht
    change execBar2ReadAbort h s = _
    unfold execBar2ReadAbort
    rw [hr]
  · change execBar2ReadAbort h s = _
    unfold execBar2ReadAbort
    rw [hnil]

end Sys2Proof.Machine
end

section
/-! SUPPORT. Remote memory (R370 to R414): queues, connections, areas and regions: the branches of their rows. -/

namespace Sys2Proof.Machine

open Sys2Proof

/-! ### Queues, connections and context areas -/

/-- Settles O49: the branches of the rows of a queue, and of the requests on the state in which they have begun. -/
theorem queuesConnectionsAndAreas : Obligations.QueuesConnectionsAndAreas := by
  refine ⟨fun s t h n v ht => ⟨?_, ?_, ite_next _ _ _⟩, fun s a b c d h n k m x hx hdue ha hb hc hd => ?_,
    fun s u t q pos l b pa hs hu ht => ?_, fun s u q pos hs hu => ⟨fun hnone => ?_, fun a ha => ?_⟩,
    fun s u q b l cq tc pa hu => ⟨fun hs => ?_, fun hs => ?_⟩, fun s u q n k hs hu hk => ⟨?_, ?_⟩,
    fun s u q pr hs hu => ⟨fun hnone => ?_, fun hcov hnone => ?_, fun i t hcov hi ht => ?_⟩,
    fun s u r q n sw pc hs hu hr => ?_, fun s u q n hs hu => ?_⟩
  · change execSqTailWrite h n v s = _
    unfold execSqTailWrite
    dsimp only
    rw [ite_next, ← ite_not]
    refine congrArg _ (if_congr ?_ rfl rfl)
    simp only [Bool.or_eq_true, decide_eq_true_eq, Bool.not_eq_true', not_or, Bool.not_eq_false, ne_eq]
  · subst ht
    change execCqHeadWrite h n v s = _
    unfold execCqHeadWrite
    dsimp only
    rw [ite_next, ← ite_not]
    refine congrArg _ (if_congr ?_ rfl rfl)
    simp only [Bool.or_eq_true, Bool.not_eq_true', not_or, Bool.not_eq_false]
  · change execCqeWrite h n s = _
    unfold execCqeWrite
    dsimp only
    rw [hdue]
    dsimp only
    rw [← hx, ite_next, ← ha, ← hb, ← hc, ← hd, ← ite_not]
    refine congrArg _ (if_congr ?_ rfl rfl)
    simp
  · subst ht hu
    refine (next_serve_of_served hs _ _ _).trans (congrArg _ ?_)
    simp only [Bool.or_eq_true, decide_eq_true_eq, or_assoc]
  · subst hu
    refine (next_serve_of_served hs _ _ _).trans (congrArg _ ?_)
    rw [hnone]
  · subst hu
    refine (next_serve_of_served hs _ _ _).trans (congrArg _ ?_)
    rw [ha]
  · subst hu
    refine (next_serve_of_served hs _ _ _).trans (congrArg _ ?_)
    simp only [Bool.or_eq_true, decide_eq_true_eq, Bool.not_eq_true', or_assoc]
    all_goals rfl
  · subst hu
    refine (next_serve_of_served hs _ _ _).trans (congrArg _ ?_)
    simp only [Bool.or_eq_true, decide_eq_true_eq, or_assoc]
    all_goals rfl
  · subst hk hu
    refine (next_serve_of_served hs _ _ _).trans (congrArg _ ?_)
    simp only [Bool.not_eq_true', if_true]
  · subst hk hu
    refine (next_serve_of_served hs _ _ _).trans (congrArg _ ?_)
    simp only [Bool.false_eq_true, if_false]
  · subst hu
    exact (next_serve_of_served hs _ _ _).trans (congrArg _ (if_pos hnone))
  · subst hu
    refine (next_serve_of_served hs _ _ _).trans (congrArg _ ((if_neg hcov).trans ?_))
    rw [hnone]
  · subst ht hu
    refine (next_serve_of_served hs _ _ _).trans (congrArg _ ((if_neg hcov).trans ?_))
    rw [hi]
    simp only [Bool.not_eq_true']
  · subst hr hu
    refine (next_serve_of_served hs _ _ _).trans (congrArg _ ?_)
    simp only [Bool.or_eq_true, Bool.and_eq_true, decide_eq_true_eq, Bool.not_eq_true']
  · subst hu
    refine (next_serve_of_served hs _ _ _).trans (congrArg _ ?_)
    simp only [Bool.or_eq_true, decide_eq_true_eq]

/-! ### Regions -/

/-- The form of a registration of the landing window, in the terms in which the request tests it. -/
theorem landForm {b l pe : Nat} (hb : b % 4096 = 0) (hl : l % 4096 = 0) (hpos : 0 < l) (hpe : pe = 1 ∨ pe = 2) :
    ¬ (!(decide (b % 4096 = 0) && decide (l % 4096 = 0) && decide (0 < l) && decide (4 = 4) && decide (pe = 1 ∨ pe = 2))) = true := by
  simp [hb, hl, hpos, hpe]

/-- Its quota and envelope, in the terms in which the request tests them. -/
theorem landEnv {s : State} {k b l : Nat} (hquota : b + l ≤ quota s k * 4096) (hcount : (hostRegions s k).length < (hostPol s k).maxRegions)
    (hbytes : (hostRegions s k).sum + l ≤ (hostPol s k).maxBytes) (hkinds : 4 &&& (hostPol s k).kinds = 4) :
    ¬ ((true && decide (quota s k * 4096 < b + l)) || decide ((hostPol s k).maxRegions ≤ (hostRegions s k).length) ||
      decide ((hostPol s k).maxBytes < (hostRegions s k).sum + l) || decide (4 &&& (hostPol s k).kinds ≠ 4)) = true := by
  simp [hkinds, Nat.not_lt.mpr hquota, Nat.not_le.mpr hcount, Nat.not_lt.mpr hbytes]

/-- A match on an optional request as its eliminator, for any result: the kernel then compares no large terms. -/
theorem matchReq_eq_elim {β : Type} (o : Option ReqSrc) (d : β) (f : ReqSrc → β) : (match o with | some q => f q | none => d) = o.elim d f := by
  cases o <;> rfl

/-- What REGION_OUTSTANDING_ZERO does, `v` being the state in which the region is free and its request answered. -/
def regionEnded (s : State) (i : Nat) (v : State) : Res :=
  if (s.rme.regions.get i).st = 2 && decide ((s.rme.regions.get i).outst = 0) then
    .next (if (s.rme.regions.get i).landing && decide ((s.rme.regions.get i).origin = swId v) then dropLandKey v (keyOf s i) else v)
  else .next s

/-- Settles O50: the branches of the two requests, on the state in which they have begun, and of the rows that end a region. -/
theorem regionsAreKeyedAndRevoked : Obligations.RegionsAreKeyedAndRevoked := by
  refine ⟨fun s u q b l pm pe pa sw r hs hu hr => ?_,
    fun s u q b l pe pa sw r hs hu hb hl hpos hpe hquota hcount hbytes hkinds hr => ⟨fun hhome => ?_, fun hhome => ?_⟩,
    fun s u q k hs hu hnone => ⟨fun i hi => ?_, fun hi => ?_⟩, fun s u t q k x hs hu hx ht => ?_, fun s t i ht => ?_,
    fun s k => ⟨fun x hx => ?_, fun h => ?_⟩, fun s h => ite_next _ _ _⟩
  · subst hr hu
    refine (next_serve_of_served hs _ _ _).trans (congrArg _ ?_)
    simp only [Bool.false_eq_true, if_false, Bool.false_and, Bool.false_or, Bool.not_eq_true', Bool.eq_false_iff, ne_eq, Bool.and_eq_true,
      Bool.or_eq_true, decide_eq_true_eq, and_assoc, or_assoc]
    all_goals rfl
  · subst hr hu
    refine (next_serve_of_served hs _ _ _).trans (congrArg _ ?_)
    exact (if_neg (landForm hb hl hpos hpe)).trans ((if_neg (landEnv hquota hcount hbytes hkinds)).trans ((if_pos rfl).trans (if_pos hhome)))
  · subst hr hu
    refine (next_serve_of_served hs _ _ _).trans (congrArg _ ?_)
    exact (if_neg (landForm hb hl hpos hpe)).trans ((if_neg (landEnv hquota hcount hbytes hkinds)).trans ((if_pos rfl).trans (if_neg hhome)))
  · subst hu
    refine (next_serve_of_served hs _ _ _).trans (congrArg _ ?_)
    rw [hnone]
    dsimp only
    rw [hi]
    simp only [Bool.and_eq_true, decide_eq_true_eq, Bool.not_eq_true']
  · subst hu
    refine (next_serve_of_served hs _ _ _).trans (congrArg _ ?_)
    rw [hnone]
    dsimp only
    rw [hi]
  · subst ht hu
    refine (next_serve_of_served hs _ _ _).trans (congrArg _ ?_)
    rw [hx]
    all_goals rfl
  · subst ht
    refine (congrArg (regionEnded s i) (matchReq_eq_elim (s.rme.regions.get i).q (freeRegion s i) fun q =>
      reply (freeRegion s i) q 0x050A 0 [])).trans ?_
    simp only [regionEnded, Bool.and_eq_true, decide_eq_true_eq, ite_next]
  · change execRegionQueryExpiry k s = _
    unfold execRegionQueryExpiry
    rw [hx]
  · change execRegionQueryExpiry k s = _
    unfold execRegionQueryExpiry
    rw [h]

end Sys2Proof.Machine
end

section
/-! SUPPORT. Remote memory (R370 to R414): packets and timers: the branches of their rows. -/

namespace Sys2Proof.Machine

open Sys2Proof

/-! ### Packets -/

/-- A READ response of a connection, `t` being the state in which its engine has counted it. -/
theorem exec_readRespReceive_of_conn {s t : State} {e : Nat} {k : RmePkt} (ht : t = engCount s e (Reg.RME_E_RX_PKTS e) 1 1)
    (hcl : k.cl = false) (he : connEng k.dstConn.toNat = e) : exec (.readRespReceive e k) s =
      let n := k.dstConn.toNat
      let c := ctxOf t n
      let d := psnDist k.psn.toNat c.rxCum
      .next (
        if !(c.cached && pinned t n) || decide (c.st ≠ 2 ∧ c.st ≠ 4) then engCount t e (Reg.RME_E_DUP_RX e) 5 1
        else if k.srcSw.toNat ≠ c.peerSw || decide (k.srcConn.toNat ≠ c.peerConn) then
          sendInvalid t k.srcSw.toNat k.srcConn.toNat k.psn.toNat
        else if d < 512 && !(bitN c.rxMap d) then noteRme (acceptPkt (carryResp t k).2 n k (carryResp t k).1)
        else if d < 512 || 2 ^ 23 ≤ d then dupPkt t n e
        else bump t (Reg.RME_E_WINDOW_DROP e)) := by
  change execReadRespReceive e k s = _
  unfold execReadRespReceive
  rw [if_neg (by simp [hcl, he]), ← ht]
  dsimp only
  rw [hcl, if_neg (by decide)]
  simp only [ite_next]

/-- Settles O51: the branches of the rows by which packets leave and come in. -/
theorem remoteMemoryPackets : Obligations.RemoteMemoryPackets := by
  refine ⟨fun s h n w => ite_next _ _ _, fun s e n => ⟨?_, fun hn => ?_⟩, fun s e k => ⟨?_, ?_⟩,
    fun s t e k ht => ⟨fun h => if_pos h, fun hcl he => ?_⟩, fun s t e n d k c ht hcl hn he hc hd => ?_, fun s t e k ht => ?_,
    fun s t u n mk cv cum er st bm sw es po ht hu => ⟨ite_next _ _ _, ?_, ite_next _ _ _⟩,
    fun s e sw id rc st rs => ⟨?_, fun hnone => ?_, fun m hm hst => ?_⟩, fun s u v e sw id rc rs m a hm ha hu hv => ?_⟩
  · change execRmePacketSend e noConn s = _
    rw [execRmePacketSend, if_pos rfl]
  · refine (if_neg hn).trans ?_
    rw [ite_next, ← ite_not]
    exact congrArg _ (if_congr not_not rfl rfl)
  · change execRmeWriteReceive e k s = _
    rw [execRmeWriteReceive, ite_next, ← ite_not]
    exact congrArg _ (if_congr not_not rfl rfl)
  · change execReadReqReceive e k s = _
    rw [execReadReqReceive, ite_next, ← ite_not]
    exact congrArg _ (if_congr not_not rfl rfl)
  · subst ht
    exact (if_neg (by rw [hcl, if_pos rfl]; simpa using he)).trans (if_pos hcl)
  · subst hd hc hn
    rw [exec_readRespReceive_of_conn ht hcl he]
    refine congrArg _ ?_
    simp only [Bool.or_eq_true, Bool.and_eq_true, Bool.not_eq_true', Bool.and_eq_false_iff, decide_eq_true_eq, or_assoc]
  · subst ht
    change execCtrlReceive e k s = _
    unfold execCtrlReceive
    simp only [ite_next]
  · subst hu ht
    exact ite_next _ _ _
  · change execClAckReceive e sw id rc st rs true s = _
    rw [execClAckReceive, if_pos rfl]
  · change execClAckReceive e sw id rc st rs false s = _
    unfold execClAckReceive
    rw [if_neg (by decide), hnone]
  · change execClAckReceive e sw id rc st rs false s = _
    unfold execClAckReceive
    rw [if_neg (by decide), hm]
    dsimp only
    by_cases h : st = 0x11
    · rw [if_pos h, if_pos h]
    · rw [if_neg h, if_pos hst, if_neg h]
  · change execClAckReceive e sw id rc 0 rs false s = _
    unfold execClAckReceive
    rw [if_neg (by decide), hm]
    dsimp only
    rw [if_neg (by decide), if_neg (by decide), ← ha, ← hu, ← hv]
    simp only [Bool.and_eq_true, decide_eq_true_eq, ite_next, and_assoc]
    refine congrArg _ (if_congr Iff.rfl rfl (if_congr Iff.rfl rfl (if_congr Iff.rfl ?_ rfl)))
    exact matchReq_eq_elim m.q v fun q => grantLandKey v q rs.toNat m.dst m.region

/-! ### Timers -/

/-- Settles O52: the branches of the rows of the timers. -/
theorem remoteMemoryTimers : Obligations.RemoteMemoryTimers := by
  refine ⟨fun s n => ite_next _ _ _, fun s u t n d p hd hu ht => ?_, fun s t n => ⟨fun h => ?_, fun f rest hf ht => ?_⟩,
    fun s t n ht => ?_, fun s sw n => rfl, fun s t e b id => ⟨fun h => ?_, fun m hm hb ht => ?_⟩,
    fun s e k => ⟨fun x hx => ⟨?_, ?_⟩, fun h => ⟨?_, ?_⟩⟩, fun s n ws ok ep => ⟨rfl, rfl⟩⟩
  · subst ht hu hd
    exact ite_next _ _ _
  · change execRtoExpiry n s = _
    unfold execRtoExpiry
    dsimp only
    rw [h]
  · change execRtoExpiry n s = _
    unfold execRtoExpiry
    dsimp only
    rw [hf]
    dsimp only
    rw [← ht]
    exact ite_next _ _ _
  · subst ht
    exact ite_next _ _ _
  · change execClResendExpiry e id s = _
    unfold execClResendExpiry
    rw [h]
  · change execClResendExpiry e id s = _
    unfold execClResendExpiry
    rw [hm]
    dsimp only
    rw [hb, Option.getD_some, ← ht]
    exact ite_next _ _ _
  · change execClAckDelayExpiry e k s = _
    unfold execClAckDelayExpiry
    rw [hx]
    exact ite_next _ _ _
  · change execClEntryExpiry e k s = _
    unfold execClEntryExpiry
    rw [hx]
  · change execClAckDelayExpiry e k s = _
    unfold execClAckDelayExpiry
    rw [h]
  · change execClEntryExpiry e k s = _
    unfold execClEntryExpiry
    rw [h]

end Sys2Proof.Machine
end

section
/-! SUPPORT. Power fail (R311 to R337): braces, cuts and the flush: the branches of their rows. -/

namespace Sys2Proof.Machine

open Sys2Proof

/-! ### A message of a brace, by its TERM -/

theorem takeMsg_of_present {s : State} {m : BraceMsg} (h : m.term = s.land.term) : takeMsg s m = useMsg s m := by
  rw [takeMsg, if_neg (by omega), if_neg (by omega)]

theorem takeMsg_of_older {s : State} {m : BraceMsg} (h : m.term < s.land.term) : takeMsg s m = s := if_pos h

theorem takeMsg_of_newer {s : State} {m : BraceMsg} (h : s.land.term < m.term) : takeMsg s m =
    updPf (updLand s fun l => { l with highTerm := max l.highTerm m.term }) fun x => { x with early := x.early ++ [m] } := by
  rw [takeMsg, if_neg (by omega), if_pos h]

/-! ### Braces -/

theorem exec_braceQualified_of_idle {s : State}
    (h : s.pfail.dipAt = none ∨ s.pfail.commit.isSome = true ∨ rdB s Reg.PFAIL_STATUS 3 = true) : exec .braceQualified s = .next s := by
  change execBraceQualified s = _
  unfold execBraceQualified
  cases hd : s.pfail.dipAt with
  | none => rfl
  | some b =>
    have hc : s.pfail.commit.isSome = true ∨ rdB s Reg.PFAIL_STATUS 3 = true := by simpa [hd] using h
    dsimp only
    rw [if_pos (by simpa using hc)]

theorem exec_standDownQualified_of_idle {s : State}
    (h : riseFrom s = none ∨ rdB s Reg.PFAIL_STATUS 3 = false ∨ s.pfail.commit.isSome = true ∨ s.pwr.p3Brace = 2) :
    exec .standDownQualified s = .next s := by
  change execStandDownQualified s = _
  unfold execStandDownQualified
  cases hr : riseFrom s with
  | none => rfl
  | some b =>
    have hc : rdB s Reg.PFAIL_STATUS 3 = false ∨ s.pfail.commit.isSome = true ∨ s.pwr.p3Brace = 2 := by simpa [hr] using h
    dsimp only
    rw [if_pos (by simpa [or_assoc] using hc)]

/-- Settles O53: the branches of the rows of a brace, of its cut and of its end. -/
theorem bracesCutsAndCommits : Obligations.BracesCutsAndCommits := by
  refine ⟨fun s t mv ht => ?_, fun s t => ⟨exec_braceQualified_of_idle, fun b hb hc hq ht => ?_⟩, fun s t u mv ht hu => ?_,
    fun s u t => ⟨exec_standDownQualified_of_idle, fun b hb hq hc hp hu ht => ?_⟩,
    fun s t ht => ⟨fun c hc => ?_, fun hc => ?_, fun b hb => ?_, fun hb => ?_⟩,
    fun s w id tm f e ch b x htm hx => ?_, fun s w id tm f d e ch b htm => ?_, fun s w id tm f e htm => ?_, fun s => ?_,
    fun s t => ⟨fun b hb ht => ⟨?_, ?_⟩, fun hb => ⟨?_, ?_⟩⟩, fun s w id => ite_next _ _ _⟩
  · subst ht
    exact ite_next _ _ _
  · change execBraceQualified s = _
    unfold execBraceQualified
    rw [hb]
    dsimp only
    rw [if_neg (by simp [hc, hq]), ← ht]
    simp only [ite_next]
  · change execInputRise mv s = _
    unfold execInputRise
    dsimp only
    rw [← ht, ← hu]
    simp only [ite_next]
  · change execStandDownQualified s = _
    unfold execStandDownQualified
    rw [hb]
    dsimp only
    rw [if_neg (by simp [hc, hq, hp]), ← hu, ← ht]
    simp only [ite_next]
  · change execSwitchoverLevel s = _
    unfold execSwitchoverLevel
    dsimp only
    rw [← ht, hc]
    exact ite_next _ _ _
  · change execSwitchoverLevel s = _
    unfold execSwitchoverLevel
    dsimp only
    rw [← ht, hc]
    simp only [ite_next, Bool.or_eq_true, decide_eq_true_eq]
  · change execBraceLimitExpiry s = _
    unfold execBraceLimitExpiry
    rw [hb]
    exact ite_next _ _ _
  · change execBraceLimitExpiry s = _
    unfold execBraceLimitExpiry
    rw [hb]
  · subst hx
    exact ⟨fun d => congrArg _ (takeMsg_of_present htm), congrArg _ (takeMsg_of_present htm), congrArg _ (takeMsg_of_present htm),
      congrArg _ (takeMsg_of_present htm), congrArg _ (takeMsg_of_present htm)⟩
  · exact ⟨congrArg _ (takeMsg_of_older htm), congrArg _ (takeMsg_of_older htm), congrArg _ (takeMsg_of_older htm),
      congrArg _ (takeMsg_of_older htm), congrArg _ (takeMsg_of_older htm)⟩
  · exact congrArg _ (takeMsg_of_newer htm)
  · change execPendDrained s = _
    rw [execPendDrained, ite_next, ← ite_not]
    refine congrArg _ (if_congr ?_ rfl rfl)
    simp [← Option.isSome_iff_ne_none, and_assoc]
  · change execCutDeadlineExpiry s = _
    unfold execCutDeadlineExpiry
    rw [hb]
    dsimp only
    rw [← ht]
    exact ite_next _ _ _
  · change execLocalCutExpiry s = _
    unfold execLocalCutExpiry
    rw [hb]
    dsimp only
    rw [← ht]
    exact ite_next _ _ _
  · change execCutDeadlineExpiry s = _
    unfold execCutDeadlineExpiry
    rw [hb]
  · change execLocalCutExpiry s = _
    unfold execLocalCutExpiry
    rw [hb]

/-! ### The flush -/

/-- Settles O54: the branches of the rows of a flush target and of the image reads. -/
theorem flushTargetsAndImages : Obligations.FlushTargetsAndImages := by
  refine ⟨fun s u t i => ⟨fun c hc hu => ?_, fun hc ok => ?_⟩, fun s u t i c hc hu => ?_, fun s t => ⟨rfl, ?_⟩,
    fun s => ⟨fun b hb => ?_, fun hb => ?_⟩, fun s => ite_next _ _ _, fun s u w v t hu ht hw => ?_,
    fun s u ok ws => ⟨fun x hx hu => ?_, fun c hr hc => ?_, fun hr hc => ?_⟩, fun s u q t l n a pa hs hu => ?_⟩
  · change execFlushCommandComplete t i true s = _
    unfold execFlushCommandComplete
    dsimp only
    rw [hc]
    dsimp only
    rw [if_pos rfl, ← hu]
  · change execFlushCommandComplete t i ok s = _
    unfold execFlushCommandComplete
    dsimp only
    rw [hc]
  · change execFlushCommandComplete t i false s = _
    unfold execFlushCommandComplete
    dsimp only
    rw [hc]
    dsimp only
    rw [if_neg (by decide), ← hu]
    simp only [ite_next, Bool.and_eq_true, Bool.not_eq_true', decide_eq_true_eq]
  · change execFlushTargetLinkDown t s = _
    unfold execFlushTargetLinkDown
    simp only [ite_next]
  · change execInputGoodHoldExpiry s = _
    unfold execInputGoodHoldExpiry
    rw [hb]
    exact ite_next _ _ _
  · change execInputGoodHoldExpiry s = _
    unfold execInputGoodHoldExpiry
    rw [hb]
  · change execPfailReadGo v s = _
    unfold execPfailReadGo
    dsimp only
    rw [← hu, ← ht, ← hw]
    simp only [ite_next, Bool.or_eq_true, Bool.not_eq_true', decide_eq_true_eq]
  · change execPfailReadDone ok ws s = _
    unfold execPfailReadDone
    rw [hx]
    dsimp only
    rw [← hu]
    exact ite_next _ _ _
  · change execPfailReadDone ok ws s = _
    unfold execPfailReadDone
    rw [hr, hc]
  · change execPfailReadDone ok ws s = _
    unfold execPfailReadDone
    rw [hr, hc]
  · refine (next_serve_of_served hs _ _ _).trans (congrArg _ ?_)
    rw [← hu]
    simp only [Bool.or_eq_true, decide_eq_true_eq, or_assoc]

end Sys2Proof.Machine
end

section
/-! SUPPORT. Slots and the hold-up bank (R338 to R369): the branches of their rows. -/

namespace Sys2Proof.Machine

open Sys2Proof

/-! ### Slots: seating and turning on -/

/-- Settles O55: the branches of the rows by which a slot is seated, turned on and off. -/
theorem slotsSeatAndTurnOn : Obligations.SlotsSeatAndTurnOn := by
  refine ⟨fun s t c ht => ?_, fun s t c ht => ?_, fun s u t c hu ht => ?_, fun s c => ⟨ite_next _ _ _, ite_next _ _ _⟩,
    fun s c => ⟨ite_next _ _ _, ite_next _ _ _, ite_next _ _ _⟩, fun s t c ht => ?_, fun s c => ite_next _ _ _,
    fun s c => ite_next _ _ _, fun s u q c on hs hu => ?_⟩
  · change execPrsntAssert c s = _
    unfold execPrsntAssert
    dsimp only
    rw [← ht]
    exact ite_next _ _ _
  · change execPrsntDeassert c s = _
    unfold execPrsntDeassert
    dsimp only
    rw [← ht]
    exact ite_next _ _ _
  · change execSeatingComplete c s = _
    unfold execSeatingComplete
    dsimp only
    rw [← hu, ← ht]
    simp only [ite_next]
  · change execPgWindowComplete c s = _
    unfold execPgWindowComplete
    dsimp only
    rw [← ht]
    simp only [ite_next, Bool.or_eq_true, decide_eq_true_eq]
    refine congrArg _ (if_congr Iff.rfl rfl ?_)
    rw [← ite_not]
    exact if_congr (Bool.eq_false_iff.symm) rfl rfl
  · refine (next_serve_of_served hs _ _ _).trans (congrArg _ ?_)
    rw [← hu]
    simp only [Bool.not_eq_true', Bool.and_eq_true, Bool.or_eq_true, decide_eq_true_eq]

/-! ### Slots: limits and trips -/

/-- Settles O56: the branches of the rows of a slot's limit, its trips and the clocks of the rootstock die. -/
theorem slotsLimitTripAndClear : Obligations.SlotsLimitTripAndClear := by
  refine ⟨fun s c => ite_next _ _ _, fun s c us n hn => ?_, fun s c => ⟨ite_next _ _ _, ite_next _ _ _⟩, fun s c => ?_,
    fun s t u c ma mv h ht hh hu => ?_, fun s c => ?_, fun s t c ht => ⟨?_, fun b hb => ?_, fun hb => ?_⟩,
    fun s c b => ⟨?_, ite_next _ _ _⟩, fun s d => ⟨rfl, rfl, rfl⟩⟩
  · change execLimitExit c us s = _
    unfold execLimitExit
    dsimp only
    rw [← hn, ← ite_not]
    simp only [ite_next, Bool.not_eq_true, Bool.and_eq_true, decide_eq_true_eq]
  · change execFastComparatorTrip c s = _
    unfold execFastComparatorTrip
    simp only [ite_next]
  · change execMonitorAdcReading c ma mv s = _
    unfold execMonitorAdcReading
    dsimp only
    rw [← ht, ← hh, ← hu]
    exact ite_next _ _ _
  · change execCooldownExpiry c s = _
    rw [execCooldownExpiry, ite_next, ← ite_not]
    exact congrArg _ (if_congr (by simp) rfl rfl)
  · change execAttentionButtonPress c s = _
    unfold execAttentionButtonPress
    dsimp only
    rw [← ht]
    simp only [ite_next, Bool.and_eq_true, decide_eq_true_eq, and_assoc]
  · change execPrsntAbsentExpiry c s = _
    unfold execPrsntAbsentExpiry
    rw [hb]
    exact ite_next _ _ _
  · change execPrsntAbsentExpiry c s = _
    unfold execPrsntAbsentExpiry
    rw [hb]
  · change execOffStateDrainExpiry c b s = _
    unfold execOffStateDrainExpiry
    simp only [ite_next]

/-! ### The bank -/

/-- Settles O57: the branches of the rows of the bank's readings, its protections and their clearing. -/
theorem bankReadingsAndProtections : Obligations.BankReadingsAndProtections := by
  refine ⟨fun s w u t a b va vb hw hu ht => ?_, fun s t u mv cells mean hc hm ht hu => ?_, fun s t u w a b ht hu hw => ?_,
    fun s => ite_next _ _ _, fun s t i ht => ⟨?_, ite_next _ _ _⟩, fun s => ⟨ite_next _ _ _, ite_next _ _ _, ite_next _ _ _⟩,
    fun s c => ?_, fun s u q hs hu => ?_⟩
  · subst hw hu ht
    rfl
  · change execCellReading mv s = _
    unfold execCellReading
    dsimp only
    rw [← hc, ← hm, ← ht, ← hu, ite_next]
    refine congrArg _ (if_congr Iff.rfl ?_ rfl)
    rw [← ite_not]
    exact if_congr (by simp) rfl rfl
  · subst ht hu hw
    exact ite_next _ _ _
  · subst ht
    exact ite_next _ _ _
  · change execProtectionAutoClear c s = _
    unfold execProtectionAutoClear
    simp only [ite_next, Bool.and_eq_true, decide_eq_true_eq]
  · refine (next_serve_of_served hs _ _ _).trans (congrArg _ ?_)
    rw [← hu]

end Sys2Proof.Machine
end

section
/-! SUPPORT. The bridge (R443 to R462): the branches of its rows. -/

namespace Sys2Proof.Machine

open Sys2Proof

/-- Settles O58: the branches of the rows of bridged requests, their responses and the far lock. -/
theorem bridgedRequestsAndResponses : Obligations.BridgedRequestsAndResponses := by
  refine ⟨fun s u r x hu hx => ?_, fun s w r => ite_next _ _ _, fun s w r => ⟨?_, ?_⟩, fun s p => ⟨fun hn => ?_, fun e he => ?_⟩,
    fun s a b c r => ⟨fun hn => ?_, fun t ht ha hb hc => ?_⟩,
    fun s n => ⟨fun t ht => ?_, fun hn => ?_, fun t ht => ?_, fun hn => ?_, fun h hh => ?_, fun hn => ?_⟩,
    fun s r p ps hp hps => ?_, fun s t => ⟨ite_next _ _ _, fun hl => if_pos hl, fun hl ht => ?_, ?_⟩⟩
  · change execBridgeRequest r s = _
    unfold execBridgeRequest
    dsimp only
    rw [← hu]
    subst hx
    simp only [ite_next, Bool.or_eq_true, Bool.and_eq_true, Bool.not_eq_true', decide_eq_true_eq, and_assoc]
  · change execMemRdLkReceive w r s = _
    unfold execMemRdLkReceive
    dsimp only
    rw [ite_next]
    refine congrArg _ (if_congr Iff.rfl rfl (congrArg _ (funext fun z => ?_)))
    by_cases h0 : lockState z = 0
    · rw [if_pos h0, if_pos (Or.inl h0)]
    · simp only [h0, false_or, if_false, Bool.and_eq_true, decide_eq_true_eq, and_assoc]
  · change execUnlockReceive w r s = _
    unfold execUnlockReceive
    dsimp only
    simp only [ite_next, Bool.and_eq_true, decide_eq_true_eq, and_assoc]
  · change execBridgeFarIssue p s = _
    unfold execBridgeFarIssue
    rw [hn]
  · change execBridgeFarIssue p s = _
    unfold execBridgeFarIssue
    rw [he]
    dsimp only
    cases hd : farDead s e.1 p with
    | none => rfl
    | some st => rfl
  · change execBridgeResponseReceive r s = _
    unfold execBridgeResponseReceive
    rw [hn]
  · change execBridgeResponseReceive r s = _
    unfold execBridgeResponseReceive
    rw [ht]
    dsimp only
    simp only [Bool.or_eq_true, Bool.and_eq_true, Bool.not_eq_true', decide_eq_true_eq, decide_eq_false_iff_not]
    rw [← ha, ← hb, ← hc]
    exact ite_next _ _ _
  · change execBridgeTimeout n s = _
    unfold execBridgeTimeout
    rw [ht]
  · change execBridgeTimeout n s = _
    unfold execBridgeTimeout
    rw [hn]
  · change execBridgeBusyRetryExpiry n s = _
    unfold execBridgeBusyRetryExpiry
    rw [ht]
  · change execBridgeBusyRetryExpiry n s = _
    unfold execBridgeBusyRetryExpiry
    rw [hn]
  · change execBridgeResponseStall n s = _
    unfold execBridgeResponseStall
    rw [hh]
  · change execBridgeResponseStall n s = _
    unfold execBridgeResponseStall
    rw [hn]
  · change execLegacyMrdlk r s = _
    unfold execLegacyMrdlk
    dsimp only
    rw [← hp, ← hps]
    simp only [ite_next, Bool.or_eq_true, Bool.and_eq_true, Bool.not_eq_true', decide_eq_false_iff_not, ne_eq]
  · change execLockBackoffExpiry s = _
    unfold execLockBackoffExpiry
    dsimp only
    rw [if_neg (not_not.mpr hl), ← ht]
    cases hf : s.brg.txns.find? fun t => t.again && decide (t.req.op = .memRdLk) with
    | some x => rfl
    | none =>
      cases s.brg.lockReq with
      | nil => rfl
      | cons r rest => rfl
  · change execLockIdleExpiry s = _
    unfold execLockIdleExpiry
    rw [ite_next, apply_ite lockForce, ite_next]

end Sys2Proof.Machine
end

section
/-! SUPPORT. Scions (R463 to R487): the branches of their rows. -/

namespace Sys2Proof.Machine

open Sys2Proof

/-! ### Requests about scions -/

/-- A dirty-log request about scion `sc` (R543), `stop` for DIRTY_STOP. -/
theorem dirtyAsk_eq (u : State) (q : ReqSrc) (sc code : Nat) (stop : Bool) :
    dirtyAsk u q sc code stop = if scionMine u q sc false = false then notFound u q code 2 sc
      else if (scionRec u sc).dirty.isNone then reply u q code 0x07 []
      else scionGo (dirtySyncGo (updDirty u sc fun l => { l with syncs := l.syncs ++ [(q, stop)] }) sc) := by
  rw [dirtyAsk]
  simp only [Bool.not_eq_true']

/-! ### Scions made, reset and removed -/

/-- Settles O59: the branches of the rows that make, reset, shape and remove scions. -/
theorem scionsMadeResetAndRemoved : Obligations.ScionsMadeResetAndRemoved := by
  refine ⟨fun s u q d v db vec qu ce rate size ev hs hu => ?_, fun s u q sc hu => ⟨fun hs => ?_, fun hs => ?_⟩,
    fun s u q sc rate size fill hs hu => ?_, fun s t sc ht => ?_,
    fun s a u sc tag => ⟨fun b hb ha hu => ?_, fun hn => ?_, fun t ht => ?_, fun hn => ?_⟩,
    fun s u t p => ⟨fun d hd hu ht => ?_, fun hn => ?_⟩, fun s a w v p ok => ⟨fun d hd ha hw hv => ?_, fun hn => ?_⟩,
    fun s t ht => ?_⟩
  · refine (next_serve_of_served hs _ _ _).trans (congrArg _ ?_)
    rw [← hu]
    generalize freeScion u = f1, freeInst u d = f2, lowestRun (dbRuns u d) db (devPol u d).db = f3,
      lowestRun (vecRuns u d) vec (devPol u d).vec = f4, lowestRun (qRuns u d) qu (devPol u d).queues = f5
    refine if_congr (by simp) rfl (if_congr (by simp) rfl (if_congr (by simp) rfl (if_congr (by simp) rfl (if_congr (by simp) rfl ?_))))
    rfl
  · refine (next_serve_of_served hs _ _ _).trans (congrArg _ ?_)
    rw [← hu]
    simp only [Bool.not_eq_true']
  · refine (next_serve_of_served hs _ _ _).trans (congrArg _ ?_)
    rw [← hu]
    simp only [Bool.not_eq_true']
  · refine (next_serve_of_served hs _ _ _).trans (congrArg _ ?_)
    rw [← hu]
    simp only [Bool.not_eq_true', Bool.or_eq_true, decide_eq_true_eq]
  · change execScionQuiesced sc s = _
    unfold execScionQuiesced
    dsimp only
    rw [← ht]
    simp only [ite_next]
  · change execScionQuiesceTimeout sc s = _
    unfold execScionQuiesceTimeout
    rw [hb]
    dsimp only
    rw [← ha, ← hu]
  · change execScionQuiesceTimeout sc s = _
    unfold execScionQuiesceTimeout
    rw [hn]
  · change execScionTagHoldExpiry sc tag s = _
    unfold execScionTagHoldExpiry
    rw [ht]
  · change execScionTagHoldExpiry sc tag s = _
    unfold execScionTagHoldExpiry
    rw [hn]
  · refine congrArg Host.Outcome.next ?_
    rw [sharedTrigger, hd]
    dsimp only
    rw [← hu, ← ht]
  · refine congrArg Host.Outcome.next ?_
    rw [sharedTrigger, hn]
  · change execSharedPortRetrainExpiry p ok s = _
    unfold execSharedPortRetrainExpiry
    rw [hd]
    dsimp only
    rw [← ha, ← hw, ← hv]
    simp only [ite_next, Bool.not_eq_true']
  · change execSharedPortRetrainExpiry p ok s = _
    unfold execSharedPortRetrainExpiry
    rw [hn]
  · subst ht
    rfl

/-! ### The traffic of scions and their dirty logs -/

/-- Settles O60: the branches of the rows of a scion's traffic and of its dirty log. -/
theorem scionTrafficAndDirtyLogs : Obligations.ScionTrafficAndDirtyLogs := by
  refine ⟨fun s sc off t => ⟨fun h => ?_, fun hl hc => ⟨fun h => ?_, fun h1 hm hd h2 h3 => ?_⟩⟩,
    fun s sc off t u hl hc h1 hm hd h2 hu => ?_, fun s u p t hu => ?_,
    fun s p v d owns ho => ⟨fun hn => ?_, fun hd hn => ?_, fun sc hd hf => ?_⟩, fun s sc => ite_next _ _ _,
    fun s u q sc n base a b pasid hs hu => ?_, fun s u q sc hu => ⟨fun hs => ?_, fun hs => ?_⟩,
    fun s sc i data => ⟨fun hn => ?_, fun l hl hn => ?_, fun l w hl hf => ?_⟩⟩
  · exact if_pos (by simpa using h)
  · exact (if_neg (by simp [hl, hc])).trans (if_pos (by simpa [or_assoc] using h))
  · exact (if_neg (by simp [hl, hc])).trans ((if_neg (by simp [h1, hm, hd]; omega)).trans (if_pos h2))
  · change execScionHostRequest sc off t s = _
    unfold execScionHostRequest
    dsimp only
    rw [if_neg (by simp [hl, hc]), if_neg (by simp [h1, hm, hd]; omega), if_neg (by omega)]
    subst hu
    simp only [ite_next, Bool.or_eq_true, decide_eq_true_eq]
  · change execScionDeviceRequest p t s = _
    unfold execScionDeviceRequest
    dsimp only
    rw [← hu]
    simp only [ite_next, Bool.or_eq_true, decide_eq_true_eq]
  · change execScionDeviceMsix p v s = _
    unfold execScionDeviceMsix
    rw [hn]
  · change execScionDeviceMsix p v s = _
    unfold execScionDeviceMsix
    rw [hd]
    dsimp only
    rw [← ho, hn]
  · change execScionDeviceMsix p v s = _
    unfold execScionDeviceMsix
    rw [hd]
    dsimp only
    rw [← ho, hf]
  · refine (next_serve_of_served hs _ _ _).trans (congrArg _ ?_)
    rw [← hu]
    simp only [Bool.not_eq_true', Bool.or_eq_true, decide_eq_true_eq, or_assoc]
  · refine (next_serve_of_served hs _ _ _).trans (congrArg _ ?_)
    rw [← hu]
    exact dirtyAsk_eq u q sc 0x0606 true
  · refine (next_serve_of_served hs _ _ _).trans (congrArg _ ?_)
    rw [← hu]
    exact dirtyAsk_eq u q sc 0x0607 false
  · change execDirtyWordFill sc i data s = _
    unfold execDirtyWordFill
    rw [hn]
  · change execDirtyWordFill sc i data s = _
    unfold execDirtyWordFill
    rw [hl]
    dsimp only
    rw [hn]
  · change execDirtyWordFill sc i data s = _
    unfold execDirtyWordFill
    rw [hl]
    dsimp only
    rw [hf]

end Sys2Proof.Machine
end
